-- ==== Sys2Proof/Word.lean ====
section
/-! DEFINITION. The byte, the tables a state is made of, and the plain records that commands carry. -/

namespace Sys2Proof

/-- One byte. -/
abbrev Byte := BitVec 8

/-- A table keyed by number: pairs in strictly rising key order, one per key that has a value of its own (log 88, DESIGN CHOICE). -/
abbrev Tab (α : Type) := List (Nat × α)

/-- A work queue entry (R79), raw. -/
abbrev Wqe := BitVec 512

/-- What one invocation of a user kernel does: the output and the state span it leaves, the cycles it takes, and whether it faults
(R262, R263). -/
structure KernelRun where
  out : List Byte
  state : List Byte
  cycles : Nat
  fault : Bool
  deriving DecidableEq, Repr, Inhabited

/-- How a doorbell write reached the doorbell aperture (R87, R366, R405). -/
inductive Via where
  /-- through the host function of a partition -/
  | host (part : Nat)
  /-- from an accelerator port, in the slice its PASID prefix names (0 without a prefix) -/
  | accel (port pasid : Nat)
  /-- from hub firmware -/
  | hub
  deriving DecidableEq, Repr

/-- A packet of the transport as it reaches or leaves a die: the 40-byte header (R280), the payload and the trailer (R285). -/
structure Packet where
  hdr : BitVec 320
  payload : List Byte
  crc : BitVec 32
  /-- the route word of a generation-1 header (R303), 0 otherwise -/
  route : BitVec 64 := 0
  deriving DecidableEq, Repr

/-- A fabric frame as a port takes it (R276, R302). -/
structure Frame where
  pkt : Packet
  /-- EtherType of bytes 12 and 13 -/
  etherType : Nat
  /-- an IEEE 802.1Q tag is present -/
  tagged : Bool
  /-- the FCS checked -/
  fcsOk : Bool
  /-- frame size in bytes, FCS included -/
  size : Nat
  /-- its connection sprays FULL, and it is of a management connection: the header carries neither (log 13, DESIGN CHOICE) -/
  full : Bool := false
  mgmt : Bool := false
  deriving DecidableEq, Repr

/-- The bytes of a frame as they reach a port; whether its connection sprays FULL, and is a management connection, they do not say (R276,
R277; log 13, DESIGN CHOICE). -/
structure FrameBytes where
  data : List Byte
  full : Bool := false
  mgmt : Bool := false
  deriving DecidableEq, Repr

/-- An entry of a work queue's ring, under its count (R92). -/
structure RingEntry where
  count : Nat
  wqe : Wqe
  deriving DecidableEq, Repr

/-- An invocation of a kernel that a step started, with the bytes it reads from memories outside: of its input, its parameter block and its
state (R257, R262). -/
structure Invocation where
  idx : Nat
  input : List Byte := []
  params : List Byte := []
  state : List Byte := []
  deriving DecidableEq, Repr

/-- An error of a memory array: corrected, or not to be corrected, met by the operation of this device that is named (R537). -/
inductive SramError where
  | corrected
  | uncorrectable (wqIdx : Option (Nat × Nat))
  deriving DecidableEq, Repr

/-- What a CONNECT_REQ carries (R117 to R121, R401). -/
structure SetupReq where
  fromEp : Nat
  fromHandle : Nat
  toEp : Nat
  /-- 0: a fresh CONNECT; otherwise the target handle a REESTABLISH names -/
  target : Option Nat
  epoch : Nat
  domain : Nat
  pasid : Nat
  /-- partition of the initiator, used on its own device (R401) -/
  part : Nat
  spray : Nat
  /-- a management connection between endpoints 9 (R437) -/
  mgmt : Bool
  /-- initial PSN of the initiator's send half (R119) -/
  psn : Nat
  /-- a group or schedule connection: group, schedule slot + 1 or 0, ranks of initiator and target (R206, R214) -/
  coll : Option (Nat × Nat × Nat × Nat) := none
  deriving DecidableEq, Repr

/-- One member's join: its window, slice and arrival counter (R194), and one row of the member table (R193). -/
structure Join where
  ep : Nat
  pasid : Nat
  key : Nat
  /-- 0xFFFF_FFFF for none -/
  ctr : Nat
  base : Nat
  len : Nat
  /-- partition of the member (R194) -/
  part : Nat := 0
  deriving DecidableEq, Repr

/-- The signature a READY carries (R203). -/
structure Signature where
  kind : Nat
  param : Nat
  accOp : Nat
  accFmt : Nat
  exact : Bool
  len : Nat
  outOff : Nat
  permCheck : Nat
  cfgCheck : Nat
  deriving DecidableEq, Repr

/-- One flit as an Edrad receiver sees it after the RS decoder (R341, R342, R345). -/
structure Flit where
  hdr : BitVec 64
  payload : List Byte
  crc : BitVec 64
  /-- codewords (0 to 2) the RS code corrected -/
  corrected : Nat
  /-- codewords (0 to 2) the RS code could not correct -/
  uncorrectable : Nat
  deriving DecidableEq, Repr

/-- One Farnen command record (R429). -/
structure Cmd where
  code : Nat
  index : Nat
  sub : Nat
  offset : Nat
  length : Nat
  data : List Byte
  deriving DecidableEq, Repr

/-- A Farnen frame, by its fields: its bytes follow from them (R428). -/
structure FarnenFrame where
  magic : Nat
  version : Nat
  type : Nat
  length : Nat
  session : Nat
  counter : Nat
  transaction : Nat
  cmds : List Cmd
  tag : BitVec 128
  deriving DecidableEq, Repr

/-- The carrier a Farnen frame came by (R427); the codes are R427's order. -/
inductive FPath where
  | segment
  | mailbox (part : Nat)
  | accelMailbox (part : Nat)
  | fabric
  | sideband
  deriving DecidableEq, Repr

/-- What a flushing read was issued for (R53, R54, R185, R409). -/
inductive FlushOf where
  /-- the completion of an operation -/
  | op (wq idx : Nat)
  /-- an operation at a target end -/
  | arrival (handle opnum : Nat)
  | inval (n : Nat)
  /-- a multicast operation at a member: group, rank, where it lands (R209) -/
  | tree (group rank base : Nat)
  /-- a reset of a partition (key 0) or of a slice (PASID + 1) -/
  | part (p key : Nat)
  deriving DecidableEq, Repr

/-- A feed frame as it reaches MTR (R479). -/
structure Feed where
  epoch : Nat
  number : Nat
  time : Nat
  suspect : Bool
  states : List Nat
  fabric : List Nat
  host : List Nat
  crcOk : Bool
  deriving DecidableEq, Repr

/-- What MTR's own sensing adds since its last event: its clock's advance in ns, µJ of each of the 18 rail entries, and the largest
mean power over 1 s in 0.1 W (R477, R478). -/
structure Sensed where
  dt : Nat
  rails : List Nat
  mean : Nat
  deriving DecidableEq, Repr

/-- The kinds of access a host makes through BAR4 (R361). -/
inductive BarOp where
  | read (len : Nat)
  | write (data : List Byte)
  /-- AtomicOp of `size` bytes: code 0 FetchAdd, 1 Swap, 2 CAS -/
  | atomic (code size operand compare : Nat)
  deriving DecidableEq, Repr

end Sys2Proof
end

