-- ==== Sys2Proof/Syntax.lean ====
section
/-! DEFINITION. The commands of the block: one constructor for each row of the table of operations and events. -/

namespace Sys2Proof

/-- A command: an operation the device performs or an event that befalls it. A command carries what comes from outside the
device; everything else is in the state. -/
inductive Instr where
  /-- MESH_LINK_OUT_OF_SERVICE (R24) -/
  | meshLinkOutOfService (link : Nat)
  /-- MESH_ROUTE_SWITCH (R24) -/
  | meshRouteSwitch
  /-- DISTRIBUTION_WORD (R27) -/
  | distributionWord (t : Nat)
  /-- DISTRIBUTION_WORD_ARRIVAL (R28) -/
  | distributionWordArrival (island : Nat) (off : Int)
  /-- WQ_DOORBELL (R88) -/
  | wqDoorbell (via : Via) (wq tail pushed : Nat)
  /-- PUSH_AREA_WRITE (R89) -/
  | pushAreaWrite (via : Via) (wq slot : Nat) (w : Wqe) (whole : Bool)
  /-- RING_FETCH_RETURN (R91) -/
  | ringFetchReturn (wq first : Nat) (entries : List Wqe) (refused : Bool)
  /-- ENTRY_REFETCH (R92) -/
  | entryRefetch (wq : Nat) (w : RingEntry)
  /-- FENCE_RELEASE (R50) -/
  | fenceRelease (wq : Nat)
  /-- NOP (R82) -/
  | nop (wq : Nat)
  /-- PUT (R38) -/
  | put (wq : Nat)
  /-- GET (R38) -/
  | get (wq : Nat)
  /-- PUT_NOTIFY (R46) -/
  | putNotify (wq : Nat)
  /-- PUT_ACC (R40) -/
  | putAcc (wq : Nat)
  /-- PUT_ACC_ROUND (R247) -/
  | putAccRound (wq : Nat)
  /-- NOTIFY (R46) -/
  | notify (wq : Nat)
  /-- ATOMIC_FADD (R39) -/
  | atomicFadd (wq : Nat)
  /-- ATOMIC_CSWAP (R39) -/
  | atomicCswap (wq : Nat)
  /-- COPY_IN (R371) -/
  | copyIn (wq : Nat)
  /-- COPY_OUT (R371) -/
  | copyOut (wq : Nat)
  /-- WAIT (R95) -/
  | wait (wq : Nat)
  /-- WAIT_CONDITION_MET (R96) -/
  | waitConditionMet (wq : Nat)
  /-- WAIT_TIMEOUT (R97) -/
  | waitTimeout (wq : Nat)
  /-- TABLE_UPDATE (R181) -/
  | tableUpdate (wq : Nat) (ext : List Byte)
  /-- INVALIDATE (R185) -/
  | invalidate (wq : Nat)
  /-- INVALIDATE_DRAINED (R185) -/
  | invalidateDrained (inv : Nat)
  /-- INVAL_TIMEOUT (R185) -/
  | invalTimeout (inv : Nat)
  /-- INVALIDATE_SQUASH_DONE (R185) -/
  | invalidateSquashDone (inv : Nat)
  /-- COLL_STEP (R199) -/
  | collStep (wq : Nat)
  /-- WALK_COMPLETE (R163) -/
  | walkComplete (wq idx off : Nat)
  /-- OPERATION_COMPLETION (R58) -/
  | operationCompletion (wq idx : Nat) (ext : List Byte)
  /-- DRAIN_COMPLETE (R106) -/
  | drainComplete (wq : Nat)
  /-- PAUSE_EFFECTIVE (R105) -/
  | pauseEffective (wq : Nat)
  /-- CQ_DOORBELL (R103) -/
  | cqDoorbell (via : Via) (cq head : Nat) (arm : Bool)
  /-- CQ_WRITE_FAULT (R108) -/
  | cqWriteFault (cq : Nat)
  /-- MIRROR_WRITE_DROPPED (R98) -/
  | mirrorWriteDropped (ctr : Nat)
  /-- CREATE_WQ (R76) -/
  | createWq (part obj : Nat) (desc : BitVec 512)
  /-- MODIFY_WQ (R77) -/
  | modifyWq (part obj : Nat) (desc : BitVec 512)
  /-- PAUSE_WQ (R76) -/
  | pauseWq (part obj : Nat)
  /-- RESUME_WQ (R105) -/
  | resumeWq (part obj : Nat)
  /-- RESET_WQ (R107) -/
  | resetWq (part obj : Nat)
  /-- DESTROY_WQ (R105) -/
  | destroyWq (part obj : Nat)
  /-- CREATE_CQ (R78) -/
  | createCq (part obj : Nat) (desc : BitVec 512)
  /-- DESTROY_CQ (R76) -/
  | destroyCq (part obj : Nat)
  /-- CREATE_COUNTER (R78) -/
  | createCounter (part obj : Nat) (desc : BitVec 512)
  /-- SET_COUNTER (R78) -/
  | setCounter (part obj : Nat) (desc : BitVec 512)
  /-- DESTROY_COUNTER (R97) -/
  | destroyCounter (part obj : Nat)
  /-- READ_WQ (R78) -/
  | readWq (part obj : Nat)
  /-- QUEUE_COMMAND_RESERVED (R75) -/
  | queueCommandReserved (part code obj : Nat)
  /-- CONNECT (R118) -/
  | connect (part obj : Nat) (desc : BitVec 512)
  /-- CLOSE (R118) -/
  | close (part obj : Nat)
  /-- REESTABLISH (R118) -/
  | reestablish (part obj : Nat)
  /-- MODIFY_CONN (R117) -/
  | modifyConn (part obj : Nat) (desc : BitVec 512)
  /-- READ_CONN (R117) -/
  | readConn (part obj : Nat)
  /-- CONN_COMMAND_RESERVED (R117) -/
  | connCommandReserved (part code obj : Nat)
  /-- CONNECT_REQ (R121) -/
  | connectReq (r : SetupReq)
  /-- CONNECT_ACK (R118) -/
  | connectAck (h peerHandle epoch psn : Nat)
  /-- CONNECT_NAK (R118) -/
  | connectNak (h : Nat) (noResource : Bool)
  /-- CONNECT_TIMEOUT (R120) -/
  | connectTimeout (h : Nat)
  /-- CLOSE_REQ (R118) -/
  | closeReq (h fromEp fromHandle epoch : Nat)
  /-- CLOSE_ACK (R118) -/
  | closeAck (h : Nat)
  /-- CLOSE_TIMEOUT (R118) -/
  | closeTimeout (h : Nat)
  /-- RESET_PACKET (R124) -/
  | resetPacket (h epoch : Nat)
  /-- ORPHAN_TIMEOUT (R123) -/
  | orphanTimeout (h : Nat)
  /-- EPOCH_HOLDOFF_END (R116) -/
  | epochHoldoffEnd
  /-- CONNECTION_FILL (R114) -/
  | connectionFill (h : Nat) (bad : Bool)
  /-- SEND_PACKET (R130) -/
  | sendPacket (h : Nat) (ext : List Byte)
  /-- DATA_PACKET (R129) -/
  | dataPacket (p : Packet) (ext : List Byte)
  /-- REQUEST_PACKET (R129) -/
  | requestPacket (p : Packet)
  /-- RESPONSE_PACKET (R139) -/
  | responsePacket (p : Packet)
  /-- ACK_PACKET (R132) -/
  | ackPacket (p : Packet) (ext : List Byte)
  /-- NACK_PACKET (R134) -/
  | nackPacket (p : Packet) (ext : List Byte)
  /-- HOLD_PACKET (R135) -/
  | holdPacket (p : Packet)
  /-- WITHDRAW (R566) -/
  | withdraw (p : Packet)
  /-- RESERVED_KIND_DROP (R126) -/
  | reservedKindDrop (p : Packet)
  /-- OPERATION_FULLY_ARRIVED (R138) -/
  | operationFullyArrived (h opnum : Nat) (ext : List Byte)
  /-- NOTIFICATION_APPLY (R47) -/
  | notificationApply (h opnum : Nat)
  /-- FLUSHING_READ_RETURN (R54) -/
  | flushingReadReturn (f : FlushOf)
  /-- DONE_BATCH_TIMER (R138) -/
  | doneBatchTimer (h : Nat)
  /-- ACK_DELAY (R133) -/
  | ackDelay (h : Nat)
  /-- RETRANSMIT_TIMER (R142) -/
  | retransmitTimer (h : Nat) (edge : Bool) (ext : List Byte)
  /-- HOLD_LIMIT (R135) -/
  | holdLimit (h : Nat)
  /-- BELLOWS_UPDATE (R154) -/
  | bellowsUpdate (h : Nat)
  /-- SEND_HALF_IDLE (R155) -/
  | sendHalfIdle (h : Nat)
  /-- SOURCE_READ_ERROR (R148) -/
  | sourceReadError (h : Nat) (psn : Option Nat)
  /-- GROUP_CMD_CREATE (R193) -/
  | groupCmdCreate
  /-- GROUP_CMD_DELETE (R195) -/
  | groupCmdDelete
  /-- GROUP_JOIN (R194) -/
  | groupJoin
  /-- GROUP_LEAVE (R195) -/
  | groupLeave
  /-- JOIN_ARRIVAL (R194) -/
  | joinArrival (g rank : Nat) (j : Join)
  /-- MEMBER_TABLE (R195) -/
  | memberTable (g : Nat) (table : List Join)
  /-- GROUP_READY (R195) -/
  | groupReady (g : Nat) (edges : List (Nat × Nat × Nat × Nat))
  /-- PERM_TABLE (R227) -/
  | permTable
  /-- READY (R203) -/
  | ready (g dev seq : Nat) (sig : Signature)
  /-- START (R203) -/
  | start (g seq t src : Nat)
  /-- ABORT (R204) -/
  | abort (g seq : Nat) (fenced : Bool)
  /-- COORDINATOR_TIMEOUT (R204) -/
  | coordinatorTimeout (g seq : Nat)
  /-- COLL_STEP_TIMEOUT (R204) -/
  | collStepTimeout (wq idx : Nat)
  /-- SEQUENCE_RETIRED (R202) -/
  | sequenceRetired (g : Nat)
  /-- STREAM_TILE_RELEASE (R208) -/
  | streamTileRelease (wq idx : Nat)
  /-- STREAM_TILE_TIMEOUT (R208) -/
  | streamTileTimeout (wq idx : Nat)
  /-- SCHED_LOAD (R214) -/
  | schedLoad
  /-- SCHEDULE_VERIFIED (R214) -/
  | scheduleVerified (slot : Nat) (ext : List Byte)
  /-- SCHED_UNLOAD (R216) -/
  | schedUnload
  /-- CHANTER_STEP (R218) -/
  | chanterStep (slot die idx : Nat)
  /-- SEND (R213) -/
  | send (slot die idx : Nat) (ext : List Byte)
  /-- SEND_ACC (R213) -/
  | sendAcc (slot die idx : Nat) (ext : List Byte)
  /-- TREE_ACC (R213) -/
  | treeAcc (slot die idx : Nat)
  /-- MCAST (R213) -/
  | mcast (slot die idx : Nat)
  /-- LOCAL_ACC (R213) -/
  | localAcc (slot die idx : Nat) (ext : List Byte)
  /-- ROUND (R213) -/
  | round (slot die idx : Nat)
  /-- WAIT_COUNT (R213) -/
  | waitCount (slot die idx : Nat)
  /-- RUN_COUNTER_REACHED (R213) -/
  | runCounterReached (slot rank : Nat)
  /-- TRANSFORM (R257) -/
  | transform (slot die idx : Nat)
  /-- COPY (R213) -/
  | copy (slot die idx : Nat) (ext : List Byte)
  /-- RUN_TIMEOUT (R221) -/
  | runTimeout (slot : Nat)
  /-- MEMBER_COMPLETE (R222) -/
  | memberComplete (slot rank : Nat)
  /-- STORE_ADMISSION (R253) -/
  | storeAdmission (die : Nat) (arriving : Option Packet) (ext : List Byte)
  /-- ADMIT_LINGER (R254) -/
  | admitLinger (n : Nat)
  /-- TREE_EDGE_ACK (R255) -/
  | treeEdgeAck (hdr : BitVec 320) (payload : List Byte) (crc : BitVec 32) (ext : List Byte)
  /-- MCAST_REPLICATE (R298) -/
  | mcastReplicate (die : Nat) (arriving : Option Packet) (ext : List Byte)
  /-- KERNEL_LOAD (R257) -/
  | kernelLoad
  /-- KERNEL_UNLOAD (R266) -/
  | kernelUnload
  /-- KERNEL_BIND (R258) -/
  | kernelBind
  /-- KERNEL_BUDGET_EXCEEDED (R263) -/
  | kernelBudgetExceeded (slot die : Nat) (job : Invocation)
  /-- KERNEL_FAULT (R263) -/
  | kernelFault (slot die : Nat) (job : Invocation)
  /-- KERNEL_DONE (R264) -/
  | kernelDone (slot die idx : Nat) (input params state : List Byte)
  /-- ANNOUNCE_TIMER (R272) -/
  | announceTimer (port : Nat)
  /-- ANNOUNCE (R275) -/
  | announce (port : Nat) (hdr : BitVec 320) (mac : Nat)
  /-- COORD (R275) -/
  | coord
  /-- FABRIC_FRAME_ARRIVAL (R292) -/
  | fabricFrameArrival (port : Nat) (f : FrameBytes)
  /-- FRAME_ENQUEUE (R291) -/
  | frameEnqueue (die n : Nat)
  /-- FRAME_TRANSMIT (R320) -/
  | frameTransmit (port : Nat)
  /-- TREE_ENTRY_FILL (R296) -/
  | treeEntryFill (die tree : Nat)
  /-- TREE_ENTRY (R297) -/
  | treeEntry
  /-- FENCE_CMD_FENCE (R300) -/
  | fenceCmdFence
  /-- FENCE_CMD_UNFENCE (R300) -/
  | fenceCmdUnfence
  /-- FENCE_NOTICE (R300) -/
  | fenceNotice (ep : Nat) (device fence : Bool)
  /-- SIGNAL_DETECTED (R308) -/
  | signalDetected (port : Nat)
  /-- AUTONEG_COMPLETE (R308) -/
  | autonegComplete (port rate : Nat)
  /-- LINK_TRAINING_COMPLETE (R308) -/
  | linkTrainingComplete (port : Nat)
  /-- PORT_TRAINED (R308) -/
  | portTrained (port : Nat)
  /-- BRINGUP_TIMEOUT (R308) -/
  | bringupTimeout (port : Nat)
  /-- RATE (R308) -/
  | rate
  /-- UNCORRECTABLE_BURST (R309) -/
  | uncorrectableBurst (port : Nat)
  /-- ALIGNMENT_LOSS (R309) -/
  | alignmentLoss (port : Nat)
  /-- FAST_RETRAIN_DONE (R309) -/
  | fastRetrainDone (port : Nat)
  /-- FAST_RETRAIN_FAIL (R309) -/
  | fastRetrainFail (port : Nat)
  /-- LANE_WEAR_WINDOW (R311) -/
  | laneWearWindow (port corrected uncorrectable : Nat) (errors ratios : List Nat)
  /-- LANE_DARN (R312) -/
  | laneDarn
  /-- PFC_FRAME (R316) -/
  | pfcFrame (port : Nat) (pause : Bool) (mask : Nat) (times : List Nat)
  /-- PAUSE_EXPIRY (R316) -/
  | pauseExpiry (port prio : Nat)
  /-- PFC_REFRESH (R315) -/
  | pfcRefresh (port prio : Nat)
  /-- PAUSE_WATCHDOG (R319) -/
  | pauseWatchdog (port prio : Nat)
  /-- SHAPER_REFILL (R321) -/
  | shaperRefill (port : Nat)
  /-- GATE_ENTRY_START (R325) -/
  | gateEntryStart (port : Nat)
  /-- GATE_COMMIT (R326) -/
  | gateCommit
  /-- GATE_CHANGEOVER (R326) -/
  | gateChangeover (port : Nat)
  /-- SYNC_TIMER (R327) -/
  | syncTimer (port : Nat)
  /-- PDELAY_TIMER (R327) -/
  | pdelayTimer (port : Nat)
  /-- PTP_MESSAGE (R330) -/
  | ptpMessage (port kind : Nat) (offset : Int) (delay state hops : Nat)
  /-- SYNC_LOSS (R330) -/
  | syncLoss
  /-- HOLDOVER_LIMIT (R330) -/
  | holdoverLimit
  /-- PPS_SECOND (R331) -/
  | ppsSecond
  /-- PPS_IN (R331) -/
  | ppsIn
  /-- TIME_SET (R332) -/
  | timeSet
  /-- TIME_SET_STEP (R332) -/
  | timeSetStep
  /-- QUEUE_SAMPLE (R333) -/
  | queueSample (die : Nat)
  /-- HWM (R335) -/
  | hwm
  /-- WAKE_PATTERN (R336) -/
  | wakePattern (port slots : Nat)
  /-- WAKE_SEND (R337) -/
  | wakeSend
  /-- FLIT (R345) -/
  | flit (link : Nat) (f : Flit)
  /-- EDRAD_SIGNAL_DETECT (R347) -/
  | edradSignalDetect (link : Nat)
  /-- EDRAD_TRAINING_STEP_DONE (R347) -/
  | edradTrainingStepDone (link : Nat)
  /-- EDRAD_TRAINING_TIMEOUT (R347) -/
  | edradTrainingTimeout (link : Nat)
  /-- EDRAD_LINK_LOSS (R349) -/
  | edradLinkLoss (link : Nat)
  /-- CREDIT (R343) -/
  | credit (link ph pd nh nd : Nat)
  /-- LINK_PARAMS (R350) -/
  | linkParams (link epoch lastSeq : Nat) (credits : List Nat)
  /-- PORT_STATUS (R348) -/
  | portStatus (link dev : Nat) (up : Bool) (speed width errors : Nat)
  /-- SETTINGS (R348) -/
  | settings (link : Nat) (isPort : Bool) (n bus base limit command acs : Nat) (pasidEn relaxed : Bool) (msix : List (Nat × Nat × Nat × Nat))
  /-- HOST_RESET (R354) -/
  | hostReset (link cause : Nat)
  /-- RESET_NOTICE (R356) -/
  | resetNotice (link : Nat)
  /-- WAKE (R348) -/
  | wake (link : Nat) (fromDevice : Bool)
  /-- SLEEP_REQ (R357) -/
  | sleepReq (link : Nat)
  /-- SLEEP_ACK (R357) -/
  | sleepAck (link : Nat)
  /-- HOST_LOSS_TIMER (R352) -/
  | hostLossTimer (link : Nat)
  /-- HOST_DOMAIN_RESET (R354) -/
  | hostDomainReset
  /-- EDRAD_WAKE_BURST (R357) -/
  | edradWakeBurst (link : Nat)
  /-- SLOT_CONTROL_POWER (R522) -/
  | slotControlPower (link : Nat)
  /-- FUNCTION_LEVEL_RESET (R359) -/
  | functionLevelReset (p : Nat)
  /-- BAR4_ACCESS (R361) -/
  | bar4Access (p a : Nat) (o : BarOp)
  /-- ACCELERATOR_REQUEST (R366) -/
  | acceleratorRequest (e a : Nat)
  /-- ACCELERATOR_LINK_DOWN (R367) -/
  | acceleratorLinkDown (e : Nat) (second : Bool)
  /-- ACCEL_LOSS_TIMER (R367) -/
  | accelLossTimer (e : Nat)
  /-- ACCELERATOR_LINK_UP (R367) -/
  | acceleratorLinkUp (e : Nat) (second : Bool) (speed width : Nat) (flit : Bool)
  /-- HOST_READ_REFUSED (R370) -/
  | hostReadRefused (wq idx off : Nat)
  /-- MEMORY_READ_ERROR (R384) -/
  | memoryReadError (a : Nat) (correctable : Bool) (pin : Nat)
  /-- SCRUB (R385) -/
  | scrub (die result pin : Nat)
  /-- REMAP_COPY_DONE (R386) -/
  | remapCopyDone (b : Nat) (bad : Bool)
  /-- CHANNEL_FAIL (R387) -/
  | channelFail (die slot : Nat)
  /-- CHAN_DARN (R388) -/
  | chanDarn
  /-- DARN_SEGMENT_DONE (R388) -/
  | darnSegmentDone (die slot : Nat) (bad : List Nat)
  /-- REFRESH (R392) -/
  | refresh (die slot bank : Nat)
  /-- MEMORY_ZEROED (R394) -/
  | memoryZeroed
  /-- PART_CMD_RESET (R409) -/
  | partCmdReset
  /-- PART_CMD_RESET_ZERO (R409) -/
  | partCmdResetZero
  /-- PARTITION_DRAINED (R409) -/
  | partitionDrained (p key : Nat)
  /-- RESET_DRAIN (R409) -/
  | resetDrain (p key left : Nat)
  /-- PARTITION_RESET_DONE (R409) -/
  | partitionResetDone (p key : Nat)
  /-- SLICE_CMD_CREATE (R404) -/
  | sliceCmdCreate
  /-- SLICE_CMD_RESET (R409) -/
  | sliceCmdReset
  /-- SLICE_CMD_DESTROY (R404) -/
  | sliceCmdDestroy
  /-- FARNEN_FRAME (R433) -/
  | farnenFrame (path : FPath) (f : FarnenFrame)
  /-- READ (R429) -/
  | read
  /-- WRITE (R417) -/
  | write
  /-- DESCRIBE (R429) -/
  | describe
  /-- NEXT (R429) -/
  | next
  /-- OPEN (R432) -/
  | open_
  /-- CLOSE_SESSION (R432) -/
  | closeSession
  /-- BAD_COMMAND (R430) -/
  | badCommand
  /-- SESSION_IDLE (R432) -/
  | sessionIdle (session : Nat)
  /-- STAGED_RECORD_TIMEOUT (R418) -/
  | stagedRecordTimeout (session : Nat)
  /-- STORED_COMMIT (R424) -/
  | storedCommit
  /-- MAILBOX_GO (R434) -/
  | mailboxGo (part : Nat) (accel : Bool) (vector : Nat) (irqEn go : Bool) (f : FarnenFrame)
  /-- SIDEBAND_REQUEST (R436) -/
  | sidebandRequest (i3c : Bool) (f : FarnenFrame)
  /-- SIDEBAND_READ (R436) -/
  | sidebandRead
  /-- MANAGER_ELECTION_TIMER (R446) -/
  | managerElectionTimer
  /-- NO_MANAGER_TIMER (R447) -/
  | noManagerTimer
  /-- HEARTBEAT_TIMER (R451) -/
  | heartbeatTimer
  /-- HEARTBEAT (R451) -/
  | heartbeat (src epoch id role : Nat) (witnesses : List Nat)
  /-- HEARTBEAT_ACK (R452) -/
  | heartbeatAck (src : Nat)
  /-- MANAGER_STOP (R452) -/
  | managerStop
  /-- MANAGER_LOSS (R452) -/
  | managerLoss
  /-- LOSS_QUERY (R452) -/
  | lossQuery (src : Nat)
  /-- LOSS_QUERY_DECIDED (R452) -/
  | lossQueryDecided (answers : List Bool) (handed : Bool)
  /-- TAKEOVER (R452) -/
  | takeover (epoch id : Nat)
  /-- JOURNAL (R451) -/
  | journal (seq target key : Nat) (data : List Byte) (ack : Bool)
  /-- JOURNAL_ACK_TIMEOUT (R451) -/
  | journalAckTimeout (seq : Nat)
  /-- SUBMANAGER_LOSS (R449) -/
  | submanagerLoss (c : Nat)
  /-- FAILOVER (R453) -/
  | failover
  /-- KEY_EXPORT (R457) -/
  | keyExport
  /-- PROVISION_DONE (R457) -/
  | provisionDone
  /-- KEY_EPOCH (R457) -/
  | keyEpoch
  /-- OWNER_ENROLL (R461) -/
  | ownerEnroll
  /-- SLOT_REVOKE (R462) -/
  | slotRevoke
  /-- OWNER_EXCLUSIVE (R463) -/
  | ownerExclusive
  /-- IMAGE_WRITE (R466) -/
  | imageWrite
  /-- IMAGE_VERIFIED (R465) -/
  | imageVerified (kind bank : Nat)
  /-- IMAGE_ACTIVATE (R466) -/
  | imageActivate
  /-- ROLLBACK_COMMIT (R467) -/
  | rollbackCommit
  /-- MEASURE_EXTEND (R472) -/
  | measureExtend
  /-- ATTEST_REQ (R473) -/
  | attestReq
  /-- DEBUG_CHALLENGE (R474) -/
  | debugChallenge
  /-- DEBUG_CHALLENGE_EXPIRY (R474) -/
  | debugChallengeExpiry (session : Nat)
  /-- DEBUG_RESPONSE (R474) -/
  | debugResponse
  /-- RANDOM_SOURCE_FAILURE (R459) -/
  | randomSourceFailure
  /-- FEED_FRAME (R479) -/
  | feedFrame
  /-- FEED_FRAME_ACCEPTED (R480) -/
  | feedFrameAccepted (f : Feed) (x : Sensed)
  /-- FEED_LOSS (R480) -/
  | feedLoss (x : Sensed)
  /-- FEED_LOSS_INTERVAL_END (R482) -/
  | feedLossIntervalEnd (x : Sensed)
  /-- METER_SNAPSHOT (R489) -/
  | meterSnapshot (x : Sensed)
  /-- VMTR_BROWN_OUT (R489) -/
  | vmtrBrownOut (x : Sensed)
  /-- METER_POWER_UP (R489) -/
  | meterPowerUp
  /-- STATUS (R488) -/
  | status
  /-- READ_RECORD (R488) -/
  | readRecord
  /-- METER_STATUS_TIMEOUT (R490) -/
  | meterStatusTimeout
  /-- SEAL_OPENED (R492) -/
  | sealOpened (x : Sensed)
  /-- SEAL_CLOSED (R492) -/
  | sealClosed (x : Sensed)
  /-- SEAL_CMD_INTERVAL (R492) -/
  | sealCmdInterval
  /-- SEAL_CMD_CALIBRATION (R492) -/
  | sealCmdCalibration
  /-- SEAL_CMD_FIRMWARE (R492) -/
  | sealCmdFirmware
  /-- PCTR_CFG (R497) -/
  | pctrCfg
  /-- PCTR_VALUE (R498) -/
  | pctrValue
  /-- PCTR_OWNER (R497) -/
  | pctrOwner
  /-- PCTR_SNAP (R499) -/
  | pctrSnap
  /-- BW_WINDOW_END (R501) -/
  | bwWindowEnd
  /-- BW_WINDOW (R501) -/
  | bwWindow
  /-- PORT_BW (R501) -/
  | portBw
  /-- HISTOGRAM_SAMPLE (R502) -/
  | histogramSample
  /-- HIST_CFG (R502) -/
  | histCfg
  /-- SFIFO_DATA (R507) -/
  | sfifoData
  /-- EVENT_RECORDS (R516) -/
  | eventRecords
  /-- EVENT_CLEAR (R514) -/
  | eventClear
  /-- RECORDER_COPY_DONE (R513) -/
  | recorderCopyDone
  /-- POWER_CMD_IDLE (R518) -/
  | powerCmdIdle
  /-- POWER_CMD_STANDBY (R520) -/
  | powerCmdStandby
  /-- POWER_CMD_SLEEP (R520) -/
  | powerCmdSleep
  /-- IDLE_AFTER (R518) -/
  | idleAfter
  /-- IDLE_EXIT (R518) -/
  | idleExit
  /-- ENTRY_STEP_DONE (R520) -/
  | entryStepDone (refused : List Nat)
  /-- ENTRY_DRAIN (R520) -/
  | entryDrain
  /-- I3C_ADDRESS_MATCH (R522) -/
  | i3cAddressMatch (addr : Nat)
  /-- WAKE_AT (R522) -/
  | wakeAt
  /-- WAKE_STAGE_READY (R523) -/
  | wakeStageReady
  /-- WAKE_STAGE_OVERRUN (R524) -/
  | wakeStageOverrun
  /-- COLD_RESET_N (R528) -/
  | coldResetN (rise gensel mgrEn : Bool) (bootsel : Nat)
  /-- COLD_BOOT_STEP (R469) -/
  | coldBootStep
  /-- WARM_RESET_N (R529) -/
  | warmResetN
  /-- WARM_RESET (R528) -/
  | warmReset
  /-- WARM_RESET_STEP (R528) -/
  | warmResetStep
  /-- MC_WATCHDOG (R531) -/
  | mcWatchdog (core : Nat)
  /-- CLUSTER_DARN (R534) -/
  | clusterDarn (die c : Nat)
  /-- CORE_DARN (R535) -/
  | coreDarn
  /-- CORE_PARKED (R535) -/
  | coreParked
  /-- CORE_PARK_TIMEOUT (R535) -/
  | coreParkTimeout
  /-- SELFTEST (R533) -/
  | selftest (die kind unit errors : Nat) (passed : Bool)
  /-- SRAM_CORRECTION (R537) -/
  | sramCorrection (die array line : Nat) (e : SramError)
  /-- MESH_WIRE_DARN (R538) -/
  | meshWireDarn (link modul dir lane : Nat)
  /-- POWER_GOOD_LOST (R554) -/
  | powerGoodLost (rail ns : Nat)
  /-- PWRDN_REQ_N (R553) -/
  | pwrdnReqN
  /-- REFCLK_LOSS (R556) -/
  | refclkLoss (clk : Nat) (ppm : Int) (common : List Nat)
  /-- REFCLK_RESTORED (R556) -/
  | refclkRestored (clk : Nat) (ppm : Int)
  /-- TEMPERATURE_READ (R559) -/
  | temperatureRead (temps : List Int)
  /-- THROTTLE_STEP (R560) -/
  | throttleStep
  /-- POWER_LIMIT_CHECK (R561) -/
  | powerLimitCheck (power : Nat) (rails : List (Nat × Nat))
  /-- REGULATOR_FAULT (R548) -/
  | regulatorFault (rail status : Nat)
  /-- KERNEL_VERIFIED (R266) -/
  | kernelVerified (kernel : Nat)
  /-- STANDBY_SYNCHRONISED (R451) -/
  | standbySynchronised
  /-- POWER_GOOD_ASSERTED (R551) -/
  | powerGoodAsserted (rail : Nat)
  /-- WARM_RESET_N_RISE (R528) -/
  | warmResetNRise
  /-- HOST_REQUEST (R357) -/
  | hostRequest (link id : Nat)
  deriving DecidableEq, Repr

end Sys2Proof
end

