-- ==== Sys2Proof/Machine/Bits.lean ====
section
/-! DEFINITION. Tables, bit fields, bytes and wrapping counts: the small operations every other file is written with. -/

namespace Sys2Proof.Machine

/-! ## Tables -/

/-- The value of a key. -/
def tget {α : Type} : Tab α → Nat → Option α
  | [], _ => none
  | (k, v) :: t, n => if n == k then some v else tget t n

/-- The value of a key, or a default where the table lists none. -/
def tgetD {α : Type} (t : Tab α) (n : Nat) (d : α) : α :=
  match tget t n with
  | some v => v
  | none => d

/-- Write a key, keeping the keys in strictly rising order. -/
def tset {α : Type} : Tab α → Nat → α → Tab α
  | [], n, a => [(n, a)]
  | (k, v) :: t, n, a =>
    if n < k then (n, a) :: (k, v) :: t
    else if n == k then (n, a) :: t
    else (k, v) :: tset t n a

/-- Remove a key. -/
def tdel {α : Type} (t : Tab α) (n : Nat) : Tab α := t.filter fun e => e.1 != n

/-- Change the value of a key that the table lists. -/
def tmod {α : Type} (t : Tab α) (n : Nat) (f : α → α) : Tab α :=
  match tget t n with
  | some v => tset t n (f v)
  | none => t

/-- Change the value of a key, from a default where none is listed. -/
def tmodD {α : Type} (t : Tab α) (n : Nat) (d : α) (f : α → α) : Tab α :=
  tset t n (f (tgetD t n d))

/-- Keep the entries that pass. -/
def tkeep {α : Type} (t : Tab α) (p : Nat → α → Bool) : Tab α := t.filter fun e => p e.1 e.2

/-- Change every value. -/
def tmap {α : Type} (t : Tab α) (f : Nat → α → α) : Tab α := t.map fun e => (e.1, f e.1 e.2)

/-- Keys in strictly rising order, all above a bound. -/
def Tab.sortedFrom {α : Type} : Nat → Tab α → Bool
  | _, [] => true
  | n, (k, _) :: t => Nat.ble n k && Tab.sortedFrom (k + 1) t

/-- The canonical form of a table: keys in strictly rising order. -/
def Tab.wf {α : Type} (t : Tab α) : Bool := Tab.sortedFrom 0 t

/-! ## Bit fields -/

/-- Bits [hi:lo] of a number. -/
def bits (n hi lo : Nat) : Nat := n / 2 ^ lo % 2 ^ (hi + 1 - lo)

/-- Bit i of a number. -/
def bit (n i : Nat) : Bool := n / 2 ^ i % 2 == 1

/-- Field [hi:lo] of a word. -/
def fld {n : Nat} (w : BitVec n) (hi lo : Nat) : Nat := bits w.toNat hi lo

/-- Bit i of a word. -/
def flag {n : Nat} (w : BitVec n) (i : Nat) : Bool := bit w.toNat i

/-- A word with field [hi:lo] replaced. -/
def setFld {n : Nat} (w : BitVec n) (hi lo v : Nat) : BitVec n :=
  BitVec.ofNat n (w.toNat - bits w.toNat hi lo * 2 ^ lo + v % 2 ^ (hi + 1 - lo) * 2 ^ lo)

/-- A number made of fields, each a low bit and a value. -/
def pack : List (Nat × Nat) → Nat
  | [] => 0
  | (lo, v) :: t => v * 2 ^ lo + pack t

def b2n (b : Bool) : Nat := if b then 1 else 0

/-! ## Bytes -/

/-- The k low bytes of a number, little-endian (R10). -/
def leBytes : Nat → Nat → List Byte
  | 0, _ => []
  | k + 1, n => BitVec.ofNat 8 n :: leBytes k (n / 256)

/-- The number that bytes spell, little-endian (R10). -/
def ofLe : List Byte → Nat
  | [] => 0
  | b :: t => b.toNat + 256 * ofLe t

/-- The k low bytes of a number, big-endian. -/
def beBytes (k n : Nat) : List Byte := (leBytes k n).reverse

/-- `n` bytes of a list from an offset, missing ones zero. -/
def slice (l : List Byte) (off n : Nat) : List Byte :=
  let t := (l.drop off).take n
  t ++ List.replicate (n - t.length) 0

/-- The little-endian number of `n` bytes at an offset. -/
def field (l : List Byte) (off n : Nat) : Nat := ofLe (slice l off n)

/-- A list of bytes with a span replaced; a gap before it is zero. -/
def splice (l : List Byte) (off : Nat) (d : List Byte) : List Byte :=
  slice l 0 off ++ d ++ l.drop (off + d.length)

/-- The ASCII bytes of a string. -/
def ascii (s : String) : List Byte := s.toList.map fun c => BitVec.ofNat 8 c.toNat

/-! ## Counts that wrap and counts that saturate -/

def m16 : Nat := 2 ^ 16
def m24 : Nat := 2 ^ 24
def m32 : Nat := 2 ^ 32
def m64 : Nat := 2 ^ 64

/-- a − b modulo 2^32. -/
def sub32 (a b : Nat) : Nat := (a + (m32 - b % m32)) % m32

/-- a + b modulo 2^32. -/
def add32 (a b : Nat) : Nat := (a + b) % m32

/-- a + b held at a top. -/
def satTo (top a b : Nat) : Nat := min (a + b) top

/-- A 64-bit count that never wraps (R495). -/
def sat64 (a b : Nat) : Nat := satTo (m64 - 1) a b

/-! ## Lists -/

/-- Element n of a list of numbers, 0 past its end. -/
def nth (l : List Nat) (n : Nat) : Nat := (l[n]?).getD 0

/-- A list of numbers with element n changed, filled up with zeros. -/
def nmod : List Nat → Nat → (Nat → Nat) → List Nat
  | [], 0, f => [f 0]
  | [], n + 1, f => 0 :: nmod [] n f
  | x :: t, 0, f => f x :: t
  | x :: t, n + 1, f => x :: nmod t n f

/-- Add a number to a set. -/
def insertNew (l : List Nat) (n : Nat) : List Nat := if l.contains n then l else l ++ [n]

/-- The numbers from 0 that pass, below a bound. -/
def below (n : Nat) (p : Nat → Bool) : List Nat := (List.range n).filter p

/-- The bits of a mask that are set, below a bound. -/
def maskBits (n m : Nat) : List Nat := below n (bit m)

end Sys2Proof.Machine
end

