-- ==== Sys2Proof/Config.lean ====
section
/-! DEFINITION. What an implementation fixes and what the manual leaves open: constants with no body, so that no proof can
lean on a value. -/

namespace Sys2Proof.Config

/-- A value the manual leaves open, one for each draw (log 3, DESIGN CHOICE). -/
opaque freeNat : Nat → Nat

/-- A byte the manual leaves undefined, one for each draw (log 3, DESIGN CHOICE). -/
opaque freeByte : Nat → BitVec 8

/-- The epoch-table value of a handle after the n-th fill with random values (R116, log 4, DESIGN CHOICE). -/
opaque freeEpoch : Nat → Nat → Nat

/-- SHA3-256, which the manual names and does not give (log 5, DESIGN CHOICE). -/
opaque sha3 : List Byte → BitVec 256

/-- AES-256-CMAC under a key (R428, R455, log 5, DESIGN CHOICE). -/
opaque cmac : BitVec 256 → List Byte → BitVec 128

/-- ML-DSA-44 verification: public key digest, message, signature (R461, R465, log 5, DESIGN CHOICE). -/
opaque mldsaVerify : BitVec 256 → List Byte → List Byte → Bool

/-- ML-DSA-44 signature by the identity key (R473, log 5, DESIGN CHOICE). -/
opaque mldsaSign : List Byte → List Byte

/-- ML-DSA-44 signature by MTR's key (R483, log 5, DESIGN CHOICE). -/
opaque meterSign : List Byte → List Byte

/-- MTR's check of a firmware image's signature by Rinevear's metering key (R492, log 5, DESIGN CHOICE). -/
opaque meterFwOk : List Byte → Bool

/-- The device's root key (R455, log 6, DESIGN CHOICE). -/
opaque rootKey : BitVec 256

/-- The identity public key FIPS 204 key generation yields from the identity seed (R456, log 5, DESIGN CHOICE). -/
opaque identityKey : BitVec 256 → List Byte

/-- Digest of the public key that manufacture wrote into a vendor slot (R460, log 6, DESIGN CHOICE). -/
opaque vendorKey : Nat → BitVec 256

/-- What boot flash holds at manufacture in the bank of an image kind, by 2 × kind + bank (R466, log 6, DESIGN CHOICE). -/
opaque flashImage : Nat → List Byte

/-- The 32-byte record of straps, generation and OWNER_EXCLUSIVE that register 5 takes (R472, log 29, DESIGN CHOICE). -/
opaque strapRecord : Nat → BitVec 256

/-- Rinevear's certificate of the identity key (R476, log 6, DESIGN CHOICE). -/
opaque identityCert : List Byte

/-- Rinevear's certificate of MTR's key (R486, log 6, DESIGN CHOICE). -/
opaque meterCert : List Byte

/-- The manufacture-time numbers of a device: 0 VENDOR_ID, 1 MAC base, 2 METER_ID, 3 calibration set, 4 MTR firmware,
5 fused operating point of the rails (R454, R486, R493, log 6, DESIGN CHOICE). -/
opaque fused : Nat → Nat

/-- What a user kernel's code does with its input, parameter block and state span: the instruction set it runs on is named and not given
(R262, R264, log 115, DESIGN CHOICE). -/
opaque userKernel : (code input parameters state : List Byte) → KernelRun

/-- The delay of the distribution word to an island in ps, as measured at a cold reset (R27, log 116, DESIGN CHOICE). -/
opaque wordDelay : Nat → Nat

/-- The completion timeout of the root port above an EHA-6 card, in ns, which host software sets to 10 ms or more (R353; log 121, DESIGN CHOICE). -/
opaque hostTimeout : Nat → Nat

/-- Where fabric firmware's own context puts an address of endpoint 9 in hub memory (R171, log 7, DESIGN CHOICE). -/
opaque hubTranslate : Nat → Nat

/-- The tile a look-aside replaces when it is full (R165, log 8, DESIGN CHOICE). -/
opaque victim : Nat → Nat

/-- SRAM spare rows and columns of an array at manufacture past the first (R537, R541, log 6, DESIGN CHOICE). -/
opaque sramMore : Nat → Nat

/-- SRAM spare rows and columns of an array at manufacture: every array carries some (R537). -/
def sramSpares (array : Nat) : Nat := sramMore array + 1

/-- SRAM spare rows and columns left on a die once so many repairs are entered (R541, log 6, DESIGN CHOICE). -/
opaque sramRowsLeft : Nat → Nat → Nat
opaque sramColumnsLeft : Nat → Nat → Nat

end Sys2Proof.Config
end

