-- ==== Sys2Proof/Machine/State.lean ====
section
/-! DEFINITION. Everything the manual gives the device, as plain data, and the device right after a cold reset. -/

namespace Sys2Proof.Machine

/-! ## Why a step can stop -/

/-- A step stops with one of these only when its command names an object the manual says does not exist. -/
inductive Fault where
  /-- raised by the commands of a fabric port above 23 (R31): safe -/
  | noSuchPort
  /-- raised by the commands of a partition above 11 (R3): safe -/
  | noSuchPartition
  /-- raised by the commands of a die the device never has (R15): safe -/
  | noSuchDie
  /-- raised by the commands of an Edrad link above 1 (R3): safe -/
  | noSuchLink
  /-- raised by the commands of a mesh link above 17 (R20): safe -/
  | noSuchMeshLink
  /-- raised by the commands of a rail above 17 or a reference clock above 3 (R548, R555): safe -/
  | noSuchRail
  /-- raised by the commands of an application core above 16 (R25): safe -/
  | noSuchCore
  /-- raised by the commands of an accelerator port above 7 (R18): safe -/
  | noSuchAccelPort
  /-- raised by the commands of an island above 207 (R25): safe -/
  | noSuchIsland
  deriving DecidableEq, Repr

/-- Why a command has no meaning. -/
inductive Refusal where
  /-- raised by exec for a command that has no meaning yet, naming it: safe -/
  | notModelled (mnemonic : String)
  deriving DecidableEq, Repr

/-! ## Time and the mesh (01) -/

/-- One island's copy of device time (R27, R28). -/
structure Island where
  /-- delay of the distribution word to it in ps, as the master measured it at the last cold reset -/
  delay : Nat := 0
  /-- its copy in ps, as the last word that reached it left it -/
  copy : Int := 0
  /-- the time-suspect flag -/
  suspect : Bool := false
  /-- device times of its steps within the last second -/
  steps : List Nat := []
  degraded : Bool := false
  deriving DecidableEq, Repr

/-- Every island with the delay of the word to it, as a cold reset measures it (R25, R27). -/
def measuredIslands : List (Nat × Island) := (List.range 208).map fun i => (i, { delay := Config.wordDelay i })

/-- TIME_STATE (R330). -/
inductive Align where
  | free | acquiring | aligned | holdover
  deriving DecidableEq, Repr

/-- The device time base and its alignment (R27, R327 to R332). -/
structure TimeSt where
  /-- device time in ns, modulo 2^64 (R14) -/
  now : Nat := 0
  /-- in Standby and Sleep, the always-on island keeps time from REFCLK_AON: the time it began at, and ns since (R517) -/
  aon : Option (Nat × Nat) := none
  /-- device time the last distribution word carried -/
  lastWord : Nat := 0
  islands : Tab Island := []
  state : Align := .free
  /-- ps from the upstream neighbour (TIME_OFFSET) -/
  offset : Int := 0
  upstream : Option Nat := none
  /-- Sync intervals in a row with the offset within 1.0 ns -/
  within : Nat := 0
  lastSync : Nat := 0
  holdSince : Nat := 0
  ppsOut : Bool := false
  ppsOutSince : Nat := 0
  ppsIn : Nat := 0
  /-- a TIME_SET not yet in effect: its TAI seconds and the device time of the write -/
  setPending : Option (Nat × Nat) := none
  /-- mean link delay PTP measures, per port, in ns -/
  linkDelay : Tab Nat := []
  /-- what each port's neighbour reports of its alignment, and its hops from the system manager -/
  neighbour : Tab Align := []
  hops : Tab Nat := []
  /-- instant of the last PPS_OUT rise -/
  ppsAt : Option Nat := none
  deriving DecidableEq, Repr

/-! ## Work queues (03) -/

/-- Work queue states in the order of R105. -/
inductive QState where
  | free | idle | running | waiting | paused | draining | error
  deriving DecidableEq, Repr

/-- A path whose accepted writes a flushing read covers (R53). -/
inductive FlushPath where
  | accel (port link : Nat)
  | edrad (link : Nat)
  | memory (die : Nat)
  deriving DecidableEq, Repr

/-- Where one translated piece of a tile lies (R162, R171, R177). -/
structure Piece where
  va : Nat
  len : Nat
  /-- 0 accelerator, 1 device memory, 2 host, 3 hub memory -/
  target : Nat
  port : Nat
  out : Nat
  /-- size of the leaf page that maps it, 0 for none (R186) -/
  page : Nat
  part : Nat
  pasid : Nat
  region : Nat
  deriving DecidableEq, Repr

/-- How far a tile has come. -/
inductive TileSt where
  /-- waits for a walk of its local buffers (R166) -/
  | walking
  /-- translated: it holds its translations (R177) -/
  | holding
  /-- every access it makes has ended -/
  | finished
  /-- it ended with this status, first offset not placed and page address (R58, R175, R186) -/
  | failed (status off addr : Nat)
  deriving DecidableEq, Repr

/-- One tile of an operation (R57). -/
structure Tile where
  off : Nat
  len : Nat
  st : TileSt := .walking
  /-- pieces of the local buffer (source of a PUT, destination of a GET, local side of a COPY) -/
  loc : List Piece := []
  /-- pieces of the host buffer of a COPY -/
  host : List Piece := []
  /-- offsets and lengths of the packets placed here (GET, COPY) -/
  placed : List (Nat × Nat) := []
  /-- bytes of a GET that will not come: offset, length, status, address (R566) -/
  refused : List (Nat × Nat × Nat × Nat) := []
  deriving DecidableEq, Repr

/-- How an operation ended (R58 to R64, R100). -/
structure Result where
  status : Nat
  cause : Nat := 0
  off : Nat := 0
  addr : Nat := 0
  zeroed : Bool := false
  deriving DecidableEq, Repr

/-- An issued WQE: one operation in flight (R73). -/
structure Op where
  /-- producer count of its WQE -/
  idx : Nat
  wqe : Wqe
  /-- operation length in bytes; the output length of a ROUND (R247) -/
  len : Nat := 0
  handle : Nat := 0
  opnum : Nat := 0
  tiles : List Tile := []
  /-- a completion-queue slot is reserved for it (R99) -/
  slot : Bool := true
  /-- its done record: status, offset, address (R138) -/
  done : Option (Nat × Nat × Nat) := none
  /-- decided outcome, before flushes -/
  result : Option Result := none
  /-- flushing reads before the flag: none issued yet, or how many are outstanding (R54) -/
  flush : Option Nat := none
  /-- tagged for a sample record (R503) -/
  tagged : Bool := false
  /-- instants of its stages (R504): doorbell accepted, fetched, issued, first tile translated, first packet or local write,
  arrival that decides the outcome, flushes returned; 0 for a stage that has not come -/
  doorbell : Nat := 0
  fetchAt : Nat := 0
  issued : Nat := 0
  xlateAt : Nat := 0
  readAt : Nat := 0
  netAt : Nat := 0
  flushAt : Nat := 0
  /-- one of these instants was taken under the time-suspect flag (R504) -/
  suspect : Bool := false
  /-- tiles of a streaming COLL_STEP released so far (R208) -/
  released : Nat := 0
  lastRelease : Nat := 0
  deriving DecidableEq, Repr

/-- A work queue (R70, R77, R105). -/
structure WorkQueue where
  desc : BitVec 256 := 0
  state : QState := .free
  /-- modulo 2^32 -/
  producer : Nat := 0
  /-- next WQE to issue, modulo 2^32 -/
  consumer : Nat := 0
  /-- WQEs ended with OK, modulo 2^64 (R96) -/
  completed : Nat := 0
  /-- entries fetched or pushed and not yet issued, by producer count -/
  fetched : Tab Wqe := []
  /-- when each was fetched or taken, and whether under the time-suspect flag (R504) -/
  fetchedAt : Tab (Nat × Bool) := []
  /-- push slots written since the last doorbell: entry, and whether it came as one aligned write (R89) -/
  push : Tab (Wqe × Bool) := []
  /-- entries fetched with the wrong phase, by producer count: attempts made and when the last was (R92) -/
  refetches : Tab (Nat × Nat) := []
  /-- a PAUSE_WQ whose result is open (R76) -/
  pausing : Bool := false
  /-- status that moved the queue to Draining (R104) -/
  cause : Nat := 0
  /-- when its next WQE became next with every fence satisfied (R97) -/
  waitSince : Option Nat := none
  /-- the fence of its next WQE has been released (R50) -/
  fenceDone : Bool := false
  /-- the wait of its next WQE has been satisfied (R95) -/
  waitDone : Bool := false
  /-- operations in flight, oldest first -/
  ops : List Op := []
  /-- ended WQEs that no entry covers yet (R101) -/
  uncovered : Nat := 0
  /-- turns taken in the round under way, and WEIGHT and BURST as that round took them (R77, R93) -/
  turns : Nat := 0
  weight : Nat := 0
  burst : Nat := 1
  /-- doorbells that cover a WQE not yet issued, oldest first: producer count, when accepted, time suspect (R504) -/
  doorbells : List (Nat × Nat × Bool) := []
  waitingSince : Nat := 0
  deriving DecidableEq, Repr

/-- A completion queue (R78, R99, R102, R108). -/
structure ComplQueue where
  desc : BitVec 256 := 0
  exists_ : Bool := false
  /-- entries written, modulo 2^32 -/
  written : Nat := 0
  /-- HEAD: entries consumed, modulo 2^32 -/
  head : Nat := 0
  armed : Bool := false
  reserved : Nat := 0
  error : Bool := false
  deriving DecidableEq, Repr

/-- A notify counter (R46, R78, R98). -/
structure Counter where
  value : Nat := 0
  part : Nat := 0
  pasid : Nat := 0
  mirrorAddr : Nat := 0
  mirrorKey : Nat := 0
  /-- device time of its last record of a dropped mirror write -/
  dropAt : Option Nat := none
  deriving DecidableEq, Repr

/-- A control window: the command word and the descriptor area at 0x40 (R75, R117). -/
structure Window where
  word : BitVec 64 := 0
  desc : BitVec 512 := 0
  deriving DecidableEq, Repr

/-- The scheduler's turn on a die (R93). -/
structure Turn where
  wq : Nat
  left : Nat
  deriving DecidableEq, Repr

structure QueueSt where
  wqs : Tab WorkQueue := []
  cqs : Tab ComplQueue := []
  ctrs : Tab Counter := []
  /-- queue control window of each partition -/
  windows : Tab Window := []
  /-- the turn under way on each engine die, and the queues that the round under way serves -/
  turns : Tab Turn := []
  rounds : Tab (List Nat) := []
  /-- doorbells stale, doorbells refused and ignored, CQ heads ignored, per engine die (R88, R103, R107) -/
  stale : Tab Nat := []
  refused : Tab Nat := []
  headIgnored : Tab Nat := []
  deriving DecidableEq, Repr

/-! ## Packets between dies (01, 08) -/

/-- A frame in an egress queue or waiting for one. -/
structure Queued where
  pkt : Packet
  /-- priority it travels at, once queued -/
  prio : Nat := 0
  /-- port it arrived on, none from the mesh -/
  from_ : Option Nat := none
  /-- port chosen, once queued -/
  port : Nat := 0
  at_ : Nat := 0
  size : Nat
  /-- sending connection's spray mode (R149) -/
  spray : Nat := 0
  /-- a frame of a management connection (R300) -/
  mgmt : Bool := false
  /-- the dies of the mesh route it is still on, none once it has reached its port die (R21) -/
  via : List Nat := []
  deriving DecidableEq, Repr

/-- A packet between two dies, with the dies its mesh route passes (R21); a frame for a port die's ingress carries how it waits there. -/
structure Carried where
  src : Nat
  dst : Nat
  route : List Nat := []
  pkt : Packet
  frame : Option Queued := none
  deriving DecidableEq, Repr

/-! ## Connections (04) -/

/-- States of a connection end in the order of R117. -/
inductive CState where
  | free | connecting | open_ | broken | closing
  deriving DecidableEq, Repr

/-- What a send half has still to send: everything of the header but PSN and SEND_TIME, and where the payload comes from. -/
structure Desc where
  kind : Nat
  tc : Nat := 2
  rmode : Nat := 0
  last : Bool := false
  opcode : Nat := 0
  dest : Nat := 0
  opnum : Nat := 0
  offset : Nat := 0
  length : Nat := 0
  tile : Nat := 0
  form : Nat := 0
  /-- payload length -/
  plen : Nat := 0
  /-- payload carried in the descriptor (requests, withdrawals, done records, rounded elements) -/
  body : List Byte := []
  /-- pieces the payload is read from at each send (R148); empty when the body holds it -/
  src : List Piece := []
  /-- work queue and producer count of the operation, at an initiator -/
  wq : Nat := 0
  idx : Nat := 0
  /-- first-hop port die of a source route (R295) -/
  die : Option Nat := none
  -- on a tree edge (R255)
  /-- a packet of a local member, read from its window at each send; `inAt` is the offset of its first byte there -/
  mine : Bool := false
  inAt : Nat := 0
  /-- a packet that keeps its header and trailer: replicated, forwarded unreduced, or the partial of a slot -/
  raw : Option Packet := none
  /-- packet it forwards: the edge's handle it came by and its PSN there, acknowledged with its last copy -/
  origin : Option (Nat × Nat) := none
  /-- number of the slot whose partial it is, 0 for none -/
  slot : Nat := 0
  deriving DecidableEq, Repr

/-- A packet that holds a PSN and is not acknowledged (R142). -/
structure Unacked where
  psn : Nat
  desc : Desc
  sent : Nat
  /-- its timer, as it started (R143, R156) -/
  timer : Nat := 64000
  /-- resends counted toward the retry limit (R113, R144) -/
  resends : Nat := 0
  /-- resends since acked-through last advanced: they set its timer (R143) -/
  backoff : Nat := 0
  /-- it has been resent: ACKs of it give no round-trip sample (R141) -/
  resent : Bool := false
  /-- it has been resent for the packets that overtook it (R142) -/
  hopped : Bool := false
  deriving DecidableEq, Repr

/-- A done record (R138). -/
structure Done where
  opnum : Nat
  status : Nat
  off : Nat
  addr : Nat
  deriving DecidableEq, Repr

/-- One end of a connection (R113). -/
structure End where
  initiator : Bool := true
  state : CState := .free
  cause : Nat := 0
  epoch : Nat := 0
  localEp : Nat := 0
  peerEp : Nat := 0
  peerHandle : Nat := 0
  part : Nat := 0
  pasid : Nat := 0
  spray : Nat := 0
  mgmt : Bool := false
  /-- it has been Open: a new CONNECT_REQ names the peer's handle (R118) -/
  established : Bool := false
  /-- EPOCH of the CONNECT_REQ a target end answered (R120) -/
  reqEpoch : Nat := 0
  /-- a group or schedule connection: group, schedule slot + 1 or 0, local and remote rank (R206, R214) -/
  coll : Option (Nat × Nat × Nat × Nat) := none
  -- send half
  nextPsn : Nat := 0
  /-- the initial PSN of this establishment (R119, R120) -/
  firstPsn : Nat := 0
  acked : Nat := 0
  ackMap : BitVec 256 := 0
  srtt : Nat := 0
  rttvar : Nat := 0
  rttValid : Bool := false
  /-- round-trip samples and one-way delays of the last BASE_WINDOW, with the device time of each (R153) -/
  rtts : List (Nat × Nat) := []
  delays : List (Nat × Int) := []
  /-- Bellows rate in Mb/s, and a RATE that MODIFY_CONN wrote and the next update takes (R117) -/
  rate : Nat := 0
  rateSet : Option Nat := none
  window : Nat := 256
  clean : Nat := 0
  nextOp : Nat := 0
  toSend : List Desc := []
  unacked : List Unacked := []
  /-- when a HOLD was last received, and since when it has lasted (R135) -/
  hold : Option Nat := none
  holdStart : Option Nat := none
  /-- RTO_MAX and HOLD_LIMIT in ns as that HOLD took them (R156) -/
  holdFor : Nat := 1024000
  holdLimit : Nat := 25000000
  /-- PSN a REACH named and acked-through has not passed (R130) -/
  reach : Option Nat := none
  /-- when the paced packets sent so far have had their time, in ps; packets of the burst under way (R155; log 55, DEDUCED) -/
  paceAt : Nat := 0
  burst : Nat := 0
  lastSent : Nat := 0
  /-- over the update interval under way: marked and total bytes, largest delay, paced packet sent (R153, R154) -/
  marked : Nat := 0
  total : Nat := 0
  maxDelay : Option Int := none
  pacedSent : Bool := false
  lastUpdate : Nat := 0
  lastDecrease : Option Nat := none
  /-- CONNECT_REQ or CLOSE_REQ sends and the time of the last (R118, R120) -/
  tries : Nat := 0
  triedAt : Nat := 0
  /-- the timeout of that send in ns, as it started (R156) -/
  tryFor : Nat := 1000000
  /-- a CLOSE still gives operations in flight their time (R118) -/
  closeWait : Bool := false
  -- receive half
  recvThrough : Nat := 0
  bitmap : BitVec 256 := 0
  /-- new packets not yet acknowledged, and when the oldest came (R133) -/
  ackPending : Nat := 0
  ackSince : Nat := 0
  /-- ACK_DELAY as its timer started (R156) -/
  ackFor : Nat := 1000
  /-- accepted packets whose ACK waits for a flush or a notification: PSN and operation number (R133) -/
  gated : List (Nat × Nat) := []
  /-- class of the last packet counted -/
  rxTc : Nat := 2
  rxMarked : Nat := 0
  rxTotal : Nat := 0
  rxDelay : Int := 0
  rxEcho : Nat := 0
  lastHeard : Nat := 0
  /-- ORPHAN_TIMEOUT in ns as its timer started (R156) -/
  orphanFor : Nat := 100000000
  /-- device times of end-to-end check failures within a second, and of the last record of them (R146) -/
  checkFails : List Nat := []
  checkEventAt : Option Nat := none
  -- target end
  /-- results of atomics not yet acknowledged: PSN-free list of operation number and old value (R139) -/
  atomics : List (Nat × Nat) := []
  /-- paths that carried bytes a later notification with XPATH covers (R54) -/
  paths : List FlushPath := []
  /-- done records waiting for a packet, and when the oldest came (R138) -/
  doneQ : List Done := []
  doneSince : Nat := 0
  deriving DecidableEq, Repr

/-- How a tile fared at the target (R137, R176). -/
structure TileOutcome where
  off : Nat
  /-- bytes of the tile on the wire -/
  len : Nat := 0
  /-- 0 accepted, else the status it was refused with -/
  status : Nat
  /-- first refused offset -/
  failOff : Nat
  addr : Nat
  pieces : List Piece
  /-- bytes of the tile placed or refused so far, and the packets placed -/
  got : Nat := 0
  placed : List (Nat × Nat) := []
  deriving DecidableEq, Repr

/-- An arrival record (R136). -/
structure Arrival where
  opcode : Nat := 0
  length : Nat := 0
  placed : Nat := 0
  refused : Nat := 0
  tiles : List TileOutcome := []
  /-- lowest refused offset, its status and address -/
  low : Option (Nat × Nat × Nat) := none
  xpath : Bool := false
  /-- counter a collective's transfer asks to add to (R281) -/
  note : Option Nat := none
  /-- PSN of the REQUEST of the operation, for order (R49) -/
  reqPsn : Nat := 0
  /-- the notification REQUEST has come, or none is due -/
  noteDue : Bool := false
  complete : Bool := false
  /-- paths that carried its data (R54) -/
  paths : List FlushPath := []
  /-- flushing reads outstanding -/
  flush : Option Nat := none
  /-- form G or S: base offset, group step flags -/
  form : Nat := 0
  /-- body of its REQUEST (atomic, notification) -/
  body : List Byte := []
  deriving DecidableEq, Repr

/-- A target end that a reset ended: its peer, the epoch it had, when RESET was last answered (R124). -/
structure ResetEnd where
  peerEp : Nat
  peerHandle : Nat
  epoch : Nat
  answered : Option Nat := none
  deriving DecidableEq, Repr

structure ConnSt where
  ends : Tab End := []
  /-- epoch table entries that differ from the last random fill (R116) -/
  epochs : Tab Nat := []
  /-- random fills made so far -/
  fills : Nat := 0
  /-- device time from which DATA, REQUEST and RESPONSE are accepted, while not yet (R116) -/
  holdoff : Option Nat := some 5000000
  /-- arrival records, keyed 2^24 × handle + operation number -/
  arrivals : Tab Arrival := []
  /-- ends in the connection cache of their die, most recently used first (R114) -/
  cached : List Nat := []
  /-- packets that wait for the fill of their end, oldest first, at most 4,096 a die (R114) -/
  waitFill : List Carried := []
  /-- connection control window of each partition (R117) -/
  windows : Tab Window := []
  /-- handle of the open CONNECT, REESTABLISH or CLOSE of each window -/
  busy : Tab Nat := []
  /-- target ends that a reset ended, by handle (R124) -/
  resets : Tab ResetEnd := []
  reservedKinds : Tab Nat := []
  reservedOps : Tab Nat := []
  deriving DecidableEq, Repr

/-! ## Translation (05) -/

/-- A translation context: root (table-area offset) once written, WALK_EN (R158, R180). -/
structure Ctx where
  root : Option Nat := none
  walkEn : Bool := false
  deriving DecidableEq, Repr

/-- One look-aside entry: it maps a page or a merged run of one context (R165, R167). -/
structure Look where
  die : Nat
  part : Nat
  pasid : Nat
  va : Nat
  span : Nat
  page : Nat
  target : Nat
  port : Nat
  out : Nat
  /-- regions whose tiles it translates (R184, scope 3) -/
  regions : List Nat := []
  deriving DecidableEq, Repr

/-- A region descriptor held in a region cache (R165). -/
structure CachedRegion where
  die : Nat
  index : Nat
  word : BitVec 256
  deriving DecidableEq, Repr

/-- A tile listed by an INVALIDATE: an initiator tile of a queue, or a tile at a target end (R185). -/
inductive HeldTile where
  | local_ (wq idx off : Nat)
  | remote (handle opnum off : Nat)
  deriving DecidableEq, Repr

/-- An INVALIDATE in progress (R184 to R187). -/
structure Inval where
  wq : Nat
  idx : Nat
  part : Nat
  scope : Nat
  pasid : Nat
  va : Nat
  len : Nat
  region : Nat
  since : Nat
  /-- INVAL_TIMEOUT in µs as it was issued -/
  timeout : Nat := 1000
  /-- 2 drain, 3 squash, 4 flush -/
  step : Nat
  held : List HeldTile
  /-- paths that accepted a write of a listed tile -/
  paths : List FlushPath
  deriving DecidableEq, Repr

structure XlateSt where
  /-- contexts, keyed 2^20 × partition + PASID -/
  ctxs : Tab Ctx := []
  /-- device copy of the page tables, keyed 2^32 × partition + table-area offset ÷ 8 -/
  ptes : Tab (BitVec 64) := []
  flat : Tab (BitVec 128) := []
  regions : Tab (BitVec 256) := []
  look : List Look := []
  rcache : List CachedRegion := []
  invals : Tab Inval := []
  nextInval : Nat := 0
  /-- tiles that wait for a walk, by queue, producer count and offset, oldest first (R166) -/
  walks : List (Nat × Nat × Nat) := []
  deriving DecidableEq, Repr

/-! ## Collectives and schedules (06) -/

/-- Group states in the order of R227. -/
inductive GState where
  | free | forming | ready
  deriving DecidableEq, Repr

/-- Bytes a member moves within itself: from its input to its output, or as its own contribution to a reduction no tree carries (R198,
R207). -/
structure OwnTile where
  /-- offset in the window's input, in the output, and bytes -/
  src : Nat
  dst : Nat
  len : Nat
  /-- offset of its first byte in the reduction result, for a contribution -/
  acc : Option Nat := none
  /-- a streamed tile whose destination is the member itself: its arrival is counted (R209) -/
  note : Bool := false
  deriving DecidableEq, Repr

/-- A multicast operation at a receiving member, by where it lands (R209): bytes received, whether some were not placed, the counter it asks
for, and flushing reads out for it once it is whole. -/
structure TreeOp where
  got : Nat := 0
  bad : Bool := false
  paths : List FlushPath := []
  note : Option Nat := none
  flush : Option Nat := none
  deriving DecidableEq, Repr

/-- A launched COLL_STEP (R202). -/
structure Launch where
  wq : Nat
  idx : Nat
  rank : Nat
  seq : Nat
  sig : Signature
  since : Nat
  started : Bool := false
  /-- its COLL_STEP has ended -/
  hasEnded : Bool := false
  /-- endpoints fenced when it started (R224) -/
  startFenced : List Nat := []
  /-- output bytes that came or will not come, by the output offset of each packet; the lowest that will not with its status and address,
  and the paths they took -/
  received : Tab Nat := []
  low : Option (Nat × Nat × Nat) := none
  paths : List FlushPath := []
  /-- its reduction is complete in its output -/
  reduced : Bool := false
  /-- multicast operations under way, by where they land -/
  treeOps : Tab TreeOp := []
  /-- what it has still to move within itself -/
  own : List OwnTile := []
  deriving DecidableEq, Repr

/-- A READY held at the coordinator (R203). -/
structure ReadyMsg where
  dev : Nat
  seq : Nat
  sig : Signature
  at_ : Nat
  deriving DecidableEq, Repr

/-- A transfer of a member: one operation to a destination or along a tree, of a dynamic collective (R207) or a schedule step. -/
structure Transfer where
  wq : Nat
  idx : Nat
  rank : Nat
  /-- connection end and operation number, for a transfer to a rank -/
  handle : Nat := 0
  opnum : Nat := 0
  /-- it belongs to a scheduled run -/
  step : Bool := false
  /-- destination rank, or tree number when `tree` -/
  dest : Nat
  tree : Bool
  /-- opcode of R282: 8 COLL_PUT, 9 COLL_ACC, 10 COLL_MCAST -/
  opcode : Nat
  /-- source offset in the window, length, destination base -/
  src : Nat
  len : Nat
  dst : Nat
  ended : Bool := false
  /-- status it ended with, and the lowest failed offset within its bytes -/
  status : Nat := 0
  failOff : Nat := 0
  /-- page address its completion entry names (R100) -/
  failAddr : Nat := 0
  deriving DecidableEq, Repr

/-- A collective group as one device holds it (R192 to R195, R227). -/
structure Group where
  state : GState := .free
  flags : Nat := 0
  timeout : Nat := 100
  retired : Nat := 0xFFFFFFFF
  members : List Nat := []
  accElems : Nat := 0
  seed : Nat := 0
  /-- joins of local members (rank, join) -/
  joins : Tab Join := []
  /-- at the home device: every member's join -/
  homeJoins : Tab Join := []
  /-- the complete member table, once received -/
  table : List Join := []
  /-- group connections opened: key 2^16 × local rank + remote rank, value handle -/
  conns : Tab Nat := []
  launches : List Launch := []
  /-- sequences this device has sent READY for -/
  sent : List Nat := []
  readys : List ReadyMsg := []
  /-- sequences whose ABORT this coordinator has sent and not yet received itself (R204) -/
  aborted : List Nat := []
  transfers : List Transfer := []
  /-- T, DURATION and GATE_CYCLE of its previous scheduled run (R217) -/
  lastRun : Option (Nat × Nat × Nat) := none
  deriving DecidableEq, Repr

/-- A member's part in a scheduled run (R212, R218, R222). -/
structure RunMember where
  rank : Nat
  wq : Nat
  idx : Nat
  ctrs : Tab Nat := []
  /-- WAIT_COUNT pending: counter and value -/
  hold : Option (Nat × Nat) := none
  lastDone : Bool := false
  /-- steps issued and not ended -/
  open_ : Nat := 0
  ended : Bool := false
  deriving DecidableEq, Repr

/-- A scheduled run (R217 to R222). -/
structure Run where
  seq : Nat
  t : Nat
  members : List RunMember := []
  /-- steps issued, as 2^20 × die + index -/
  issued : List Nat := []
  /-- steps issued whose operation has not been carried out -/
  fired : List Nat := []
  /-- a fence or an abort stopped it -/
  stopped : Bool := false
  lateSeen : Bool := false
  layer : Nat := 0xFFFF
  operator : Nat := 0xFFFF
  deriving DecidableEq, Repr

/-- SCHED_STATE and KERNEL_STATE values (R227, R266). -/
inductive LoadState where
  | empty | verifying | resident | refused
  deriving DecidableEq, Repr

/-- A schedule slot (R210 to R216). -/
structure Slot where
  state : LoadState := .empty
  /-- verified, its connections being opened (R214) -/
  opening : Bool := false
  group : Nat := 0
  key : Nat := 0
  addr : Nat := 0
  len : Nat := 0
  hdr : BitVec 1024 := 0
  routes : List (BitVec 128) := []
  /-- step list of each engine die -/
  steps : Tab (List (BitVec 256)) := []
  /-- schedule connections: key 2^16 × local rank + peer rank -/
  conns : Tab Nat := []
  run : Option Run := none
  deriving DecidableEq, Repr

/-- A permutation table and the group it is bound to (R227). -/
structure Perm where
  group : Option Nat := none
  ranks : List Nat := []
  deriving DecidableEq, Repr

structure CollSt where
  groups : Tab Group := []
  perms : Tab Perm := []
  slots : Tab Slot := []
  /-- number of fenced-member lists made, and the last 256 of them by number (R226) -/
  fencedCount : Nat := 0
  fencedLists : Tab (List Nat) := []
  deriving DecidableEq, Repr

/-! ## In-transit arithmetic (07) -/

/-- A wide-sum record (R238). -/
structure WideSum where
  sum : BitVec 320 := 0
  nan : Bool := false
  pinf : Bool := false
  ninf : Bool := false
  nonneg : Bool := false
  deriving DecidableEq, Repr

/-- A reduction-store slot: one chunk of one operation on a tree (R251, R254; log 58, DEDUCED). -/
structure StoreSlot where
  die : Nat
  group : Nat
  tree : Nat
  /-- sequence bits [7:0] and DST_BASE of the operation -/
  seq : Nat
  base : Nat
  chunk : Nat
  exact : Bool
  accOp : Nat
  accFmt : Nat
  count : Nat
  /-- store-format elements: binary32 or INT32 bits, or EP64 words -/
  vals : List Nat
  /-- header of the contribution it was taken for -/
  hdr : BitVec 320
  taken : Nat
  /-- ADMIT_LINGER when it was taken -/
  linger : Nat
  /-- number of its forwarded partial, 0 before it forwards -/
  number : Nat := 0
  deriving DecidableEq, Repr

/-- One end of a tree edge of a port die (R255, R297), keyed 2^14 × port die + edge; its two halves are the connection end with handle
2^20 + that key. -/
structure Edge where
  tree : Nat
  dir : Nat
  group : Nat := 0
  deriving DecidableEq, Repr

/-- A kernel invocation under way (R257, R263). -/
structure Job where
  slot : Nat
  die : Nat
  idx : Nat
  since : Nat
  deriving DecidableEq, Repr

structure ArithSt where
  /-- accumulation areas, keyed 2^33 × (2^16 × group + local rank) + record; tagged by sequence (R244) -/
  areas : Tab WideSum := []
  /-- sequence each area holds, keyed 2^16 × group + rank -/
  areaSeq : Tab Nat := []
  /-- members counted per element at the destination, keyed 2^40 × (2^16 × group + rank) + element (R256) -/
  counts : Tab Nat := []
  slots : List StoreSlot := []
  /-- edges, keyed 2^14 × port die + edge number (R255) -/
  edges : Tab Edge := []
  /-- partials that slots have forwarded, numbered from 1; the model's own -/
  partials : Nat := 0
  kernels : Tab LoadState := []
  /-- bytes of the resident user kernels (R257, R262) -/
  code : Tab (List Byte) := []
  /-- images being verified or resident: key, address, length (R266) -/
  images : Tab (Nat × Nat × Nat) := []
  /-- binding records (R258) -/
  binds : Tab (BitVec 512) := []
  jobs : List Job := []
  deriving DecidableEq, Repr

/-! ## Fabric and ports (08, 09) -/

/-- Link bring-up of a fabric port (R308, R309). -/
inductive Bring where
  /-- no signal -/
  | down
  /-- step 1 done, waiting for auto-negotiation -/
  | signal
  | negotiated
  | linkTrained
  | trained
  /-- a fast retrain, in steps 3 to 5 -/
  | retrain
  deriving DecidableEq, Repr

/-- The die-to-die mesh (R20 to R24, R538, R539). -/
structure MeshSt where
  /-- links (0 to 17, in the order of R20) taken out of service -/
  out : List Nat := []
  /-- links that were out of service when the routes in use were computed -/
  usedOut : List Nat := []
  /-- recomputed routes wait for the old ones to drain -/
  switching : Bool := false
  /-- packets on the mesh, in the order they were sent (R21), and those that wait for the recomputed routes (R24) -/
  carry : List Carried := []
  held : List Carried := []
  /-- repair lanes in use, keyed 8 × link + 2 × module + direction -/
  repairs : Tab Nat := []
  /-- codes of dies marked failed (R24, R539) -/
  failed : List Nat := []
  /-- failed engine dies whose frames are withdrawn since a warm reset (R539) -/
  withdrawnDies : List Nat := []
  deriving DecidableEq, Repr

/-- A contribution or multicast packet of a local member that waits at a port die for the tree (R250, R298). -/
structure TreeItem where
  group : Nat
  seq : Nat
  tree : Nat
  rank : Nat
  desc : Desc
  deriving DecidableEq, Repr

/-- A gate list entry (R324). -/
structure GateEntry where
  gates : Nat
  duration : Nat
  deriving DecidableEq, Repr

/-- A pause received for a priority (R316, R319). -/
structure Pause where
  until_ : Nat
  since : Nat
  deriving DecidableEq, Repr

/-- A fabric port (R305 to R338). -/
structure Port where
  bring : Bring := .down
  /-- when the bring-up step under way began -/
  stepAt : Nat := 0
  /-- rate in Gb/s linked at, 0 when down -/
  rate : Nat := 0
  /-- settings kept from the last successful training -/
  kept : Bool := false
  retrainFails : Nat := 0
  /-- what started the retrain under way (R309) -/
  trigger : Nat := 0
  /-- last ANNOUNCE header received, raw (R271) -/
  heard : Option (BitVec 320) := none
  /-- reason of NEIGHBOURS it is held out for, 0 none (R273) -/
  heldOut : Nat := 0
  /-- the fence of its neighbour removed it (R301) -/
  fenced : Bool := false
  /-- it stopped carrying traffic to send a wake pattern (R337) or for entry or reset -/
  stopped : Bool := false
  /-- cores serving lanes 0 to 3 -/
  cores : List Nat := []
  /-- windows in a row over LANE_WEAR_SER, per lane -/
  wearRow : Tab Nat := []
  wornNoStock : Bool := false
  failed : Bool := false
  /-- ingress-hold occupancy and XOFF asserted, per priority (R314, R315) -/
  hold : Tab Nat := []
  xoff : Tab Nat := []
  /-- pauses in force per priority -/
  paused : Tab Pause := []
  /-- pending flow-control frames: priority and pause time -/
  pfcOut : List (Nat × Nat) := []
  /-- PTP messages that wait for a frame boundary: 0 Sync, 1 Pdelay request (R320, R327) -/
  ptpOut : List Nat := []
  buckets : Tab Int := []
  /-- rates of TC2's and TC3's shapers since their last refill; no entry is unshaped (R322) -/
  shapers : Tab Nat := []
  /-- weights of TC2 and TC3 in the round under way (R322) -/
  weights : Option (Nat × Nat) := none
  deficit2 : Nat := 0
  deficit3 : Nat := 0
  /-- last class served of TC2 and TC3, and last priority served per class (R320) -/
  lastBulk : Nat := 3
  lastPrio : Tab Nat := []
  /-- frames queued, in order -/
  egress : List Queued := []
  gateList : List GateEntry := [⟨15, 1000000⟩]
  gateBase : Nat := 0
  /-- accepted list, its GATE_BASE and the instant it takes effect -/
  gatePending : Option (List GateEntry × Nat × Nat) := none
  /-- gates as of the entry running -/
  gates : Nat := 15
  /-- after a step of time: no gate but TC0's until the next cycle start (R331) -/
  stepClosed : Bool := false
  /-- high-water marks per TC: depth, delay (R335) -/
  hwm : Tab (Nat × Nat) := []
  /-- one XOFF headroom warning per bring-up (R317) -/
  warned : Bool := false
  /-- next free instant of the transmitter -/
  busyUntil : Nat := 0
  /-- instants of the last ANNOUNCE, Sync and Pdelay request sent and of the last shaper refill -/
  lastAnnounce : Nat := 0
  lastSyncTx : Option Nat := none
  lastPdelayTx : Option Nat := none
  refillAt : Option Nat := none
  /-- MAC address of the neighbour's port (R278) -/
  farMac : Nat := 0
  deriving DecidableEq, Repr

structure FabricSt where
  ports : Tab Port := []
  /-- frames waiting at each port die's ingress or at engine dies, oldest first (R291), by port die -/
  waiting : Tab (List Queued) := []
  trees : Tab (BitVec 128) := []
  /-- tree entries in each port die's cache, most recent first, as 2^20 × die + tree (R296) -/
  treeCache : List Nat := []
  /-- what waits at each port die to enter a tree, oldest first -/
  treeIn : Tab (List TreeItem) := []
  /-- endpoints fenced, as last notified (R300) -/
  fenced : List Nat := []
  /-- stock cores left and failed cores, per port die (R310) -/
  stock : Tab (List Nat) := []
  failedCores : Tab (List Nat) := []
  /-- sample rings: records written, and the last sampling instant (R334) -/
  ringTotal : Tab Nat := []
  sampledAt : Tab Nat := []
  /-- port latched by the last wake match (R336) -/
  wakePort : Nat := 0
  /-- first port trained at (R446, R447) -/
  firstTrained : Option Nat := none
  noManagerSaid : Bool := false
  /-- last generation-mismatch record per port (R302) -/
  genEvent : Tab Nat := []
  deriving DecidableEq, Repr

/-! ## Host links and accelerator ports (10) -/

/-- LINK_STATE (R373). -/
inductive LState where
  | down | training | active | outage | idle
  deriving DecidableEq, Repr

/-- The EHA-6 card as far as the host and the device see it (R356 to R358). -/
structure Card where
  /-- every downstream slot is reported empty -/
  lost : Bool := true
  /-- it holds further host requests (SLEEP_REQ) -/
  holding : Bool := false
  /-- host requests held, each with when it came -/
  held : List (Nat × Nat) := []
  /-- occupied slots (device numbers 0 to 16) -/
  slots : List Nat := []
  /-- error events logged per downstream port -/
  aer : Tab Nat := []
  /-- speed and width reported per downstream port -/
  status : Tab (Nat × Nat) := []
  hotplug : Nat := 0
  deriving DecidableEq, Repr

/-- What a request at the host carries beside its address: the partition whose function's requester ID it has, the slice's PASID where the
function's PASID capability is enabled, the Relaxed Ordering attribute (R368, R369). -/
structure HostTag where
  part : Nat
  pasid : Option Nat := none
  relaxed : Bool := false
  deriving DecidableEq, Repr

/-- A host-bound request: what leaves over an Edrad link, or waits in the outbound queue of an attach die (R351). -/
inductive HostTlp where
  | write (tag : HostTag) (addr : Nat) (data : List Byte)
  | read (tag : HostTag) (addr len : Nat)
  | atomic (tag : HostTag) (addr code size operand compare : Nat)
  | msix (part vector : Nat)
  /-- a flushing read: a zero-length read (R53, R369) -/
  | flush (tag : HostTag) (addr : Nat)
  deriving DecidableEq, Repr

/-- An Edrad link (R341 to R357). -/
structure Edrad where
  state : LState := .down
  /-- training step done, 0 none (R347) -/
  step : Nat := 0
  stepAt : Nat := 0
  fast : Bool := false
  fastFails : Nat := 0
  kept : Bool := false
  /-- it has been Active since the last host-domain, warm or cold reset (R352) -/
  everActive : Bool := false
  outageAt : Nat := 0
  /-- HOST_LOSS_TIMER in ms when the outage began (R373) -/
  lossMs : Nat := 20
  epoch : Nat := 0
  peerEpoch : Option Nat := none
  /-- sending side -/
  nextSeq : Nat := 1
  /-- SEQs of the replay buffer, oldest first -/
  replay : List Nat := []
  /-- headers of the flits kept, by SEQ, without the fields that tell of the other direction (R342, R344) -/
  headers : Tab Nat := []
  /-- resends of the oldest unacknowledged flit -/
  resends : Nat := 0
  /-- receiving side: last SEQ in order, and discarding after a NAK -/
  recvSeq : Nat := 0
  /-- a flit has been received in order: ACK is meaningful (R342) -/
  recvAny : Bool := false
  discarding : Bool := false
  /-- the outbound queue of the attach die, oldest first (R351) -/
  outbound : List HostTlp := []
  /-- tag and address of the last data write that left for the queue or the link (R369) -/
  lastWrite : Option (HostTag × Nat) := none
  /-- credits: posted header, posted data, non-posted header, non-posted data (R343) -/
  credits : List Nat := [0, 0, 0, 0]
  /-- a SLEEP_REQ has been sent, SLEEP_ACK received -/
  sleeping : Bool := false
  sleepAcked : Bool := false
  unknownCodes : Nat := 0
  card : Card := {}
  deriving DecidableEq, Repr

/-- An accelerator port (R362 to R367). -/
structure Accel where
  owner : Option Nat := none
  /-- 0 none, 1 link 0, 2 link 1 -/
  bound : Nat := 0
  bifurcated : Bool := false
  up : Bool := false
  /-- second link of a bifurcated port -/
  upB : Bool := false
  speed : Nat := 0
  width : Nat := 0
  flit : Bool := false
  /-- speed, width and FLIT mode of the second link -/
  linkB : Nat × Nat × Bool := (0, 0, false)
  isolated : Bool := false
  /-- a host-domain reset isolated it, until its link is Active (R355) -/
  byHost : Bool := false
  inReset : Bool := true
  /-- since when its link is down or retraining -/
  downAt : Option Nat := none
  /-- ACCEL_LOSS_TIMER in ms when it went down (R373) -/
  lossMs : Nat := 20
  /-- in L1 or disabled for a power state -/
  lowPower : Bool := false
  /-- ACS controls: bit 0 P2P request redirect, bit 1 egress control; egress vector -/
  acs : Nat := 0
  egress : Nat := 0
  deriving DecidableEq, Repr

/-- Settings of a partition function or downstream port that SETTINGS wrote (R348, R359). -/
structure Func where
  bus : Nat := 0
  base : Nat := 0
  limit : Nat := 0
  command : Nat := 0
  acs : Nat := 0
  pasidEn : Bool := false
  relaxed : Bool := false
  /-- MSI-X table entries written, vector to (address, data, mask) -/
  msix : Tab (Nat × Nat × Nat) := []
  msixPending : List Nat := []
  /-- errors logged in its AER registers (R361) -/
  aer : Nat := 0
  deriving DecidableEq, Repr

structure LinkSt where
  edrad : Tab Edrad := []
  accel : Tab Accel := []
  /-- partition functions, by partition; downstream ports, by 16 + 17 × link + number -/
  funcs : Tab Func := []
  /-- partitions bound to each link, in force -/
  boundParts : Tab (List Nat) := []
  /-- BAR4 accesses that the memory holds, oldest first: partition, device address, access (R361, R388, R394) -/
  barWait : List (Nat × Nat × BarOp) := []
  /-- host-domain reset in progress: link and trigger (R354) -/
  hdr : Tab Nat := []
  /-- next copy engine of each attach die (R371) -/
  nextEngine : Tab Nat := []
  deriving DecidableEq, Repr

/-! ## Device memory (11) -/

/-- A memory channel slot of an engine die (R387 to R391). -/
structure Chan where
  /-- served by channel 16 -/
  onSpare : Bool := false
  worn : Bool := false
  /-- failed with no spare: accesses end with MEDIA_ERROR (R390) -/
  dead : Bool := false
  /-- darn in progress: segments copied, and when it began -/
  darn : Option Nat := none
  /-- instant of the last correction of each unit within one hour, in all and by data pin (R387) -/
  corr : Tab Nat := []
  pinCorr : Tab (Tab Nat) := []
  deriving DecidableEq, Repr

/-- Where a worn or lost block stands in the remap table (R386). -/
inductive Remap where
  /-- copied to a pool block, not yet in effect -/
  | copying
  | pool
  | lost
  deriving DecidableEq, Repr

structure MemSt where
  /-- device memory, by device address; unlisted bytes read zero (R394) -/
  bytes : Tab Byte := []
  /-- hub memory of endpoint 9, by address in the hub's context (R37, R381) -/
  hub : Tab Byte := []
  /-- channel slots, keyed 8 × engine die + slot -/
  chans : Tab Chan := []
  /-- spare in use, per package (R16) -/
  spareUsed : List Nat := []
  /-- 64-byte units that are uncorrectable -/
  bad : List Nat := []
  /-- remap table entries, by block number -/
  remaps : Tab Remap := []
  /-- device times of corrections of each block within 24 hours (R386) -/
  blockCorr : Tab (List Nat) := []
  /-- wear list kept in flash: blocks remapped -/
  wearList : List Nat := []
  poolFull : List Nat := []
  /-- engine dies that interleave over seven channels (R391) -/
  seven : List Nat := []
  /-- the channel slot (0 to 7) each of them has lost -/
  dropped : Tab Nat := []
  /-- scrub position per die, in units -/
  scrubAt : Tab Nat := []
  /-- bandwidth limit by temperature per package: 0 none, 2 half, 4 a quarter (R392) -/
  limit : Tab Nat := []
  /-- device time of the last refresh of each bank, keyed 64 × (8 × die + slot) + bank -/
  refreshed : Tab Nat := []
  /-- zeroing after a cold reset or Sleep is under way (R394) -/
  zeroing : Bool := true
  selfRefresh : Bool := false
  deriving DecidableEq, Repr

/-! ## Partitions (12) -/

/-- PART_STATE (R414). -/
inductive PState where
  | off | up | resetting
  deriving DecidableEq, Repr

/-- A range in force: base and count. -/
structure Range where
  base : Nat := 0
  count : Nat := 0
  deriving DecidableEq, Repr

/-- A partition or slice reset under way (R409). -/
structure PReset where
  /-- 3 drain, 5 flush, then zeroing -/
  step : Nat := 3
  stepAt : Nat := 0
  /-- 1 PART_CMD, 2 function-level reset, 3 host-domain reset (R408); 0 the drain of a warm reset, a power-down or Sleep -/
  trigger : Nat := 0
  /-- the data range is zeroed too -/
  zero : Bool := false
  /-- the slice is freed at the end -/
  destroy : Bool := false
  /-- paths that writes of the partition under way at step 1 take (R409 step 5) -/
  paths : List FlushPath := []
  /-- flushing reads still outstanding -/
  flushes : Nat := 0
  /-- RESET_DRAIN when it began, in µs -/
  drain : Nat := 200
  /-- accesses squashed in step 4 -/
  squashed : Nat := 0
  /-- a path that was not Active at step 5 (R411) -/
  unflushed : Option Nat := none
  deriving DecidableEq, Repr

/-- What a partition holds in force (R396 to R400). -/
structure Part where
  enabled : Bool := false
  state : PState := .off
  domain : Nat := 0
  mem : Range := {}
  /-- units of 4 MiB -/
  tableSize : Nat := 0
  regions : Range := {}
  flat : Range := {}
  wq : Range := {}
  cq : Range := {}
  ctr : Range := {}
  quotaEnds : Nat := 0
  quotaOps : Nat := 0
  quotaSlices : Nat := 1
  doorbellCheck : Bool := true
  /-- PASIDs of its slices other than 0 -/
  slices : List Nat := []
  /-- resets under way: key 0 for the partition, PASID + 1 for a slice -/
  resets : Tab PReset := []
  deriving DecidableEq, Repr

structure PartSt where
  parts : Tab Part := []
  /-- collective area in force (R378) -/
  collArea : Range := {}
  /-- units of 4 KiB of the collective area in use, per engine die (R193, R380) -/
  collUsed : Tab Nat := []
  deriving DecidableEq, Repr

/-! ## The dictionary server (13) -/

/-- A staged record a session is supplying (R418): its entry, its whole length, the bytes held, when the last piece came. -/
structure Staged where
  key : Nat
  total : Nat
  data : List Byte
  last : Nat
  deriving DecidableEq, Repr

/-- One answered command record (R429): the record, its RESULT, its data. -/
structure Answer where
  cmd : Cmd
  result : Nat
  data : List Byte
  deriving DecidableEq, Repr

/-- A response frame: session, COUNTER and TRANSACTION of its request, and its records (R428, R433). -/
structure Response where
  session : Nat
  counter : Nat
  transaction : Nat
  answers : List Answer
  /-- the session's key, under which its tag is computed; none in session 0 -/
  key : Option (BitVec 256) := none
  deriving DecidableEq, Repr

/-- A Farnen session (R432, R433, R475); privilege codes as R455. -/
structure Session where
  priv : Nat
  part : Nat
  path : FPath
  epoch : Nat
  key : BitVec 256
  /-- last client COUNTER accepted -/
  counter : Nat := 0
  /-- COUNTER of the next NOTICE the device sends -/
  devCounter : Nat := 1
  kept : Option Response := none
  lastFrame : Nat := 0
  staged : Option Staged := none
  /-- own selectors, by dictionary key (R421) -/
  sels : Tab Nat := []
  /-- its last attestation report (R473) -/
  report : List Byte := []
  /-- the open debug nonce it drew and when (R474) -/
  nonce : Option (List Byte × Nat) := none
  deriving DecidableEq, Repr

/-- A request waiting for the server (R431). -/
structure Request where
  path : FPath
  session : Nat
  counter : Nat
  transaction : Nat
  notice : Bool
  cmds : List Cmd
  /-- the key of its session -/
  key : Option (BitVec 256) := none
  deriving DecidableEq, Repr

/-- The request the server runs: the records still to run and those answered. -/
structure Running where
  req : Request
  todo : List Cmd
  answers : List Answer := []
  /-- it has written a stored entry, so its response waits for the commit (R424) -/
  stored : Bool := false
  /-- it holds a write whose result comes at the end of a reset (R404) -/
  waiting : Bool := false
  /-- once its response is sent the management connections close (R275) -/
  closeMgmt : Bool := false
  deriving DecidableEq, Repr

/-- A mailbox (R434). -/
structure Mailbox where
  respLength : Nat := 0
  vector : Nat := 0
  irqEn : Bool := false
  done : Bool := false
  running : Bool := false
  resp : Option Response := none
  deriving DecidableEq, Repr

/-- One flash bank of stored entries (R424, R458). -/
structure Bank where
  count : Nat := 0
  entries : Tab (List Byte) := []
  /-- its digest and tag check -/
  good : Bool := false
  deriving DecidableEq, Repr

structure FarSt where
  sessions : Tab Session := []
  nextSession : Nat := 1
  queue : List Request := []
  running : Option Running := none
  /-- responses held for the commit that is due -/
  held : List (FPath × Response) := []
  /-- the management connections close once they are sent (R275) -/
  closeMgmt : Bool := false
  mailboxes : Tab Mailbox := []
  sideband : Option Response := none
  /-- the last sideband request came on I3C, not on I2C or SMBus (R436) -/
  sideI3c : Bool := true
  bankA : Bank := {}
  bankB : Bank := {}
  /-- a commit is due, and when the last one ended (R424) -/
  commitDue : Bool := false
  lastCommit : Option Nat := none
  /-- GENERATION of the Pattern Table (R439) -/
  patternGen : Nat := 1
  /-- generation in force: 2 current, 1 generation 1 (R443) -/
  generation : Nat := 2
  deriving DecidableEq, Repr

/-! ## The manager (13) -/

/-- A journal record (R451): sequence, target coordinates, entry, data, and whether it is acknowledged or completed. -/
structure Journal where
  seq : Nat
  target : Nat
  key : Nat
  data : List Byte
  sentAt : Nat := 0
  acked : Bool := false
  deriving DecidableEq, Repr

structure MgrSt where
  /-- ROLE_ACTIVE: 0 worker, 1 system manager, 2 standby, 3 sub-manager, 4 manager stopped -/
  role : Nat := 0
  epoch : Nat := 0
  id : Nat := 0
  witnesses : List Nat := []
  standbySync : Bool := false
  /-- time of the last HEARTBEAT_ACK of each witness -/
  acks : Tab Nat := []
  lastBeat : Nat := 0
  /-- last HEARTBEAT received -/
  heard : Nat := 0
  /-- when the LOSS_QUERY under way was sent -/
  query : Option Nat := none
  /-- when this role began, or most witnesses last acknowledged -/
  since : Nat := 0
  journal : List Journal := []
  journalSeq : Nat := 0
  /-- last HEARTBEAT_ACK of each sub-manager, and those taken as lost -/
  subHeard : Tab Nat := []
  subLost : List Nat := []
  deriving DecidableEq, Repr

/-! ## Identity, firmware and keyed checks (14) -/

/-- A key slot: 0 empty, 1 active, 2 revoked (R460). -/
structure KeySlot where
  state : Nat := 0
  digest : BitVec 256 := 0
  deriving DecidableEq, Repr

/-- A bank of an image kind (R466, R476): state 0 empty, 1 verifying, 2 valid, 3 refused, 4 running, 5 taking
the pieces of a staged image, shown as empty. -/
structure ImageBank where
  state : Nat := 0
  preferred : Bool := false
  version : Nat := 0
  svn : Nat := 0
  signerClass : Nat := 0
  signerSlot : Nat := 0
  data : List Byte := []
  deriving DecidableEq, Repr

structure SecSt where
  /-- slots, keyed 4 × class + slot (0 vendor, 1 owner) -/
  slots : Tab KeySlot := []
  ownerExclusive : Bool := false
  /-- OWNER_EXCLUSIVE as the running firmware checks apply it: from the next warm reset on (R463) -/
  ownerOnly : Bool := false
  /-- an owner slot has been written at some time (R461) -/
  ownerEver : Bool := false
  provisioned : Bool := false
  /-- KEY_EPOCH: Platform, Operator, Meter, Tenant 0 to 11 -/
  epochs : Tab Nat := []
  /-- fused security counters of kinds 1 to 5 (R467) -/
  svn : Tab Nat := []
  /-- banks, keyed 2 × kind + bank -/
  banks : Tab ImageBank := []
  /-- measurement registers (R472) -/
  measure : Tab (BitVec 256) := []
  reportCount : Nat := 0
  debug : Nat := 0
  randomOk : Bool := true
  recovery : Bool := false
  deriving DecidableEq, Repr

/-! ## The metering die (15) -/

/-- Cumulative values of a partition in MTR (R477). -/
structure MPart where
  active : Nat := 0
  fabric : Nat := 0
  host : Nat := 0
  deriving DecidableEq, Repr

/-- A record of MTR: its body fields, and whether it has been read out (R483, R487). -/
structure MRecord where
  event : Nat
  flags : Nat
  seq : Nat
  start : Nat
  stop : Nat
  elapsed : Nat
  energy : Nat
  peak : Nat
  audit : Nat
  prev : BitVec 256
  fw : Nat
  cal : Nat
  unattributed : Nat
  parts : List (MPart × Nat)
  sig : List Byte
  collected : Bool := false
  deriving DecidableEq, Repr

/-- What MTR measures: cumulative values and the open interval (R477 to R482, R489). -/
structure Metered where
  /-- µJ measured since manufacture; ENERGY_TOTAL is its mJ -/
  energy : Nat := 0
  parts : Tab MPart := []
  rails : Tab Nat := []
  -- the open interval
  start : Nat := 0
  elapsed : Nat := 0
  startEnergy : Nat := 0
  startParts : Tab MPart := []
  flags : Nat := 0
  peak : Nat := 0
  /-- ns not attributed -/
  unattributed : Nat := 0
  deriving DecidableEq, Repr

structure MtrSt where
  m : Metered := {}
  snapshot : Metered := {}
  records : List MRecord := []
  nextSeq : Nat := 0
  audit : Nat := 0
  interval : Nat := 900
  cal : Nat := 0
  fw : Nat := 0
  /-- pending seal changes: action and value (R492) -/
  pending : List (Nat × Nat) := []
  sealOpen : Bool := false
  feedLoss : Bool := false
  powered : Bool := true
  /-- MTR's own clock in ns, and its value at the last accepted frame and snapshot -/
  clock : Nat := 0
  lastFrameAt : Nat := 0
  snapshotAt : Nat := 0
  /-- last accepted frame -/
  last : Option Feed := none
  /-- METER_STATE as the hub shows it absent (R490) -/
  absent : Bool := true
  /-- the partitions wait for MTR's answer to come Up (R490) -/
  bootWait : Bool := false
  /-- mean power of the last second, 0.1 W -/
  power : Nat := 0
  /-- STATUS left unanswered since (R490) -/
  statusAsked : Option Nat := none
  -- hub side of the feed (R479)
  feedEpoch : Nat := 0
  feedNumber : Nat := 0
  fabricBytes : Tab Nat := []
  hostBytes : Tab Nat := []
  deriving DecidableEq, Repr

/-! ## Counters, sampling and the event recorder (16) -/

/-- A programmable counter (R497). -/
structure Pctr where
  source : Nat := 0
  part : Nat := 0
  queue : Nat := 0
  layer : Nat := 0
  operator : Nat := 0
  enable : Bool := false
  owner : Nat := 0xFF
  value : Nat := 0
  deriving DecidableEq, Repr

/-- A histogram (R502). -/
structure Hist where
  owner : Nat := 0
  kind : Nat := 0
  object : Nat := 0
  bins : Tab Nat := []
  deriving DecidableEq, Repr

/-- Bytes of a link over windows (R501). -/
structure BwLink where
  sent : Nat := 0
  received : Nat := 0
  lastSent : Nat := 0
  lastReceived : Nat := 0
  peakSent : Nat := 0
  peakReceived : Nat := 0
  deriving DecidableEq, Repr

/-- PART_BW of a partition: open window and last window of fabric sent, fabric placed, host bytes (R501). -/
structure BwPart where
  sent : Nat := 0
  placed : Nat := 0
  host : Nat := 0
  last : Nat × Nat × Nat := (0, 0, 0)
  deriving DecidableEq, Repr

/-- A sample FIFO and its configuration (R503 to R509). The device holds each pointer twice (R509); a pointer counts words modulo
8,192, so that a full FIFO is told from an empty one (log 82, DESIGN CHOICE). -/
structure Sfifo where
  owner : Nat := 0xFF
  enable : Bool := false
  period : Nat := 1
  part : Nat := 0xFF
  queue : Nat := 0xFFFFFFFF
  opcodes : Nat := 0
  layer : Nat := 0xFFFF
  /-- passing WQEs since the last tagged one -/
  passed : Nat := 0
  inFlight : Nat := 0
  words : List (BitVec 64) := []
  /-- the two copies of the read pointer -/
  readPtr : Nat × Nat := (0, 0)
  /-- the two copies of the write pointer -/
  writePtr : Nat × Nat := (0, 0)
  lost : Nat := 0
  epoch : Nat := 0
  resets : Nat := 0
  written : Nat := 0
  deriving DecidableEq, Repr

/-- An event record (R510). -/
structure EventRec where
  seq : Nat
  code : Nat
  severity : Nat
  part : Nat
  die : Nat
  island : Nat
  suspect : Bool
  time : Nat
  detail : List Nat
  deriving DecidableEq, Repr

/-- A flash copy of the recorder: which copy it is, its records, whether its tag checks. -/
structure RecCopy where
  number : Nat := 0
  records : List EventRec := []
  lost : Tab Nat := []
  good : Bool := false
  deriving DecidableEq, Repr

structure ObsSt where
  /-- programmable counters, keyed 64 × die + n -/
  pctr : Tab Pctr := []
  /-- histograms, keyed 4 × die + n -/
  hist : Tab Hist := []
  bw : Tab BwLink := []
  partBw : Tab BwPart := []
  /-- window length in force, and the window under way: its start (R501) -/
  bwLen : Nat := 1048576
  bwStart : Nat := 0
  /-- when a new BW_WINDOW takes effect -/
  bwPending : Option Nat := none
  sfifo : Tab Sfifo := []
  events : List EventRec := []
  /-- record number of the next record, cold-boot count, and that this boot could not raise it (R511) -/
  nextRec : Nat := 0
  coldBoots : Nat := 1
  bootsSpent : Bool := false
  lost : Tab Nat := []
  copyA : RecCopy := {}
  copyB : RecCopy := {}
  /-- a copy under way: its records; a further one waits (R513) -/
  copying : Option (List EventRec) := none
  copyWaits : Bool := false
  deriving DecidableEq, Repr

/-! ## Power, resets and long service (17) -/

/-- POWER_STATE (R541). -/
inductive PowerState where
  | active | idle | standby | sleep | entering | leaving
  deriving DecidableEq, Repr

/-- WAKE_REPORT (R541). -/
structure WakeReport where
  source : Nat := 0
  left : Nat := 0
  latched : Bool := false
  discarded : Bool := false
  portLink : Nat := 0
  i3c : Nat := 0
  entryStart : Nat := 0
  exitStart : Nat := 0
  activeAt : Nat := 0
  deriving DecidableEq, Repr

structure PowSt where
  state : PowerState := .active
  /-- target of an entry, or state left: 2 Standby, 3 Sleep -/
  target : Nat := 0
  /-- entry step 1 to 9 under way (R520), 0 none -/
  step : Nat := 0
  stepAt : Nat := 0
  entryStart : Nat := 0
  /-- first event latched during entry: source number of WAKE_REPORT, port or link (R521) -/
  latch : Option (Nat × Nat) := none
  /-- WAKE_AT has fired since it was written -/
  timerDone : Bool := false
  /-- wake stage 1 to 4 under way (R523), 0 none, its start, and attempts made -/
  stage : Nat := 0
  stageAt : Nat := 0
  attempts : Nat := 0
  exitStart : Nat := 0
  source : Nat := 0
  wakePort : Nat := 0
  /-- stays in Sleep until a cold reset (R524) -/
  stuck : Bool := false
  /-- a WARM_RESET_N that fell during entry, Standby or Sleep (R529), and an orderly power-down so requested (R553) -/
  warmAfter : Bool := false
  pwrdnAfter : Bool := false
  lateWakes : Nat := 0
  report : WakeReport := {}
  idleSince : Nat := 0
  /-- warm reset step 1 to 6 under way (R528), 0 none -/
  warm : Nat := 0
  cause : Nat := 0
  /-- cold boot step 1 to 6 under way (R469), 0 none -/
  boot : Nat := 0
  /-- last management-core watchdog expiry (R531) -/
  watchdogAt : Option Nat := none
  /-- RESET_REPORT: scope (1 cold, 2 warm), cause, time -/
  lastReset : Nat × Nat × Nat := (0, 0, 0)
  -- darning
  /-- withdrawn clusters and arrays, keyed 8 × die + n; spare clusters in use, by die: the cluster each replaces -/
  clustersOut : List Nat := []
  arraysOut : List Nat := []
  clusterSpare : Tab Nat := []
  /-- worn clusters waiting to be quiescent -/
  clusterDarn : List Nat := []
  /-- corrected errors of a cluster or core within an hour, and when counting began -/
  unitCe : Tab (Nat × Nat) := []
  coreSpare : Option Nat := none
  /-- a core asked to be parked, since when -/
  coreDarn : Option (Nat × Nat) := none
  /-- repairs pending and applied, spares used, by die -/
  sramPending : Tab Nat := []
  sramApplied : Tab Nat := []
  sramUsed : Tab Nat := []
  /-- corrections of an SRAM row or column within 24 hours: die, array, line -/
  sramCe : List (Nat × Nat × Nat × Nat × Nat) := []
  sramEntered : List (Nat × Nat × Nat) := []
  deriving DecidableEq, Repr

/-! ## Pins and electrical state (18) -/

/-- Pins, rails, clocks, temperatures and throttling as far as the device reads or drives them (R546 to R562; log 93, DESIGN CHOICE). -/
structure ElecSt where
  /-- COLD_RESET_N and WARM_RESET_N as driven -/
  coldN : Bool := true
  warmN : Bool := true
  /-- straps as driven now: GENSEL, MGR_EN, BOOTSEL -/
  gensel : Bool := false
  mgrEn : Bool := false
  bootsel : Nat := 0
  /-- straps as sampled (R547) -/
  genselS : Bool := false
  mgrEnS : Bool := false
  bootselS : Nat := 0
  pwrdnRdy : Bool := false
  thermtrip : Bool := false
  alert : Bool := false
  /-- the device is held in reset for a lost or missing power-good, or for power-down -/
  held : Bool := false
  /-- it waits for missing power-goods to start the cold boot (R551) -/
  waitPg : Bool := false
  /-- an orderly power-down is under way (R553) -/
  pwrdn : Bool := false
  /-- rails (in the order of R548, VCORE_ENG 0 to 7 first) whose power-good is missing -/
  pgLost : List Nat := []
  /-- VAON was lost since the last cold reset (R554) -/
  vaonLost : Bool := true
  /-- reference clocks absent, 0 FAB, 1 PCIE, 2 SYS, 3 AON -/
  clocksOut : List Nat := []
  ppm : Tab Int := []
  /-- voltages set over AVSBus of the VCORE rails, in mV; no entry is the 0.75 V the regulator stage starts at (R549) -/
  vcore : Tab Nat := []
  /-- hottest readings in 0.1 °C, by Pattern Table die index, then packages -/
  temps : Tab Int := []
  /-- clocks in eighths, by engine die, 8 for the hub -/
  eighths : Tab Nat := []
  /-- throttled by temperature, by die; by power -/
  hot : List Nat := []
  powerHot : Bool := false
  railMv : Tab (Nat × Nat) := []
  /-- instants of the last sensor reading, throttle step and power check (R559 to R561) -/
  tempsAt : Option Nat := none
  throttleAt : Option Nat := none
  limitAt : Option Nat := none
  deriving DecidableEq, Repr

/-! ## What leaves the device -/

/-- Everything the device does outside itself, in order; the model's own record, no state of the manual (log 86, DESIGN CHOICE). -/
inductive Out where
  /-- a frame leaves fabric port `port` at a priority: its bytes -/
  | frame (port prio : Nat) (data : List Byte)
  /-- an ANNOUNCE link frame leaves fabric port `port`: its bytes (R271) -/
  | announce (port : Nat) (data : List Byte)
  /-- a flow control frame (2), a PTP message (3) or a wake code (4) leaves a port -/
  | link (port kind : Nat) (args : List Nat)
  /-- a write reaches an accelerator's memory: target as Piece, port, address, data -/
  | write (target port addr : Nat) (data : List Byte)
  /-- an atomic at an accelerator's memory: 0 FetchAdd, 1 Swap, 2 CAS, and its operand size in bytes (R39) -/
  | atomic (target port addr code size operand compare : Nat)
  /-- a request leaves for a host over an Edrad link (R368) -/
  | host (link : Nat) (x : HostTlp)
  /-- a flit leaves on an Edrad link: its header (R342) -/
  | flit (link : Nat) (hdr : BitVec 64)
  /-- a flushing read of a path that leads to no host (R53) -/
  | flush (path : FlushPath)
  /-- an MSI-X vector of a partition function is raised -/
  | msix (part vector : Nat)
  /-- a control message or action on an Edrad link, its code as R348 -/
  | edrad (link code : Nat) (args : List Nat)
  /-- the card acts towards its host: 2 wake burst, 3 a request completed with Unsupported Request, 4 a request passed on, 5 a request
  whose late completion is discarded -/
  | card (link what arg : Nat)
  /-- a host request through a partition's function completes: 0 successful, 1 Unsupported Request, 2 Completer Abort; data -/
  | completion (part status : Nat) (data : List Byte)
  /-- a request of an accelerator port is routed: 0 peer, 1 function, 2 host, 3 refused -/
  | accel (port route arg : Nat)
  /-- a Farnen response frame: its bytes (R428) -/
  | farnen (path : FPath) (data : List Byte)
  /-- the sideband has a response: an In-Band Interrupt on I3C, else ALERT_N -/
  | sideReady (i3c : Bool)
  /-- what a private read on the sideband returns: a U16 length, then the response frame (R436) -/
  | sideband (data : List Byte)
  /-- a Farnen NOTICE or manager message: code, destination coordinates, arguments -/
  | notice (code dest : Nat) (args : List Nat)
  /-- the device-time distribution word -/
  | distribution (time : Nat)
  /-- a feed frame to MTR -/
  | feed (f : Feed)
  /-- a group message to another device's hub: 1 join, 2 member table, 3 READY, 4 START, 5 ABORT -/
  | coll (kind group dest : Nat) (args : List Nat)
  /-- a pin level: 0 PPS_OUT, 1 PWRDN_RDY, 2 THERMTRIP_N -/
  | pin (which : Nat) (level : Bool)
  /-- a VCORE rail is set over AVSBus, or switched off over it, in mV (R549) -/
  | avs (rail mv : Nat)
  deriving DecidableEq, Repr

/-! ## The whole device -/

structure State where
  /-- device ID digits: 0x7208, 0x7204 or 0x7202 (R2) -/
  grade : Nat := 0x7208
  time : TimeSt := {}
  mesh : MeshSt := {}
  q : QueueSt := {}
  conn : ConnSt := {}
  xl : XlateSt := {}
  coll : CollSt := {}
  ar : ArithSt := {}
  fab : FabricSt := {}
  link : LinkSt := {}
  mem : MemSt := {}
  part : PartSt := {}
  far : FarSt := {}
  mgr : MgrSt := {}
  sec : SecSt := {}
  mtr : MtrSt := {}
  obs : ObsSt := {}
  pow : PowSt := {}
  elec : ElecSt := {}
  /-- dictionary values that are not their default, keyed 256 × index + subindex (R415) -/
  dict : Tab (List Byte) := []
  /-- values in force of stored entries that a reset puts into force, same keys -/
  inForce : Tab (List Byte) := []
  /-- counts of the *_COUNTS arrays that are not all zero, same keys (R495) -/
  counts : Tab (List Nat) := []
  /-- what has left the device, newest first; the model's own -/
  out : List Out := []
  /-- free values drawn so far; the model's own -/
  free : Nat := 0
  /-- commands that wait, first in, first out; the model's own -/
  pending : List Instr := []
  deriving DecidableEq, Repr

/-- The device right after the COLD_RESET_N rise of its first power-on: the boot ROM has started (R469 step 1), memory is
being zeroed (R394), no queue, end, context, group, partition or session exists, every link is down (log 2, DESIGN CHOICE). -/
def State.reset : State :=
  { time := { islands := measuredIslands }, pow := { boot := 1, lastReset := (1, 4, 0) } }

end Sys2Proof.Machine
end

