-- ==== Sys2Proof/Machine/Formats.lean ====
section
/-! DEFINITION. Element formats, exact values, the one rounding of R233 and R248, MX blocks and pages, operators, wide-sum
records, EP64 and the built-in transform kernels: pure arithmetic on values and bytes. -/

namespace Sys2Proof.Machine

/-! ## Exact values -/

/-- An exact value: NaN, an infinity, or a signed quotient of naturals; zero keeps its sign. -/
inductive ExactNum where
  | nan
  | inf (neg : Bool)
  | fin (neg : Bool) (n d : Nat)
  deriving DecidableEq, Repr

def ExactNum.zero : ExactNum := .fin false 0 1

/-- n × 2^e as a quotient. -/
def scaled (neg : Bool) (n : Nat) (e : Int) : ExactNum :=
  if 0 ≤ e then .fin neg (n * 2 ^ e.toNat) 1 else .fin neg n (2 ^ (-e).toNat)

def ExactNum.isNan : ExactNum → Bool
  | .nan => true
  | _ => false

def ExactNum.neg : ExactNum → Bool
  | .nan => false
  | .inf s => s
  | .fin s _ _ => s

/-- a < b for values that are not NaN, +0 larger than −0 (R236). -/
def ExactNum.lt (a b : ExactNum) : Bool :=
  match a, b with
  | .inf s, .inf t => s && !t
  | .inf s, .fin .. => s
  | .fin .., .inf t => !t
  | .fin s n d, .fin t m e =>
    if s && !t then true
    else if !s && t then false
    else if s then Nat.blt (m * d) (n * e) else Nat.blt (n * e) (m * d)
  | _, _ => false

/-- A signed quotient as a value; zero is +0. -/
def ofInt (n : Int) (d : Nat) : ExactNum := .fin (n < 0) n.natAbs d

/-- The exact sum, by IEEE 754: x + (−x) is +0, −0 + −0 is −0 (R236). -/
def ExactNum.add (a b : ExactNum) : ExactNum :=
  match a, b with
  | .nan, _ => .nan
  | _, .nan => .nan
  | .inf s, .inf t => if s == t then .inf s else .nan
  | .inf s, _ => .inf s
  | _, .inf t => .inf t
  | .fin s n d, .fin t m e =>
    if n == 0 && m == 0 then .fin (s && t) 0 1
    else
      let x : Int := if s then -(n * e : Nat) else (n * e : Nat)
      let y : Int := if t then -(m * d : Nat) else (m * d : Nat)
      ofInt (x + y) (d * e)

/-- The exact product (R236). -/
def ExactNum.mul (a b : ExactNum) : ExactNum :=
  match a, b with
  | .nan, _ => .nan
  | _, .nan => .nan
  | .inf s, .inf t => .inf (s != t)
  | .inf s, .fin t m _ => if m == 0 then .nan else .inf (s != t)
  | .fin s n _, .inf t => if n == 0 then .nan else .inf (s != t)
  | .fin s n d, .fin t m e => .fin (s != t) (n * m) (d * e)

def ExactNum.negate : ExactNum → ExactNum
  | .nan => .nan
  | .inf s => .inf (!s)
  | .fin s n d => .fin (!s) n d

/-- floor(log2 (n ÷ d)) of a positive quotient. -/
def floorLog2 (n d : Nat) : Int :=
  let a := Nat.log2 n
  let b := Nat.log2 d
  let ok := if b ≤ a then Nat.ble (d * 2 ^ (a - b)) n else Nat.ble d (n * 2 ^ (b - a))
  if ok then (a : Int) - b else (a : Int) - b - 1

/-! ## Formats (R228, R230) -/

/-- A binary floating-point format: element width, precision, exponent of its smallest subnormal, largest finite code,
code of infinity where it has one, code of the NaN it writes. -/
structure Flt where
  width : Nat
  prec : Nat
  qmin : Int
  maxCode : Nat
  inf : Option Nat
  nan : Option Nat
  deriving DecidableEq, Repr

def fp32 : Flt := ⟨32, 24, -149, 0x7F7FFFFF, some 0x7F800000, some 0x7FC00000⟩
def fp16 : Flt := ⟨16, 11, -24, 0x7BFF, some 0x7C00, some 0x7E00⟩
def bf16 : Flt := ⟨16, 8, -133, 0x7F7F, some 0x7F80, some 0x7FC0⟩
def e4m3 : Flt := ⟨8, 4, -9, 0x7E, none, some 0x7F⟩
def e5m2 : Flt := ⟨8, 3, -16, 0x7B, some 0x7C, some 0x7E⟩
def e3m2 : Flt := ⟨6, 3, -4, 0x1F, none, none⟩
def e2m3 : Flt := ⟨6, 4, -3, 0x1F, none, none⟩
def e2m1 : Flt := ⟨4, 2, -1, 0x7, none, none⟩

/-- What an ACC_FMT value means (R228). -/
inductive Format where
  | float (f : Flt)
  /-- an MX format: its element format, emax, blocks per page -/
  | mx (f : Flt) (emax : Int) (blocks : Nat)
  | mxint8
  | int (bytes : Nat)
  | reserved
  deriving DecidableEq, Repr

def formatOf (v : Nat) : Format :=
  if v == 0x1 then .float fp32 else if v == 0x2 then .float fp16 else if v == 0x3 then .float bf16
  else if v == 0x4 then .float e4m3 else if v == 0x5 then .float e5m2 else if v == 0x6 then .mx e4m3 8 124
  else if v == 0x7 then .mx e5m2 15 124 else if v == 0x8 then .mx e3m2 4 163 else if v == 0x9 then .mx e2m3 2 163
  else if v == 0xA then .mx e2m1 2 240 else if v == 0xB then .mxint8 else if v == 0xC then .int 1
  else if v == 0xD then .int 4 else .reserved

def Format.isFloat : Format → Bool
  | .float _ => true
  | _ => false

def Format.isMx : Format → Bool
  | .mx .. => true
  | .mxint8 => true
  | _ => false

def Format.isInt : Format → Bool
  | .int _ => true
  | _ => false

/-- Unit of LENGTH in bytes: an element, or an MX page (R228, R229). -/
def Format.unit : Format → Nat
  | .float f => f.width / 8
  | .mx .. => 4096
  | .mxint8 => 4096
  | .int n => n
  | .reserved => 1

/-- Blocks of an MX page, width of an element (R229). -/
def Format.blocks : Format → Nat
  | .mx _ _ b => b
  | .mxint8 => 124
  | _ => 0
def Format.elemWidth : Format → Nat
  | .float f => f.width
  | .mx f _ _ => f.width
  | .mxint8 => 8
  | .int n => 8 * n
  | .reserved => 8

/-- Elements in one unit of LENGTH (R229). -/
def Format.perUnit (f : Format) : Nat := if f.isMx then 32 * f.blocks else 1

/-- Bytes that `n` elements take: whole pages for MX (R229, R246). -/
def Format.bytesOf (f : Format) (n : Nat) : Nat :=
  if f.isMx then (n + f.perUnit - 1) / f.perUnit * 4096 else n * f.unit

/-- Elements in a span of whole units. -/
def Format.elemsIn (f : Format) (len : Nat) : Nat := len / f.unit * f.perUnit

/-! ## Operators (R231, R232) -/

def opSum : Nat := 1
def opSumSr : Nat := 2
def opMean : Nat := 3
def opMeanSr : Nat := 4
def opMax : Nat := 5
def opMin : Nat := 6
def opProd : Nat := 7
def opBand : Nat := 8
def opBor : Nat := 9
def opBxor : Nat := 10
def opRound : Nat := 14
def opRoundSr : Nat := 15

/-- Operators that round stochastically (R231, R248; log 49, DESIGN CHOICE). -/
def stochastic (op : Nat) : Bool := op == opSumSr || op == opMeanSr || op == opRoundSr
def isMean (op : Nat) : Bool := op == opMean || op == opMeanSr

/-- Where an operator is used. -/
inductive Place where
  | putAcc | collective
  deriving DecidableEq, Repr

/-- The combination is one R231 permits. -/
def accOk (op fmt : Nat) (exact : Bool) (pl : Place) : Bool :=
  let f := formatOf fmt
  let fm := f.isFloat || f.isMx
  let fi := f.isFloat || f.isInt
  if op == opSum then fm || f.isInt
  else if op == opSumSr then fm && exact
  else if op == opMean || op == opMeanSr then fm && exact && pl == .collective
  else if op == opMax || op == opMin then fi
  else if op == opProd then fi && !exact
  else if op == opBand || op == opBor || op == opBxor then f.isInt
  else if op == opRound || op == opRoundSr then fm && exact && pl == .putAcc
  else false

/-- EXACT has an effect: the operator is a sum of float or MX elements (R231, R237). -/
def exactFor (op fmt : Nat) (exact : Bool) : Bool :=
  let f := formatOf fmt
  exact && (f.isFloat || f.isMx) && (op == opSum || stochastic op || isMean op || op == opRound)

/-! ## Rounding (R233, R234, R248) -/

/-- How a value is rounded: to nearest, or by a random word. -/
inductive Rnd where
  | nearest
  | random (r : Nat)
  deriving DecidableEq, Repr

/-- The quotient n ÷ d cut to an integer, with the remainder's numerator over d. -/
def roundQ (r : Rnd) (n d : Nat) : Nat :=
  let k := n / d
  let m := n % d
  if m == 0 then k
  else
    match r with
    | .nearest => if Nat.blt d (2 * m) || (2 * m == d && k % 2 == 1) then k + 1 else k
    | .random w => if Nat.blt w (2 ^ 32 * m / d) then k + 1 else k

/-- Magnitude code of a positive quotient in a format, before any overflow rule; subnormals gradual. -/
def magCode (f : Flt) (r : Rnd) (n d : Nat) : Nat :=
  if n == 0 then 0
  else
    let q : Int := max (floorLog2 n d - ((f.prec : Int) - 1)) f.qmin
    let k := if 0 ≤ q then roundQ r n (d * 2 ^ q.toNat) else roundQ r (n * 2 ^ (-q).toNat) d
    (q - f.qmin).toNat * 2 ^ (f.prec - 1) + k

/-- The value of a magnitude code. -/
def codeVal (f : Flt) (neg : Bool) (c : Nat) : ExactNum :=
  let h := 2 ^ (f.prec - 1)
  let e := c / h
  if e == 0 then scaled neg c f.qmin else scaled neg (h + c % h) (f.qmin + e - 1)

/-- A positive quotient exceeds the largest finite value. -/
def beyond (f : Flt) (n d : Nat) : Bool :=
  match codeVal f false f.maxCode with
  | .fin _ m e => Nat.blt (m * d) (n * e)
  | _ => false

/-- The code of a value stored in a format, rounded once (R233, R248). -/
def storeFlt (f : Flt) (r : Rnd) (v : ExactNum) : Nat :=
  let sign := 2 ^ (f.width - 1)
  match v with
  | .nan => f.nan.getD 0
  | .inf s =>
    match f.inf with
    | some c => c + (if s then sign else 0)
    | none => f.nan.getD f.maxCode
  | .fin s n d =>
    let c := if beyond f n d then magCode f .nearest n d else magCode f r n d
    let c := if f.maxCode < c then f.inf.getD f.maxCode else c
    c + (if s then sign else 0)

/-- The value a code has (R230, R234). -/
def loadFlt (f : Flt) (c : Nat) : ExactNum :=
  let sign := 2 ^ (f.width - 1)
  let neg := Nat.ble sign (c % 2 ^ f.width)
  let m := c % sign
  if m ≤ f.maxCode then codeVal f neg m
  else if f.inf == some m then .inf neg
  else .nan

/-- A value is a value of the format, or not finite. -/
def representable (f : Flt) (v : ExactNum) : Bool :=
  match v with
  | .fin _ n d =>
    match loadFlt f (storeFlt f .nearest v) with
    | .fin _ m e => n * e == m * d
    | _ => false
  | _ => true

/-! ## Philox-4×32-10 (R249) -/

def philoxRounds : Nat → Nat × Nat × Nat × Nat → Nat → Nat → Nat × Nat × Nat × Nat
  | 0, c, _, _ => c
  | n + 1, (c0, c1, c2, c3), k0, k1 =>
    let p0 := 0xD2511F53 * c0
    let p1 := 0xCD9E8D57 * c2
    philoxRounds n ((p1 / m32) ^^^ c1 ^^^ k0, p1 % m32, (p0 / m32) ^^^ c3 ^^^ k1, p0 % m32)
      ((k0 + 0x9E3779B9) % m32) ((k1 + 0xBB67AE85) % m32)

/-- The random word of element i under a key and counter words c2, c3. -/
def philox (key i c2 c3 : Nat) : Nat :=
  let b := i / 4
  let (x0, x1, x2, x3) := philoxRounds 10 (b % m32, b / m32 % m32, c2 % m32, c3 % m32) (key % m32) (key / m32 % m32)
  if i % 4 == 0 then x0 else if i % 4 == 1 then x1 else if i % 4 == 2 then x2 else x3

/-- How elements are rounded: to nearest, or by Philox words of a key and counters (R249). -/
inductive Mode where
  | nearest
  | philox (key c2 c3 : Nat)
  deriving DecidableEq, Repr

def Mode.at (m : Mode) (i : Nat) : Rnd :=
  match m with
  | .nearest => .nearest
  | .philox k c2 c3 => .random (Sys2Proof.Machine.philox k i c2 c3)

/-! ## MX blocks and pages (R229, R235) -/

/-- 2^e times a value. -/
def scaleBy (e : Int) (v : ExactNum) : ExactNum :=
  match v with
  | .fin s n d => if 0 ≤ e then .fin s (n * 2 ^ e.toNat) d else .fin s n (d * 2 ^ (-e).toNat)
  | x => x

/-- Store an element of an MX block: past the largest finite value it saturates (R235 step 3). -/
def storeElem (f : Flt) (r : Rnd) (v : ExactNum) : Nat :=
  match v with
  | .fin s n d =>
    let sign := if s then 2 ^ (f.width - 1) else 0
    if beyond f n d then f.maxCode + sign else min (magCode f r n d) f.maxCode + sign
  | x => storeFlt f r x

/-- An MXINT8 element n × 2^−6, within ±127 (R230, R235). -/
def storeInt8 (r : Rnd) (v : ExactNum) : Nat :=
  match v with
  | .fin s n d =>
    let k := min (roundQ r (n * 64) d) 127
    if s then (256 - k) % 256 else k
  | _ => 0

def loadInt8 (c : Nat) : ExactNum := if c % 256 < 128 then .fin false (c % 256) 64 else .fin true (256 - c % 256) 64

/-- The largest finite magnitude. -/
def largest : List ExactNum → Nat × Nat
  | [] => (0, 1)
  | v :: t =>
    let (n, d) := largest t
    match v with
    | .fin _ m e => if Nat.blt (n * e) (m * d) then (m, e) else (n, d)
    | _ => (n, d)

/-- What an MX block is: its scale byte, its element codes, and whether it met scale saturation. -/
structure Block where
  scale : Nat
  codes : List Nat
  saturated : Bool
  deriving DecidableEq, Repr

/-- Number a list from i. -/
def numbered {α : Type} : Nat → List α → List (Nat × α)
  | _, [] => []
  | i, a :: t => (i, a) :: numbered (i + 1) t

/-- Form a block from 32 exact values (R235); `infOk` says that the elements are E5M2. -/
def formBlock (emax : Int) (infOk : Bool) (store : Rnd → ExactNum → Nat) (m : Mode) (i0 : Nat) (vs : List ExactNum) : Block :=
  let hasInf := vs.any fun v => match v with
    | .inf _ => true
    | _ => false
  if vs.any ExactNum.isNan || (hasInf && !infOk) then { scale := 0xFF, codes := vs.map fun _ => 0, saturated := false }
  else
    let (n, d) := largest vs
    if n == 0 then { scale := 0, codes := vs.map (store .nearest), saturated := false }
    else
      let e0 := floorLog2 n d - emax
      let e : Int := if e0 < -127 then -127 else if 127 < e0 then 127 else e0
      { scale := (e + 127).toNat, codes := (numbered i0 vs).map fun x => store (m.at x.1) (scaleBy (-e) x.2),
        saturated := e != e0 }

def formBlockOf (f : Format) (m : Mode) (i0 : Nat) (vs : List ExactNum) : Block :=
  match f with
  | .mx g emax _ => formBlock emax (g.inf != none) (storeElem g) m i0 vs
  | _ => formBlock 0 false storeInt8 m i0 vs

/-- Pack element codes of width w, little-endian. -/
def packCodes (w : Nat) : List Nat → Nat
  | [] => 0
  | c :: t => c % 2 ^ w + 2 ^ w * packCodes w t

/-- Groups of k. -/
def groups {α : Type} (k : Nat) (l : List α) : List (List α) :=
  (List.range ((l.length + k - 1) / k)).map fun i => (l.drop (i * k)).take k

/-- Bytes of an MX page that are not pad (R229). -/
def Format.pageUsed (f : Format) : Nat := f.elemWidth * f.perUnit / 8 + f.blocks

/-- The written bytes of one page: its element area and scale area, and how many blocks saturated. -/
def encodePage (f : Format) (m : Mode) (i0 : Nat) (vs : List ExactNum) : List Byte × Nat :=
  let vs := vs ++ List.replicate (f.perUnit - vs.length) ExactNum.zero
  let bs := (numbered 0 (groups 32 vs)).map fun x => formBlockOf f m (i0 + 32 * x.1) x.2
  let area := f.elemWidth * f.perUnit / 8
  (leBytes area (packCodes f.elemWidth (bs.flatMap (·.codes))) ++ bs.map (fun b => BitVec.ofNat 8 b.scale),
   (bs.filter (·.saturated)).length)

/-- The values of one page's elements. -/
def decodePage (f : Format) (d : List Byte) : List ExactNum :=
  let w := f.elemWidth
  let area := w * f.perUnit / 8
  let n := ofLe (d.take area)
  (List.range f.perUnit).map fun j =>
    let s := (d[area + j / 32]?).getD 0 |>.toNat
    let c := n / 2 ^ (j * w) % 2 ^ w
    if s == 0xFF then .nan
    else
      match f with
      | .mx g _ _ => scaleBy ((s : Int) - 127) (loadFlt g c)
      | _ => scaleBy ((s : Int) - 127) (loadInt8 c)

/-- The values of the elements in a span of whole units; integers as signed values. -/
def decodeElems (f : Format) (d : List Byte) : List ExactNum :=
  match f with
  | .float g => (List.range (d.length / (g.width / 8))).map fun i => loadFlt g (field d (i * (g.width / 8)) (g.width / 8))
  | .mx .. => (groups 4096 d).flatMap (decodePage f)
  | .mxint8 => (groups 4096 d).flatMap (decodePage f)
  | .int n => (List.range (d.length / n)).map fun i =>
      let v := field d (i * n) n
      if v < 2 ^ (8 * n - 1) then .fin false v 1 else .fin true (2 ^ (8 * n) - v) 1
  | .reserved => []

/-- What storing elements writes: spans at offsets from the first unit, blocks that saturated. -/
structure Stored where
  spans : List (Nat × List Byte)
  saturated : Nat := 0
  deriving DecidableEq, Repr

/-- Store values as elements from the first unit on; element `i0` names the first one's random word. Pad bytes of MX pages are
not written (R229). -/
def encodeElems (f : Format) (m : Mode) (i0 : Nat) (vs : List ExactNum) : Stored :=
  match f with
  | .float g => { spans := [(0, (numbered i0 vs).flatMap fun x => leBytes (g.width / 8) (storeFlt g (m.at x.1) x.2))] }
  | .int n => { spans := [(0, vs.flatMap fun v =>
      match v with
      | .fin s k d => leBytes n (if s then 2 ^ (8 * n) - k / d % 2 ^ (8 * n) else k / d)
      | _ => leBytes n 0)] }
  | .reserved => { spans := [] }
  | _ =>
    let ps := (numbered 0 (groups f.perUnit vs)).map fun x => (x.1, encodePage f m (i0 + x.1 * f.perUnit) x.2)
    { spans := ps.map fun x => (4096 * x.1, x.2.1), saturated := ps.foldl (fun a x => a + x.2.2) 0 }

/-! ## Combining without exact mode (R236) -/

/-- The exact result of an operator on two values that are not integers. -/
def combineNum (op : Nat) (a b : ExactNum) : ExactNum :=
  if op == opProd then a.mul b
  else if op == opMax then if a.isNan || b.isNan then .nan else if a.lt b then b else a
  else if op == opMin then if a.isNan || b.isNan then .nan else if b.lt a then b else a
  else a.add b

/-- An operator on two w-bit two's complement codes (R233, R236). -/
def combineInt (op w a b : Nat) : Nat :=
  let key := fun x => (x + 2 ^ (w - 1)) % 2 ^ w
  if op == opProd then a * b % 2 ^ w
  else if op == opMax then if key a < key b then b else a
  else if op == opMin then if key b < key a then b else a
  else if op == opBand then a &&& b
  else if op == opBor then a ||| b
  else if op == opBxor then a ^^^ b
  else (a + b) % 2 ^ w

def zipNum (op : Nat) : List ExactNum → List ExactNum → List ExactNum
  | a :: s, b :: t => combineNum op a b :: zipNum op s t
  | _, _ => []

/-- Combine arriving elements into stored ones, element by element, each rounded once to the format (R236). -/
def combineElems (op : Nat) (f : Format) (old new : List Byte) : Stored :=
  match f with
  | .int n => { spans := [(0, (List.range (new.length / n)).flatMap fun i =>
      leBytes n (combineInt op (8 * n) (field old (i * n) n) (field new (i * n) n)))] }
  | _ => encodeElems f .nearest 0 (zipNum op (decodeElems f old) (decodeElems f new))

/-! ## Wide-sum records (R238, R239, R241) -/

/-- A finite value in units of 2^−149. -/
def unit149 (n d : Nat) : Nat := n * 2 ^ 149 / d

def wsAdd (v : ExactNum) (w : WideSum) : WideSum :=
  match v with
  | .nan => { w with nan := true, nonneg := true }
  | .inf false => { w with pinf := true, nonneg := true }
  | .inf true => { w with ninf := true, nonneg := true }
  | .fin s n d =>
    let u : BitVec 320 := BitVec.ofNat 320 (unit149 n d)
    { w with sum := if s then w.sum - u else w.sum + u, nonneg := w.nonneg || !(s && n == 0) }

/-- Adding a record to a record (R239). -/
def wsMerge (a b : WideSum) : WideSum :=
  { sum := a.sum + b.sum, nan := a.nan || b.nan, pinf := a.pinf || b.pinf, ninf := a.ninf || b.ninf,
    nonneg := a.nonneg || b.nonneg }

def wsBytes (w : WideSum) : List Byte :=
  leBytes 48 (pack [(323, b2n w.nonneg), (322, b2n w.ninf), (321, b2n w.pinf), (320, b2n w.nan), (0, w.sum.toNat)])

def wsOf (d : List Byte) : WideSum :=
  let n := field d 0 48
  { sum := BitVec.ofNat 320 n, nan := bit n 320, pinf := bit n 321, ninf := bit n 322, nonneg := bit n 323 }

/-- The exact value of a record, divided by `n` for a mean, before its one rounding (R241). -/
def wsValue (n : Nat) (w : WideSum) : ExactNum :=
  if w.nan || (w.pinf && w.ninf) then .nan
  else if w.pinf then .inf false
  else if w.ninf then .inf true
  else if w.sum == 0 then .fin (!w.nonneg) 0 1
  else ofInt w.sum.toInt (2 ^ 149 * n)

/-! ## EP64 (R252) and store elements (R251) -/

/-- Finite value of an EP64 element in units of 2^−149, and its flags, as a record. -/
def ep64Load (e : Nat) : WideSum :=
  let q := bits e 63 56
  let m : Int := if bit e 55 then (bits e 55 0 : Int) - 2 ^ 56 else bits e 55 0
  if q == 255 then { nan := bit e 0, pinf := bit e 1, ninf := bit e 2, nonneg := true }
  else { sum := BitVec.ofInt 320 (m * 2 ^ q), nonneg := !(m == 0 && q == 1) }

/-- The least shift that makes a magnitude fit below 2^55. -/
def ep64Shift (n : Nat) : Nat := Nat.log2 n + 1 - 55

/-- A record as EP64, none where it cannot be written (R252, R253). The least exponent that fits is used (log 11, DEDUCED). -/
def ep64Store (w : WideSum) : Option Nat :=
  if w.nan || w.pinf || w.ninf then some (pack [(56, 255), (2, b2n w.ninf), (1, b2n w.pinf), (0, b2n w.nan)])
  else
    let v := w.sum.toInt
    if v == 0 then some (if w.nonneg then 0 else 2 ^ 56)
    else
      let q := ep64Shift v.natAbs
      if v.natAbs % 2 ^ q != 0 || 254 < q then none
      else
        let m := v.natAbs / 2 ^ q
        some (q * 2 ^ 56 + (if v < 0 then 2 ^ 56 - m else m))

/-- All of a list, or none. -/
def allSome {α : Type} : List (Option α) → Option (List α)
  | [] => some []
  | none :: _ => none
  | some a :: t => (allSome t).map (a :: ·)

/-- Elements of one chunk: 1,024, or 512 in exact mode (R251). -/
def chunkElems (exact : Bool) : Nat := if exact then 512 else 1024

/-- Raw elements in the store format; none where exact mode cannot write one (R251, R253). -/
def toStore (exact : Bool) (fmt : Nat) (d : List Byte) : Option (List Nat) :=
  match formatOf fmt with
  | .int n => some ((List.range (d.length / n)).map fun i =>
      let v := field d (i * n) n
      if n == 1 && 128 ≤ v then 2 ^ 32 - 256 + v else v)
  | f =>
    if exact then allSome ((decodeElems f d).map fun v => ep64Store (wsAdd v {}))
    else some ((decodeElems f d).map (storeFlt fp32 .nearest))

/-- Store elements carried on the wire: 4 or 8 bytes each (R251). -/
def storeBytes (exact : Bool) (vs : List Nat) : List Byte := vs.flatMap (leBytes (if exact then 8 else 4))

def storeElems (exact : Bool) (d : List Byte) : List Nat :=
  let k := if exact then 8 else 4
  (List.range (d.length / k)).map fun i => field d (i * k) k

/-- Combine store elements; none where an exact sum cannot be written (R236, R253). -/
def storeCombine (exact : Bool) (op fmt : Nat) : List Nat → List Nat → Option (List Nat)
  | a :: s, b :: t =>
    let x :=
      if exact then ep64Store (wsMerge (ep64Load a) (ep64Load b))
      else if (formatOf fmt).isInt then some (combineInt op 32 a b)
      else some (storeFlt fp32 .nearest (combineNum op (loadFlt fp32 a) (loadFlt fp32 b)))
    match x, storeCombine exact op fmt s t with
    | some v, some r => some (v :: r)
    | _, _ => none
  | _, _ => some []

/-- A value of the store format, not exact. -/
def storeValue (fmt v : Nat) : ExactNum :=
  if (formatOf fmt).isInt then (if v < 2 ^ 31 then .fin false v 1 else .fin true (2 ^ 32 - v) 1) else loadFlt fp32 v

/-! ## Built-in kernels (R259 to R261) -/

def numAt (l : List ExactNum) (i : Nat) : ExactNum := (l[i]?).getD ExactNum.zero

def r32 (v : ExactNum) : ExactNum := loadFlt fp32 (storeFlt fp32 .nearest v)
def rTo (f : Flt) (v : ExactNum) : ExactNum := loadFlt f (storeFlt f .nearest v)

/-- A dot product accumulated in binary32 in ascending order, in blocks of 128 (R260, log 12, DEDUCED). -/
def dotBlock : List (ExactNum × ExactNum) → ExactNum → ExactNum
  | [], acc => acc
  | (a, b) :: t, acc => dotBlock t (r32 (acc.add (r32 (a.mul b))))

def dot (l : List (ExactNum × ExactNum)) : ExactNum :=
  (groups 128 l).foldl (fun acc g => r32 (acc.add (dotBlock g ExactNum.zero))) ExactNum.zero

def fltOf (fmt : Nat) : Flt := if fmt == 1 then fp32 else bf16

def encodeFlt (f : Flt) (l : List ExactNum) : List Byte := l.flatMap fun v => leBytes (f.width / 8) (storeFlt f .nearest v)

/-- MX_QUANT: parameters, input, sequence; output spans (pads of its pages stay) and saturated blocks. -/
def mxQuant (par inp : List Byte) (seq : Nat) : Stored :=
  let f := formatOf (field par 4 4)
  let m : Mode := if field par 8 4 == 1 then .philox (field par 12 8) seq 1 else .nearest
  encodeElems f m (field par 20 8) (decodeElems (formatOf (field par 0 4)) inp)

def mxDequant (par inp : List Byte) : Stored :=
  { spans := [(0, encodeFlt (fltOf (field par 4 4)) (decodeElems (formatOf (field par 0 4)) inp))] }

/-- LOWRANK_PROJECT: its output P and the new state span (R260). -/
def lowrankProject (par inp state : List Byte) : List Byte × List Byte :=
  let m := field par 0 4
  let n := field par 4 4
  let r := field par 8 4
  let ef := fltOf (field par 12 4)
  let g := decodeElems (.float bf16) inp
  let q := decodeElems (.float bf16) (state.take (2 * n * r))
  let e := decodeElems (.float ef) ((state.drop (2 * n * r)).take (m * n * (ef.width / 8)))
  let m32v := (List.range (m * n)).map fun i => r32 ((numAt g i).add (numAt e i))
  let a := m32v.map (rTo bf16)
  let p := (List.range (m * r)).map fun i =>
    rTo bf16 (dot ((List.range n).map fun k => (numAt a (i / r * n + k), numAt q (k * r + i % r))))
  let e' := (List.range (m * n)).map fun i =>
    let mhat := dot ((List.range r).map fun k => (numAt p (i / n * r + k), numAt q (i % n * r + k)))
    rTo ef ((numAt m32v i).add (r32 mhat).negate)
  (encodeFlt bf16 p, state.take (2 * n * r) ++ encodeFlt ef e')

/-- LOWRANK_EXPAND (R260). -/
def lowrankExpand (par inp state : List Byte) : List Byte :=
  let m := field par 0 4
  let n := field par 4 4
  let r := field par 8 4
  let p := decodeElems (.float bf16) inp
  let q := decodeElems (.float bf16) (state.take (2 * n * r))
  encodeFlt bf16 ((List.range (m * n)).map fun i =>
    dot ((List.range r).map fun k => (numAt p (i / n * r + k), numAt q (i % n * r + k))))

/-- EXPERT_COMBINE (R261). -/
def expertCombine (par inp state : List Byte) : List Byte :=
  let t := field par 0 4
  let d := field par 4 4
  let k := field par 8 4
  let w := decodeElems (.float fp32) (state.take (4 * t * k))
  let y := decodeElems (.float bf16) inp
  encodeFlt bf16 ((List.range (t * d)).map fun i =>
    (List.range k).foldl (fun acc j => r32 (acc.add (r32 ((numAt w (i / d * k + j)).mul (numAt y (j * t * d + i)))))) ExactNum.zero)

/-- Bytes of input and output a built-in kernel has for its parameters; none where a parameter is out of range (R259). -/
def kernelShape (k : Nat) (par : List Byte) (len : Nat) : Option Nat :=
  let u := fun i => field par (4 * i) 4
  let elemF := fun x => x == 1 || x == 3
  if k == 1 then
    let f := formatOf (u 1)
    let w := if u 0 == 1 then 4 else 2
    if elemF (u 0) && f.isMx && u 2 ≤ 1 && len % w == 0 then some (f.bytesOf (len / w)) else none
  else if k == 2 then
    let f := formatOf (u 0)
    let w := if u 1 == 1 then 4 else 2
    if f.isMx && elemF (u 1) && len % 4096 == 0 then some (f.elemsIn len * w) else none
  else if k == 3 || k == 4 then
    let m := u 0
    let n := u 1
    let r := u 2
    let ok := m % 128 == 0 && n % 128 == 0 && 0 < m && 0 < n && m ≤ 65536 && n ≤ 65536 && r % 16 == 0 && 16 ≤ r && r ≤ 256
    if k == 3 then if ok && elemF (u 3) && len == 2 * m * n then some (2 * m * r) else none
    else if ok && len == 2 * m * r then some (2 * m * n) else none
  else if k == 5 then
    let t := u 0
    let d := u 1
    let kk := u 2
    if d % 64 == 0 && 0 < d && 1 ≤ kk && kk ≤ 8 && len == kk * t * d * 2 then some (2 * t * d) else none
  else none

end Sys2Proof.Machine
end

