-- ==== Sys2Proof/Machine/Operands.lean ====
section
/-! DEFINITION. The layouts of the manual as accessors: work queue entries, descriptors, completion entries, headers,
table entries, schedules. -/

namespace Sys2Proof.Machine

/-! ## Endpoint addresses and keys (R33, R34) -/

def epX (a : Nat) : Nat := bits a 15 12
def epY (a : Nat) : Nat := bits a 11 8
def epZ (a : Nat) : Nat := bits a 7 4
def epE (a : Nat) : Nat := bits a 3 0
/-- The coordinates of an endpoint's device, as COORD holds them. -/
def epDev (a : Nat) : Nat := a / 16 * 16
def keyIndex (k : Nat) : Nat := bits k 31 8
def keyTag (k : Nat) : Nat := bits k 7 0

end Sys2Proof.Machine

namespace Sys2Proof

open Sys2Proof.Machine

/-! ## Work queue entry (R79) -/

def Wqe.phase (w : Wqe) : Bool := flag w 511
def Wqe.tc (w : Wqe) : Nat := fld w 510 509
def Wqe.tile (w : Wqe) : Nat := fld w 508 505
def Wqe.comp (w : Wqe) : Bool := flag w 503
def Wqe.batchEnd (w : Wqe) : Bool := flag w 502
def Wqe.fence (w : Wqe) : Bool := flag w 501
def Wqe.xpath (w : Wqe) : Bool := flag w 500
def Wqe.notify (w : Wqe) : Bool := flag w 499
def Wqe.wait (w : Wqe) : Bool := flag w 498
def Wqe.exact (w : Wqe) : Bool := flag w 497
def Wqe.a64 (w : Wqe) : Bool := flag w 496
def Wqe.opcode (w : Wqe) : Nat := fld w 495 488
def Wqe.accOp (w : Wqe) : Nat := fld w 487 484
def Wqe.accFmt (w : Wqe) : Nat := fld w 483 480
def Wqe.endpoint (w : Wqe) : Nat := fld w 479 464
def Wqe.layer (w : Wqe) : Nat := fld w 463 448
def Wqe.operator (w : Wqe) : Nat := fld w 447 432
def Wqe.conn (w : Wqe) : Nat := fld w 427 408
def Wqe.lcounter (w : Wqe) : Nat := fld w 403 384
def Wqe.rcounter (w : Wqe) : Nat := fld w 379 360
def Wqe.waitTimeout (w : Wqe) : Nat := fld w 359 344
def Wqe.waitKind (w : Wqe) : Nat := fld w 340 340
def Wqe.waitObj (w : Wqe) : Nat := fld w 339 320
def Wqe.waitValue (w : Wqe) : Nat := fld w 319 256
def Wqe.operand (w : Wqe) : Nat := fld w 319 256
def Wqe.imm (w : Wqe) : Nat := fld w 255 224
def Wqe.length (w : Wqe) : Nat := fld w 223 192
def Wqe.compare (w : Wqe) : Nat := fld w 255 192
def Wqe.rkey (w : Wqe) : Nat := fld w 191 160
def Wqe.lkey (w : Wqe) : Nat := fld w 159 128
def Wqe.raddr (w : Wqe) : Nat := fld w 127 64
def Wqe.laddr (w : Wqe) : Nat := fld w 63 0

end Sys2Proof

namespace Sys2Proof.Machine

/-- Opcodes (R80). -/
def opNop : Nat := 0x00
def opPut : Nat := 0x01
def opGet : Nat := 0x02
def opPutNotify : Nat := 0x03
def opPutAcc : Nat := 0x04
def opNotify : Nat := 0x05
def opFadd : Nat := 0x06
def opCswap : Nat := 0x07
def opCopyIn : Nat := 0x08
def opCopyOut : Nat := 0x09
def opCollStep : Nat := 0x10
def opWait : Nat := 0x18
def opInvalidate : Nat := 0x20
def opTableUpdate : Nat := 0x21

/-- The opcodes of R80; every other value is reserved. -/
def opcodeKnown (o : Nat) : Bool := Nat.ble o 9 || o == 0x10 || o == 0x18 || o == 0x20 || o == 0x21

/-! ## Descriptors of queues and counters (R77, R78) -/

def Desc.burst (d : BitVec 256) : Nat := fld d 255 248
def Desc.weight (d : BitVec 256) : Nat := fld d 247 244
def Desc.logSize (d : BitVec 256) : Nat := fld d 243 240
def Desc.priv (d : BitVec 256) : Bool := flag d 239
def Desc.part (d : BitVec 256) : Nat := fld d 235 232
def Desc.pasid (d : BitVec 256) : Nat := fld d 231 212
def Desc.maxInflight (d : BitVec 256) : Nat := fld d 175 160
def Desc.cq (d : BitVec 256) : Nat := fld d 145 128
def Desc.vector (d : BitVec 256) : Nat := fld d 145 128
def Desc.vecEn (d : BitVec 256) : Bool := flag d 146
def Desc.ringKey (d : BitVec 256) : Nat := fld d 95 64
def Desc.ringAddr (d : BitVec 256) : Nat := fld d 63 0
/-- Entries of the ring: 2^(LOG_SIZE + 6) (R72). -/
def Desc.size (d : BitVec 256) : Nat := 2 ^ (Desc.logSize d + 6)
/-- The bits MODIFY_WQ may change in any state: BURST, WEIGHT, MAX_INFLIGHT; all others RWQ (R77). -/
def Desc.rwqBits (d : BitVec 256) : BitVec 256 := setFld (setFld (setFld d 255 248 0) 247 244 0) 175 160 0
/-- The low half of a window's descriptor area. -/
def lowDesc (d : BitVec 512) : BitVec 256 := BitVec.ofNat 256 d.toNat

/-- The expected owner phase at a count of a ring of 2^n entries (R85). -/
def ownerPhase (logSize count : Nat) : Bool := !bit count (logSize + 6)

/-! ## Completion entry (R100) -/

structure Cqe where
  phase : Bool
  tsuspect : Bool
  zeroed : Bool := false
  time : Nat
  cause : Nat := 0
  status : Nat
  index : Nat
  count : Nat := 0
  wq : Nat
  offset : Nat := 0
  addr : Nat := 0
  deriving DecidableEq, Repr

/-- The 32 bytes of a completion entry. -/
def Cqe.bytes (e : Cqe) : List Byte :=
  leBytes 32 (pack [(255, b2n e.phase), (254, b2n e.tsuspect), (253, b2n e.zeroed), (192, e.time % 2 ^ 56), (184, e.cause),
    (176, e.status), (160, e.index % m16), (148, e.count), (128, e.wq), (64, e.offset % m64), (0, e.addr % m64)])

/-! ## Translation tables (R162, R169, R171, R180) -/

def Pte.address (e : BitVec 64) : Nat := fld e 63 12 * 4096
def Pte.port (e : BitVec 64) : Nat := fld e 11 8
def Pte.target (e : BitVec 64) : Nat := fld e 7 6
def Pte.run (e : BitVec 64) : Nat := fld e 5 3
def Pte.leaf (e : BitVec 64) : Bool := flag e 1
def Pte.valid (e : BitVec 64) : Bool := flag e 0

def Flat.valid (e : BitVec 128) : Bool := flag e 127
def Flat.part (e : BitVec 128) : Nat := fld e 126 123
def Flat.pasid (e : BitVec 128) : Nat := fld e 122 103
def Flat.target (e : BitVec 128) : Nat := fld e 102 101
def Flat.port (e : BitVec 128) : Nat := fld e 100 97
def Flat.vpage (e : BitVec 128) : Nat := fld e 81 64
def Flat.output (e : BitVec 128) : Nat := fld e 63 30 * 2 ^ 30

def Region.base (d : BitVec 256) : Nat := fld d 255 192
def Region.length (d : BitVec 256) : Nat := fld d 191 128
def Region.tag (d : BitVec 256) : Nat := fld d 127 120
def Region.part (d : BitVec 256) : Nat := fld d 119 116
def Region.pasid (d : BitVec 256) : Nat := fld d 115 96
def Region.target (d : BitVec 256) : Nat := fld d 95 94
def Region.port (d : BitVec 256) : Nat := fld d 93 90
def Region.flat (d : BitVec 256) : Bool := flag d 89
def Region.remote (d : BitVec 256) : Bool := flag d 88
def Region.read (d : BitVec 256) : Bool := flag d 87
def Region.write (d : BitVec 256) : Bool := flag d 86
def Region.atomic (d : BitVec 256) : Bool := flag d 85
def Region.accumulate (d : BitVec 256) : Bool := flag d 84
def Region.notify (d : BitVec 256) : Bool := flag d 83
def Region.valid (d : BitVec 256) : Bool := flag d 0

/-- An update record of TABLE_UPDATE: KIND, INDEX and the low bits of VALUE. -/
def Update.kind (r : BitVec 512) : Nat := fld r 63 60
def Update.index (r : BitVec 512) : Nat := fld r 59 0
def Update.value64 (r : BitVec 512) : BitVec 64 := BitVec.ofNat 64 (fld r 319 256)
def Update.value128 (r : BitVec 512) : BitVec 128 := BitVec.ofNat 128 (fld r 383 256)
def Update.value256 (r : BitVec 512) : BitVec 256 := BitVec.ofNat 256 (fld r 511 256)

/-! ## The fabric header (R271, R280, R281) -/

abbrev Hdr := BitVec 320

def Hdr.ver (h : Hdr) : Nat := fld h 319 318
def Hdr.kind (h : Hdr) : Nat := fld h 317 314
def Hdr.tc (h : Hdr) : Nat := fld h 313 312
def Hdr.dl (h : Hdr) : Bool := flag h 311
def Hdr.mark (h : Hdr) : Bool := flag h 310
def Hdr.rmode (h : Hdr) : Nat := fld h 309 308
def Hdr.ttl (h : Hdr) : Nat := fld h 307 303
def Hdr.opcode (h : Hdr) : Nat := fld h 301 298
def Hdr.dest (h : Hdr) : Nat := fld h 297 282
def Hdr.handle (h : Hdr) : Nat := fld h 281 262
def Hdr.epoch (h : Hdr) : Nat := fld h 261 246
def Hdr.psn (h : Hdr) : Nat := fld h 245 214
def Hdr.opnum (h : Hdr) : Nat := fld h 213 190
def Hdr.offset (h : Hdr) : Nat := fld h 189 158
def Hdr.length (h : Hdr) : Nat := fld h 157 126
def Hdr.tile (h : Hdr) : Nat := fld h 125 122
def Hdr.sendTime (h : Hdr) : Nat := fld h 121 90
def Hdr.form (h : Hdr) : Nat := fld h 89 0
/-- Flow value (R288). -/
def Hdr.flow (h : Hdr) : Nat := fld h 277 262

-- RMODE 2: port die and edge in HANDLE (R280)
def Hdr.edgeDie (h : Hdr) : Nat := fld h 277 276
def Hdr.edge (h : Hdr) : Nat := fld h 275 262

-- link frames
def Hdr.gen (h : Hdr) : Nat := fld h 313 312
def Hdr.port (h : Hdr) : Nat := fld h 311 307
def Hdr.coordValid (h : Hdr) : Bool := flag h 306
def Hdr.open_ (h : Hdr) : Bool := flag h 305
def Hdr.manager (h : Hdr) : Bool := flag h 304
/-- Coordinates as COORD holds them. -/
def Hdr.coord (h : Hdr) : Nat := fld h 303 292 * 16
def Hdr.shape (h : Hdr) : Nat := fld h 291 280
def Hdr.deviceId (h : Hdr) : Nat := fld h 279 216

-- form K
def Form.rkey (f : Nat) : Nat := bits f 89 58
def Form.raddr (f : Nat) : Nat := bits f 57 10
def Form.accOp (f : Nat) : Nat := bits f 9 6
def Form.accFmt (f : Nat) : Nat := bits f 5 2
def Form.exact (f : Nat) : Bool := bit f 1
def Form.xpath (f : Nat) : Bool := bit f 0
def Form.mkK (rkey raddr accOp accFmt : Nat) (exact xpath : Bool) : Nat :=
  pack [(58, rkey), (10, raddr % 2 ^ 48), (6, accOp), (2, accFmt), (1, b2n exact), (0, b2n xpath)]

-- form G
def Form.dstBase (f : Nat) : Nat := bits f 89 50
def Form.gSeq (f : Nat) : Nat := bits f 49 42
def Form.gAccOp (f : Nat) : Nat := bits f 41 38
def Form.gAccFmt (f : Nat) : Nat := bits f 37 34
def Form.gExact (f : Nat) : Bool := bit f 33
def Form.gXpath (f : Nat) : Bool := bit f 32
def Form.gPartial (f : Nat) : Bool := bit f 31
def Form.gCount (f : Nat) : Nat := bits f 30 16
def Form.gNotify (f : Nat) : Bool := bit f 15
def Form.gCtr (f : Nat) : Nat := bits f 14 11
def Form.mkG (base seq op fmt : Nat) (exact xpath part : Bool) (count : Nat) (note : Option Nat) : Nat :=
  pack [(50, base % 2 ^ 40), (42, seq % 256), (38, op), (34, fmt), (33, b2n exact), (32, b2n xpath), (31, b2n part), (16, count),
    (15, b2n note.isSome), (11, note.getD 0)]

-- form S
def Form.sAccOp (f : Nat) : Nat := bits f 49 46
def Form.sAccFmt (f : Nat) : Nat := bits f 45 42
def Form.sExact (f : Nat) : Bool := bit f 41
def Form.sXpath (f : Nat) : Bool := bit f 40
def Form.sNotify (f : Nat) : Bool := bit f 39
def Form.sCtr (f : Nat) : Nat := bits f 38 35
/-- Left counts and signs of a source route: X, Y, Z (R281). -/
def Form.sNeg (f d : Nat) : Bool := bit f (34 - 5 * d)
def Form.sLeft (f d : Nat) : Nat := bits f (33 - 5 * d) (30 - 5 * d)
def Form.mkS (base op fmt : Nat) (exact xpath : Bool) (note : Option Nat) (route : BitVec 128) : Nat :=
  pack [(50, base % 2 ^ 40), (46, op), (42, fmt), (41, b2n exact), (40, b2n xpath), (39, b2n note.isSome), (35, note.getD 0),
    (34, fld route 127 127), (30, fld route 126 123), (29, fld route 122 122), (25, fld route 121 118), (24, fld route 117 117),
    (20, fld route 116 113)]

/-- Packet kinds (R126). -/
def kData : Nat := 0
def kRequest : Nat := 1
def kResponse : Nat := 2
def kAck : Nat := 3
def kNack : Nat := 4
def kHold : Nat := 5
def kWithdraw : Nat := 6
def kConnectReq : Nat := 8
def kConnectAck : Nat := 9
def kConnectNak : Nat := 10
def kCloseReq : Nat := 11
def kCloseAck : Nat := 12
def kReset : Nat := 13

/-- Frame opcodes of collectives (R282). -/
def ocCollPut : Nat := 8
def ocCollAcc : Nat := 9
def ocCollMcast : Nat := 10

/-! ## The end-to-end check (R285) -/

/-- The header with every hop-changeable field taken as zero. -/
def Hdr.fixed (h : Hdr) : Hdr :=
  -- a link frame has none of these fields (log 105, DEDUCED)
  if Hdr.ver h == 3 then h else
  let h := setFld (setFld (setFld h 311 311 0) 310 310 0) 307 303 0
  if Hdr.rmode h == 1 && Hdr.ver h == 2 then setFld (setFld (setFld h 33 30 0) 28 25 0) 23 20 0
  else if Hdr.rmode h == 2 then setFld (setFld (setFld (setFld h 281 262 0) 261 246 0) 245 214 0) 121 90 0
  else h

/-- One byte of a reflected CRC-32C. -/
def crcBits : Nat → Nat → Nat
  | 0, c => c
  | n + 1, c => crcBits n (if c % 2 == 1 then c / 2 ^^^ 0x82F63B78 else c / 2)

def crcStep (c : Nat) (b : Byte) : Nat := crcBits 8 (c ^^^ b.toNat)

def crc32c (d : List Byte) : BitVec 32 := BitVec.ofNat 32 (d.foldl crcStep 0xFFFFFFFF ^^^ 0xFFFFFFFF)

/-- One byte of the reflected CRC-32 of IEEE 802.3, with its polynomial 0x04C11DB7. -/
def fcsBits : Nat → Nat → Nat
  | 0, c => c
  | n + 1, c => fcsBits n (if c % 2 == 1 then c / 2 ^^^ 0xEDB88320 else c / 2)

/-- The Ethernet FCS of a frame's bytes (log 106, PRESUMED). -/
def fcs (d : List Byte) : BitVec 32 :=
  BitVec.ofNat 32 (d.foldl (fun c b => fcsBits 8 (c ^^^ b.toNat)) 0xFFFFFFFF ^^^ 0xFFFFFFFF)

/-- The trailer a packet must carry; the left counts of a generation-1 route word are taken as zero (R303). -/
def trailer (hdr : Hdr) (route : BitVec 64) (payload : List Byte) : BitVec 32 :=
  let tail := if Hdr.ver hdr == 1 then beBytes 8 (setFld (setFld (setFld route 62 59 0) 57 54 0) 52 49 0).toNat else []
  crc32c (beBytes 40 (Hdr.fixed hdr).toNat ++ tail ++ payload)

end Sys2Proof.Machine
end

