-- ==== Sys2Proof/Machine/Flags.lean ====
section
/-! DEFINITION. Status codes, what each does to a queue, and the decision of an operation's outcome from its failed parts. -/

namespace Sys2Proof.Machine

/-! ## Status codes (R104) -/

def stOk : Nat := 0x00
def stPartial : Nat := 0x01
def stPartialDelivery : Nat := 0x02
def stFlushed : Nat := 0x03
def stRemoteKey : Nat := 0x10
def stRemoteBounds : Nat := 0x11
def stRemoteRights : Nat := 0x12
def stXlateRemote : Nat := 0x13
def stTargetReset : Nat := 0x14
def stFenced : Nat := 0x15
def stTransportTimeout : Nat := 0x16
def stHostDown : Nat := 0x17
def stLocalKey : Nat := 0x20
def stLocalBounds : Nat := 0x21
def stLocalRights : Nat := 0x22
def stXlateLocal : Nat := 0x23
def stXlateRevoked : Nat := 0x24
def stMediaError : Nat := 0x25
def stMemberFenced : Nat := 0x30
def stCollMismatch : Nat := 0x31
def stBadWqe : Nat := 0x40
def stDoorbellInvalid : Nat := 0x41
def stEntryNotReady : Nat := 0x42
def stWaitTimeout : Nat := 0x43
def stWaitAbandoned : Nat := 0x44

/-- A WQE that ends with the status moves its queue to Draining (R104). -/
def drains (st : Nat) : Bool := st != stOk && st != stPartialDelivery && st != stFlushed

/-- The entry carries a page address in ADDR (R100). -/
def hasAddr (st : Nat) : Bool := st == stXlateLocal || st == stXlateRemote || st == stXlateRevoked

/-! ## The decision (R58 to R60) -/

/-- A failed part: the lowest offset whose placement is not confirmed, its status, its page address. -/
structure FailPart where
  off : Nat
  status : Nat
  addr : Nat := 0
  deriving DecidableEq, Repr

/-- The failed part with the lowest offset (R58). -/
def lowest : List FailPart → Option FailPart
  | [] => none
  | p :: t =>
    match lowest t with
    | some q => if q.off < p.off then some q else some p
    | none => some p

/-- What a completion reports: OK without a failed part; the cause itself where the lowest failed offset is 0; PARTIAL with
offset and cause above it (R59, R60). The page address goes with the statuses that have one. -/
structure Verdict where
  status : Nat
  cause : Nat
  off : Nat
  addr : Nat
  deriving DecidableEq, Repr

def decide_ (ps : List FailPart) : Verdict :=
  match lowest ps with
  | none => ⟨stOk, 0, 0, 0⟩
  | some p =>
    let a := if hasAddr p.status then p.addr else 0
    if p.off == 0 then ⟨p.status, 0, 0, a⟩ else ⟨stPartial, p.status, p.off, a⟩

/-! ## Tiles (R57, R83) -/

/-- The tile size of an operation: 2^(TILE + 11), or with TILE 0 the smallest power of two from 4 KiB to 4 MiB that makes at
most four tiles; 4 MiB in generation 1 (R79, R83, R84). -/
def tileSize (gen1 : Bool) (tile len : Nat) : Nat :=
  if gen1 then 2 ^ 22
  else if tile != 0 then 2 ^ (tile + 11)
  else
    match (List.range 10).find? fun k => Nat.ble len (4 * 2 ^ (12 + k)) with
    | some k => 2 ^ (12 + k)
    | none => 2 ^ 22

/-- Offsets and lengths of an operation's tiles, in ascending order (R57). -/
def tilesOf (size len : Nat) : List (Nat × Nat) :=
  (List.range ((len + size - 1) / size)).map fun i => (i * size, min size (len - i * size))

end Sys2Proof.Machine
end

