-- ==== Sys2Proof/Machine/Dict.lean ====
section
/-! DEFINITION. The dictionary: every Index:Sub of the chapters, with its type, access, class, privilege, range and default. -/

namespace Sys2Proof.Machine

/-- A row of an Entries table. `ty` is the type code of R416, `size` the bytes of the value, of one element for an ARRAY;
`access` 0 RO, 1 RW, 2 WO, 3 RWQ; `cls` 0 volatile, 1 warm-kept, 2 stored, 3 sealed; `priv` 0 Any, 1 Tenant, 2 Operator,
3 Platform, 4 Meter (R429); `lo` to `hi` the stated range of a scalar. -/
structure Entry where
  index : Nat
  first : Nat
  last : Nat
  ty : Nat
  size : Nat
  access : Nat
  cls : Nat
  priv : Nat
  lo : Nat
  hi : Nat
  dflt : Nat
  deriving DecidableEq, Repr

/-- Entries of R156. -/
def entriesTransport : List Entry := [
  ⟨0x4100, 1, 1, 4, 4, 1, 1, 2, 8000, 1000000, 8000⟩, -- RTO_MIN
  ⟨0x4100, 2, 2, 4, 4, 1, 1, 2, 0, 10000000, 1024000⟩, -- RTO_MAX
  ⟨0x4100, 3, 3, 2, 1, 1, 1, 2, 1, 15, 8⟩, -- RETRY_LIMIT
  ⟨0x4100, 4, 4, 3, 2, 1, 1, 2, 8, 256, 64⟩, -- REORDER_THRESHOLD
  ⟨0x4100, 5, 5, 2, 1, 1, 1, 2, 1, 64, 16⟩, -- ACK_PACKETS
  ⟨0x4100, 6, 6, 4, 4, 1, 1, 2, 100, 10000, 1000⟩, -- ACK_DELAY
  ⟨0x4100, 7, 7, 4, 4, 1, 1, 2, 1000, 1100000, 25000⟩, -- HOLD_LIMIT
  ⟨0x4100, 8, 8, 4, 4, 1, 1, 2, 50, 100000, 1000⟩, -- CONNECT_TIMEOUT
  ⟨0x4100, 9, 9, 4, 4, 1, 1, 2, 50, 100000, 1000⟩, -- CLOSE_TIMEOUT
  ⟨0x4100, 10, 10, 4, 4, 1, 1, 2, 10, 10000, 100⟩, -- ORPHAN_TIMEOUT
  ⟨0x4101, 1, 1, 4, 4, 1, 1, 2, 0, 4294967295, 400000⟩, -- RATE_START
  ⟨0x4101, 2, 2, 4, 4, 1, 1, 2, 0, 4294967295, 500⟩, -- RATE_MIN
  ⟨0x4101, 3, 3, 4, 4, 1, 1, 2, 0, 4294967295, 3200000⟩, -- RATE_MAX
  ⟨0x4101, 4, 4, 3, 2, 1, 1, 2, 0, 65535, 512⟩, -- BETA
  ⟨0x4101, 5, 5, 3, 2, 1, 1, 2, 0, 65535, 256⟩, -- GAMMA
  ⟨0x4101, 6, 6, 4, 4, 1, 1, 2, 0, 4294967295, 2500⟩, -- AI
  ⟨0x4101, 7, 7, 2, 1, 1, 1, 2, 1, 32, 8⟩, -- HYPER_CAP
  ⟨0x4101, 8, 8, 4, 4, 1, 1, 2, 200, 100000, 2000⟩, -- DELAY_TARGET
  ⟨0x4101, 9, 9, 4, 4, 1, 1, 2, 1000, 1000000, 10000⟩, -- BASE_WINDOW
  ⟨0x4101, 10, 10, 3, 2, 1, 1, 2, 1, 256, 4⟩, -- WINDOW_MIN
  ⟨0x4110, 1, 8, 14, 8, 0, 0, 3, 0, 0, 0⟩] -- CONN_COUNTS

/-- Entries of R190. -/
def entriesTranslation : List Entry := [
  ⟨0x4200, 1, 1, 4, 4, 1, 1, 2, 10, 100000, 1000⟩, -- INVAL_TIMEOUT
  ⟨0x4210, 1, 8, 14, 8, 0, 0, 3, 0, 0, 0⟩] -- XLATE_COUNTS

/-- Entries of R227. -/
def entriesCollectives : List Entry := [
  ⟨0x5000, 1, 1, 4, 4, 1, 1, 2, 1, 10000, 100⟩, -- TIMEOUT_DEFAULT
  ⟨0x5000, 2, 2, 4, 4, 1, 1, 2, 50, 1000000, 1000⟩, -- LATE_LIMIT
  ⟨0x5100, 0, 0, 3, 2, 1, 0, 2, 0, 65535, 0⟩, -- GROUP_SEL
  ⟨0x5101, 1, 1, 2, 1, 0, 0, 2, 0, 255, 0⟩, -- STATE
  ⟨0x5101, 2, 2, 2, 1, 3, 0, 3, 0, 255, 0⟩, -- FLAGS
  ⟨0x5101, 3, 3, 4, 4, 3, 0, 3, 1, 10000, 100⟩, -- TIMEOUT
  ⟨0x5101, 4, 4, 4, 4, 0, 0, 2, 0, 4294967295, 4294967295⟩, -- RETIRED
  ⟨0x5102, 0, 0, 14, 2, 3, 0, 3, 0, 0, 0⟩, -- MEMBERS
  ⟨0x5103, 0, 0, 2, 1, 2, 0, 3, 0, 255, 0⟩, -- GROUP_CMD
  ⟨0x5110, 0, 0, 3, 2, 1, 0, 2, 0, 1023, 0⟩, -- PERM_SEL
  ⟨0x5111, 0, 0, 14, 2, 1, 0, 3, 0, 0, 0⟩, -- PERM_TABLE
  ⟨0x5200, 0, 0, 15, 32, 2, 0, 1, 0, 0, 0⟩, -- GROUP_JOIN
  ⟨0x5201, 0, 0, 15, 4, 2, 0, 1, 0, 0, 0⟩, -- GROUP_LEAVE
  ⟨0x5300, 0, 0, 15, 17, 2, 0, 2, 0, 0, 0⟩, -- SCHED_LOAD
  ⟨0x5301, 1, 16, 14, 1, 0, 0, 2, 0, 0, 0⟩, -- SCHED_STATE
  ⟨0x5302, 0, 0, 2, 1, 2, 0, 2, 0, 255, 0⟩, -- SCHED_UNLOAD
  ⟨0x5400, 0, 0, 4, 4, 1, 0, 2, 0, 4294967295, 0⟩, -- FENCED_SEL
  ⟨0x5401, 0, 0, 14, 2, 0, 0, 2, 0, 0, 0⟩, -- FENCED_LIST
  ⟨0x5410, 1, 8, 14, 8, 0, 0, 3, 0, 0, 0⟩] -- COLL_COUNTS

/-- Entries of R266. -/
def entriesArithmetic : List Entry := [
  ⟨0x5001, 1, 1, 4, 4, 1, 1, 2, 500, 1000000, 8000⟩, -- ADMIT_LINGER
  ⟨0x5101, 5, 5, 4, 4, 3, 0, 3, 0, 67108864, 0⟩, -- ACC_ELEMS
  ⟨0x5101, 6, 6, 5, 8, 3, 0, 3, 0, 18446744073709551615, 0⟩, -- SR_SEED
  ⟨0x5500, 0, 0, 15, 17, 2, 0, 2, 0, 0, 0⟩, -- KERNEL_LOAD
  ⟨0x5501, 1, 240, 14, 1, 0, 0, 2, 0, 0, 0⟩, -- KERNEL_STATE
  ⟨0x5502, 0, 0, 2, 1, 2, 0, 2, 0, 255, 0⟩, -- KERNEL_UNLOAD
  ⟨0x5510, 0, 0, 3, 2, 1, 0, 2, 0, 4095, 0⟩, -- BIND_SEL
  ⟨0x5511, 0, 0, 15, 64, 1, 0, 2, 0, 0, 0⟩, -- KERNEL_BIND
  ⟨0x5520, 1, 4, 14, 8, 0, 0, 3, 0, 0, 0⟩, -- STORE_COUNTS
  ⟨0x5521, 1, 8, 14, 8, 0, 0, 3, 0, 0, 0⟩] -- ARITH_COUNTS

/-- Entries of R304. -/
def entriesRouting : List Entry := [
  ⟨0x3000, 1, 1, 3, 2, 3, 2, 3, 0, 65535, 34997⟩, -- FABRIC_ETHERTYPE
  ⟨0x3001, 1, 1, 3, 2, 3, 1, 3, 0, 65535, 0⟩, -- SHAPE
  ⟨0x3001, 2, 2, 3, 2, 3, 1, 3, 0, 65535, 65535⟩, -- COORD
  ⟨0x3001, 3, 3, 1, 1, 1, 1, 3, 0, 1, 1⟩, -- ASSIGN_OPEN
  ⟨0x3001, 4, 4, 3, 2, 3, 1, 3, 0, 65535, 4095⟩, -- DATELINES
  ⟨0x3002, 0, 0, 14, 12, 0, 0, 2, 0, 0, 0⟩, -- NEIGHBOURS
  ⟨0x3010, 0, 0, 4, 4, 1, 0, 2, 0, 1048575, 0⟩, -- TREE_SEL
  ⟨0x3011, 0, 0, 12, 16, 1, 0, 3, 0, 0, 0⟩, -- TREE_ENTRY
  ⟨0x3020, 0, 0, 15, 4, 2, 0, 3, 0, 0, 0⟩, -- FENCE_CMD
  ⟨0x3021, 0, 0, 14, 2, 0, 1, 2, 0, 0, 0⟩, -- FENCE_STATE
  ⟨0x3030, 1, 4, 14, 8, 0, 0, 3, 0, 0, 0⟩] -- ROUTE_COUNTS

/-- Entries of R338. -/
def entriesPorts : List Entry := [
  ⟨0x3100, 0, 0, 2, 1, 1, 0, 2, 0, 23, 0⟩, -- PORT_SEL
  ⟨0x3101, 1, 1, 2, 1, 1, 1, 2, 0, 3, 0⟩, -- RATE
  ⟨0x3101, 2, 2, 2, 1, 0, 0, 2, 0, 255, 0⟩, -- RATE_ACTIVE
  ⟨0x3101, 3, 3, 8, 4, 1, 2, 3, 0, 4294967295, 0⟩, -- ASYMMETRY
  ⟨0x3101, 4, 4, 14, 8, 0, 0, 3, 0, 0, 0⟩, -- PORT_COUNTS
  ⟨0x3102, 1, 1, 2, 1, 1, 1, 3, 0, 1, 1⟩, -- DARN_POLICY
  ⟨0x3102, 2, 2, 4, 4, 1, 1, 3, 1000, 200000000, 10000000⟩, -- LANE_WEAR_SER
  ⟨0x3102, 3, 3, 15, 2, 2, 0, 3, 0, 0, 0⟩, -- LANE_DARN
  ⟨0x3102, 4, 4, 14, 1, 0, 2, 2, 0, 0, 0⟩, -- LANE_MAP
  ⟨0x3103, 1, 1, 2, 1, 1, 1, 2, 0, 2, 2⟩, -- FC_MODE
  ⟨0x3103, 2, 2, 2, 1, 1, 1, 2, 0, 255, 255⟩, -- PFC_ENABLE
  ⟨0x3103, 3, 3, 4, 4, 1, 1, 2, 8192, 253828, 65536⟩, -- XOFF
  ⟨0x3103, 4, 4, 4, 4, 1, 1, 2, 0, 4294967295, 49152⟩, -- XON
  ⟨0x3103, 5, 5, 4, 4, 1, 1, 2, 1, 10000, 50⟩, -- PAUSE_WATCHDOG
  ⟨0x3103, 6, 6, 14, 8, 0, 0, 3, 0, 0, 0⟩, -- PFC_COUNTS
  ⟨0x3201, 1, 1, 2, 1, 1, 1, 2, 1, 15, 3⟩, -- WEIGHT_TC2
  ⟨0x3201, 2, 2, 2, 1, 1, 1, 2, 1, 15, 1⟩, -- WEIGHT_TC3
  ⟨0x3201, 3, 3, 2, 1, 1, 1, 2, 1, 100, 5⟩, -- TC0_CAP
  ⟨0x3201, 4, 4, 4, 4, 1, 1, 2, 0, 4294967295, 0⟩, -- SHAPE_TC2
  ⟨0x3201, 5, 5, 4, 4, 1, 1, 2, 0, 4294967295, 0⟩, -- SHAPE_TC3
  ⟨0x3201, 6, 6, 4, 4, 1, 1, 2, 4158, 1048576, 16384⟩, -- BURST
  ⟨0x3201, 7, 7, 4, 4, 1, 1, 2, 4096, 262144, 65536⟩, -- MARK_TC2
  ⟨0x3201, 8, 8, 4, 4, 1, 1, 2, 4096, 262144, 65536⟩, -- MARK_TC3
  ⟨0x3300, 1, 1, 11, 8, 0, 1, 2, 0, 18446744073709551615, 0⟩, -- GATE_BASE
  ⟨0x3300, 2, 2, 3, 2, 1, 1, 3, 0, 10000, 84⟩, -- GUARD_MARGIN
  ⟨0x3301, 0, 0, 14, 8, 1, 1, 3, 0, 0, 0⟩, -- GATE_ADMIN
  ⟨0x3302, 1, 1, 11, 8, 1, 1, 3, 0, 18446744073709551615, 0⟩, -- GATE_ADMIN_BASE
  ⟨0x3302, 2, 2, 1, 1, 2, 0, 3, 0, 1, 0⟩, -- GATE_COMMIT
  ⟨0x3302, 3, 3, 14, 8, 0, 1, 2, 0, 0, 0⟩, -- GATE_OPER
  ⟨0x3302, 4, 4, 1, 1, 0, 0, 2, 0, 1, 0⟩, -- GATE_PENDING
  ⟨0x3400, 1, 1, 2, 1, 0, 0, 2, 0, 255, 0⟩, -- TIME_STATE
  ⟨0x3400, 2, 2, 8, 4, 0, 0, 2, 0, 4294967295, 0⟩, -- TIME_OFFSET
  ⟨0x3400, 3, 3, 2, 1, 0, 0, 2, 0, 255, 255⟩, -- UPSTREAM_PORT
  ⟨0x3400, 4, 4, 2, 1, 1, 2, 3, 0, 255, 0⟩, -- PTP_DOMAIN
  ⟨0x3400, 5, 5, 4, 4, 1, 1, 3, 0, 4294967295, 0⟩, -- TWO_STEP
  ⟨0x3400, 6, 6, 4, 4, 1, 1, 3, 1, 10000, 100⟩, -- HOLDOVER_LIMIT
  ⟨0x3400, 7, 7, 1, 1, 1, 1, 3, 0, 1, 1⟩, -- PPS_OUT_EN
  ⟨0x3400, 8, 8, 1, 1, 1, 1, 3, 0, 1, 0⟩, -- PPS_REF
  ⟨0x3400, 9, 9, 11, 8, 0, 0, 2, 0, 18446744073709551615, 0⟩, -- PPS_IN_TIME
  ⟨0x3400, 10, 10, 5, 8, 2, 0, 3, 0, 18446744073709551615, 0⟩] -- TIME_SET

/-- Entries of R338. -/
def entriesPorts2 : List Entry := [
  ⟨0x3400, 11, 11, 1, 1, 0, 0, 2, 0, 1, 0⟩, -- TIME_SET_PENDING
  ⟨0x3500, 0, 0, 14, 1, 1, 0, 3, 0, 0, 0⟩, -- SAMPLE_MASK
  ⟨0x3501, 1, 4, 15, 13, 1, 0, 3, 0, 0, 0⟩, -- SAMPLE_RING
  ⟨0x3510, 0, 0, 14, 8, 0, 0, 2, 0, 0, 0⟩, -- HWM
  ⟨0x3600, 1, 1, 3, 2, 1, 2, 3, 0, 65535, 50085⟩, -- WAKE_CODE
  ⟨0x3600, 2, 2, 15, 3, 2, 0, 2, 0, 0, 0⟩, -- WAKE_SEND
  ⟨0x3600, 3, 3, 14, 8, 0, 1, 3, 0, 0, 0⟩] -- WAKE_COUNTS

/-- Entries of R373. -/
def entriesLinks : List Entry := [
  ⟨0x6000, 1, 2, 3, 2, 1, 2, 3, 0, 65535, 0⟩, -- LINK_PARTITIONS
  ⟨0x6001, 1, 8, 2, 1, 1, 2, 3, 0, 255, 0⟩, -- PORT_BIND
  ⟨0x6001, 9, 16, 2, 1, 0, 0, 2, 0, 255, 0⟩, -- PORT_BIND_ACTIVE
  ⟨0x6002, 1, 2, 4, 4, 1, 1, 3, 1, 1000, 20⟩, -- HOST_LOSS_TIMER
  ⟨0x6002, 3, 4, 2, 1, 0, 0, 2, 0, 255, 0⟩, -- LINK_STATE
  ⟨0x6002, 5, 5, 2, 1, 2, 0, 3, 0, 255, 0⟩, -- HOST_DOMAIN_RESET
  ⟨0x6003, 1, 2, 14, 8, 0, 0, 3, 0, 0, 0⟩, -- EDRAD_COUNTS
  ⟨0x6004, 1, 8, 2, 1, 1, 2, 3, 0, 3, 0⟩, -- PORT_MAX_SPEED
  ⟨0x6004, 9, 16, 14, 1, 0, 0, 2, 0, 0, 0⟩, -- PORT_STATE
  ⟨0x6005, 1, 1, 4, 4, 1, 1, 3, 1, 1000, 20⟩, -- ACCEL_LOSS_TIMER
  ⟨0x6006, 1, 2, 14, 8, 0, 0, 3, 0, 0, 0⟩] -- COPY_COUNTS

/-- Entries of R395. -/
def entriesMemory : List Entry := [
  ⟨0x2400, 1, 1, 4, 4, 0, 0, 2, 0, 4294967295, 0⟩, -- MEM_FRAMES
  ⟨0x2400, 2, 2, 14, 4, 0, 2, 2, 0, 0, 0⟩, -- WITHDRAWN
  ⟨0x2401, 1, 1, 3, 2, 1, 1, 3, 1, 168, 24⟩, -- SCRUB_PERIOD
  ⟨0x2401, 2, 2, 3, 2, 1, 1, 3, 2, 1024, 16⟩, -- CE_BLOCK_LIMIT
  ⟨0x2401, 3, 3, 4, 4, 1, 1, 3, 100, 10000000, 10000⟩, -- CHAN_WEAR_CE
  ⟨0x2401, 4, 4, 2, 1, 1, 1, 3, 0, 1, 1⟩, -- MEM_DARN_POLICY
  ⟨0x2401, 5, 5, 15, 2, 2, 0, 3, 0, 0, 0⟩, -- CHAN_DARN
  ⟨0x2402, 1, 8, 14, 8, 0, 0, 3, 0, 0, 0⟩, -- MEM_COUNTS
  ⟨0x5002, 1, 1, 4, 4, 1, 2, 3, 0, 4294967295, 0⟩, -- COLL_AREA_BASE
  ⟨0x5002, 2, 2, 4, 4, 1, 2, 3, 0, 4294967295, 0⟩] -- COLL_AREA_FRAMES

/-- Entries of R414. -/
def entriesPartitions : List Entry := [
  ⟨0x7000, 1, 1, 3, 2, 1, 2, 3, 0, 65535, 0⟩, -- PART_ENABLE
  ⟨0x7000, 2, 2, 14, 1, 0, 0, 2, 0, 0, 0⟩, -- PART_STATE
  ⟨0x7001, 1, 12, 3, 2, 1, 2, 3, 0, 65535, 0⟩, -- DOMAIN
  ⟨0x7002, 1, 12, 4, 4, 1, 2, 3, 0, 4294967295, 0⟩, -- MEM_BASE
  ⟨0x7003, 1, 12, 4, 4, 1, 2, 3, 0, 4294967295, 0⟩, -- MEM_FRAMES
  ⟨0x7004, 1, 12, 3, 2, 1, 2, 3, 1, 1024, 1⟩, -- TABLE_SIZE
  ⟨0x7005, 1, 12, 15, 8, 1, 2, 3, 0, 0, 0⟩, -- REGION_RANGE
  ⟨0x7006, 1, 12, 15, 4, 1, 2, 3, 0, 0, 0⟩, -- FLAT_RANGE
  ⟨0x7007, 1, 12, 15, 8, 1, 2, 3, 0, 0, 0⟩, -- WQ_RANGE
  ⟨0x7008, 1, 12, 15, 8, 1, 2, 3, 0, 0, 0⟩, -- CQ_RANGE
  ⟨0x7009, 1, 12, 15, 8, 1, 2, 3, 0, 0, 0⟩, -- CTR_RANGE
  ⟨0x700A, 1, 12, 15, 10, 1, 2, 3, 0, 0, 18446744073709551616⟩, -- QUOTAS
  ⟨0x700B, 1, 8, 2, 1, 1, 2, 3, 0, 11, 255⟩, -- PORT_OWNER
  ⟨0x700C, 1, 12, 2, 1, 1, 2, 3, 0, 255, 1⟩, -- PART_FLAGS
  ⟨0x7010, 0, 0, 15, 2, 2, 0, 3, 0, 0, 0⟩, -- PART_CMD
  ⟨0x7011, 1, 1, 4, 4, 1, 1, 3, 10, 10000, 200⟩, -- RESET_DRAIN
  ⟨0x7020, 0, 0, 15, 6, 2, 0, 1, 0, 0, 0⟩, -- SLICE_CMD
  ⟨0x7021, 1, 12, 3, 2, 0, 0, 1, 0, 65535, 0⟩, -- SLICES_IN_USE
  ⟨0x7030, 1, 12, 14, 8, 0, 0, 3, 0, 0, 0⟩] -- PART_COUNTS

/-- Entries of R454. -/
def entriesFarnen : List Entry := [
  ⟨0x1000, 1, 1, 3, 2, 0, 2, 0, 0, 65535, 0⟩, -- VENDOR_ID
  ⟨0x1000, 2, 2, 5, 8, 0, 2, 0, 0, 18446744073709551615, 0⟩, -- DEVICE_ID
  ⟨0x1000, 3, 3, 3, 2, 0, 2, 0, 0, 65535, 0⟩, -- GRADE
  ⟨0x1000, 4, 4, 2, 1, 0, 2, 0, 0, 255, 0⟩, -- STEPPING
  ⟨0x1000, 5, 5, 12, 6, 0, 2, 0, 0, 0, 0⟩, -- MAC_BASE
  ⟨0x1001, 1, 1, 3, 2, 0, 0, 0, 0, 65535, 256⟩, -- DICT_VERSION
  ⟨0x1100, 0, 0, 12, 262144, 0, 0, 0, 0, 0, 0⟩, -- PATTERN_TABLE
  ⟨0x1200, 1, 1, 2, 1, 1, 1, 3, 0, 2, 0⟩, -- GEN_SELECT
  ⟨0x1200, 2, 2, 2, 1, 0, 0, 0, 0, 255, 0⟩, -- GEN_ACTIVE
  ⟨0x1200, 3, 3, 2, 1, 0, 0, 2, 0, 255, 0⟩, -- GENSEL_SAMPLED
  ⟨0x3700, 1, 1, 2, 1, 1, 2, 3, 0, 2, 0⟩, -- MGR_ROLE
  ⟨0x3700, 2, 2, 2, 1, 0, 0, 2, 0, 255, 0⟩, -- ROLE_ACTIVE
  ⟨0x3700, 3, 3, 4, 4, 0, 1, 2, 0, 4294967295, 0⟩, -- MANAGER_EPOCH
  ⟨0x3700, 4, 4, 5, 8, 0, 1, 2, 0, 18446744073709551615, 0⟩, -- MANAGER_ID
  ⟨0x3701, 1, 1, 3, 2, 1, 2, 3, 0, 65535, 65535⟩, -- STANDBY
  ⟨0x3701, 2, 2, 14, 8, 1, 2, 3, 0, 0, 0⟩, -- SUBMGR_LIST
  ⟨0x3701, 3, 3, 14, 2, 0, 0, 2, 0, 0, 0⟩, -- WITNESSES
  ⟨0x3701, 4, 4, 1, 1, 0, 0, 2, 0, 1, 0⟩, -- STANDBY_SYNC
  ⟨0x3702, 1, 1, 4, 4, 1, 1, 3, 1, 1000, 10⟩, -- HEARTBEAT_PERIOD
  ⟨0x3702, 2, 2, 2, 1, 1, 1, 3, 2, 16, 3⟩, -- MGR_LOSS
  ⟨0x3702, 3, 3, 1, 1, 2, 0, 3, 0, 1, 0⟩, -- FAILOVER
  ⟨0x3800, 1, 1, 2, 1, 1, 2, 3, 0, 15, 255⟩, -- T1S_NODE
  ⟨0x3800, 2, 2, 2, 1, 1, 2, 3, 1, 16, 8⟩, -- T1S_NODES
  ⟨0x3800, 3, 3, 3, 2, 1, 2, 3, 1024, 65535, 7208⟩, -- FARNEN_PORT
  ⟨0x3800, 4, 4, 2, 1, 1, 2, 3, 8, 119, 58⟩, -- I3C_STATIC_ADDR
  ⟨0x9100, 1, 1, 4, 4, 1, 1, 3, 1, 3600, 60⟩, -- SESSION_IDLE
  ⟨0x9100, 2, 2, 14, 15, 0, 0, 2, 0, 0, 0⟩, -- SESSIONS
  ⟨0x9100, 3, 3, 14, 8, 0, 0, 3, 0, 0, 0⟩] -- FARNEN_COUNTS

/-- Entries of R476. -/
def entriesSecurity : List Entry := [
  ⟨0x9000, 1, 1, 14, 35, 0, 2, 0, 0, 0, 0⟩, -- KEY_SLOTS
  ⟨0x9000, 2, 2, 15, 2454, 2, 0, 3, 0, 0, 0⟩, -- OWNER_ENROLL
  ⟨0x9000, 3, 3, 15, 2423, 2, 0, 3, 0, 0, 0⟩, -- SLOT_REVOKE
  ⟨0x9000, 4, 4, 1, 1, 1, 2, 3, 0, 1, 0⟩, -- OWNER_EXCLUSIVE
  ⟨0x9010, 1, 1, 14, 8, 0, 0, 2, 0, 0, 0⟩, -- IMAGE_STATE
  ⟨0x9010, 2, 2, 15, 17, 2, 0, 3, 0, 0, 0⟩, -- IMAGE_WRITE
  ⟨0x9010, 3, 3, 15, 2, 2, 0, 3, 0, 0, 0⟩, -- IMAGE_ACTIVATE
  ⟨0x9010, 4, 4, 14, 1, 0, 2, 0, 0, 0, 0⟩, -- SVN_FUSED
  ⟨0x9010, 5, 5, 2, 1, 2, 0, 3, 0, 255, 0⟩, -- ROLLBACK_COMMIT
  ⟨0x9020, 1, 1, 14, 32, 0, 0, 0, 0, 0, 0⟩, -- MEASUREMENTS
  ⟨0x9020, 2, 2, 15, 33, 2, 0, 3, 0, 0, 0⟩, -- MEASURE_EXTEND
  ⟨0x9020, 3, 3, 15, 34, 2, 0, 1, 0, 0, 0⟩, -- ATTEST_REQ
  ⟨0x9020, 4, 4, 12, 4096, 0, 0, 1, 0, 0, 0⟩, -- ATTEST_REPORT
  ⟨0x9020, 5, 5, 5, 8, 0, 1, 0, 0, 18446744073709551615, 0⟩, -- REPORT_COUNT
  ⟨0x9020, 6, 6, 12, 1312, 0, 2, 0, 0, 0, 0⟩, -- IDENTITY_KEY
  ⟨0x9020, 7, 7, 15, 2496, 0, 2, 0, 0, 0, 0⟩, -- IDENTITY_CERT
  ⟨0x9030, 1, 1, 14, 4, 1, 2, 3, 0, 0, 0⟩, -- KEY_EPOCH
  ⟨0x9030, 2, 2, 14, 32, 0, 0, 3, 0, 0, 0⟩, -- KEY_EXPORT
  ⟨0x9030, 3, 3, 1, 1, 0, 2, 0, 0, 1, 0⟩, -- PROVISIONED
  ⟨0x9030, 4, 4, 1, 1, 2, 0, 3, 0, 1, 0⟩, -- PROVISION_DONE
  ⟨0x9040, 1, 1, 12, 32, 0, 0, 3, 0, 0, 0⟩, -- DEBUG_CHALLENGE
  ⟨0x9040, 2, 2, 15, 2422, 2, 0, 3, 0, 0, 0⟩, -- DEBUG_RESPONSE
  ⟨0x9040, 3, 3, 2, 1, 0, 0, 0, 0, 255, 0⟩, -- DEBUG_STATE
  ⟨0x9050, 0, 0, 14, 8, 0, 0, 3, 0, 0, 0⟩] -- SEC_COUNTS

/-- Entries of R493. -/
def entriesMetering : List Entry := [
  ⟨0xA000, 1, 1, 5, 8, 0, 3, 4, 0, 18446744073709551615, 0⟩, -- METER_ID
  ⟨0xA000, 2, 2, 15, 3780, 0, 3, 4, 0, 0, 0⟩, -- METER_CERT
  ⟨0xA000, 3, 3, 4, 4, 0, 3, 4, 0, 4294967295, 0⟩, -- AUDIT_COUNT
  ⟨0xA000, 4, 4, 2, 1, 0, 0, 4, 0, 255, 0⟩, -- METER_STATE
  ⟨0xA001, 1, 1, 4, 4, 0, 3, 4, 0, 4294967295, 900⟩, -- METER_INTERVAL
  ⟨0xA001, 2, 2, 4, 4, 0, 3, 4, 0, 4294967295, 0⟩, -- CAL_ID
  ⟨0xA001, 3, 3, 4, 4, 0, 3, 4, 0, 4294967295, 0⟩, -- METER_FW
  ⟨0xA002, 1, 1, 15, 300, 0, 0, 4, 0, 0, 0⟩, -- LIVE
  ⟨0xA002, 2, 2, 14, 8, 0, 0, 4, 0, 0, 0⟩, -- RAIL_ENERGY
  ⟨0xA010, 0, 0, 5, 8, 1, 0, 4, 0, 18446744073709551615, 0⟩, -- RECORD_SEL
  ⟨0xA010, 1, 1, 12, 2932, 0, 3, 4, 0, 0, 0⟩, -- RECORD
  ⟨0xA010, 2, 2, 15, 20, 0, 0, 4, 0, 0, 0⟩, -- RECORD_RANGE
  ⟨0xA020, 0, 0, 14, 8, 0, 0, 4, 0, 0, 0⟩, -- METER_COUNTS
  ⟨0xA030, 0, 0, 15, 21, 2, 0, 4, 0, 0, 0⟩] -- SEAL_CMD

/-- Entries of R516. -/
def entriesObserve : List Entry := [
  ⟨0x8010, 1, 8, 14, 11, 1, 0, 1, 0, 0, 0⟩, -- PCTR_CFG
  ⟨0x8011, 1, 8, 14, 8, 1, 0, 1, 0, 0, 0⟩, -- PCTR_VALUE
  ⟨0x8012, 1, 8, 15, 569, 0, 0, 1, 0, 0, 0⟩, -- PCTR_SNAP
  ⟨0x8013, 1, 8, 14, 1, 1, 0, 3, 0, 0, 255⟩, -- PCTR_OWNER
  ⟨0x8014, 1, 8, 14, 8, 0, 0, 3, 0, 0, 0⟩, -- FIXED_COUNTS
  ⟨0x8020, 1, 1, 4, 4, 1, 1, 2, 1024, 999948288, 1048576⟩, -- BW_WINDOW
  ⟨0x8021, 0, 0, 14, 32, 0, 0, 3, 0, 0, 0⟩, -- PORT_BW
  ⟨0x8022, 1, 12, 15, 24, 0, 0, 1, 0, 0, 0⟩, -- PART_BW
  ⟨0x8030, 1, 8, 14, 6, 1, 0, 1, 0, 0, 0⟩, -- HIST_CFG
  ⟨0x8031, 1, 8, 14, 8, 0, 0, 1, 0, 0, 0⟩, -- HIST_DATA
  ⟨0x8040, 1, 8, 15, 21, 1, 0, 1, 0, 0, 0⟩, -- SFIFO_CFG
  ⟨0x8041, 1, 8, 12, 1024, 0, 0, 1, 0, 0, 0⟩, -- SFIFO_DATA
  ⟨0x8042, 1, 8, 15, 19, 0, 0, 1, 0, 0, 0⟩, -- SFIFO_STATE
  ⟨0x8100, 1, 12, 14, 8, 0, 0, 1, 0, 0, 0⟩, -- PART_FILTERED
  ⟨0x8200, 1, 1, 15, 26, 0, 0, 2, 0, 0, 0⟩, -- EVENT_STATE
  ⟨0x8200, 2, 2, 14, 8, 0, 1, 2, 0, 0, 0⟩, -- EVENT_LOST
  ⟨0x8200, 3, 3, 2, 1, 1, 1, 3, 0, 4, 1⟩, -- EVENT_MIN_RECORD
  ⟨0x8201, 0, 0, 5, 8, 1, 0, 1, 0, 18446744073709551615, 0⟩, -- EVENT_SEL
  ⟨0x8202, 0, 0, 2, 1, 1, 0, 1, 0, 4, 0⟩, -- EVENT_FILTER
  ⟨0x8203, 0, 0, 14, 64, 0, 2, 1, 0, 0, 0⟩, -- EVENT_RECORDS
  ⟨0x8204, 0, 0, 5, 8, 2, 0, 3, 0, 18446744073709551615, 0⟩, -- EVENT_CLEAR
  ⟨0x8210, 0, 0, 14, 8, 0, 0, 3, 0, 0, 0⟩] -- OBS_COUNTS

/-- Entries of R541. -/
def entriesPower : List Entry := [
  ⟨0x2000, 1, 1, 2, 1, 0, 0, 0, 0, 255, 0⟩, -- POWER_STATE
  ⟨0x2000, 2, 2, 2, 1, 2, 0, 3, 0, 255, 0⟩, -- POWER_CMD
  ⟨0x2000, 3, 3, 4, 4, 1, 1, 2, 0, 1000000, 1000⟩, -- IDLE_AFTER
  ⟨0x2000, 4, 4, 4, 4, 1, 1, 3, 1, 10000, 100⟩, -- ENTRY_DRAIN
  ⟨0x2001, 1, 1, 2, 1, 1, 1, 3, 0, 255, 15⟩, -- WAKE_ENABLE
  ⟨0x2001, 2, 2, 11, 8, 1, 1, 3, 0, 18446744073709551615, 0⟩, -- WAKE_AT
  ⟨0x2001, 3, 3, 15, 30, 0, 1, 2, 0, 0, 0⟩, -- WAKE_REPORT
  ⟨0x2002, 1, 1, 2, 1, 2, 0, 3, 0, 255, 0⟩, -- WARM_RESET
  ⟨0x2002, 2, 2, 15, 10, 0, 2, 2, 0, 0, 0⟩, -- RESET_REPORT
  ⟨0x2002, 3, 3, 14, 8, 0, 2, 3, 0, 0, 0⟩, -- RESET_COUNTS
  ⟨0x2002, 4, 4, 4, 4, 1, 1, 3, 10, 10000, 100⟩, -- MC_WATCHDOG
  ⟨0x2003, 1, 1, 2, 1, 1, 1, 3, 0, 1, 1⟩, -- UNIT_DARN_POLICY
  ⟨0x2003, 2, 2, 4, 4, 1, 1, 3, 10, 1000000, 1000⟩, -- CLUSTER_WEAR_CE
  ⟨0x2003, 3, 3, 3, 2, 1, 1, 3, 1, 168, 24⟩, -- SELFTEST_PERIOD
  ⟨0x2003, 4, 4, 15, 2, 2, 0, 3, 0, 0, 0⟩, -- CLUSTER_DARN
  ⟨0x2003, 5, 5, 2, 1, 2, 0, 3, 0, 16, 0⟩, -- CORE_DARN
  ⟨0x2003, 6, 6, 14, 12, 0, 2, 2, 0, 0, 0⟩, -- SRAM_REPAIRS
  ⟨0x2003, 7, 7, 14, 8, 0, 0, 3, 0, 0, 0⟩] -- DARN_COUNTS

/-- Entries of R565. -/
def entriesElectrical : List Entry := [
  ⟨0x2200, 1, 1, 2, 1, 1, 1, 3, 85, 104, 100⟩, -- THROTTLE_TJ
  ⟨0x2200, 2, 2, 3, 2, 1, 1, 3, 300, 850, 850⟩, -- POWER_LIMIT
  ⟨0x2200, 3, 3, 14, 2, 0, 0, 2, 0, 0, 0⟩, -- TEMPS
  ⟨0x2200, 4, 4, 14, 1, 0, 0, 2, 0, 0, 8⟩, -- THROTTLE_STATE
  ⟨0x2201, 1, 1, 14, 7, 0, 0, 2, 0, 0, 0⟩, -- RAIL_TELEMETRY
  ⟨0x2201, 2, 2, 2, 1, 1, 2, 3, 8, 119, 64⟩, -- PMBUS_ADDR
  ⟨0x2202, 0, 0, 14, 3, 0, 0, 2, 0, 0, 0⟩, -- REFCLK_STATE
  ⟨0x2203, 0, 0, 14, 8, 0, 0, 3, 0, 0, 0⟩] -- ELEC_COUNTS

/-- The whole dictionary, in no particular order. -/
def entries : List Entry :=
  entriesTransport ++ entriesTranslation ++ entriesCollectives ++ entriesArithmetic ++
  entriesRouting ++ entriesPorts ++ entriesPorts2 ++ entriesLinks ++
  entriesMemory ++ entriesPartitions ++ entriesFarnen ++ entriesSecurity ++
  entriesMetering ++ entriesObserve ++ entriesPower ++ entriesElectrical

/-- The row of an Index:Sub that a chapter lists. -/
def findEntry : List Entry → Nat → Nat → Option Entry
  | [], _, _ => none
  | e :: t, i, n => if e.index == i && Nat.ble e.first n && Nat.ble n e.last then some e else findEntry t i n

/-- An index whose values start at sub 0x01 (R415). -/
def hasSubs (i : Nat) : Bool := entries.any (fun e => e.index == i) && !entries.any fun e => e.index == i && e.first == 0

/-- The highest subindex in use of an index (R415). -/
def highestSub (i : Nat) : Nat := entries.foldl (fun a e => if e.index == i then max a e.last else a) 0

/-- The privilege an index's other entries are read with, for its sub 0x00 (R415): the least of them. -/
def indexPriv (i : Nat) : Nat := entries.foldl (fun a e => if e.index == i then min a e.priv else a) 4

/-- An entry that exists: a listed one, or the U8 at sub 0x00 that gives the highest subindex (R415). -/
def entryAt (i n : Nat) : Option Entry :=
  match findEntry entries i n with
  | some e => some e
  | none =>
    if n == 0 && hasSubs i then some ⟨i, 0, 0, 2, 1, 0, 0, indexPriv i, 0, 255, highestSub i⟩ else none

/-- The default of a setting. -/
def defaultOf (i n : Nat) : Nat :=
  match findEntry entries i n with
  | some e => e.dflt
  | none => 0

/-- The key of an entry, and of its copy for a selected port or record (R421): `sel` is 0 for none, else the selection + 1. -/
def dkey (i n : Nat) (sel : Nat := 0) : Nat := (sel * 65536 + i) * 256 + n

end Sys2Proof.Machine
end

