-- ==== Sys2Proof/Machine/Ops.lean ====
section
/-! DEFINITION. The named operations over the whole state that every family of commands shares: outcomes, what leaves the
device, free values, settings, counts, event records, device memory, the dies of a grade. -/

namespace Sys2Proof.Machine

/-- What a command answers. -/
abbrev Res := Host.Outcome State Fault Refusal

/-- A command that names an object the manual says does not exist stops; any other goes on. -/
def need (ok : Bool) (f : Fault) (t : State) : Res :=
  match ok with
  | true => .next t
  | false => .fault f

/-- An event whose condition does not hold leaves the state as it is (log 9, DESIGN CHOICE). -/
def when_ (ok : Bool) (s t : State) : State := if ok then t else s

/-! ## What leaves the device, and free values -/

def State.emit (s : State) (o : Out) : State := { s with out := o :: s.out }

def State.emits (s : State) (os : List Out) : State := { s with out := os.reverse ++ s.out }

/-- The next value the manual leaves open, and the state after drawing it (log 3, DESIGN CHOICE). -/
def draw (s : State) : Nat × State := (Config.freeNat s.free, { s with free := s.free + 1 })

/-- `n` bytes the manual leaves open, from a given draw on. -/
def freeBytes : Nat → Nat → List Byte
  | 0, _ => []
  | n + 1, k => Config.freeByte k :: freeBytes n (k + 1)

/-- Draw `n` open bytes. -/
def drawBytes (n : Nat) (s : State) : List Byte × State := (freeBytes n s.free, { s with free := s.free + n })

/-! ## Settings (R415, R454 and the other Entries tables) -/

/-- The value a setting has: the one written, or its default. -/
def cfg (s : State) (i n : Nat) : Nat :=
  match tget s.dict (dkey i n) with
  | some v => ofLe v
  | none => defaultOf i n

/-- A setting that each port has its own copy of (R338). -/
def cfgPort (s : State) (port i n : Nat) : Nat :=
  match tget s.dict (dkey i n (port + 1)) with
  | some v => ofLe v
  | none => defaultOf i n

/-- The value in force of a stored setting that only a reset puts into force (R424). -/
def cfgForce (s : State) (i n : Nat) : Nat :=
  match tget s.inForce (dkey i n) with
  | some v => ofLe v
  | none => defaultOf i n

/-- Bytes of a setting. -/
def cfgBytes (s : State) (key size dflt : Nat) : List Byte :=
  match tget s.dict key with
  | some v => v
  | none => leBytes size dflt

def setDict (key : Nat) (v : List Byte) (s : State) : State := { s with dict := tset s.dict key v }

/-! ## The dies of a grade (R2, R15, R440) -/

/-- Engine dies of the grade (log 39, DESIGN CHOICE). -/
def engineDies (s : State) : Nat :=
  if s.grade == 0x7208 then 8 else if s.grade == 0x7204 then 4 else 2

/-- A rail of the grade, in the order of R548: VCORE_ENG 0 to 7 first. -/
def railPopulated (s : State) (r : Nat) : Bool := 8 ≤ r || Nat.blt r (engineDies s)

/-- Die codes of the Pattern Table, in its order. -/
def dieCodes : List Nat :=
  [0, 1, 2, 3, 4, 5, 6, 7, 0x10, 0x11, 0x12, 0x13, 0x20, 0x21, 0x30, 0x40, 0x50, 0x51, 0x52, 0x53, 0x54, 0x55, 0x56, 0x57, 0x58]

def edCode (d : Nat) : Nat := d
def fpCode (q : Nat) : Nat := 0x10 + q
def atCode (a : Nat) : Nat := 0x20 + a
def hubCode : Nat := 0x30
def mtrCode : Nat := 0x40
def bgCode (b : Nat) : Nat := 0x50 + b

/-- A die of the part is populated on this grade (R5, R15). -/
def populated (s : State) (code : Nat) : Bool :=
  if code < 8 then Nat.blt code (engineDies s) else dieCodes.contains code

/-- A populated die that has not failed. -/
def dieUp (s : State) (code : Nat) : Bool := populated s code && !s.mesh.failed.contains code

/-- First island of a die (R440); MTR has none and takes the hub's. -/
def firstIsland (code : Nat) : Nat :=
  if code < 8 then 15 * code
  else if code < 0x14 then 120 + 10 * (code - 0x10)
  else if code < 0x22 then 160 + 7 * (code - 0x20)
  else if code < 0x50 then 174
  else 199 + (code - 0x50)

/-- Islands of a die (R25). -/
def islandsOf (code : Nat) : Nat :=
  if code < 8 then 15 else if code < 0x14 then 10 else if code < 0x22 then 7 else if code == 0x30 then 25
  else if code == 0x40 then 0 else 1

/-- The die an island is on (R440). -/
def dieOfIsland (i : Nat) : Nat :=
  if i < 120 then i / 15
  else if i < 160 then 0x10 + (i - 120) / 10
  else if i < 174 then 0x20 + (i - 160) / 7
  else if i < 199 then 0x30
  else 0x50 + (i - 199)

/-- The engine die that owns accelerator endpoint e (R19). -/
def ownerDie (s : State) (e : Nat) : Nat :=
  if s.grade == 0x7208 then nth [0, 1, 4, 6, 2, 3, 5, 7] e
  else if s.grade == 0x7204 then nth [0, 1, 0, 1, 2, 3, 2, 3] e
  else nth [0, 1, 0, 1, 0, 1, 0, 1] e

/-- Engine die of a numbered object: work queues and connection handles 17 bits, completion queues and counters 15 bits
(R70, R111). -/
def dieOfWq (wq : Nat) : Nat := wq / 2 ^ 17
def dieOfCq (cq : Nat) : Nat := cq / 2 ^ 15

/-! ## Time (R14, R28, R330) -/

/-- The device is time-suspect: it is neither ALIGNED nor in HOLDOVER (R330). -/
def timeSuspect (s : State) : Bool :=
  match s.time.state with
  | .aligned => false
  | .holdover => false
  | .free => true
  | .acquiring => true

/-- The time-suspect flag of an island (R28, R330). -/
def suspectAt (s : State) (island : Nat) : Bool := timeSuspect s || (tgetD s.time.islands island {}).suspect

/-- A duration has passed since an instant of device time (log 92, DESIGN CHOICE). -/
def due (s : State) (since dur : Nat) : Bool := Nat.ble (since + dur) s.time.now

def us : Nat := 1000
def ms : Nat := 1000000
def sec : Nat := 1000000000

/-! ## Counts (R495) -/

/-- Add to element i of a counts array. -/
def bump (key i n : Nat) (s : State) : State :=
  { s with counts := tmodD s.counts key [] fun l => nmod l i fun x => sat64 x n }

/-- Element i of a counts array. -/
def countAt (s : State) (key i : Nat) : Nat := nth (tgetD s.counts key []) i

/-- Raise element i of a counts array to a high-water mark. -/
def raise (key i n : Nat) (s : State) : State :=
  { s with counts := tmodD s.counts key [] fun l => nmod l i fun x => max x n }

/-- What an event may be counted by: its die, partition, queue, layer and operator (R494, R496). -/
structure Who where
  die : Nat
  part : Nat := 0xFF
  queue : Nat := 0xFFFFFFFF
  layer : Nat := 0xFFFF
  operator : Nat := 0xFFFF

/-- A programmable counter counts an event of its source that passes its filters (R496, R497). -/
def Pctr.counts (c : Pctr) (src : Nat) (w : Who) : Bool :=
  c.enable && c.source == src && (c.part == 0xFF || c.part == w.part) && (c.queue == 0xFFFFFFFF || c.queue == w.queue)
    && (c.layer == 0xFFFF || c.layer == w.layer) && (c.operator == 0xFFFF || c.operator == w.operator)

/-- Count an event of a source in the programmable counters of its die (R496). -/
def tally (src n : Nat) (w : Who) (s : State) : State :=
  { s with obs := { s.obs with pctr := tmap s.obs.pctr fun k c =>
      if k / 64 == w.die && c.counts src w then { c with value := sat64 c.value n } else c } }

/-- Bytes of a link, for the bandwidth windows: fabric ports 0 to 23, PCIe link l of port e at 24 + 2e + l, Edrad links 40 and 41 (R501). -/
def countLink (link sent received : Nat) (s : State) : State :=
  { s with obs := { s.obs with bw := tmodD s.obs.bw link {} fun b => { b with sent := b.sent + sent, received := b.received + received } } }

/-- Add to an element of a partition's filtered counts (R500). -/
def bumpPart (p i n : Nat) (s : State) : State := if p < 12 then bump (dkey 0x8100 (p + 1)) i n s else s

/-- A fixed counter of an engine die (R498). -/
def bumpFixed (die i n : Nat) (s : State) : State := if die < 8 then bump (dkey 0x8014 (die + 1)) i n s else s

/-- CONN_COUNTS of a die and its partition (R156, R500). -/
def bumpConn (die p i n : Nat) (s : State) : State := bumpPart p i n (if die < 8 then bump (dkey 0x4110 (die + 1)) i n s else s)

/-- XLATE_COUNTS of a die and its partition (R190, R500). -/
def bumpXlate (die p i n : Nat) (s : State) : State := bumpPart p (8 + i) n (bump (dkey 0x4210 (die + 1)) i n s)

/-- COLL_COUNTS of a die and its partition; runs overlapping and fenced lists are not attributed (R227, R500). -/
def bumpColl (die p i n : Nat) (s : State) : State :=
  let s := bump (dkey 0x5410 (die + 1)) i n s
  if i == 5 || i == 6 then s else bumpPart p (16 + i) n s

/-- ARITH_COUNTS of a die and its partition; wide-sum buffer misses are not attributed (R266, R500). -/
def bumpArith (die p i n : Nat) (s : State) : State :=
  let s := bump (dkey 0x5521 (die + 1)) i n s
  if i == 3 then s else bumpPart p (24 + i) n s

/-! ## The event recorder (R510 to R512) -/

/-- The lowest SEQ among records of a severity below `sev`. -/
def oldestBelow (l : List EventRec) (sev : Nat) : Option Nat :=
  match l with
  | [] => none
  | r :: t =>
    match oldestBelow t sev with
    | some q => if r.severity < sev && r.seq < q then some r.seq else some q
    | none => if r.severity < sev then some r.seq else none

/-- Island an event comes from: the unit of its die that finds it, in the list of R25 (R510; log 117, DESIGN CHOICE). -/
def sourceIsland (code die : Nat) (detail : List Nat) : Nat :=
  let at_ := fun (k : Nat) => firstIsland die + k
  let first := detail.headD 0
  if code == 0x2003 then first
  else if die < 8 then
    at_ (if code == 0x4004 || code == 0x4005 || code == 0x8001 then 0 else if code / 4096 == 4 then 1 else if 0x2010 ≤ code && code < 0x2020 then 3
      else if code / 4096 == 5 then 5 else 14)
  else if die < 0x14 then at_ (if code == 0x3003 then 7 else if code / 4096 == 3 && code != 0x3002 && code != 0x3016 then first % 6 else 6)
  else if die < 0x22 then at_ (if code == 0x6001 then 4 else if code / 4096 == 6 then first % 4 else 6)
  else if die == hubCode || die == mtrCode then firstIsland hubCode + 18
  else at_ 0

/-- Give a record its SEQ and add it (R511). -/
def appendRecord (l : List EventRec) (sev code part die : Nat) (detail : List Nat) (s : State) : State :=
  let isl := sourceIsland code die detail
  let r : EventRec :=
    { seq := s.obs.coldBoots * 2 ^ 48 + s.obs.nextRec % 2 ^ 48, code := code, severity := sev, part := part, die := die,
      island := isl, suspect := suspectAt s isl, time := s.time.now, detail := detail }
  bump (dkey 0x8210 0) (3 + sev) 1
    { s with obs := { s.obs with events := l ++ [r], nextRec := s.obs.nextRec + 1 } }

/-- Write an event record: below EVENT_MIN_RECORD nothing; full, it replaces the oldest record of lower severity or is
dropped and counted (R511, R512); a fatal one asserts ALERT_N (R546). `part` is 0xF for none (log 91, DEDUCED). -/
def record (sev code part die : Nat) (detail : List Nat) (s : State) : State :=
  let s := if sev == 4 then { s with elec := { s.elec with alert := true } } else s
  if sev < cfg s 0x8200 3 then s
  else if s.obs.events.length < 16384 then appendRecord s.obs.events sev code part die detail s
  else
    match oldestBelow s.obs.events sev with
    | some q =>
      bump (dkey 0x8210 0) 8 1 (appendRecord (s.obs.events.filter fun r => r.seq != q) sev code part die detail s)
    | none => { s with obs := { s.obs with lost := tmodD s.obs.lost sev 0 fun x => sat64 x 1 } }

/-- The Pattern Table is rebuilt and its GENERATION counts up, past 0 (R439, R442; log 89, DEDUCED). -/
def rebuildPattern (s : State) : State :=
  { s with far := { s.far with patternGen := if s.far.patternGen == 0xFFFFFFFF then 1 else s.far.patternGen + 1 } }

/-! ## Device memory and hub memory -/

/-- Write one byte; a zero byte is the one an unlisted address reads as (R394). -/
def putByte (m : Tab Byte) (a : Nat) (b : Byte) : Tab Byte := if b == 0 then tdel m a else tset m a b

/-- Read one byte (log 87, DESIGN CHOICE). -/
def getByte (m : Tab Byte) (a : Nat) : Byte := tgetD m a 0

/-- Write bytes at rising addresses. -/
def putBytes : Tab Byte → Nat → List Byte → Tab Byte
  | m, _, [] => m
  | m, a, b :: t => putBytes (putByte m a b) (a + 1) t

/-- Read `n` bytes at rising addresses. -/
def getBytes (m : Tab Byte) : Nat → Nat → List Byte
  | _, 0 => []
  | a, n + 1 => getByte m a :: getBytes m (a + 1) n

/-- The canonical form of memory: rising addresses, no zero byte listed. -/
def Memory.wf (m : Tab Byte) : Bool := Tab.wf m && m.all fun e => e.2 != 0

/-- Bytes of device memory at a device address. -/
def devRead (s : State) (a n : Nat) : List Byte := getBytes s.mem.bytes a n

def devWrite (a : Nat) (d : List Byte) (s : State) : State :=
  { s with mem := { s.mem with bytes := putBytes s.mem.bytes a d } }

/-- Remove every byte of a range: it reads zero (R394, R413). -/
def devZero (a n : Nat) (s : State) : State :=
  { s with mem := { s.mem with bytes := tkeep s.mem.bytes fun k _ => k < a || Nat.ble (a + n) k } }

def hubWrite (a : Nat) (d : List Byte) (s : State) : State :=
  { s with mem := { s.mem with hub := putBytes s.mem.hub a d } }

/-! ## Power: whether the logic runs -/

/-- The device is powered and out of a held reset. -/
def poweredOn (s : State) : Bool := !s.elec.held && !s.elec.waitPg && !s.elec.thermtrip && s.elec.coldN

/-- The hub works. -/
def hubUp (s : State) : Bool := poweredOn s && !s.mesh.failed.contains hubCode

/-- The management cores run: not held in reset, not tripped, not asleep, not in the boot or reset of R469 and R528. -/
def serving (s : State) : Bool :=
  hubUp s && s.pow.boot == 0 && s.pow.warm == 0
    && (match s.pow.state with
        | .active => true
        | .idle => true
        | .standby => false
        | .sleep => false
        | .entering => true
        | .leaving => false)

/-- The device runs commands that need its logic; in recovery only the management cores run (R470). -/
def running (s : State) : Bool := serving s && !s.sec.recovery

/-- Port dies carry frames: transit goes on when the hub has failed (R539). -/
def portsRun (s : State) : Bool :=
  running s || (poweredOn s && s.mesh.failed.contains hubCode && s.pow.boot == 0 && s.pow.warm == 0 && s.pow.state == .active)

/-- Queue engines issue: not during an entry to Standby or Sleep (R520 step 1). -/
def issuing (s : State) : Bool := running s && s.pow.state != .entering

/-- Partition resets advance: in running, and in step 2 of a warm reset or an orderly power-down (R528, R553). -/
def resetsRun (s : State) : Bool := running s || (hubUp s && s.pow.warm == 2)

/-- The device is not idle now (R518). -/
def noteBusy (s : State) : State := { s with pow := { s.pow with idleSince := s.time.now } }

/-- An access takes the device out of Idle and is then served (R518). -/
def leaveIdle (s : State) : State :=
  match s.pow.state with
  | .idle => noteBusy { s with pow := { s.pow with state := .active } }
  | _ => noteBusy s

end Sys2Proof.Machine
end

