-- ==== Sys2Proof/Machine/Memory.lean ====
section
/-! DEFINITION. Device memory: which die, frame and channel slot holds an address, units that are uncorrectable, lost blocks,
and the write of bytes by these rules. -/

namespace Sys2Proof.Machine

def frameSize : Nat := 2 ^ 21

/-- The engine die that holds a device address, and its die frame (R376). Frame f of the device reserve of the die at position k, which
lies above its die frames and has no device address, is written 2^40 + 2^36 k + 2 MiB f (R375, R381; log 35, DESIGN CHOICE). -/
def memDie (s : State) (a : Nat) : Nat :=
  if Nat.ble (2 ^ 40) a then (a - 2 ^ 40) / 2 ^ 36 else a / frameSize % engineDies s
def dieFrame (s : State) (a : Nat) : Nat :=
  if Nat.ble (2 ^ 40) a then 19074 + a % 2 ^ 36 / frameSize else a / frameSize / engineDies s

/-- First withdrawn die frame of a die: 0 after a die failure, 16,514 at seven channels, 19,074 (none) otherwise (R391, R539). -/
def firstWithdrawn (s : State) (die : Nat) : Nat :=
  if s.mesh.withdrawnDies.contains die then 0 else if s.mem.seven.contains die then 16514 else 19074

def withdrawn (s : State) (a : Nat) : Bool := Nat.ble (firstWithdrawn s (memDie s a)) (dieFrame s a)

/-- Frames of the device address space (R375). -/
def deviceFrames (s : State) : Nat := 19074 * engineDies s

def chanOf (s : State) (die slot : Nat) : Chan := tgetD s.mem.chans (8 * die + slot) {}

def setChan (die slot : Nat) (f : Chan → Chan) (s : State) : State :=
  { s with mem := { s.mem with chans := tmodD s.mem.chans (8 * die + slot) {} f } }

/-- Channel slot and channel offset of a device address (R376, R391). -/
def slotOf (s : State) (a : Nat) : Nat × Nat :=
  let die := memDie s a
  let o := dieFrame s a * frameSize + a % frameSize
  if s.mem.seven.contains die then
    let left := (List.range 8).filter fun k => !(chanOf s die k).dead
    (nth left (o / 256 % 7), o / 1792 * 256 + o % 256)
  else (o / 256 % 8, o / 2048 * 256 + o % 256)

/-- The channel slot of an address has failed with no spare (R390). -/
def chanDead (s : State) (a : Nat) : Bool := (chanOf s (memDie s a) (slotOf s a).1).dead

def blockLost (s : State) (a : Nat) : Bool := tget s.mem.remaps (a / 4096) == some .lost

/-- A read of the 64-byte unit that holds an address ends with MEDIA_ERROR: the unit is uncorrectable, its block is lost, or
its channel or die is gone (R384, R386, R390, R539). -/
def unitBad (s : State) (a : Nat) : Bool :=
  s.mem.bad.contains (a / 64) || blockLost s a || chanDead s a || s.mesh.failed.contains (memDie s a)

/-- Accesses to an address wait: memory is being zeroed, its block is being copied to the pool, or its segment by a darn (R386, R388,
R394). -/
def memWaits (s : State) (a : Nat) : Bool :=
  s.mem.zeroing || s.mem.selfRefresh || tget s.mem.remaps (a / 4096) == some .copying ||
  (let (k, off) := slotOf s a
   (chanOf s (memDie s a) k).darn == some (off / 2 ^ 26))

/-- Blocks of the pool in use by a die, and its table entries (R381, R386). -/
def remapsOf (s : State) (die : Nat) : Nat := (s.mem.remaps.filter fun e => memDie s (e.1 * 4096) == die).length

/-- Pool blocks of a die in use. -/
def poolUsed (s : State) (die : Nat) : Nat := (s.mem.remaps.filter fun e => memDie s (e.1 * 4096) == die && e.2 != .lost).length

/-- An access met an uncorrectable unit: its block is marked lost, where the table has room, counted and recorded (R384). -/
def mediaError (a : Nat) (s : State) : State :=
  let die := memDie s a
  let s := bump (dkey 0x2402 (die + 1)) 1 1 s
  let s :=
    if blockLost s a || (Nat.ble 65536 (remapsOf s die) && (tget s.mem.remaps (a / 4096)).isNone) then s
    else bump (dkey 0x2402 (die + 1)) 3 1 { s with mem := { s.mem with remaps := tset s.mem.remaps (a / 4096) .lost } }
  record 3 0x2012 0xF die [a] s

/-- The bytes [a, a + n) contain a whole aligned span around an address. -/
def covers (a n x size : Nat) : Bool := Nat.ble a (x / size * size) && Nat.ble (x / size * size + size) (a + n)

/-- A write of [a, a + n) fails at the unit of x: the channel or die is gone, the block is lost and not written whole, or the
unit is uncorrectable and not written whole (R384, R386). -/
def writeFails (s : State) (a n x : Nat) : Bool :=
  if chanDead s x || s.mesh.failed.contains (memDie s x) then true
  else if blockLost s x then !covers a n x 4096
  else s.mem.bad.contains (x / 64) && !covers a n x 64

/-- First address in [a, a + n) for which a test of its unit holds; units are tried in order. -/
def firstUnit (t : Nat → Bool) : Nat → Nat → Nat → Option Nat
  | 0, _, _ => none
  | k + 1, a, stop =>
    if stop ≤ a then none
    else if t a then some a
    else firstUnit t k ((a / 64 + 1) * 64) stop

def firstBadRead (s : State) (a n : Nat) : Option Nat := firstUnit (unitBad s) (n / 64 + 2) a (a + n)
def firstBadWrite (s : State) (a n : Nat) : Option Nat := firstUnit (writeFails s a n) (n / 64 + 2) a (a + n)

/-- Units and blocks written whole, by a test of an address and a size, are good again; a lost block written whole takes a pool block, or
its own place where the pool is full (R386). -/
def repairWhere (whole : Nat → Nat → Bool) (s : State) : State :=
  { s with mem := { s.mem with
      bad := s.mem.bad.filter fun u => !whole (64 * u) 64,
      remaps := (tkeep s.mem.remaps fun b r => !(r == .lost && whole (4096 * b) 4096 && Nat.ble 65536 (poolUsed s (memDie s (4096 * b))))).map
        fun e => if e.2 == .lost && whole (4096 * e.1) 4096 then (e.1, .pool) else e } }

/-- Whole units and blocks of [a, a + n) are written. -/
def repairUnits (a n : Nat) (s : State) : State := repairWhere (fun x size => covers a n x size) s

/-- Write zeros over a range of device memory, whole units and blocks (R394, R409, R413). -/
def zeroMem (a n : Nat) (s : State) : State := repairUnits a n (devZero a n s)

/-- Write bytes at an address of hub memory by the same rules: it lies in frames of the device reserves (R37). -/
def hubStore (a : Nat) (d : List Byte) (s : State) : Nat × State :=
  match firstBadWrite s a d.length with
  | none => (d.length, repairUnits a d.length (hubWrite a d s))
  | some x => (x - a, mediaError x (hubWrite a (d.take (x - a)) s))

/-- Write bytes at a device address; answers how many were written, which is all or up to the first failing unit. -/
def devStore (a : Nat) (d : List Byte) (s : State) : Nat × State :=
  match firstBadWrite s a d.length with
  | none => (d.length, repairUnits a d.length (devWrite a d s))
  | some x => (x - a, mediaError x (devWrite a (d.take (x - a)) s))

end Sys2Proof.Machine
end

