-- ==== Sys2Proof/Machine/Translate.lean ====
section
/-! DEFINITION. Address translation: page-table walks, the look-aside, the flat tensor map, regions and the local key checks. -/

namespace Sys2Proof.Machine

/-! ## What a partition holds of device memory (R375, R379, R391, R397) -/

def tableUnit : Nat := 2 ^ 22

def partOf (s : State) (p : Nat) : Part := tgetD s.part.parts p {}

/-- The partition holds resources: it is enabled and Up or Resetting. -/
def partUp (s : State) (p : Nat) : Bool := (partOf s p).state == .up

/-- Bytes of a partition's table area, 0 where it exceeds the allocation (R379). -/
def tableBytes (s : State) (p : Nat) : Nat :=
  let x := partOf s p
  if x.tableSize * tableUnit ≤ x.mem.count * frameSize then x.tableSize * tableUnit else 0

/-- Device address of the partition's table area: the last bytes of its allocation. -/
def tableBase (s : State) (p : Nat) : Nat :=
  let x := partOf s p
  (x.mem.base + x.mem.count) * frameSize - tableBytes s p

/-- Device address and length of the partition's data range (R379). -/
def dataRange (s : State) (p : Nat) : Nat × Nat :=
  let x := partOf s p
  (x.mem.base * frameSize, x.mem.count * frameSize - tableBytes s p)

/-- The output of a translation lies within what the partition has (R164, R379). -/
def outputOk (s : State) (p target port out len : Nat) : Bool :=
  if target == 0 then (tgetD s.link.accel port {}).owner == some p
  else if target == 2 then (tgetD s.link.boundParts port []).contains p
  else if target == 1 then
    let (b, n) := dataRange s p
    Nat.ble b out && Nat.ble (out + len) (b + n) && !withdrawn s out
  else false

/-- A piece in device memory or hub memory: a memory controller serves it (R37). -/
def Piece.inMemory (p : Piece) : Bool := p.target == 1 || p.target == 3

/-! ## Page-table walks (R161 to R163, R167) -/

def levelSpan (l : Nat) : Nat := 2 ^ (12 + 9 * (l - 1))

/-- A mapping found: base of the page or merged run, its span, the page size, where it goes. -/
structure Map where
  va : Nat
  span : Nat
  page : Nat
  target : Nat
  port : Nat
  out : Nat
  deriving DecidableEq, Repr

inductive Walked where
  | map (m : Map)
  | fault (addr : Nat)
  | media (addr : Nat)
  deriving DecidableEq, Repr

def pteAt (s : State) (p off : Nat) : BitVec 64 := tgetD s.xl.ptes (p * 2 ^ 32 + off / 8) 0

/-- The leaf conditions of R163. -/
def leafOk (level : Nat) (e : BitVec 64) (target port : Nat) : Bool :=
  Pte.address e % levelSpan level == 0 && Pte.target e != 3 && Nat.ble (Pte.run e) 4 && Pte.target e == target && Pte.port e == port

/-- The mapping a leaf makes: its whole run, whose outputs count modulo 2^64 from that of its first page (R167). -/
def leafMap (level : Nat) (e : BitVec 64) (va : Nat) : Map :=
  let span := levelSpan level
  let run := span * 2 ^ Pte.run e
  let base := va / run * run
  { va := base, span := run, page := span, target := Pte.target e, port := Pte.port e,
    out := (Pte.address e + m64 - (va / span * span - base)) % m64 }

/-- Walk from a table at a level down; `level` counts 4 to 1. Answers the levels read too. -/
def walkFrom (s : State) (p va target port : Nat) : Nat → Nat → Nat → Walked × Nat
  | 0, _, n => (.fault (va / 4096 * 4096), n)
  | level + 1, table, n =>
    let span := levelSpan (level + 1)
    let off := table + va / span % 512 * 8
    let e := pteAt s p off
    let bad : Walked := .fault (va / span * span)
    if unitBad s (tableBase s p + off) then (.media (tableBase s p + off), n + 1)
    else if !Pte.valid e then (bad, n + 1)
    else if Pte.leaf e then
      if level + 1 == 4 then (bad, n + 1)
      else if leafOk (level + 1) e target port then (.map (leafMap (level + 1) e va), n + 1) else (bad, n + 1)
    else if level == 0 then (bad, n + 1)
    else if tableBytes s p ≤ Pte.address e then (bad, n + 1)
    else walkFrom s p va target port level (Pte.address e) (n + 1)

def ctxKey (p pasid : Nat) : Nat := p * 2 ^ 20 + pasid

/-- A walk of a context from its root; an unwritten root faults at level 4 (R163). -/
def walk (s : State) (p pasid va target port : Nat) : Walked × Nat :=
  match (tgetD s.xl.ctxs (ctxKey p pasid) {}).root with
  | some r => if tableBytes s p == 0 then (.fault (va / levelSpan 4 * levelSpan 4), 0) else walkFrom s p va target port 4 r 0
  | none => (.fault (va / levelSpan 4 * levelSpan 4), 0)

/-! ## The flat tensor map (R168 to R170) -/

/-- The lowest-numbered matching entry. -/
def flatFind (t : Tab (BitVec 128)) (p pasid vpage : Nat) : Option (BitVec 128) :=
  (t.find? fun e => Flat.valid e.2 && Flat.part e.2 == p && Flat.pasid e.2 == pasid && Flat.vpage e.2 == vpage).map (·.2)

def flatLookup (s : State) (p pasid va target port : Nat) : Walked :=
  let base := va / 2 ^ 30 * 2 ^ 30
  match flatFind s.xl.flat p pasid (va / 2 ^ 30) with
  | some e =>
    if Flat.target e == target && Flat.port e == port then
      .map { va := base, span := 2 ^ 30, page := 2 ^ 30, target := target, port := port, out := Flat.output e }
    else .fault base
  | none => .fault base

def gen1 (s : State) : Bool := s.far.generation == 1

/-- The translation unit uses the flat map for a region (R168). -/
def usesFlat (s : State) (p pasid : Nat) (r : BitVec 256) : Bool :=
  Region.flat r || !(tgetD s.xl.ctxs (ctxKey p pasid) {}).walkEn || gen1 s

/-! ## Look-aside and region cache (R165) -/

def lookFind (s : State) (die p pasid va : Nat) : Option Look :=
  s.xl.look.find? fun l =>
    l.die == die && l.part == p && l.pasid == pasid && Nat.ble l.va va && Nat.blt va (l.va + l.span)

/-- Enter a translation; a full look-aside of 8,192 loses one, which the manual does not name (log 8, DESIGN CHOICE). -/
def lookEnter (die p pasid idx : Nat) (m : Map) (s : State) : State :=
  let own := s.xl.look.filter fun l => l.die == die
  let rest := s.xl.look.filter fun l => l.die != die
  let full := !Nat.blt own.length 8192
  let own := if full then own.eraseIdx (Config.victim s.free % own.length) else own
  let l : Look := { die := die, part := p, pasid := pasid, va := m.va, span := m.span, page := m.page, target := m.target,
                    port := m.port, out := m.out, regions := [idx] }
  { s with free := if full then s.free + 1 else s.free, xl := { s.xl with look := l :: own ++ rest } }

/-- A look-aside entry serves a tile of one more region. -/
def noteRegion (l : Look) (idx : Nat) (s : State) : State :=
  { s with xl := { s.xl with look := s.xl.look.map fun x => if x == l then { x with regions := insertNew x.regions idx } else x } }

/-- Where a region's descriptor lies: run r of 65,536 descriptors lies on the die at position r mod D, from frame 165 + r ÷ D of its
reserve on (R381). -/
def regionUnit (s : State) (idx : Nat) : Nat :=
  let d := engineDies s
  let r := idx / 65536
  2 ^ 40 + r % d * 2 ^ 36 + (165 + r / d) * frameSize + idx % 65536 * 32

/-- The descriptor a die uses for a region index: the cached one, or the table's, which is then cached unless it is not VALID: faults are
never cached (R165, R171, R183); none where its unit of the table is uncorrectable (R384). -/
def regionAt (die idx : Nat) (s : State) : Option (BitVec 256) × State :=
  match s.xl.rcache.find? fun c => c.die == die && c.index == idx with
  | some c => (some c.word, s)
  | none =>
    if unitBad s (regionUnit s idx) then (none, mediaError (regionUnit s idx) s)
    else
      let w := tgetD s.xl.regions idx 0
      if !Region.valid w then (some w, s)
      else
      let own := s.xl.rcache.filter fun c => c.die == die
      let rest := s.xl.rcache.filter fun c => c.die != die
      let full := !Nat.blt own.length 4096
      let own := if full then own.eraseIdx (Config.victim s.free % own.length) else own
      (some w, { s with free := if full then s.free + 1 else s.free, xl := { s.xl with rcache := ⟨die, idx, w⟩ :: own ++ rest } })

/-- Frames of hub memory on each die: those after its share of the region table (R381). -/
def hubFrames (s : State) : Nat := 1406 - (165 + 256 / engineDies s)

/-- Address of page n of hub memory: a 4 KiB page of a frame of some die's device reserve (R37, R381). The frames after the region table
come first, die by die, then frames 20 to 35 of the positions from 2 on; n counts modulo their number (log 7, DESIGN CHOICE). -/
def hubPlace (s : State) (n : Nat) : Nat :=
  let d := engineDies s
  let most := d * hubFrames s
  let f := n / 512 % (most + 16 * (d - 2))
  let at_ := fun (die frame : Nat) => 2 ^ 40 + die * 2 ^ 36 + frame * frameSize + n % 512 * 4096
  if f < most then at_ (f % d) (165 + 256 / d + f / d)
  else at_ (2 + (f - most) % (d - 2)) (20 + (f - most) / (d - 2))

/-! ## Translation of a span -/

/-- What translating a span gives: its pieces, a look-aside miss at an address, a fault, or an uncorrectable table unit. -/
inductive Trans where
  | ok (ps : List Piece)
  | miss (va : Nat)
  | fault (addr : Nat)
  | media
  deriving DecidableEq, Repr

/-- Translate one address. `mayWalk`: a miss walks at once, else it is reported, and counted when its walk runs. An entry that maps the page
for another TARGET or PORT gives a fault, and each access that faults walks again (R163, R165). -/
def xlatePage (die p pasid idx : Nat) (r : BitVec 256) (va : Nat) (mayWalk : Bool) (s : State) : Option Walked × State :=
  let target := Region.target r
  let port := Region.port r
  if 2 ^ 48 ≤ va then (some (.fault (va / 4096 * 4096)), s)
  else if target == 3 then
    let b := va / 4096 * 4096
    (some (.map { va := b, span := 4096, page := 4096, target := 3, port := 0, out := hubPlace s (Config.hubTranslate b) }), s)
  else if usesFlat s p pasid r then (some (flatLookup s p pasid va target port), s)
  else
    let hit := (lookFind s die p pasid va).filter fun l => l.target == target && l.port == port
    match hit with
    | some l =>
      (some (.map { va := l.va, span := l.span, page := l.page, target := l.target, port := l.port, out := l.out }),
       tally 0x20 1 { die := die, part := p } (bumpXlate die p 0 1 (noteRegion l idx s)))
    | none =>
      if !mayWalk then (none, s)
      else
        let s := tally 0x21 1 { die := die, part := p } (bumpXlate die p 1 1 s)
        let (w, n) := walk s p pasid va target port
        let s := bumpXlate die p 2 n s
        match w with
        | .map m => (some w, lookEnter die p pasid idx m s)
        | .media a => (some w, mediaError a s)
        | .fault _ => (some w, s)

/-- Translate [va, va + len) piece by piece; the first page that fails decides. `fuel` bounds the pieces. -/
def xlateSpan (die p pasid idx : Nat) (r : BitVec 256) (mayWalk : Bool) : Nat → Nat → Nat → State → Trans × State
  | 0, _, _, s => (.ok [], s)
  | fuel + 1, va, len, s =>
    if len == 0 then (.ok [], s)
    else
      match xlatePage die p pasid idx r va mayWalk s with
      | (none, s) => (.miss va, s)
      | (some (.fault a), s) => (.fault a, s)
      | (some (.media _), s) => (.media, s)
      | (some (.map m), s) =>
        let n := min len ((va / m.page + 1) * m.page - va)
        -- device-memory pieces end at frame boundaries (R377)
        let out := (m.out + (va - m.va)) % m64
        let n := if m.target == 1 then min n (frameSize - out % frameSize) else n
        if m.target != 3 && !outputOk s p m.target m.port out n then (.fault (va / m.page * m.page), s)
        else
          let pc : Piece := { va := va, len := n, target := m.target, port := m.port, out := out, page := m.page, part := p,
                              pasid := pasid, region := idx }
          match xlateSpan die p pasid idx r mayWalk fuel (va + n) (len - n) s with
          | (.ok ps, s) => (.ok (pc :: ps), s)
          | (x, s) => (x, s)

def spanFuel (len : Nat) : Nat := len / 4096 + 3

/-- Translate a region's span, its pieces naming the region. -/
def xlate (die p pasid idx : Nat) (r : BitVec 256) (mayWalk : Bool) (va len : Nat) (s : State) : Trans × State :=
  xlateSpan die p pasid idx r mayWalk (spanFuel len) va len s

/-! ## Local key checks (R172, R178) -/

/-- Right a local buffer needs. -/
inductive Need where
  | read | write
  deriving DecidableEq, Repr

def localRight (n : Need) (r : BitVec 256) : Bool :=
  match n with
  | .read => Region.read r
  | .write => Region.write r

/-- Checks 1 to 3 of R172: 0, or the status of the first that fails. `fits` says which TARGETs suit the buffer. -/
def localCheck (r : BitVec 256) (key p pasid va len : Nat) (n : Need) (fits : Nat → Bool) : Nat :=
  if !Region.valid r || Region.tag r != keyTag key || Region.part r != p || Region.pasid r != pasid then stLocalKey
  else if !(Nat.ble (Region.base r) va && Nat.ble (va + len) (Region.base r + Region.length r)) then stLocalBounds
  else if !localRight n r || !fits (Region.target r) then stLocalRights
  else stOk

def anyTarget (t : Nat) : Bool := t != 3
def accelOrMem (t : Nat) : Bool := t == 0 || t == 1
def hostOnly (t : Nat) : Bool := t == 2

/-- Outcome of checking and translating a local buffer. -/
inductive Local where
  | ok (ps : List Piece)
  | miss
  | fail (status addr : Nat)
  deriving DecidableEq, Repr

/-- Check a local key and translate the span (R172, R175). -/
def localSpan (die p pasid key va len : Nat) (n : Need) (fits : Nat → Bool) (mayWalk : Bool) (s : State) : Local × State :=
  match regionAt die (keyIndex key) s with
  | (none, s) => (.fail stMediaError 0, s)
  | (some r, s) =>
  let c := localCheck r key p pasid va len n fits
  if c != stOk then (.fail c 0, bumpXlate die p 5 1 s)
  else
    match xlate die p pasid (keyIndex key) r mayWalk va len s with
    | (.ok ps, s) => (.ok ps, s)
    | (.miss _, s) => (.miss, s)
    | (.fault a, s) => (.fail stXlateLocal a, tally 0x22 1 { die := die, part := p } (bumpXlate die p 3 1 s))
    | (.media, s) => (.fail stMediaError 0, s)

/-- What stands in the way of an access to a piece. -/
inductive PathSt where
  | go
  /-- it waits: an outage, a retrain, a darn, zeroing (R135, R351, R367) -/
  | wait
  /-- it ends with a status (R367, R370) -/
  | dead (status : Nat)
  deriving DecidableEq, Repr

/-- Bytes waiting in an outbound queue. -/
def outboundBytes (l : Edrad) : Nat :=
  l.outbound.foldl (fun a x => a + match x with
    | .write _ _ d => d.length
    | _ => 0) 0

/-- A link in outage or idle takes writes into its 4 MiB outbound queue; everything else waits (R351). -/
def linkHolds (l : Edrad) (writing : Bool) (n : Nat) : PathSt :=
  if writing && outboundBytes l + n ≤ 2 ^ 22 then .go else .wait

/-- The links of a port that a piece uses are up (R365). -/
def pieceUp (a : Accel) (p : Piece) : Bool :=
  if !a.bifurcated then a.up
  else if p.out / 4096 == (p.out + p.len - 1) / 4096 then (if p.out / 4096 % 2 == 0 then a.up else a.upB)
  else a.up && a.upB

/-- The state of a piece's path for a read or a write. -/
def pathOfPiece (s : State) (writing : Bool) (p : Piece) : PathSt :=
  if p.target == 2 then
    let l := tgetD s.link.edrad p.port {}
    match l.state with
    | .active => if l.outbound.isEmpty then .go else linkHolds l writing p.len
    | .down => .dead stHostDown
    | .training => if l.everActive then linkHolds l writing p.len else .dead stHostDown
    | .outage => linkHolds l writing p.len
    | .idle => linkHolds l writing p.len
  else if p.target == 0 then
    let a := tgetD s.link.accel p.port {}
    if a.isolated then .dead stTargetReset else if pieceUp a p then .go else .wait
  else if memWaits s p.out then .wait else .go

/-- The worst of the pieces' paths: a status before a wait. -/
def pathState (s : State) (writing : Bool) : List Piece → PathSt
  | [] => .go
  | p :: t =>
    match pathOfPiece s writing p, pathState s writing t with
    | .dead x, _ => .dead x
    | _, .dead y => .dead y
    | .wait, _ => .wait
    | .go, r => r

def edradOf (s : State) (link : Nat) : Edrad := tgetD s.link.edrad link {}

def setEdrad (link : Nat) (f : Edrad → Edrad) (s : State) : State :=
  { s with link := { s.link with edrad := tmodD s.link.edrad link {} f } }

/-- Add to a count of EDRAD_COUNTS: 0 flits sent, 1 resent, 2 NAKs sent, 3 CRC failures, 4 corrected and 5 uncorrectable codewords, 6 fast
retrains, 7 full bring-ups, 8 outages, 9 longest outage, 10 host-domain resets (R373). -/
def countEdrad (link i n : Nat) (s : State) : State := bump (dkey 0x6003 (link + 1)) i n s

/-- Flits a request or message of `n` bytes takes, each packed from a new flit on (R341, log 26, DEDUCED). -/
def flitsFor (n : Nat) : Nat := max 1 ((n + 255) / 256)

/-- The next `n` SEQs from one on. -/
def seqsFrom : Nat → Nat → List Nat
  | 0, _ => []
  | n + 1, q => q % 4096 :: seqsFrom n ((q + 1) % 4096)

/-- A flit header as it leaves: what the flit keeps, the last SEQ received in order, and NAK (R342, R344). -/
def flitHdr (e : Edrad) (kept : Nat) (nak : Bool) : BitVec 64 :=
  BitVec.ofNat 64 (kept + pack [(36, if e.recvAny then e.recvSeq % 4096 else 0), (35, b2n e.recvAny), (34, b2n nak)])

/-- The kept part of a header: TYPE, SEQ, TLP_START (R342). -/
def keptHdr (type seq start : Nat) : Nat := pack [(60, type), (48, seq % 4096), (25, start)]

/-- An IDLE flit leaves, with the latest ACK or a NAK; it takes no SEQ and is not kept (R343 to R345). -/
def sendIdle (link : Nat) (nak : Bool) (s : State) : State := s.emit (.flit link (flitHdr (edradOf s link) (keptHdr 0 0 0x1FF) nak))

/-- Kept flits leave once more, in order (R345, R350). -/
def resendFlits (link : Nat) (seqs : List Nat) (s : State) : State :=
  let e := edradOf s link
  countEdrad link 1 seqs.length (s.emits (seqs.map fun q => .flit link (flitHdr e (tgetD e.headers q 0) false)))

/-- `n` flits of a type enter the replay buffer and leave; a request starts at the first byte of its first one (R342, R344; log 26,
DEDUCED). -/
def sendFlits (link type n : Nat) (s : State) : State :=
  let e := edradOf s link
  let seqs := seqsFrom n e.nextSeq
  let first := e.nextSeq % 4096
  let hdrs := seqs.map fun q => (q, keptHdr type q (if type == 1 && q == first then 0 else 0x1FF))
  let s := setEdrad link (fun e => { e with replay := e.replay ++ seqs, headers := hdrs.foldl (fun t x => tset t x.1 x.2) e.headers,
                                            nextSeq := (e.nextSeq + n) % 4096 }) s
  countEdrad link 0 n (s.emits (hdrs.map fun x => .flit link (flitHdr e x.2 false)))

/-- A control message of the device leaves in a CONTROL flit (R348). -/
def sendMessage (link code : Nat) (args : List Nat) (s : State) : State := (sendFlits link 2 1 s).emit (.edrad link code args)

def HostTlp.bytes (x : HostTlp) : Nat :=
  match x with
  | .write _ _ d => d.length
  | .atomic _ _ _ size _ _ => 2 * size
  | .msix _ _ => 4
  | .read _ _ _ => 0
  | .flush _ _ => 0

/-- Credits a request needs: header class and data class of Edrad.credits, and units of 64 bytes (R343). -/
def HostTlp.needs (x : HostTlp) : Nat × Nat × Nat :=
  match x with
  | .write _ _ d => (0, 1, (d.length + 63) / 64)
  | .msix _ _ => (0, 1, 1)
  | .atomic _ _ _ _ _ _ => (2, 3, 1)
  | .read _ _ _ => (2, 3, 0)
  | .flush _ _ => (2, 3, 0)

/-- A request may leave now: the link is Active, the replay buffer has room (a request longer than the buffer enters an empty one), and
credits of its classes are at hand (R343, R344, log 26, DEDUCED). -/
def mayLeave (l : Edrad) (x : HostTlp) : Bool :=
  let (h, d, n) := x.needs
  l.state == .active && (l.replay.isEmpty || Nat.ble (l.replay.length + flitsFor (16 + x.bytes)) 2048) &&
  Nat.blt 0 (nth l.credits h) && (n == 0 || Nat.blt 0 (nth l.credits d))

def HostTlp.out (x : HostTlp) (link : Nat) : Out :=
  match x with
  | .msix p v => .msix p v
  | x => .host link x

/-- A request leaves: its credits are spent and its flits kept for replay. -/
def sendTlp (link : Nat) (x : HostTlp) (s : State) : State :=
  let (h, d, n) := x.needs
  let s := setEdrad link (fun e => { e with credits := nmod (nmod e.credits h (· - 1)) d (· - n) }) s
  (sendFlits link 1 (flitsFor (16 + x.bytes)) s).emit (x.out link)

/-- Requests that wait in the outbound queue leave in order while they may; `fuel` bounds them. -/
def drainOutbound (link : Nat) : Nat → State → State
  | 0, s => s
  | n + 1, s =>
    match (edradOf s link).outbound with
    | x :: t =>
      if mayLeave (edradOf s link) x then drainOutbound link n (sendTlp link x (setEdrad link (fun e => { e with outbound := t }) s)) else s
    | [] => s

/-- A host-bound request goes out over its link, or into the outbound queue while the link cannot take it (R351); on a link that is Down,
or that has not been Active since a reset, it is lost (R354). -/
def toHost (link : Nat) (x : HostTlp) (s : State) : State :=
  let l := edradOf s link
  if l.state == .down || (l.state == .training && !l.everActive) then s
  else if l.outbound.isEmpty && mayLeave l x then sendTlp link x s
  else setEdrad link (fun e => { e with outbound := e.outbound ++ [x] }) s

/-- The tag of a request for a partition's function: `strict` requests never carry Relaxed Ordering (R368, R369). -/
def hostTag (s : State) (p pasid : Nat) (strict : Bool) : HostTag :=
  let f := tgetD s.link.funcs p {}
  ⟨p, if f.pasidEn then some pasid else none, f.relaxed && !strict⟩

/-- A data write goes to the host, the last one that a flushing read flushes (R369). -/
def writeHost (p : Piece) (strict : Bool) (d : List Byte) (s : State) : State :=
  let tag := hostTag s p.part p.pasid strict
  let s := if strict then s else setEdrad p.port (fun e => { e with lastWrite := some (tag, p.out) }) s
  toHost p.port (.write tag p.out d) s

/-- The flushing read of an Edrad link: a zero-length read at the address of the last data write (R53, R369). -/
def flushTlp (l : Edrad) : HostTlp :=
  match l.lastWrite with
  | some (tag, a) => .flush { tag with relaxed := false } a
  | none => .flush ⟨0, none, false⟩ 0

/-- Issue flushing reads on paths; one for a host follows the writes of its link (R53, R369). -/
def sendFlushes (ps : List FlushPath) (s : State) : State :=
  ps.foldl (fun s f => match f with
    | .edrad link => toHost link (flushTlp (edradOf s link)) s
    | f => s.emit (.flush f)) s

/-- The attach die that carries a partition's function, for the count of ignored doorbell writes (R373). -/
def linkOfPart (s : State) (p : Nat) : Nat := if (tgetD s.link.boundParts 1 []).contains p then 1 else 0

/-- Raise a vector of a partition's function unless its table entry is masked, when its pending bit is set (R102, R360). -/
def raiseMsix (p v : Nat) (s : State) : State :=
  let f := tgetD s.link.funcs p {}
  match tget f.msix v with
  | some (_, _, mask) =>
    if bit mask 0 then
      let f' := { f with msixPending := insertNew f.msixPending v }
      { s with link := { s.link with funcs := tset s.link.funcs p f' } }
    else toHost (linkOfPart s p) (.msix p v) s
  | none => toHost (linkOfPart s p) (.msix p v) s

/-- Bytes of the TLPs that carry `n` bytes: 16 bytes of header for each 512 (R501, log 25, DESIGN CHOICE). -/
def tlpBytes (n : Nat) : Nat := n + 16 * max 1 ((n + 511) / 512)

/-- Count an access of `n` bytes of a piece: bytes of its link, host bytes of its partition, bytes of its controller; a read of host memory
is a request of its own (R368, R479, R496, R501). -/
def noteAccess (writing : Bool) (p : Piece) (n : Nat) (s : State) : State :=
  let link := fun (k m : Nat) (s : State) => if writing then countLink k m 0 s else countLink k 0 m s
  if p.target == 0 then
    link (24 + 2 * p.port + (if (tgetD s.link.accel p.port {}).bifurcated then p.out / 4096 % 2 else 0)) (tlpBytes n) s
  else if p.inMemory then tally (if writing then 0x43 else 0x42) n { die := memDie s p.out } s
  else
    let s := link (40 + p.port) (tlpBytes n) s
    let s := if writing then s else toHost p.port (.read (hostTag s p.part p.pasid false) p.out n) s
    { s with mtr := { s.mtr with hostBytes := tmodD s.mtr.hostBytes p.part 0 (· + n) },
             obs := { s.obs with partBw := tmodD s.obs.partBw p.part {} fun b => { b with host := b.host + n } } }

/-- Count a read of pieces. -/
def noteReads (ps : List Piece) (s : State) : State := ps.foldl (fun s p => noteAccess false p p.len s) s

/-! ## Access to memory through pieces -/

/-- Write bytes through pieces, in order: device memory and hub memory change, writes elsewhere leave the device, those for a host never
with Relaxed Ordering where they are `strict` (R369). Answers how many bytes were written; a unit that fails ends the write (R384). -/
def storeWith (strict : Bool) : List Piece → List Byte → State → Nat × State
  | [], _, s => (0, s)
  | p :: t, d, s =>
    let now := d.take p.len
    if now.isEmpty then (0, s)
    else
      let (n, s) :=
        if p.target == 1 then devStore p.out now s
        else if p.target == 3 then hubStore p.out now s
        else if p.target == 2 then (now.length, writeHost p strict now s)
        else (now.length, s.emit (.write p.target p.port p.out now))
      let s := noteAccess true p n s
      if n < now.length then (n, s)
      else
        let (m, s) := storeWith strict t (d.drop p.len) s
        (n + m, s)

/-- Write placed data through pieces. -/
def storePieces (ps : List Piece) (d : List Byte) (s : State) : Nat × State := storeWith false ps d s

/-- Write a completion entry or a flag through pieces: strictly ordered, its failure reported by nobody (R369). -/
def writePieces (ps : List Piece) (d : List Byte) (s : State) : State := (storeWith true ps d s).2

/-- The bytes pieces name, where they lie in the device; bytes that lie outside come from `ext`, in order. -/
def readPieces (s : State) : List Piece → List Byte → List Byte
  | [], _ => []
  | p :: t, ext =>
    if p.target == 1 then devRead s p.out p.len ++ readPieces s t ext
    else if p.target == 3 then getBytes s.mem.hub p.out p.len ++ readPieces s t ext
    else slice ext 0 p.len ++ readPieces s t (ext.drop p.len)

/-- The pieces of a sub-span of a span: skip `off` bytes, take `len`. -/
def subPieces : List Piece → Nat → Nat → List Piece
  | [], _, _ => []
  | p :: t, off, len =>
    if len == 0 then []
    else if p.len ≤ off then subPieces t (off - p.len) len
    else
      let n := min len (p.len - off)
      { p with va := p.va + off, out := p.out + off, len := n } :: subPieces t 0 (len - n)

/-- The paths a piece's writes take: the links of a bifurcated port alternate every 4 KiB (R53, R365). -/
def pathsOf (s : State) (p : Piece) : List FlushPath :=
  if p.target == 0 then
    let a := tgetD s.link.accel p.port {}
    if a.bifurcated then
      let l := p.out / 4096 % 2
      if p.out / 4096 == (p.out + p.len - 1) / 4096 then [.accel p.port l] else [.accel p.port 0, .accel p.port 1]
    else [.accel p.port 0]
  else if p.target == 2 then [.edrad p.port]
  else [.memory (memDie s p.out)]

/-- Add paths to a set of paths. -/
def addPaths (ps qs : List FlushPath) : List FlushPath := ps ++ qs.filter fun q => !ps.contains q

/-- First uncorrectable byte of pieces in device memory or hub memory, as an offset within the span, and its device address (R65, R384). -/
def badOffset (s : State) : List Piece → Nat → Option (Nat × Nat)
  | [], _ => none
  | p :: t, off =>
    if p.inMemory then
      match firstBadRead s p.out p.len with
      | some x => some (off + (x - p.out), x)
      | none => badOffset s t (off + p.len)
    else badOffset s t (off + p.len)

end Sys2Proof.Machine
end

