-- ==== Sys2Proof/Machine/Queues.lean ====
section
/-! DEFINITION. Work queues, completion queues and notify counters: their shared operations, and the commands of the queue
control window, the doorbells, fetching, waiting and the ends of queues. -/

namespace Sys2Proof.Machine

/-! ## Access -/

def wqOf (s : State) (wq : Nat) : WorkQueue := tgetD s.q.wqs wq {}
def setWq (wq : Nat) (f : WorkQueue → WorkQueue) (s : State) : State := { s with q := { s.q with wqs := tmodD s.q.wqs wq {} f } }
def cqOf (s : State) (cq : Nat) : ComplQueue := tgetD s.q.cqs cq {}
def setCq (cq : Nat) (f : ComplQueue → ComplQueue) (s : State) : State := { s with q := { s.q with cqs := tmodD s.q.cqs cq {} f } }
def setWindow (p : Nat) (f : Window → Window) (s : State) : State :=
  { s with q := { s.q with windows := tmodD s.q.windows p {} f } }

/-- A number lies in a range in force. -/
def Range.has (r : Range) (n : Nat) : Bool := Nat.ble r.base n && Nat.blt n (r.base + r.count)

/-- Ownership by number (R398). -/
def ownsWq (s : State) (p wq : Nat) : Bool := (partOf s p).wq.has (wq % 2 ^ 17)
def ownsCq (s : State) (p cq : Nat) : Bool := (partOf s p).cq.has (cq % 2 ^ 15)
def ownsCtr (s : State) (p c : Nat) : Bool := (partOf s p).ctr.has (c % 2 ^ 15)

/-- A number names an object of a die that is there (R70, R539). -/
def wqValid (s : State) (wq : Nat) : Bool := Nat.blt wq (2 ^ 20) && dieUp s (dieOfWq wq)
def cqValid (s : State) (cq : Nat) : Bool := Nat.blt cq (2 ^ 18) && dieUp s (dieOfCq cq)

/-- Work queues that exist. -/
def wqLive (q : WorkQueue) : Bool := q.state != .free

/-- Work queues bound to a completion queue. -/
def boundTo (s : State) (cq : Nat) : List Nat :=
  (s.q.wqs.filter fun e => wqLive e.2 && Desc.cq e.2.desc == cq).map (·.1)

/-- Free space of a completion queue: its size less entries not consumed, slots reserved, one held for each queue (R99). -/
def cqFree (s : State) (cq : Nat) : Nat :=
  let c := cqOf s cq
  Desc.size c.desc - sub32 c.written c.head - c.reserved - (boundTo s cq).length

/-- The vector of a completion queue, where it is enabled. -/
def raiseCq (cq : Nat) (s : State) : State :=
  let d := (cqOf s cq).desc
  if Desc.vecEn d then raiseMsix (Desc.part d) (Desc.vector d) s else s

/-! ## Queue states (R104 to R107) -/

def WorkQueue.next (q : WorkQueue) : Option Wqe := tget q.fetched q.consumer

/-- A WQE of the queue waits to be issued. -/
def WorkQueue.posted (q : WorkQueue) : Nat := sub32 q.producer q.consumer

/-- Operations in flight: issued, not decided (R73). -/
def WorkQueue.inFlight (q : WorkQueue) : Nat := (q.ops.filter fun o => o.result.isNone).length

/-- A queue in which a WAIT on it cannot come true any more (R97). -/
def QState.dead (st : QState) : Bool := st == .draining || st == .error || st == .free

/-- c minus v modulo 2^64 is below 2^63 (R96). -/
def reached (c v : Nat) : Bool := Nat.blt ((c + (m64 - v % m64)) % m64) (2 ^ 63)

/-- A condition on a counter or a queue's completed count holds (R96); WAIT flags wait on counters only. -/
def conditionHolds (s : State) (w : Wqe) : Bool :=
  if w.opcode == opWait && w.waitKind == 1 then reached (wqOf s w.waitObj).completed w.waitValue
  else
    match tget s.q.ctrs w.waitObj with
    | some c => reached c.value w.waitValue
    | none => false

/-- What a WAIT waits on is gone: its queue cannot end more WQEs, or its counter is destroyed (R97). -/
def abandoned (s : State) (w : Wqe) : Bool :=
  !conditionHolds s w &&
  (if w.opcode == opWait && w.waitKind == 1 then (wqOf s w.waitObj).state.dead
   else (tget s.q.ctrs w.waitObj).isNone)

/-- The limit of a wait counts from here: its WQE is posted and next, and its fence is satisfied (R97). -/
def noteNext (s : State) (q : WorkQueue) : WorkQueue :=
  match q.next with
  | some w =>
    if q.waitSince.isNone && q.posted != 0 && (w.opcode == opWait || w.wait) && (!w.fence || q.fenceDone) then
      { q with waitSince := some s.time.now }
    else q
  | none => q

/-- An instant of a die's queue engine now, and whether it is taken under the time-suspect flag (R28, R504). -/
def stampAt (s : State) (die : Nat) : Nat × Bool := (s.time.now, suspectAt s (firstIsland die))

/-- The doorbells that cover the WQEs from a count on (R504). -/
def doorbellsFrom (q : WorkQueue) (c : Nat) : List (Nat × Nat × Bool) :=
  q.doorbells.filter fun x => let d := sub32 x.1 c; d != 0 && Nat.blt d (2 ^ 31)

/-- The first stages of the next WQE, which becomes an operation: its doorbell, its fetch and its issue (R504). -/
def firstStages (s : State) (wq : Nat) (o : Op) : Op :=
  let q := wqOf s wq
  let bell := (((doorbellsFrom q q.consumer).head?).map (·.2)).getD (0, false)
  let fetch := tgetD q.fetchedAt q.consumer (0, false)
  let now := stampAt s (dieOfWq wq)
  { o with doorbell := bell.1, fetchAt := fetch.1, issued := now.1, suspect := bell.2 || fetch.2 || now.2 }

/-- A later stage of an operation ends now (R504). -/
def stampOp (s : State) (wq : Nat) (put : Op → Nat → Op) (o : Op) : Op :=
  let now := stampAt s (dieOfWq wq)
  { put o now.1 with suspect := o.suspect || now.2 }

/-- Move past the next WQE: it is taken, and what was held for it is cleared. -/
def stepPast (s : State) (q : WorkQueue) : WorkQueue :=
  noteNext s { q with doorbells := doorbellsFrom q (add32 q.consumer 1), consumer := add32 q.consumer 1, fetched := tdel q.fetched q.consumer,
                      fetchedAt := tdel q.fetchedAt q.consumer, refetches := tdel q.refetches q.consumer, waitSince := none,
                      fenceDone := false, waitDone := false }

/-- Move a queue to Draining with a cause, unless it drains or is in error already (R105). -/
def drainQueue (cause : Nat) (q : WorkQueue) : WorkQueue :=
  match q.state with
  | .idle => { q with state := .draining, cause := cause }
  | .running => { q with state := .draining, cause := cause }
  | .waiting => { q with state := .draining, cause := cause }
  | .paused => { q with state := .draining, cause := cause }
  | _ => q

/-- Count the time a queue spent Waiting. -/
def countWaiting (wq : Nat) (s : State) : State :=
  let q := wqOf s wq
  if q.state == .waiting then
    tally 0x09 (s.time.now - q.waitingSince) { die := dieOfWq wq, part := Desc.part q.desc, queue := wq } s
  else s

/-- The next WQE ends with a status before any packet: it becomes an operation whose outcome is decided, a slot is taken for
its entry, and the queue drains where the status says so (R81, R97, R104). -/
def endNext (wq st : Nat) (s : State) : State :=
  let q := wqOf s wq
  match q.next with
  | none => s
  | some w =>
    let o : Op := firstStages s wq { idx := q.consumer, wqe := w, result := some { status := st } }
    let s := setWq wq (fun q => stepPast s { q with ops := q.ops ++ [o] }) (countWaiting wq s)
    let s := if drains st then setWq wq (drainQueue st) s else s
    setCq (Desc.cq q.desc) (fun c => { c with reserved := c.reserved + 1 }) s

/-- A queue holds a wait: it is Waiting, or Paused with its wait pending (R105). -/
def WorkQueue.holds (q : WorkQueue) : Bool := q.state == .waiting || (q.state == .paused && q.waitSince.isSome)

/-- A completion slot is free for the next WQE of a queue, or its completion queue takes no more entries (R99, R108). -/
def slotFree (s : State) (q : WorkQueue) : Bool := (cqOf s (Desc.cq q.desc)).error || Nat.blt 0 (cqFree s (Desc.cq q.desc))

/-- A queue holds a wait that is abandoned, and can end it (R97, R99; log 118, DEDUCED). -/
def hasAbandoned (s : State) (q : WorkQueue) : Bool :=
  q.holds && slotFree s q &&
  (match q.next with
   | some w => abandoned s w
   | none => false)

/-- End every wait on a queue or counter that is gone, and those on the queues that so enter Draining (R97). -/
def abandonWaits : Nat → State → State
  | 0, s => s
  | n + 1, s =>
    match s.q.wqs.find? fun e => hasAbandoned s e.2 with
    | some e => abandonWaits n (endNext e.1 stWaitAbandoned s)
    | none => s

def settleWaits (s : State) : State := abandonWaits s.q.wqs.length s

/-- A queue enters Draining with a status that ends no issued WQE (R104), and the waits on it are abandoned. -/
def toDraining (wq cause : Nat) (s : State) : State := settleWaits (setWq wq (drainQueue cause) (countWaiting wq s))

/-- What decided an operation came over a connection (R504). -/
def noteNet (s : State) (wq : Nat) (o : Op) : Op :=
  if ((Nat.ble opPut o.wqe.opcode && Nat.ble o.wqe.opcode opCswap) || o.wqe.opcode == opCollStep) && o.netAt == 0 then stampOp s wq (fun o t => { o with netAt := t }) o else o

/-- Decide the outcome of an operation in flight; a failing status drains its queue at once (R104, R105). -/
def decideOp (wq idx : Nat) (r : Result) (s : State) : State :=
  let s := setWq wq (fun q => { q with ops := q.ops.map fun o =>
    if o.idx == idx && o.result.isNone then { noteNet s wq o with result := some r } else o }) s
  if drains r.status then toDraining wq r.status s else s

/-- Change an operation of a queue. -/
def onOp (wq idx : Nat) (f : Op → Op) (s : State) : State :=
  setWq wq (fun q => { q with ops := q.ops.map fun o => if o.idx == idx then f o else o }) s

def findOp (s : State) (wq idx : Nat) : Option Op := (wqOf s wq).ops.find? fun o => o.idx == idx

/-! ## Completion entries (R99 to R102, R108) -/

/-- A completion queue cannot be written: it enters its error state, and an event record names it (R108). -/
def cqError (cq : Nat) (s : State) : State :=
  let c := cqOf s cq
  if c.error then s
  else record 3 0x4004 (Desc.part c.desc) (dieOfCq cq) [cq] (setCq cq (fun c => { c with error := true }) s)

/-- A ring cannot be written: its path is gone, or its unit is uncorrectable. -/
def ringDead (s : State) (ps : List Piece) : Bool :=
  (match pathState s true ps with
   | .dead _ => true
   | _ => false) ||
  ps.any fun p => p.target == 1 && (firstBadWrite s p.out p.len).isSome

/-- Write an entry into the ring, its phase from the written count (R85); a fault on the way is an error of the queue (R178). -/
def writeCqe (cq : Nat) (e : Cqe) (s : State) : State :=
  let c := cqOf s cq
  if c.error || !c.exists_ then s
  else
    let d := c.desc
    let p := Desc.part d
    let die := dieOfCq cq
    let a := Desc.ringAddr d + 32 * (c.written % Desc.size d)
    match localSpan die p (Desc.pasid d) (Desc.ringKey d) a 32 .write anyTarget true s with
    | (.ok ps, s) =>
      if ringDead s ps then cqError cq s else
      let e := { e with phase := ownerPhase (Desc.logSize d) c.written, time := s.time.now,
                        tsuspect := suspectAt s (firstIsland die) }
      tally 0x04 1 { die := die, part := p, queue := e.wq }
        (setCq cq (fun c => { c with written := add32 c.written 1 }) (writePieces ps e.bytes s))
    | (_, s) => cqError cq s

/-- Raise the vector for an entry where the queue is armed, and disarm it (R102). -/
def signalCq (cq : Nat) (s : State) : State :=
  if (cqOf s cq).armed then setCq cq (fun c => { c with armed := false }) (raiseCq cq s) else s

/-- Write an entry; one that asks for it raises the vector once it is written (R102). -/
def postCqe (cq : Nat) (e : Cqe) (signal : Bool) (s : State) : State :=
  let t := writeCqe cq e s
  if signal && (cqOf t cq).written != (cqOf s cq).written then signalCq cq t else t

def releaseSlot (cq : Nat) (s : State) : State := setCq cq (fun c => { c with reserved := c.reserved - 1 }) s

/-! ## Counters (R46, R98) -/

/-- A mirror write is dropped: an event record at most once a second for each counter (R98). -/
def dropMirror (ctr : Nat) (s : State) : State :=
  match tget s.q.ctrs ctr with
  | none => s
  | some c =>
    let quiet := match c.dropAt with
      | some t => !due s t sec
      | none => false
    if quiet then s
    else
      let s := { s with q := { s.q with ctrs := tset s.q.ctrs ctr { c with dropAt := some s.time.now } } }
      record 3 0x4005 c.part (dieOfCq ctr) [ctr] s

/-- Write a counter's value to its mirror, checked as a local buffer (R98, R178; log 96, DESIGN CHOICE). -/
def writeMirror (ctr : Nat) (s : State) : State :=
  match tget s.q.ctrs ctr with
  | none => s
  | some c =>
    if c.mirrorKey == 0 then s
    else
      match localSpan (dieOfCq ctr) c.part c.pasid c.mirrorKey c.mirrorAddr 8 .write anyTarget true s with
      | (.ok ps, s) => if ringDead s ps then dropMirror ctr s else writePieces ps (leBytes 8 c.value) s
      | (_, s) => dropMirror ctr s

/-- Set a counter and write its mirror. -/
def setCounter (ctr v : Nat) (s : State) : State :=
  writeMirror ctr { s with q := { s.q with ctrs := tmod s.q.ctrs ctr fun c => { c with value := v % m64 } } }

/-- Add to a counter modulo 2^64 and write its mirror. -/
def addCounter (ctr n : Nat) (s : State) : State :=
  match tget s.q.ctrs ctr with
  | some c => setCounter ctr (c.value + n) s
  | none => s

/-! ## The control window (R75, R76) -/

def resDone : Nat := 0x00
def resBusy : Nat := 0x01
def resInvalid : Nat := 0x02
def resNoResource : Nat := 0x03
def resPending : Nat := 0xFF

/-- The command word with its result. -/
def controlWord (res code obj : Nat) : BitVec 64 := BitVec.ofNat 64 (pack [(56, res), (48, code), (0, obj)])

def windowPending (s : State) (p : Nat) : Bool := fld (tgetD s.q.windows p {}).word 63 56 == resPending

/-- A command word written to a partition's queue control window: ignored while one is PENDING; BUSY while the partition
is Resetting (R410); else the command answers its result. A partition that is Off has no window. -/
def queueControl (s : State) (p code obj : Nat) (desc : Option (BitVec 512)) (act : State → Nat × State) : Res :=
  need (Nat.blt p 12) .noSuchPartition <|
    let put := fun (res : Nat) (t : State) => setWindow p (fun w => { w with word := controlWord res code obj }) t
    let s1 := match desc with
      | some d => setWindow p (fun w => { w with desc := d }) s
      | none => s
    if !running s then s
    else
      match (partOf s p).state with
      | .off => s
      | .resetting => put resBusy s1
      | .up =>
        if windowPending s p then s1
        else
          let r := act s1
          put r.1 r.2

/-- The queue named by a command of a partition exists and is the partition's: else INVALID (R76). -/
def withWq (s : State) (p obj : Nat) (act : WorkQueue → Nat × State) : Nat × State :=
  if wqValid s obj && ownsWq s p obj && wqLive (wqOf s obj) then act (wqOf s obj) else (resInvalid, s)

/-- The partition has a privileged queue other than one (R403). -/
def hasPriv (s : State) (p except : Nat) : Bool :=
  s.q.wqs.any fun e => e.1 != except && wqLive e.2 && Desc.priv e.2.desc && Desc.part e.2.desc == p

/-- The checks of a work queue descriptor (R71, R76, R77, R403): 0, or the result that refuses it. -/
def wqDescCheck (s : State) (p obj : Nat) (d : BitVec 256) : Nat :=
  if Desc.part d != p then resInvalid
  else if !(Nat.ble 1 (Desc.burst d) && Nat.ble (Desc.burst d) 64) then resInvalid
  else if !Nat.ble (Desc.logSize d) 10 then resInvalid
  else if dieOfCq (Desc.cq d) != dieOfWq obj then resInvalid
  else if !(cqOf s (Desc.cq d)).exists_ || !ownsCq s p (Desc.cq d) then resInvalid
  else if Desc.priv d && (hasPriv s p obj || Desc.pasid d != 0) then resInvalid
  else if Desc.size (cqOf s (Desc.cq d)).desc < 2 * ((boundTo s (Desc.cq d)).filter (· != obj)).length + 2 then resNoResource
  else resDone

/-- CREATE_WQ: A queue control command creates a work queue from its descriptor (R76). -/
def execCreateWq (p obj : Nat) (desc : BitVec 512) (s : State) : Res :=
  queueControl s p 0x1 obj (some desc) fun s =>
    let d := lowDesc desc
    if !(wqValid s obj && ownsWq s p obj) || wqLive (wqOf s obj) then (resInvalid, s)
    else
      let c := wqDescCheck s p obj d
      if c != resDone then (c, s)
      else (resDone, { s with q := { s.q with wqs := tset s.q.wqs obj { desc := d, state := .idle } } })

/-- Idle, Paused or Error (R76, R105). -/
def QState.settled (st : QState) : Bool := st == .idle || st == .paused || st == .error

/-- MODIFY_WQ: A queue control command changes the fields of a work queue's descriptor (R77). -/
def execModifyWq (p obj : Nat) (desc : BitVec 512) (s : State) : Res :=
  queueControl s p 0x2 obj (some desc) fun s =>
    withWq s p obj fun q =>
      if Desc.part (lowDesc desc) != p then (resInvalid, s)
      else if !q.state.settled then (resBusy, s)
      else
        let c := wqDescCheck s p obj (lowDesc desc)
        if c != resDone then (c, s) else (resDone, setWq obj (fun q => { q with desc := lowDesc desc }) s)

/-- PAUSE_WQ: A queue control command asks that a work queue be paused (R76). -/
def execPauseWq (p obj : Nat) (s : State) : Res :=
  queueControl s p 0x3 obj none fun s =>
    withWq s p obj fun q =>
      match q.state with
      | .paused => (resDone, s)
      | .draining => (resInvalid, s)
      | .error => (resInvalid, s)
      | _ => (resPending, setWq obj (fun q => { q with pausing := true }) s)

/-- The window of a partition answers a PAUSE_WQ that was PENDING for a queue (log 69, DEDUCED). -/
def answerPause (p obj res : Nat) (s : State) : State :=
  setWindow p (fun w => { w with word := controlWord res 0x3 obj }) s

/-- PAUSE_EFFECTIVE: no WQE of a queue with a pending PAUSE_WQ is left in flight; the queue becomes Paused and the command ends with DONE (R105). -/
def execPauseEffective (wq : Nat) (s : State) : Res := .next <|
  let q := wqOf s wq
  let live := q.state == .idle || q.state == .running || q.state == .waiting
  when_ (running s && q.pausing && live && q.ops.isEmpty) s <|
    answerPause (Desc.part q.desc) wq resDone (setWq wq (fun q => { q with pausing := false, state := .paused }) (countWaiting wq s))

/-- RESUME_WQ: A queue control command resumes a Paused work queue (R105). -/
def execResumeWq (p obj : Nat) (s : State) : Res :=
  queueControl s p 0x4 obj none fun s =>
    withWq s p obj fun q =>
      if q.state == .paused then
        (resDone, setWq obj (fun q => { q with state := if q.posted == 0 then .idle else .running }) s)
      else (resInvalid, s)

/-- RESET_WQ discards what stands between the counts and returns the queue to Idle (R107). -/
def resetWq (q : WorkQueue) : WorkQueue :=
  { q with state := .idle, consumer := q.producer, fetched := [], fetchedAt := [], doorbells := [], push := [], refetches := [], cause := 0,
           pausing := false, waitSince := none, fenceDone := false, waitDone := false, turns := 0 }

/-- RESET_WQ: A queue control command discards the pending WQEs of a queue in Error and returns the queue to Idle (R107). -/
def execResetWq (p obj : Nat) (s : State) : Res :=
  queueControl s p 0x5 obj none fun s =>
    withWq s p obj fun q =>
      if q.state == .error then (resDone, setWq obj resetWq s) else (resInvalid, s)

def freeWq (wq : Nat) (s : State) : State := settleWaits { s with q := { s.q with wqs := tdel s.q.wqs wq } }

/-- DESTROY_WQ: A queue control command frees an Idle, Paused or Error work queue (R105). -/
def execDestroyWq (p obj : Nat) (s : State) : Res :=
  queueControl s p 0x6 obj none fun s =>
    withWq s p obj fun q =>
      if q.state.settled then (resDone, freeWq obj s) else (resBusy, s)

/-- CREATE_CQ: A queue control command creates a completion queue (R78). -/
def execCreateCq (p obj : Nat) (desc : BitVec 512) (s : State) : Res :=
  queueControl s p 0x8 obj (some desc) fun s =>
    let d := lowDesc desc
    if !(cqValid s obj && ownsCq s p obj) || (cqOf s obj).exists_ || Desc.part d != p || Desc.logSize d == 15 || 2047 < Desc.vector d then (resInvalid, s)
    else (resDone, { s with q := { s.q with cqs := tset s.q.cqs obj { desc := d, exists_ := true } } })

/-- DESTROY_CQ: A queue control command frees a completion queue to which no work queue is bound (R76). -/
def execDestroyCq (p obj : Nat) (s : State) : Res :=
  queueControl s p 0x9 obj none fun s =>
    if !(cqValid s obj && ownsCq s p obj && (cqOf s obj).exists_) then (resInvalid, s)
    else if !(boundTo s obj).isEmpty then (resBusy, s)
    else (resDone, { s with q := { s.q with cqs := tdel s.q.cqs obj } })

/-- CREATE_COUNTER: A queue control command creates a notify counter, with its mirror, set to 0 (R78). -/
def execCreateCounter (p obj : Nat) (desc : BitVec 512) (s : State) : Res :=
  queueControl s p 0xA obj (some desc) fun s =>
    let d := lowDesc desc
    if !(cqValid s obj && ownsCtr s p obj) || (tget s.q.ctrs obj).isSome || Desc.part d != p then (resInvalid, s)
    else
      let c : Counter := { part := p, pasid := Desc.pasid d, mirrorAddr := Desc.ringAddr d, mirrorKey := Desc.ringKey d }
      (resDone, { s with q := { s.q with ctrs := tset s.q.ctrs obj c } })

/-- A counter command of a partition names a counter of it that exists (R76). -/
def withCtr (s : State) (p obj : Nat) (act : Nat × State) : Nat × State :=
  if cqValid s obj && ownsCtr s p obj && (tget s.q.ctrs obj).isSome then act else (resInvalid, s)

/-- SET_COUNTER: A queue control command sets a counter's value and writes its mirror (R78). -/
def execSetCounter (p obj : Nat) (desc : BitVec 512) (s : State) : Res :=
  queueControl s p 0xB obj (some desc) fun s => withCtr s p obj (resDone, setCounter obj (fld desc 191 128) s)

def destroyCounter (ctr : Nat) (s : State) : State := settleWaits { s with q := { s.q with ctrs := tdel s.q.ctrs ctr } }

/-- DESTROY_COUNTER: A queue control command destroys a notify counter, and the WAITs on it end with WAIT_ABANDONED (R97). -/
def execDestroyCounter (p obj : Nat) (s : State) : Res :=
  queueControl s p 0xC obj none fun s => withCtr s p obj (resDone, destroyCounter obj s)

def QState.code (st : QState) : Nat :=
  match st with
  | .free => 0
  | .idle => 1
  | .running => 2
  | .waiting => 3
  | .paused => 4
  | .draining => 5
  | .error => 6

/-- What READ_WQ writes into the descriptor area: the four values of R78; the rule is silent on the other bits, which the model writes as 0
(log 119, DESIGN CHOICE). -/
def readWqDesc (q : WorkQueue) : BitVec 512 :=
  BitVec.ofNat 512 (pack [(192, q.completed), (64, q.producer), (32, q.consumer), (0, q.state.code)])

/-- READ_WQ: A queue control command writes a queue's state and its counts into the descriptor area (R78). -/
def execReadWq (p obj : Nat) (s : State) : Res :=
  queueControl s p 0xD obj none fun s =>
    withWq s p obj fun q => (resDone, setWindow p (fun w => { w with desc := readWqDesc q }) s)

/-- The COMMAND codes of R75. -/
def queueCommandKnown (c : Nat) : Bool :=
  (Nat.ble 1 c && Nat.ble c 6) || (Nat.ble 8 c && Nat.ble c 0xD)

/-- QUEUE_COMMAND_RESERVED: A queue control command word with a reserved COMMAND code ends with INVALID (R75). -/
def execQueueCommandReserved (p code obj : Nat) (s : State) : Res :=
  queueControl s p (code % 16) (obj % 2 ^ 20) none fun s => (resInvalid, s)

/-! ## Doorbells (R87 to R89, R103, R405, R410) -/

/-- The slice and partition a doorbell write acts in: partition, PASID where the path carries one. -/
def viaWho (s : State) : Via → Option (Nat × Option Nat)
  | .host p => some (p, none)
  | .accel port pasid => ((tgetD s.link.accel port {}).owner).map fun p => (p, some pasid)
  | .hub => none

/-- A doorbell write reaches an object of a partition and slice. -/
inductive Reach where
  | yes
  /-- it reaches nothing -/
  | no
  /-- ignored and counted by DOORBELL_CHECK (R405) -/
  | slice
  /-- ignored and counted: the partition is Resetting (R410) -/
  | resetting
  deriving DecidableEq, Repr

def doorbellReach (s : State) (v : Via) (p pasid : Nat) : Reach :=
  match v with
  | .hub => .yes
  | _ =>
    match viaWho s v with
    | none => .no
    | some (vp, vs) =>
      if vp != p then .no
      else
        match (partOf s p).state with
        | .off => .no
        | .resetting => .resetting
        | .up =>
          match vs with
          | some x => if (partOf s p).doorbellCheck && x != pasid then .slice else .yes
          | none => .yes

/-- Count an ignored doorbell write (log 40, DEDUCED). -/
def countIgnored (p : Nat) (r : Reach) (s : State) : State :=
  match r with
  | .slice => bump (dkey 0x7030 (p + 1)) 4 1 s
  | .resetting => bump (dkey 0x6006 (linkOfPart s p + 1)) 5 1 s
  | _ => s

/-- The entries of the push area a doorbell uses: count at or above the old producer, one aligned write since the previous
doorbell, the expected phase, not fetched (R89). -/
def usePushed (q : WorkQueue) (now : Nat × Bool) (tail pushed : Nat) : Nat → WorkQueue
  | 0 => q
  | n + 1 =>
    let q := usePushed q now tail pushed n
    let c := sub32 tail (pushed - n)
    match tget q.push n with
    | some (w, whole) =>
      let new := Nat.blt (sub32 c q.producer) (2 ^ 31)
      if new && whole && w.phase == ownerPhase (Desc.logSize q.desc) c && (tget q.fetched c).isNone then
        { q with fetched := tset q.fetched c w, fetchedAt := tset q.fetchedAt c now }
      else q
    | none => q

/-- A doorbell that R88 refuses. -/
def refuseDoorbell (wq : Nat) (s : State) : State :=
  let q := wqOf s wq
  let die := dieOfWq wq
  let s := tally 0x06 1 { die := die, part := Desc.part q.desc, queue := wq } s
  match q.state with
  | .draining => { s with q := { s.q with refused := tmodD s.q.refused die 0 (sat64 1) } }
  | .error => { s with q := { s.q with refused := tmodD s.q.refused die 0 (sat64 1) } }
  | _ => toDraining wq stDoorbellInvalid s

/-- A doorbell that advances the producer count (R88, R89, R105). -/
def acceptDoorbell (wq tail pushed : Nat) (s : State) : State :=
  let q := wqOf s wq
  let q1 := usePushed q (stampAt s (dieOfWq wq)) tail pushed pushed
  let used := q1.fetched.length - q.fetched.length
  let who : Who := { die := dieOfWq wq, part := Desc.part q.desc, queue := wq }
  let s := setWq wq (fun _ => noteNext s { q1 with producer := tail % m32, push := [], doorbells := q.doorbells ++ [(tail % m32, stampAt s (dieOfWq wq))],
                                                   state := if q.state == .idle then .running else q.state }) s
  tally 0x07 used who (tally 0x05 1 who s)

/-- R88, case by case. The consumer count is that of the next WQE to issue (log 119, DESIGN CHOICE). -/
def ringDoorbell (wq tail pushed : Nat) (s : State) : State :=
  let q := wqOf s wq
  let d := sub32 tail q.producer
  if 5 ≤ pushed then refuseDoorbell wq s
  else if d == 0 || 2 ^ 31 ≤ d then
    let die := dieOfWq wq
    tally 0x06 1 { die := die, part := Desc.part q.desc, queue := wq }
      { s with q := { s.q with stale := tmodD s.q.stale die 0 (sat64 1), wqs := tset s.q.wqs wq { q with push := [] } } }
  else if sub32 tail q.consumer ≤ Desc.size q.desc then acceptDoorbell wq tail pushed s
  else refuseDoorbell wq s

/-- WQ_DOORBELL: A work queue doorbell word write is taken as stale, advances the producer count, or is refused and moves the queue to Draining (R88). -/
def execWqDoorbell (v : Via) (wq tail pushed : Nat) (s : State) : Res := .next <|
  let q := wqOf s wq
  let p := Desc.part q.desc
  when_ (running s && wqLive q) s <|
    match doorbellReach s v p (Desc.pasid q.desc) with
    | .yes => ringDoorbell wq (tail % m32) (pushed % 8) (leaveIdle s)
    | r => countIgnored p r s

/-- A write into push slot j is kept with whether it was one aligned 64-byte write (R89). -/
def execPushAreaWrite (v : Via) (wq slot : Nat) (w : Wqe) (whole : Bool) (s : State) : Res := .next <|
  let q := wqOf s wq
  let ok := match doorbellReach s v (Desc.part q.desc) (Desc.pasid q.desc) with
    | .yes => true
    | _ => false
  when_ (running s && wqLive q && ok && Nat.blt slot 4) s <|
    setWq wq (fun q => { q with push := tset q.push slot (w, whole) }) s

/-- CQ_DOORBELL: A completion queue doorbell write sets HEAD and, with ARM, raises the vector or arms the queue (R103). -/
def execCqDoorbell (v : Via) (cq head : Nat) (arm : Bool) (s : State) : Res := .next <|
  let c := cqOf s cq
  let p := Desc.part c.desc
  when_ (running s && c.exists_) s <|
    match doorbellReach s v p (Desc.pasid c.desc) with
    | .yes =>
      let head := head % m32
      let ok := Nat.ble (sub32 head c.head) (sub32 c.written c.head)
      let s := leaveIdle s
      let s := if ok then setCq cq (fun c => { c with head := head }) s
        else { s with q := { s.q with headIgnored := tmodD s.q.headIgnored (dieOfCq cq) 0 (sat64 1) } }
      let inForce := if ok then head else c.head
      -- a wait that is abandoned may have stood without a slot (R99)
      settleWaits (if !arm then s
      else if inForce != c.written then raiseCq cq s
      else setCq cq (fun c => { c with armed := true }) s)
    | r => countIgnored p r s

/-! ## Fetching (R90 to R92, R178) -/

/-- Counts up to eight beyond the producer, within its ring pass, may be fetched ahead (R90). -/
def aheadOk (q : WorkQueue) (c : Nat) : Bool :=
  let size := Desc.size q.desc
  Nat.blt (sub32 c q.producer) 8 && c / size == (sub32 q.producer 1) / size

/-- Take the entries a fetch returned: those below the producer, or ahead of it where `ahead` allows, whose phase matches; one below the
producer whose phase does not is fetched again (R90 to R92). -/
def takeEntries (now : Nat × Bool) (ahead : Bool) : Nat → List Wqe → WorkQueue → WorkQueue
  | _, [], q => q
  | c, w :: t, q =>
    let pending := Nat.blt (sub32 c q.consumer) q.posted
    let q :=
      if (pending || (ahead && aheadOk q c)) && (tget q.fetched c).isNone then
        if w.phase == ownerPhase (Desc.logSize q.desc) c then
          { q with fetched := tset q.fetched c w, fetchedAt := tset q.fetchedAt c now, refetches := tdel q.refetches c }
        else if pending && (tget q.refetches c).isNone then { q with refetches := tset q.refetches c (1, now.1) }
        else q
      else q
    takeEntries now ahead (add32 c 1) t q

def wqeBytes (w : Wqe) : List Byte := leBytes 64 w.toNat
def wqeOf (d : List Byte) : Wqe := BitVec.ofNat 512 (ofLe (slice d 0 64))

/-- Cut bytes into entries. -/
def wqesOf : Nat → List Byte → List Wqe
  | 0, _ => []
  | n + 1, d => wqeOf d :: wqesOf n (d.drop 64)

/-- The record of an uncorrectable unit that a read of pieces meets (R384). -/
def noteBad (ps : List Piece) (s : State) : State :=
  match badOffset s ps 0 with
  | some (_, a) => mediaError a s
  | none => s

/-- A fetch of an aligned group of four ring entries from count `first` returns: the ring is checked as a local buffer (R90, R178); entries
of a ring in device memory are read there, others are the operand; `refused` is a host read answered with an error (R370). -/
def execRingFetchReturn (wq first : Nat) (entries : List Wqe) (refused : Bool) (s : State) : Res := .next <|
  let q := wqOf s wq
  let d := q.desc
  let n := entries.length
  let a := Desc.ringAddr d + 64 * (first % Desc.size d)
  when_ (running s && wqLive q && q.state != .error && n == 4 && first % 4 == 0) s <|
    match localSpan (dieOfWq wq) (Desc.part d) (Desc.pasid d) (Desc.ringKey d) a (64 * n) .read anyTarget true s with
    | (.ok ps, s) =>
      if refused then toDraining wq stXlateLocal s
      else if (badOffset s ps 0).isSome then toDraining wq stMediaError (noteBad ps s)
      else
        let es := wqesOf n (readPieces s ps (entries.flatMap wqeBytes))
        let s := noteReads ps s
        setWq wq (fun q => noteNext s (takeEntries (stampAt s (dieOfWq wq)) (ps.all fun p => p.target == 0 || p.target == 2) first es q)) s
    | (.fail st _, s) => toDraining wq st s
    | (.miss, s) => s

/-- An entry is fetched again, 250 ns after its last attempt, with the checks of any fetch; past 4,000 attempts the queue drains once that
entry is next (R92, R178; log 118, DEDUCED). -/
def execEntryRefetch (wq : Nat) (w : RingEntry) (s : State) : Res := .next <|
  let q := wqOf s wq
  let c := w.count
  let d := q.desc
  let live := q.state == .running || q.state == .waiting
  match tget q.refetches c with
  | some (n, at_) =>
    when_ (running s && live && Nat.blt (sub32 c q.consumer) q.posted && (tget q.fetched c).isNone && due s at_ 250) s <|
      let s := tally 0x08 1 { die := dieOfWq wq, part := Desc.part d, queue := wq } s
      match localSpan (dieOfWq wq) (Desc.part d) (Desc.pasid d) (Desc.ringKey d) (Desc.ringAddr d + 64 * (c % Desc.size d)) 64 .read anyTarget
          true s with
      | (.ok ps, s) =>
        if (badOffset s ps 0).isSome then toDraining wq stMediaError (noteBad ps s)
        else
          let w := wqeOf (readPieces s ps (wqeBytes w.wqe))
          let s := noteReads ps s
          if w.phase == ownerPhase (Desc.logSize d) c then
            setWq wq (fun q => noteNext s { q with fetched := tset q.fetched c w, fetchedAt := tset q.fetchedAt c (stampAt s (dieOfWq wq)),
                                                   refetches := tdel q.refetches c }) s
          else if 4000 ≤ n && c == q.consumer then toDraining wq stEntryNotReady s
          else setWq wq (fun q => { q with refetches := tset q.refetches c (n + 1, s.time.now) }) s
      | (.fail st _, s) => toDraining wq st s
      | (.miss, s) => s
  | none => s

/-! ## Fences (R50) -/

/-- FENCE_RELEASE: once every earlier WQE of its queue has completed, a WQE marked FENCE may begin (R50). -/
def execFenceRelease (wq : Nat) (s : State) : Res := .next <|
  let q := wqOf s wq
  let fenced := match q.next with
    | some w => w.fence
    | none => false
  when_ (running s && q.state == .running && fenced && q.posted != 0 && q.ops.isEmpty) s <|
    setWq wq (fun q => noteNext s { q with fenceDone := true }) s

/-! ## Errors of rings and mirrors on their paths (R98, R108) -/

/-- CQ_WRITE_FAULT: A completion ring cannot be written; the completion queue enters its error state and its work queues stop issuing (R108). -/
def execCqWriteFault (cq : Nat) (s : State) : Res := .next <| when_ (running s && (cqOf s cq).exists_) s (cqError cq s)

/-- MIRROR_WRITE_DROPPED: A counter mirror write fails its key check, its translation or its path, and the device drops it (R98). -/
def execMirrorWriteDropped (ctr : Nat) (s : State) : Res := .next <|
  let mirrored := match tget s.q.ctrs ctr with
    | some c => c.mirrorKey != 0
    | none => false
  when_ (running s && mirrored) s (dropMirror ctr s)

/-! ## The end of draining (R105, R106) -/

/-- DRAIN_COMPLETE: every issued WQE of a Draining queue has ended; the device writes the FLUSHED entry and the queue enters Error (R106). -/
def execDrainComplete (wq : Nat) (s : State) : Res := .next <|
  let q := wqOf s wq
  let cq := Desc.cq q.desc
  when_ (running s && q.state == .draining && q.ops.isEmpty) s <|
    let e : Cqe := { phase := false, tsuspect := false, time := 0, cause := q.cause, status := stFlushed, index := q.consumer,
                     wq := wq, offset := q.posted }
    let s := postCqe cq e true s
    let s := if q.pausing then answerPause (Desc.part q.desc) wq resInvalid s else s
    settleWaits (setWq wq (fun q => { q with state := .error, pausing := false }) s)

end Sys2Proof.Machine
end

