-- ==== Sys2Proof/Machine/Route.lean ====
section
/-! DEFINITION. Where a frame goes: coordinates, distances, live ports, dimension-order and adaptive directions, egress room and
priorities. -/

namespace Sys2Proof.Machine

/-! ## Coordinates (R33, R267, R275) -/

/-- COORD of the device, none before it holds coordinates. -/
def coord (s : State) : Option Nat :=
  let c := cfg s 0x3001 2
  if c == 0xFFFF then none else some c

/-- Size of dimension 0 (X), 1 (Y) or 2 (Z). -/
def dimSize (s : State) (d : Nat) : Nat := bits (cfg s 0x3001 1) (11 - 4 * d) (8 - 4 * d) + 1

/-- Coordinate d of an endpoint address or COORD. -/
def coordOf (a d : Nat) : Nat := bits a (15 - 4 * d) (12 - 4 * d)

def withCoord (a d v : Nat) : Nat := a - coordOf a d * 2 ^ (12 - 4 * d) + v * 2 ^ (12 - 4 * d)

/-- An endpoint address lies within the shape, with an endpoint that exists (R33, R35, R302). -/
def epInRange (s : State) (a : Nat) : Bool :=
  Nat.ble (epE a) 9 && Nat.blt (epX a) (dimSize s 0) && Nat.blt (epY a) (dimSize s 1) && Nat.blt (epZ a) (dimSize s 2)
    && Nat.blt (epZ a) 12

/-- An endpoint of this device. -/
def isOwn (s : State) (a : Nat) : Bool := coord s == some (epDev a)

/-- The neighbour of a device in direction k of R17. -/
def neighbourOf (s : State) (c k : Nat) : Nat :=
  let d := k / 2
  let n := dimSize s d
  withCoord c d (if k % 2 == 0 then (coordOf c d + 1) % n else (coordOf c d + n - 1) % n)

/-- Hops left in dimension d, as the forward distance (R269). -/
def forward (s : State) (from_ dst d : Nat) : Nat :=
  let n := dimSize s d
  (coordOf dst d + n - coordOf from_ d % n) % n

/-- The minimal directions of dimension d (R269). -/
def minimal (s : State) (from_ dst d : Nat) : List Nat :=
  let f := forward s from_ dst d
  let b := dimSize s d - f
  if f == 0 then [] else if f < b then [2 * d] else if b < f then [2 * d + 1] else [2 * d, 2 * d + 1]

/-- The direction a dimension-order route takes in dimension d; a tie goes by flow bit 2 (R289). -/
def dimStep (s : State) (from_ dst flow d : Nat) : Option Nat :=
  match minimal s from_ dst d with
  | [] => none
  | [k] => some k
  | _ => some (2 * d + (if bit flow 2 then 1 else 0))

/-- The next direction of the dimension-order route, which is also the escape direction (R289, R291). -/
def dorDir (s : State) (from_ dst flow : Nat) : Option Nat :=
  match dimStep s from_ dst flow 0 with
  | some k => some k
  | none =>
    match dimStep s from_ dst flow 1 with
    | some k => some k
    | none => dimStep s from_ dst flow 2

/-- Every minimal direction left, X before Y before Z, + before − (R290). -/
def allMinimal (s : State) (from_ dst : Nat) : List Nat :=
  minimal s from_ dst 0 ++ minimal s from_ dst 1 ++ minimal s from_ dst 2

/-! ## Ports (R17, R270, R274) -/

def portOf (s : State) (p : Nat) : Port := tgetD s.fab.ports p {}
def setPort (p : Nat) (f : Port → Port) (s : State) : State :=
  { s with fab := { s.fab with ports := tmodD s.fab.ports p {} f } }

/-- The port a neighbour must be cabled to (R270). -/
def partner (p : Nat) : Nat := p / 6 * 6 + (p % 6 ^^^ 1)

def Port.isTrained (q : Port) : Bool := q.bring == .trained

/-- A port that can carry frames; a fence leaves it to link frames and management connections (R273, R274, R301). -/
def portLive (s : State) (p : Nat) (mgmt : Bool := false) : Bool :=
  let q := portOf s p
  q.isTrained && q.heldOut == 0 && !q.stopped && (mgmt || !q.fenced) && dieUp s (fpCode (p / 6)) &&
  (match q.heard with
   | some h => Hdr.coordValid h
   | none => false)

/-! ## Priorities and egress room (R287, R291) -/

/-- The dateline coordinate of a dimension; from n − 1 on it is the wrap link. -/
def dateline (s : State) (d : Nat) : Nat := min (bits (cfg s 0x3001 4) (11 - 4 * d) (8 - 4 * d)) (dimSize s d - 1)

/-- Leaving coordinate c of dimension d in direction k crosses the dateline link. -/
def crosses (s : State) (c k : Nat) : Bool :=
  let d := k / 2
  let x := coordOf c d
  if k % 2 == 0 then x == dateline s d else x == (dateline s d + 1) % dimSize s d

/-- DL of a frame that leaves in direction k, having arrived in direction `came` (none from the mesh). -/
def nextDl (s : State) (dl : Bool) (came : Option Nat) (k : Nat) : Bool :=
  let kept := match came with
    | some j => dl && j / 2 == k / 2
    | none => dl
  kept || (match coord s with
    | some c => crosses s c k
    | none => false)

/-- The dimension's direction a frame arrived in: it came over a port toward the other side. -/
def cameIn (from_ : Option Nat) : Option Nat := from_.map fun p => p % 6 ^^^ 1

def prioOf (tc : Nat) (dl : Bool) : Nat := 2 * tc + b2n dl

def egressBytes (s : State) (p prio : Nat) : Nat :=
  (portOf s p).egress.foldl (fun a q => if q.prio == prio then a + q.size else a) 0

def egressFree (s : State) (p prio : Nat) : Nat := 262144 - egressBytes s p prio

/-- The largest frame of the generation in use (R276, R303). -/
def largestFrame (s : State) : Nat := if s.far.generation == 1 then 4166 else 4158

/-- Frame size of a packet: header, payload, trailer, FCS, padded to 64 bytes (R276, R303). -/
def frameSizeOf (s : State) (pkt : Packet) : Nat :=
  max 64 ((if s.far.generation == 1 then 70 else 62) + pkt.payload.length)

/-- The first element of a list with the least measure (log 63, DESIGN CHOICE). -/
def leastBy (m : Nat → Nat) : List Nat → Option Nat
  | [] => none
  | a :: t =>
    match leastBy m t with
    | some b => if m b < m a then some b else some a
    | none => some a

/-- Ports of direction k that are live, from the port die of the flow value on (R288). -/
def portsToward (s : State) (k flow : Nat) (mgmt : Bool) : List Nat :=
  (((List.range 4).map fun i => 6 * ((flow + i) % 4) + k).filter fun p => portLive s p mgmt)

/-- The port die a frame of this device first goes to (R149, R288); the first of equal depths is taken. -/
def firstDie (s : State) (pkt : Packet) (spray : Nat) (mgmt : Bool) : Nat :=
  let flow := Hdr.flow pkt.hdr
  let tc := Hdr.tc pkt.hdr
  match coord s with
  | none => flow % 4
  | some c =>
    let d := Hdr.dest pkt.hdr
    let depth := fun p => egressBytes s p (prioOf tc (nextDl s false none (p % 6)))
    if tc == 0 || spray == 0 then flow % 4
    else if spray == 1 || s.far.generation == 1 then
      match dorDir s c d flow with
      | some k => ((leastBy depth (portsToward s k flow mgmt)).getD (6 * (flow % 4))) / 6
      | none => flow % 4
    else
      ((leastBy depth ((allMinimal s c d).flatMap fun k => portsToward s k flow mgmt)).getD (6 * (flow % 4))) / 6

/-- A frame waits at a port die. -/
def waitAt (die : Nat) (q : Queued) (s : State) : State :=
  { s with fab := { s.fab with waiting := tmodD s.fab.waiting die [] fun l => l ++ [q] } }

/-! ## The die-to-die mesh (R20 to R22, R24) -/

/-- The two dies of each mesh link, in the order of R20: links 2b and 2b + 1 are those of bridge b. -/
def meshLinks : List (Nat × Nat) :=
  [(0x10, 0), (0x10, 4), (0x11, 1), (0x11, 6), (0x12, 2), (0x12, 5), (0x13, 3), (0x13, 7), (0x20, 0), (0x20, 1), (0x21, 2), (0x21, 3),
   (0x30, 0x10), (0x30, 0x12), (0x30, 0x11), (0x30, 0x13), (0x30, 0x20), (0x30, 0x21)]

/-- The dies of the mesh, in the order R21 decides ties by. -/
def meshDies : List Nat := [0, 1, 2, 3, 4, 5, 6, 7, 0x10, 0x11, 0x12, 0x13, 0x20, 0x21, 0x30]

/-- A mesh link of the grade joins two dies, and is in service given the links out of service. -/
def linkJoins (s : State) (out : List Nat) (a b : Nat) : Bool :=
  (List.range 18).any fun l =>
    let (x, y) := (meshLinks[l]?).getD (0, 0)
    !out.contains l && populated s x && populated s y && ((x == a && y == b) || (x == b && y == a))

/-- The dies at most n links from a die, in the order R21 decides ties by. -/
def meshNear (s : State) (out : List Nat) (b : Nat) : Nat → List Nat
  | 0 => [b]
  | n + 1 => let l := meshNear s out b n; meshDies.filter fun x => l.contains x || l.any (linkJoins s out x)

/-- The route from a die that is n links from b: at each die the earliest neighbour one link nearer. -/
def routeOf (s : State) (out : List Nat) (b : Nat) : Nat → Nat → List Nat
  | 0, a => [a]
  | n + 1, a =>
    match (meshNear s out b n).find? (linkJoins s out a) with
    | some x => a :: routeOf s out b n x
    | none => [a]

/-- The mesh route between two dies, its dies in order: fewest links, then the earliest dies (R21); over the links that were in service
when the routes in use were computed (R24). -/
def meshRoute (s : State) (a b : Nat) : Option (List Nat) :=
  ((List.range 15).find? fun n => (meshNear s s.mesh.usedOut b n).contains a).map fun n => routeOf s s.mesh.usedOut b n a

/-- A packet sets out on its mesh route; the ingress of a port die keeps a frame with the route it is on. A route that is broken at a
failed die loses it (log 97, DESIGN CHOICE). -/
def embark (c : Carried) (s : State) : State :=
  match meshRoute s c.src c.dst with
  | some r =>
    if !r.all (dieUp s) then s
    else
      match c.frame with
      | some q => waitAt (c.dst - fpCode 0) { q with via := if c.src == c.dst then [] else r } s
      | none => { s with mesh := { s.mesh with carry := s.mesh.carry ++ [{ c with route := r }] } }
  | none => s

/-- Frames whose source suits have reached their port dies. -/
def landFrames (p : Nat → Bool) (s : State) : State :=
  { s with fab := { s.fab with waiting := tmap s.fab.waiting fun _ l => l.map fun q => match q.via with
      | a :: _ => if p a then { q with via := [] } else q
      | [] => q } }

/-- A packet is passed from die to die; one for another die waits while recomputed routes are not yet in use (R24). -/
def toMesh (c : Carried) (s : State) : State :=
  if s.mesh.switching && c.src != c.dst then { s with mesh := { s.mesh with held := s.mesh.held ++ [c] } } else embark c s

/-- The first packet on the mesh for a die that suits, where none sent before it between the same two dies is still under way (R21). -/
def firstCarried (dst : Nat) (good : Packet → Bool) : List Nat → List Carried → Option (Packet × List Carried)
  | _, [] => none
  | seen, c :: t =>
    if c.dst == dst && !seen.contains c.src && good c.pkt then some (c.pkt, t)
    else (firstCarried dst good (if c.dst == dst then c.src :: seen else seen) t).map fun x => (x.1, c :: x.2)

/-- A die takes a packet off the mesh. -/
def meshTake (dst : Nat) (good : Packet → Bool) (s : State) : Option (Packet × State) :=
  (firstCarried dst good [] s.mesh.carry).map fun x => (x.1, { s with mesh := { s.mesh with carry := x.2 } })

/-- The die that takes a packet at this device: the port die of a tree edge, the hub for connection setup, else the engine die its HANDLE
names (R125, R255). -/
def takerOf (pkt : Packet) : Nat :=
  let h := pkt.hdr
  if Hdr.rmode h == 2 && Hdr.ver h != 1 then fpCode (Hdr.edgeDie h)
  else if Nat.ble kConnectReq (Hdr.kind h) && Nat.ble (Hdr.kind h) kReset then hubCode
  else edCode (Hdr.handle h / 2 ^ 17)

/-- A packet leaves a die: over the mesh to the die that takes it at this device, or to a port die (R21, R36, R288). -/
def sendOut (src : Nat) (pkt : Packet) (spray : Nat) (mgmt : Bool) (die : Option Nat) (s : State) : State :=
  if isOwn s (Hdr.dest pkt.hdr) then toMesh { src := src, dst := takerOf pkt, pkt := pkt } s
  else
    toMesh { src := src, dst := fpCode (die.getD (firstDie s pkt spray mgmt)), pkt := pkt,
             frame := some { pkt := pkt, size := frameSizeOf s pkt, spray := spray, mgmt := mgmt, at_ := s.time.now } } s

end Sys2Proof.Machine
end

