-- ==== Sys2Proof/Machine/Ends.lean ====
section
/-! DEFINITION. Connection ends as every family sees them: what waits to be sent, the packets built from it, how an operation's
outcome is decided, and what an end's breaking does. -/

namespace Sys2Proof.Machine

/-! ## Access (R110) -/

def endOf (s : State) (h : Nat) : End := tgetD s.conn.ends h {}
def setEnd (h : Nat) (f : End → End) (s : State) : State :=
  { s with conn := { s.conn with ends := tmod s.conn.ends h f } }
/-- Handles from 2^20 on name the halves of tree edges, by the edge's key (R255). -/
def edgeHalf (key : Nat) : Nat := 2 ^ 20 + key
def isEdge (h : Nat) : Bool := Nat.ble (2 ^ 20) h
def edgeKey (die edge : Nat) : Nat := die * 2 ^ 14 + edge
/-- The edge of a half. -/
def edgeOf (s : State) (h : Nat) : Edge := tgetD s.ar.edges (h - 2 ^ 20) { tree := 0, dir := 0 }

/-- Code of the die an end is kept by: the engine die its handle names, or the port die of an edge. -/
def dieOfEnd (h : Nat) : Nat := if isEdge h then fpCode ((h - 2 ^ 20) / 2 ^ 14) else h / 2 ^ 17

/-- The end a packet is for (R110, R280). -/
def handleOf (hdr : Hdr) : Nat :=
  if Hdr.rmode hdr == 2 && Hdr.ver hdr != 1 then edgeHalf (edgeKey (Hdr.edgeDie hdr) (Hdr.edge hdr)) else Hdr.handle hdr

def End.isOpen (e : End) : Bool := e.state == .open_
def End.live (e : End) : Bool := e.state != .free

/-- The epoch table entry of a handle: the last one stored, or the random fill (R116). -/
def epochOf (s : State) (h : Nat) : Nat :=
  match tget s.conn.epochs h with
  | some e => e
  | none => Config.freeEpoch s.conn.fills h % m16

def setEpoch (h v : Nat) (s : State) : State := { s with conn := { s.conn with epochs := tset s.conn.epochs h (v % m16) } }

/-- Advance the epoch table entry of a handle by 1. -/
def nextEpoch (h : Nat) (s : State) : State := setEpoch h (epochOf s h + 1) s

/-- The end is the most recently used of its die's cache (R114). -/
def touch (h : Nat) (s : State) : State :=
  if s.conn.cached.contains h then { s with conn := { s.conn with cached := h :: s.conn.cached.filter (· != h) } } else s

/-- An end is in the connection cache of its die; a port die holds its edges. -/
def inCache (s : State) (h : Nat) : Bool := isEdge h || s.conn.cached.contains h

/-- The packets that waited for an end go on, before those that came after them (R114). -/
def unwait (h : Nat) (s : State) : State :=
  let mine := fun (c : Carried) => Hdr.handle c.pkt.hdr == h
  { s with mesh := { s.mesh with carry := s.conn.waitFill.filter mine ++ s.mesh.carry },
           conn := { s.conn with waitFill := s.conn.waitFill.filter fun c => !mine c } }

/-- Fill an end into the cache; past 16,384 ends of the die, its least recently used is spilled (R114). -/
def fillCache (h : Nat) (s : State) : State :=
  let own := s.conn.cached.filter fun x => dieOfEnd x == dieOfEnd h && x != h
  let own := if own.length < 16384 then own else own.dropLast
  let rest := s.conn.cached.filter fun x => dieOfEnd x != dieOfEnd h
  unwait h { s with conn := { s.conn with cached := h :: own ++ rest } }

/-- An end leaves the cache with its connection. -/
def uncache (h : Nat) (s : State) : State := unwait h { s with conn := { s.conn with cached := s.conn.cached.filter (· != h) } }

/-! ## Wrapping comparisons -/

/-- a comes after b, modulo 2^n. -/
def after (n a b : Nat) : Bool := let d := (a + (2 ^ n - b % 2 ^ n)) % 2 ^ n; 0 < d && Nat.blt d (2 ^ (n - 1))

/-! ## Packets (R125, R280) -/

/-- The traffic class acknowledgements of a class travel in (R133; log 54, DEDUCED). -/
def ackTc (tc : Nat) : Nat := if tc == 1 then 3 else tc

/-- Build a packet of an end. -/
def mkPacket (s : State) (e : End) (d : Desc) (psn : Nat) (payload : List Byte) : Packet :=
  let gen1 := s.far.generation == 1
  let hdr : Hdr := BitVec.ofNat 320 (pack [(318, if gen1 then 1 else 2), (314, d.kind), (312, d.tc),
    (308, if gen1 then 1 else d.rmode), (303, 31), (302, b2n d.last), (298, d.opcode), (282, e.peerEp), (262, e.peerHandle), (246, e.epoch),
    (214, psn), (190, d.opnum), (158, d.offset % m32), (126, d.length % m32), (122, d.tile), (90, s.time.now % m32), (0, d.form)])
  let route : BitVec 64 :=
    if gen1 then
      match coord s with
      | some c =>
        let f := fun k => match dimStep s c e.peerEp e.peerHandle k with
          | some j => (j % 2, if j % 2 == 0 then forward s c e.peerEp k else dimSize s k - forward s c e.peerEp k)
          | none => (0, 0)
        BitVec.ofNat 64 (pack [(63, (f 0).1), (59, (f 0).2), (58, (f 1).1), (54, (f 1).2), (53, (f 2).1), (49, (f 2).2)])
      | none => 0
    else 0
  { hdr := hdr, payload := payload, crc := trailer hdr route payload, route := route }

/-- A packet of an edge: a packet that keeps its header and trailer gets the fields that change at each hop, DL only where it goes on in
the dimension it came in (R280, R285, R287). -/
def edgePacket (s : State) (h : Nat) (e : End) (d : Desc) (psn : Nat) (payload : List Byte) : Packet :=
  match d.raw with
  | none => mkPacket s e d psn payload
  | some p =>
    let dl := match d.origin with
      | some (k, _) => Hdr.dl p.hdr && (edgeOf s k).dir / 2 == (edgeOf s h).dir / 2
      | none => false
    let hdr := setFld (setFld p.hdr 311 311 (b2n dl)) 281 262 e.peerHandle
    { p with hdr := setFld (setFld (setFld hdr 261 246 e.epoch) 245 214 psn) 121 90 (s.time.now % m32) }

/-- A frame waits at a port die to leave in a direction. -/
def leaveBy (die dir : Nat) (pkt : Packet) (s : State) : State :=
  waitAt die { pkt := pkt, port := 6 * die + dir, size := frameSizeOf s pkt, at_ := s.time.now } s

/-- Send a packet of an end, header and trailer counted as mesh bytes (R496, log 25, DESIGN CHOICE); TC0 packets are never sprayed (R149).
A packet of an edge leaves its port die toward the edge's other end (R255). -/
def sendFrom (h : Nat) (d : Desc) (psn : Nat) (payload : List Byte) (s : State) : State :=
  let e := endOf s h
  if isEdge h then leaveBy ((h - 2 ^ 20) / 2 ^ 14) (edgeOf s h).dir (edgePacket s h e d psn payload) s else
  let s := tally 0x44 (44 + payload.length) { die := dieOfEnd h } (bumpFixed (dieOfEnd h) 4 1 s)
  sendOut (edCode (dieOfEnd h)) (mkPacket s e d psn payload) (if d.tc == 0 then 0 else e.spray) e.mgmt d.die s

/-- Unsequenced bodies: ACK, NACK, HOLD. -/
def sendControl (h kind tc : Nat) (body : List Byte) (s : State) : State :=
  sendFrom h { kind := kind, tc := tc, rmode := if isEdge h then 2 else 0, length := body.length, plen := body.length } 0 body s

/-! ## Timers (R135, R141, R143) -/

def rtoMax (s : State) : Nat := cfg s 0x4100 2

def rtoOf (s : State) (e : End) : Nat := if e.rttValid then max (cfg s 0x4100 1) (e.srtt + 4 * e.rttvar) else 64000

/-- A packet's timer as it starts after n resends since acked-through last advanced (R143; log 98, DESIGN CHOICE). -/
def timerOf (s : State) (e : End) (n : Nat) : Nat := if n == 0 then rtoOf s e else min (rtoOf s e * 2 ^ n) (rtoMax s)

/-- A HOLD was received within the last RTO_MAX (R135). -/
def underHold (s : State) (e : End) : Bool :=
  match e.hold with
  | some t => !due s t e.holdFor
  | none => false

/-- Resends count toward the retry limit (R135). -/
def counting (s : State) (e : End) : Bool := !underHold s e || e.holdStart.isNone

/-! ## Pacing (R151, R154, R155) -/

/-- The rate a send half is held to, in Mb/s; the limits of 0x4101 act at an update (R154, R156). -/
def rateLimit (s : State) (e : End) : Nat := if e.spray == 0 then min 800000 (cfg s 0x4101 3) else cfg s 0x4101 3

/-- Time of `n` payload bytes at the end's rate, in ps (log 55, DEDUCED). -/
def paceTime (e : End) (n : Nat) : Nat := n * 8000000 / max 1 (if e.spray == 0 then min e.rate 800000 else e.rate)

/-- The pace lets a packet of a class go: the time of those before it has passed, or it is of a burst of at most 16 (R151, R155). -/
def mayPace (s : State) (e : End) (tc : Nat) : Bool := tc < 2 || Nat.ble e.paceAt (s.time.now * 1000) || Nat.blt e.burst 16

/-- A paced packet of `n` bytes goes. -/
def paced (now n : Nat) (e : End) : End :=
  let e := { e with pacedSent := true }
  if e.paceAt ≤ now * 1000 then { e with burst := 1, paceAt := now * 1000 + paceTime e n }
  else { e with burst := e.burst + 1, paceAt := e.paceAt + paceTime e n }

/-- An update interval in which nothing was paced, or that a hold covered, passes without an update: the next one starts (R135, R154). -/
def rollInterval (s : State) (e : End) : End :=
  if due s e.lastUpdate (max e.srtt 4000) && (!e.pacedSent || underHold s e) then
    { e with marked := 0, total := 0, maxDelay := none, pacedSent := false, lastUpdate := s.time.now }
  else e

/-- A sequenced packet of a class and `n` bytes leaves a send half. -/
def chargeSend (s : State) (tc n : Nat) (e : End) : End := if tc < 2 then e else paced s.time.now n (rollInterval s e)

/-! ## Acknowledgements sent (R132, R133) -/

/-- A PSN the receive half has accepted. -/
def End.accepted (e : End) (psn : Nat) : Bool :=
  let d := sub32 psn e.recvThrough
  !after 32 psn e.recvThrough || (Nat.ble d 256 && flag e.bitmap (d - 1))

/-- Delivered-through as an ACK reports it: before every packet whose ACK still waits for its flush or notification (R133). -/
def End.ackThrough (e : End) : Nat :=
  e.gated.foldl (fun m g => if after 32 m (sub32 g.1 1) then sub32 g.1 1 else m) e.recvThrough

/-- The bitmap an ACK reports after it. -/
def End.ackBitmap (e : End) : Nat :=
  if e.gated.isEmpty then e.bitmap.toNat
  else
    (List.range 256).foldl (fun m i =>
      let psn := add32 e.ackThrough (1 + i)
      if e.accepted psn && !(e.gated.any fun g => g.1 == psn) then m + 2 ^ i else m) 0

def sendAck (h : Nat) (immediate : Bool) (s : State) : State :=
  let e := endOf s h
  let delay := if e.rxDelay < 0 then m32 - e.rxDelay.natAbs % m32 else e.rxDelay.natAbs % m32
  let body := leBytes 64 (pack [(256, e.ackBitmap), (224, e.ackThrough), (192, delay), (160, e.rxMarked % m32), (128, e.rxTotal % m32),
    (96, e.rxEcho), (65, b2n immediate), (64, b2n (timeSuspect s))])
  let s := setEnd h (fun e => { e with ackPending := 0, rxMarked := 0, rxTotal := 0 }) s
  sendControl h kAck (ackTc e.rxTc) body s

/-- New packets that an ACK may now answer; the ACK goes out with the ACK_PACKETS-th (R133). -/
def ackable (h n : Nat) (s : State) : State :=
  if n == 0 then s
  else
    let s := setEnd h (fun e => if e.ackPending == 0 then { e with ackSince := s.time.now, ackFor := cfg s 0x4100 6, ackPending := n }
      else { e with ackPending := e.ackPending + n }) s
    if cfg s 0x4100 5 ≤ (endOf s h).ackPending then sendAck h false s else s

/-- The flush and the notification an operation's packets waited for are done: an ACK may report them (R47, R54, R133). -/
def ungate (h opnum : Nat) (s : State) : State :=
  let n := ((endOf s h).gated.filter fun g => g.2 == opnum).length
  ackable h n (setEnd h (fun e => { e with gated := e.gated.filter fun g => g.2 != opnum }) s)

/-! ## What waits to be sent -/

/-- Put a request in operation order: before every request of a later operation, and before its own notification (R48, R282). -/
def insertDesc (d : Desc) : List Desc → List Desc
  | [] => [d]
  | x :: t =>
    if after 24 x.opnum d.opnum || (x.opnum == d.opnum && x.kind == kRequest && d.kind != kRequest) then d :: x :: t
    else x :: insertDesc d t

def queueRequest (h : Nat) (d : Desc) (s : State) : State := setEnd h (fun e => { e with toSend := insertDesc d e.toSend }) s
def queueResponse (h : Nat) (d : Desc) (s : State) : State := setEnd h (fun e => { e with toSend := e.toSend ++ [d] }) s

/-- Split a span of a tile into packets of 4,096 bytes (R127). -/
def packetsOf : Nat → Nat → Nat → List (Nat × Nat)
  | 0, _, _ => []
  | fuel + 1, off, n => if n == 0 then [] else (off, min 4096 n) :: packetsOf fuel (off + min 4096 n) (n - min 4096 n)

def dataPackets (off n : Nat) : List (Nat × Nat) := packetsOf (n / 4096 + 1) off n

/-- The body of a WITHDRAW (R566; log 56, DEDUCED). -/
def withdrawBody (status addr count : Nat) : List Byte := leBytes 16 (pack [(64, addr % m64), (32, count % m32), (0, status)])

/-- The notification, atomic or GET body of a REQUEST (R283). -/
def requestBody (w : Wqe) (raddr operand low : Nat) : List Byte :=
  leBytes 32 (pack [(192, raddr), (160, w.rkey), (140, w.rcounter), (129, b2n w.a64), (128, b2n w.xpath), (64, operand), (0, low)])

/-! ## Which operations travel on an end -/

/-- Opcodes that use a connection. -/
def overConn (o : Nat) : Bool := Nat.ble opPut o && Nat.ble o opCswap
def isAtomic (o : Nat) : Bool := o == opFadd || o == opCswap
def sendsData (o : Nat) : Bool := o == opPut || o == opPutNotify || o == opPutAcc
def isCopy (o : Nat) : Bool := o == opCopyIn || o == opCopyOut
def writeType (o : Nat) : Bool := sendsData o || isAtomic o || o == opNotify

/-- An operation in flight on an initiator end: queue and operation. -/
def opsOn (s : State) (h : Nat) : List (Nat × Op) :=
  s.q.wqs.flatMap fun e => (e.2.ops.filter fun o => overConn o.wqe.opcode && o.handle == h && o.result.isNone).map fun o => (e.1, o)

/-- The operation of an end with an operation number. -/
def opByNum (s : State) (h opnum : Nat) : Option (Nat × Op) := (opsOn s h).find? fun x => x.2.opnum == opnum

/-- An operation still translates a tile. -/
def Op.walking (o : Op) : Bool := o.tiles.any fun t => t.st == .walking

/-! ## Decisions (R58 to R60, R139) -/

/-- First offset from `at_` that no placed span covers. -/
def firstGap (placed : List (Nat × Nat)) (stop : Nat) : Nat → Nat → Nat
  | 0, at_ => at_
  | n + 1, at_ =>
    if stop ≤ at_ then stop
    else
      match placed.find? fun p => Nat.ble p.1 at_ && Nat.blt at_ (p.1 + p.2) with
      | some p => firstGap placed stop n (p.1 + p.2)
      | none => at_

/-- Lowest offset of a tile whose placement is not confirmed. -/
def Tile.gap (t : Tile) : Nat := firstGap t.placed (t.off + t.len) (t.placed.length + 1) t.off

/-- Bytes of a tile accounted for. -/
def Tile.seen (t : Tile) : Nat := t.placed.foldl (fun a p => a + p.2) 0 + t.refused.foldl (fun a p => a + p.2.1) 0

/-- The refusal of a tile with the lowest offset. -/
def lowestRefused : List (Nat × Nat × Nat × Nat) → Option FailPart
  | [] => none
  | (off, _, st, a) :: t =>
    match lowestRefused t with
    | some q => if q.off < off then some q else some ⟨off, st, a⟩
    | none => some ⟨off, st, a⟩

/-- A tile whose bytes are all accounted for has ended. -/
def Tile.settle (t : Tile) : Tile :=
  if t.st == .holding && Nat.ble t.len t.seen then
    match lowestRefused t.refused with
    | some q => { t with st := .failed q.status q.off q.addr }
    | none => { t with st := .finished }
  else t

def failedParts (ts : List Tile) : List FailPart :=
  ts.filterMap fun t => match t.st with
    | .failed st off a => some ⟨off, st, a⟩
    | _ => none

def Tile.ended (t : Tile) : Bool :=
  match t.st with
  | .finished => true
  | .failed _ _ _ => true
  | _ => false

def verdictResult (v : Verdict) : Result := { status := v.status, cause := v.cause, off := v.off, addr := v.addr }

/-- The outcome a done record gives (R138, R139). -/
def doneResult (d : Nat × Nat × Nat) : Result :=
  let (st, off, a) := d
  if st == 0 then { status := stOk } else verdictResult (decide_ [⟨off, st, a⟩])

/-- The outcome of an operation whose end breaks: a write-type operation is unconfirmed from offset 0 (R58, R144). -/
def brokenResult (o : Op) (cause : Nat) : Result :=
  if o.wqe.opcode == opGet then
    verdictResult (decide_ (failedParts o.tiles ++ (o.tiles.filter fun t => !t.ended).map fun t => ⟨t.gap, cause, 0⟩))
  else { status := cause }

/-- End every operation of an end that has no outcome yet with a cause (R124, R139, R144). -/
def endOpsWith (h cause : Nat) (s : State) : State :=
  (opsOn s h).foldl (fun s x => decideOp x.1 x.2.idx (brokenResult x.2 cause) s) s

/-- End every transfer of a collective on an end with a cause (R144). -/
def endTransfersOn (h cause : Nat) (s : State) : State :=
  { s with coll := { s.coll with groups := tmap s.coll.groups fun _ g => { g with transfers := g.transfers.map fun t =>
      if !t.tree && t.handle == h && !t.ended then { t with ended := true, status := cause } else t } } }

/-- An initiator end enters Broken with a cause; its operations end, nothing more is sent (R118, R144). -/
def breakEnd (h cause : Nat) (s : State) : State :=
  let e := endOf s h
  if !e.isOpen || !e.initiator then s
  else
    let s := setEnd h (fun e => { e with state := .broken, cause := cause, toSend := [], unacked := [], hold := none, holdStart := none }) s
    let s := bumpConn (dieOfEnd h) e.part 7 1 s
    let s := if cause == stTransportTimeout then bumpConn (dieOfEnd h) e.part 6 1 s else s
    endTransfersOn h cause (endOpsWith h cause s)

/-- Discard what a target end holds of operations under way. -/
def dropArrivals (h : Nat) (s : State) : State :=
  { s with conn := { s.conn with arrivals := tkeep s.conn.arrivals fun k _ => k / m24 != h } }

/-- An end returns to Free and its epoch table entry advances (R118). -/
def freeEnd (h : Nat) (s : State) : State :=
  let s := nextEpoch h (dropArrivals h (uncache h s))
  { s with conn := { s.conn with ends := tdel s.conn.ends h } }

/-! ## Setup messages (R118 to R126) -/

/-- The body of a setup packet: 64-bit words, little-endian (log 47, DESIGN CHOICE). -/
def setupBytes (ws : List Nat) : List Byte := ws.flatMap (leBytes 8)

/-- Word i of a setup packet. -/
def setupWord (p : Packet) (i : Nat) : Nat := field p.payload (8 * i) 8

/-- A setup packet leaves the hub on TC0 for endpoint 9 of the device of `dest`; HANDLE is the receiving end's (R120, R125, R126). -/
def sendConn (kind dest handle epoch : Nat) (mgmt : Bool) (ws : List Nat) (s : State) : State :=
  let b := setupBytes ws
  let e : End := { peerEp := epDev dest + 9, peerHandle := handle, epoch := epoch }
  sendOut hubCode (mkPacket s e { kind := kind, tc := 0, length := b.length, plen := b.length } 0 b) 0 mgmt none s

/-- The setup service takes the next packet of a kind that says what its command says; answers whether its check holds (R146). -/
def takeSetup (kind : Nat) (same : Packet → Bool) (s : State) : Option (Bool × State) :=
  (meshTake hubCode (fun p => Hdr.kind p.hdr == kind && same p) s).map fun x => (trailer x.1.hdr x.1.route x.1.payload == x.1.crc, x.2)

/-- What a setup packet does at the hub; one whose check fails is dropped. -/
def atHub (kind : Nat) (same : Packet → Bool) (act : State → State) (s : State) : State :=
  if !running s then s
  else
    match takeSetup kind same s with
    | some (true, s) => act (leaveIdle s)
    | some (false, s) => s
    | none => s

/-- RESET to the peer of an end (R118, R124). -/
def sendReset (e : End) (s : State) : State := sendConn kReset e.peerEp e.peerHandle e.epoch e.mgmt [] s

/-- A Closing end with no operation left in flight sends its CLOSE_REQ (R118). -/
def sendCloseReq (h : Nat) (s : State) : State :=
  let e := endOf s h
  sendConn kCloseReq e.peerEp e.peerHandle e.epoch e.mgmt [e.localEp, h]
    (setEnd h (fun e => { e with closeWait := false, tries := e.tries + 1, triedAt := s.time.now, tryFor := cfg s 0x4100 9 * us }) s)

def closeIfIdle (h : Nat) (s : State) : State :=
  let e := endOf s h
  if e.state == .closing && e.closeWait && (opsOn s h).isEmpty then sendCloseReq h s else s

/-- A target end closes itself: orphaned, or at its retry limit (R123, R144). -/
def closeTarget (h : Nat) (s : State) : State :=
  let e := endOf s h
  record 1 0x4002 e.part (dieOfEnd h) [h] (freeEnd h (sendReset e s))

end Sys2Proof.Machine
end

