-- ==== Sys2Proof/Machine/Issue.lean ====
section
/-! DEFINITION. The queue engine: which WQE may be issued, the checks in their order, tiles and their local translation, every
operation it issues, and the end of each. -/

namespace Sys2Proof.Machine

/-! ## Scheduling (R73, R93, R99) -/

/-- In generation-1 mode the fields that layout reserves read as zero (R84). -/
def engineWqe (s : State) (w : Wqe) : Wqe :=
  if gen1 s then
    let w : Wqe := setFld (setFld (setFld (setFld w 508 505 0) 463 448 0) 447 432 0) 403 384 0
    let w : Wqe := setFld (setFld w 499 497 0) 359 344 0
    -- WAIT_VALUE is reserved, OPERAND on the same bits is not: an atomic and an INVALIDATE keep theirs (R80, R184; log 131, DEDUCED)
    setFld (setFld w 340 320 0) 319 256 (if w.opcode == opFadd || w.opcode == opCswap || w.opcode == opInvalidate then w.operand else 0)
  else w

/-- The next WQE of a queue as the engine reads it. -/
def nextWqe (s : State) (wq : Nat) : Option Wqe := ((wqOf s wq).next).map (engineWqe s)

def dieInFlight (s : State) (die : Nat) : Nat :=
  s.q.wqs.foldl (fun a e => if dieOfWq e.1 == die then a + e.2.inFlight else a) 0

def partInFlight (s : State) (die p : Nat) : Nat :=
  s.q.wqs.foldl (fun a e => if dieOfWq e.1 == die && Desc.part e.2.desc == p then a + e.2.inFlight else a) 0

/-- The limits on operations in flight leave room: the die's, the queue's, the partition's quota on the die (R73, R396). -/
def roomFor (s : State) (wq : Nat) (q : WorkQueue) : Bool :=
  let die := dieOfWq wq
  let quota := (partOf s (Desc.part q.desc)).quotaOps
  Nat.blt (dieInFlight s die) 65536 && (Desc.maxInflight q.desc == 0 || Nat.blt q.inFlight (Desc.maxInflight q.desc))
    && (quota == 0 || Nat.blt (partInFlight s die (Desc.part q.desc)) quota)

/-- The end a WQE names is in its die's cache, where it names one (R114). -/
def endCached (s : State) (w : Wqe) : Bool := !overConn w.opcode || !(endOf s w.conn).live || inCache s w.conn

/-- The next WQE could be issued but for its turn: its queue runs, no pause is open, no fence or wait holds it, a slot and room
are free, its connection end is at hand, and an INVALIDATE is not one too many (R93, R99, R114, R187). -/
def issuable (s : State) (wq : Nat) : Bool :=
  let q := wqOf s wq
  let cq := Desc.cq q.desc
  q.state == .running && !q.pausing && partUp s (Desc.part q.desc) && q.posted != 0 &&
  (match nextWqe s wq with
   | some w => (!w.fence || q.fenceDone || q.ops.isEmpty) && endCached s w && (w.opcode != opInvalidate || Nat.blt s.xl.invals.length 64)
   | none => false) &&
  Nat.blt 0 (cqFree s cq) && !(cqOf s cq).error && roomFor s wq q

/-- Issuable queues of a die that the round under way still serves. -/
def withTurns (s : State) (die : Nat) : List Nat :=
  (s.q.wqs.filter fun e => dieOfWq e.1 == die && (tgetD s.q.rounds die []).contains e.1 && issuable s e.1 && Nat.ble e.2.turns e.2.weight).map (·.1)

/-- Issuable queues of a die. -/
def ready (s : State) (die : Nat) : List Nat := (s.q.wqs.filter fun e => dieOfWq e.1 == die && issuable s e.1).map (·.1)

/-- The queues one of which may start a turn: those left in the round, or every issuable one where a new round starts (R93). -/
def nextTurns (s : State) (die : Nat) : List Nat := if (withTurns s die).isEmpty then ready s die else withTurns s die

/-- Turns a queue has taken in the round that its next turn belongs to. -/
def turnsTaken (s : State) (wq : Nat) : Nat := if (withTurns s (dieOfWq wq)).isEmpty then 0 else (wqOf s wq).turns

/-- The turn under way on a die, which its queue can go on with. -/
def turnUnder (s : State) (die : Nat) : Option Nat :=
  match tget s.q.turns die with
  | some t => if t.left != 0 && issuable s t.wq then some t.wq else none
  | none => none

/-- The scheduler may take the next WQE of a queue: its turn is under way, or no other turn is and it may start one. Privileged queues come
first, those with the fewest turns first; a queue that becomes eligible during a round is served from the next one on (R93; log 50,
DEDUCED). -/
def hasTurn (s : State) (wq : Nat) : Bool :=
  match turnUnder s (dieOfWq wq) with
  | some x => x == wq
  | none =>
    let l := nextTurns s (dieOfWq wq)
    let privs := l.filter fun x => Desc.priv (wqOf s x).desc
    l.contains wq && (privs.isEmpty || (privs.contains wq && privs.all fun x => Nat.ble (turnsTaken s wq) (turnsTaken s x)))

/-- A new round of a die: it serves the queues that are eligible now, with their WEIGHT and BURST as they are now (R77, R93). -/
def startRound (die : Nat) (s : State) : State :=
  let l := ready s die
  { s with q := { s.q with
      rounds := tset s.q.rounds die l,
      wqs := tmap s.q.wqs fun k x =>
        if dieOfWq k == die then { x with turns := 0, weight := Desc.weight x.desc, burst := Desc.burst x.desc } else x } }

/-- Take a WQE out of the queue's turn, starting a turn or a round where needed. -/
def takeTurn (wq : Nat) (s : State) : State :=
  let die := dieOfWq wq
  if turnUnder s die == some wq then { s with q := { s.q with turns := tmod s.q.turns die fun t => { t with left := t.left - 1 } } }
  else
    let s := if (withTurns s die).isEmpty then startRound die s else s
    let s := setWq wq (fun q => { q with turns := q.turns + 1 }) s
    { s with q := { s.q with turns := tset s.q.turns die ⟨wq, (wqOf s wq).burst - 1⟩ } }

/-- The next WQE is held by a wait: the queue is Waiting, and its turn has ended (R93, R95). -/
def enterWaiting (wq : Nat) (s : State) : State :=
  let s := setWq wq (fun q => noteNext s { q with state := .waiting, waitingSince := s.time.now, fenceDone := true }) s
  { s with q := { s.q with turns := tkeep s.q.turns fun _ t => t.wq != wq } }

/-! ## The checks of R81 -/

/-- The opcode takes ACC_OP and ACC_FMT and they are permitted, with a whole number of elements, pages or records (R228, R232,
R247). -/
def putAccOk (w : Wqe) : Bool :=
  let f := formatOf w.accFmt
  accOk w.accOp w.accFmt w.exact .putAcc &&
  (if w.accOp == opRound || w.accOp == opRoundSr then w.length % (48 * f.perUnit) == 0 else w.length % f.unit == 0)

/-- Named local objects: kind (true a queue) and number (R81 check 1). -/
def namedObjects (w : Wqe) : List (Bool × Nat) :=
  (if w.notify then [(false, w.lcounter)] else []) ++
  (if w.opcode == opWait then [(w.waitKind == 1, w.waitObj)] else if w.wait then [(false, w.waitObj)] else [])

def objectExists (s : State) (o : Bool × Nat) : Bool :=
  if o.1 then wqLive (wqOf s o.2) else (tget s.q.ctrs o.2).isSome

/-- Partition and slice of a named object. -/
def objectIn (s : State) (o : Bool × Nat) (p pasid : Nat) : Bool :=
  if o.1 then Desc.part (wqOf s o.2).desc == p && Desc.pasid (wqOf s o.2).desc == pasid
  else
    match tget s.q.ctrs o.2 with
    | some c => c.part == p && c.pasid == pasid
    | none => false

/-- CONN names an initiator end of the queue's die, partition and slice whose far endpoint is ENDPOINT (R81 check 4, R111). -/
def connOk (s : State) (wq : Nat) (d : BitVec 256) (w : Wqe) : Bool :=
  let e := endOf s w.conn
  e.live && e.initiator && !e.mgmt && dieOfEnd w.conn == dieOfWq wq && e.part == Desc.part d && e.pasid == Desc.pasid d
    && e.peerEp == w.endpoint

/-- The scope of an INVALIDATE (R184). -/
def invScope (w : Wqe) : Nat := w.imm % 16

/-- A PASID names a slice of a partition. -/
def isSlice (s : State) (p pasid : Nat) : Bool := pasid == 0 || (partOf s p).slices.contains pasid

/-- Checks 1 to 5 of R81 in their order: OK or the status of the first that fails. Checks 3 and 4 are for operations over a
connection (R179); COLL_STEP has its own (R199). R81 does not say where the BAD_WQE of a TABLE_UPDATE's LENGTH or of an INVALIDATE's SCOPE and
OPERAND stands: the model puts them beside check 2, before LOCAL_RIGHTS (log 119, DESIGN CHOICE). -/
def checkWqe (s : State) (wq : Nat) (w : Wqe) : Nat :=
  let d := (wqOf s wq).desc
  let p := Desc.part d
  let o := w.opcode
  if !opcodeKnown o || Nat.ble 12 w.tile || !((namedObjects w).all (objectExists s))
      || (gen1 s && (o == opWait || o == opCollStep || o == opTableUpdate)) then stBadWqe
  else if (w.wait && (isAtomic o || o == opInvalidate)) || (o == opPutAcc && !putAccOk w)
      || (o == opTableUpdate && (w.length % 64 != 0 || w.length < 64 || 262144 < w.length))
      || (o == opInvalidate && (4 ≤ invScope w || (invScope w == 0 && w.operand == 0))) then stBadWqe
  else if overConn o && !epInRange s w.endpoint then stRemoteKey
  else if overConn o && !connOk s wq d w then stBadWqe
  else if !((namedObjects w).all fun x => objectIn s x p (Desc.pasid d)) then stLocalRights
  else if (o == opInvalidate || o == opTableUpdate) && !Desc.priv d then stLocalRights
  else if o == opInvalidate && invScope w ≤ 1 && !isSlice s p w.waitObj then stLocalRights
  else if o == opInvalidate && invScope w == 3 && !(partOf s p).regions.has (keyIndex w.rkey) then stLocalBounds
  else stOk

/-! ## Sampling (R503 to R508) -/

/-- A WQE passes the filters of its die's sampling. -/
def Sfifo.passes (f : Sfifo) (p wq : Nat) (w : Wqe) : Bool :=
  f.enable && (f.part == 0xFF || f.part == p) && (f.queue == 0xFFFFFFFF || f.queue == wq) && bit f.opcodes w.opcode
    && (f.layer == 0xFFFF || f.layer == w.layer)

def setSfifo (die : Nat) (f : Sfifo → Sfifo) (s : State) : State :=
  { s with obs := { s.obs with sfifo := tmodD s.obs.sfifo die {} f } }

/-- One more lost item (R508). -/
def Sfifo.lose (f : Sfifo) : Sfifo := { f with lost := satTo 0xFFFFFFFE f.lost 1 }

/-- An item of a die's FIFO is lost and counted (R508, R516). -/
def loseItem (die : Nat) (s : State) : State := bump (dkey 0x8210 0) 1 1 (setSfifo die Sfifo.lose s)

/-- Count an issued WQE; answers whether it is tagged (R503). -/
def sampleIssue (die p wq : Nat) (w : Wqe) (s : State) : Bool × State :=
  let f := tgetD s.obs.sfifo die {}
  if !f.passes p wq w then (false, s)
  else if f.passed + 1 < f.period then (false, setSfifo die (fun f => { f with passed := f.passed + 1 }) s)
  else if f.inFlight < 256 then (true, setSfifo die (fun f => { f with passed := 0, inFlight := f.inFlight + 1 }) s)
  else (false, loseItem die (setSfifo die (fun f => { f with passed := 0 }) s))

/-- A gap marker (R505). -/
def gapMarker (lost : Nat) : BitVec 64 := BitVec.ofNat 64 (pack [(32, lost), (4, 1), (0, 2)])

/-- Both copies of a pointer go on by n words. -/
def movePtr (p : Nat × Nat) (n : Nat) : Nat × Nat := ((p.1 + n) % 8192, (p.2 + n) % 8192)

/-- The two copies of each pointer agree (R509). -/
def Sfifo.agrees (f : Sfifo) : Bool := f.readPtr.1 == f.readPtr.2 && f.writePtr.1 == f.writePtr.2

/-- Write words at the write pointer. -/
def Sfifo.push (f : Sfifo) (words : List (BitVec 64)) : Sfifo :=
  { f with words := f.words ++ words, writePtr := movePtr f.writePtr words.length }

/-- The pointer reset of R509: every word is discarded, both pointers are 0, STREAM_EPOCH counts up, the pending count is cleared, and a
gap marker with LOST 0xFFFF_FFFF is the first word. -/
def Sfifo.resetPointers (f : Sfifo) : Sfifo :=
  { f with words := [], readPtr := (0, 0), writePtr := (0, 0), epoch := (f.epoch + 1) % 16, lost := 0, resets := min (f.resets + 1) 0xFFFFFFFF
    : Sfifo }.push [gapMarker 0xFFFFFFFF]

/-- The comparison made before a die's FIFO is read or written: on a mismatch the pointers are reset, which is counted and recorded
(R509, R515, R516). -/
def comparePointers (die : Nat) (s : State) : State :=
  if (tgetD s.obs.sfifo die {}).agrees then s
  else record 2 0x8001 0xF (die) [die] (bump (dkey 0x8210 0) 2 1 (setSfifo die Sfifo.resetPointers s))

/-- An item of eight words enters the FIFO of 4,096, behind a gap marker where one is due, or is lost (R508). -/
def Sfifo.enter (f : Sfifo) (words : List (BitVec 64)) : Sfifo :=
  let free := 4096 - f.words.length
  if f.lost == 0 then
    if words.length ≤ free then { f.push words with written := f.written + 1 } else f.lose
  else if words.length + 1 ≤ free then
    { f.push (gapMarker f.lost :: words) with lost := 0, written := f.written + 1 }
  else f.lose

/-- Stage lengths from instants: each counts from the end of the stage before it; one that does not apply is 0 (R504). -/
def stages : Nat → List Nat → List Nat
  | _, [] => []
  | prev, t :: r => if t ≤ prev then 0 :: stages prev r else min (t - prev) 0xFFFFFFFF :: stages t r

/-- The sample record of an ended WQE, as one number (R504). -/
def sampleRecord (s : State) (wq : Nat) (o : Op) (status : Nat) : Nat :=
  let d := (wqOf s wq).desc
  let w := o.wqe
  let die := dieOfWq wq
  let st := stages o.doorbell [o.fetchAt, o.issued, o.xlateAt, o.readAt, o.netAt, o.flushAt, s.time.now]
  let remote := overConn w.opcode || isCopy w.opcode
  let ep := if w.opcode == opCollStep then fld w 479 464 else w.endpoint
  pack [(480, nth st 6), (448, nth st 5), (416, nth st 4), (384, nth st 3), (352, nth st 2), (320, nth st 1), (288, nth st 0),
    (256, w.length), (192, if remote then w.raddr else w.laddr), (128, o.doorbell % m64), (112, w.operator), (96, w.layer), (80, ep),
    (72, status), (64, w.opcode), (48, o.idx % m16), (28, wq), (24, Desc.part d), (21, die),
    (20, b2n (o.suspect || suspectAt s (firstIsland die))), (4, 8), (0, 1)]

/-- Write the sample record of a tagged WQE that ended. -/
def sampleEnd (wq : Nat) (o : Op) (status : Nat) (s : State) : State :=
  if !o.tagged then s
  else
    let r := sampleRecord s wq o status
    let words := (List.range 8).map fun i => BitVec.ofNat 64 (r / 2 ^ (64 * i))
    let die := dieOfWq wq
    let s := comparePointers die s
    let f := tgetD s.obs.sfifo die {}
    let f' := f.enter words
    bump (dkey 0x8210 0) (if f'.written == f.written then 1 else 0) 1 (setSfifo die (fun _ => { f' with inFlight := f.inFlight - 1 }) s)

/-! ## Issuing -/

/-- A WQE of the queue's wait that does not hold: it waits (R95). -/
def holdsNow (s : State) (wq : Nat) (w : Wqe) : Bool :=
  (w.opcode == opWait || w.wait) && !(wqOf s wq).waitDone && !conditionHolds s w

/-- Put the next WQE in flight as an operation: slot, counts, sampling (R73, R99, R503). -/
def putInFlight (wq : Nat) (w : Wqe) (len handle opnum : Nat) (s : State) : State :=
  let q := wqOf s wq
  let die := dieOfWq wq
  let p := Desc.part q.desc
  let (tag, s) := sampleIssue die p wq w s
  let o : Op := firstStages s wq { idx := q.consumer, wqe := w, len := len, handle := handle, opnum := opnum, tagged := tag }
  let s := setWq wq (fun q => stepPast s { q with ops := q.ops ++ [o] }) s
  let s := setCq (Desc.cq q.desc) (fun c => { c with reserved := c.reserved + 1 }) s
  tally 0x01 1 { die := die, part := p, queue := wq, layer := w.layer, operator := w.operator } (bumpFixed die 0 1 s)

/-- Run the next WQE of a queue where it is one a test picks and the scheduler may take it: its checks, its wait, then what it
does once issued. -/
def issueWith (check : State → Nat → Wqe → Nat) (s : State) (wq : Nat) (pick : Wqe → Bool) (act : Wqe → Nat → State → State) : State :=
  match nextWqe s wq with
  | some w =>
    let c := check s wq w
    let held := c == stOk && holdsNow s wq w
    if !(issuing s && pick w && issuable s wq) then s
    else if held && !abandoned s w then enterWaiting wq (leaveIdle s)
    else if !hasTurn s wq then s
    else
      let s := takeTurn wq (leaveIdle s)
      if c != stOk then settleWaits (endNext wq c s)
      else if held then settleWaits (endNext wq stWaitAbandoned s)
      else act w (wqOf s wq).consumer s
  | none => s

def issue (s : State) (wq : Nat) (pick : Wqe → Bool) (act : Wqe → Nat → State → State) : State := issueWith checkWqe s wq pick act

def opIs (n : Nat) (w : Wqe) : Bool := w.opcode == n

/-- Put the WQE in flight and decide it at once with OK (R82). -/
def issueDone (wq : Nat) (w : Wqe) (idx : Nat) (s : State) : State :=
  decideOp wq idx { status := stOk } (putInFlight wq w 0 0 0 s)

/-- NOP; the row also ends a WQE with a reserved opcode, by check 1 (log 38, DEDUCED) (R82). -/
def execNop (wq : Nat) (s : State) : Res := .next <| issue s wq (fun w => opIs opNop w || !opcodeKnown w.opcode) (issueDone wq)

/-! ## Tiles and their local side (R57, R172, R175) -/

def isRound (w : Wqe) : Bool := w.opcode == opPutAcc && (w.accOp == opRound || w.accOp == opRoundSr)

/-- Length of an operation on the wire: the output of a ROUND, the operand of an atomic (R247). -/
def wireLength (w : Wqe) : Nat :=
  if isRound w then (formatOf w.accFmt).bytesOf (w.length / 48)
  else if w.opcode == opFadd then (if w.a64 then 8 else 4)
  else if w.opcode == opCswap then 8
  else if w.opcode == opNotify then 0
  else w.length

/-- Offset in the local buffer of a wire offset: the record of an output element of a ROUND (R247). -/
def localOffset (w : Wqe) (off : Nat) : Nat :=
  if isRound w then
    let f := formatOf w.accFmt
    if f.isMx then off / 4096 * f.perUnit * 48 else off / f.unit * 48
  else off

/-- Offset in the target of a wire offset: 48 bytes for an element of an exact PUT_ACC (R247). -/
def targetOffset (op : Nat) (accOp accFmt : Nat) (exact : Bool) (off : Nat) : Nat :=
  if op == opPutAcc && accOp != opRound && accOp != opRoundSr && exactFor accOp accFmt exact then
    let f := formatOf accFmt
    off / f.unit * f.perUnit * 48
  else off

/-- Address and key of an operation's local buffer. -/
def localNeed (w : Wqe) : Need := if sendsData w.opcode || w.opcode == opCopyOut then .read else .write

/-- Tiles of an operation: offsets and lengths on the wire. -/
def tileList (s : State) (w : Wqe) : List (Nat × Nat) :=
  let n := wireLength w
  if n == 0 then [] else if isAtomic w.opcode then [(0, n)] else tilesOf (tileSize (gen1 s) w.tile n) n

/-- The tile size code the frames carry (R279, R280). -/
def tileCode (s : State) (w : Wqe) : Nat := Nat.log2 (tileSize (gen1 s) w.tile (wireLength w)) - 11

/-- Checks 1 to 3 of R172 over the whole buffers, which end the WQE (R172). -/
def keyChecks (s : State) (wq : Nat) (w : Wqe) : Nat × State :=
  let d := (wqOf s wq).desc
  let die := dieOfWq wq
  let n := localOffset w (wireLength w)
  match regionAt die (keyIndex w.lkey) s with
  | (none, s) => (stMediaError, s)
  | (some r, s) =>
  let c := localCheck r w.lkey (Desc.part d) (Desc.pasid d) w.laddr n (localNeed w) (if isCopy w.opcode then accelOrMem else anyTarget)
  if c != stOk || !isCopy w.opcode then (c, s)
  else
    match regionAt die (keyIndex w.rkey) s with
    | (none, s) => (stMediaError, s)
    | (some r, s) =>
      (localCheck r w.rkey (Desc.part d) (Desc.pasid d) w.raddr n (if w.opcode == opCopyIn then .read else .write) hostOnly, s)

/-- A key check that refused a WQE is counted (R190). -/
def countRefused (wq c : Nat) (s : State) : State :=
  if c == stMediaError then s else bumpXlate (dieOfWq wq) (Desc.part (wqOf s wq).desc) 5 1 s

/-- Translate one local buffer of a tile. -/
def tileSpan (wq : Nat) (key va len : Nat) (mayWalk : Bool) (s : State) : Trans × State :=
  let d := (wqOf s wq).desc
  let die := dieOfWq wq
  match regionAt die (keyIndex key) s with
  | (none, s) => (.media, s)
  | (some r, s) => xlate die (Desc.part d) (Desc.pasid d) (keyIndex key) r mayWalk va len s

/-- The fault address of a tile whose remote extent has any of bits [63:48] set (R161, R284). -/
def remoteHigh (w : Wqe) (off len : Nat) : Option Nat :=
  if !sendsData w.opcode then none
  else
    let lo := w.raddr + targetOffset w.opcode w.accOp w.accFmt w.exact off
    let hi := w.raddr + targetOffset w.opcode w.accOp w.accFmt w.exact (off + len)
    if hi ≤ 2 ^ 48 then none else some (max lo (2 ^ 48) / 4096 * 4096 % m64)

/-- The status of paths that are gone, none where the access can go on or waits. -/
def deadPath (s : State) (writing : Bool) (ps : List Piece) : Option Nat :=
  match pathState s writing ps with
  | .dead x => some x
  | _ => none

/-- How a tile stands after its local translation. -/
inductive Ready where
  | walking
  | ok (loc host : List Piece)
  | fail (status addr : Nat)
  deriving DecidableEq, Repr

def transFail : Trans → Nat × Nat
  | .fault a => (stXlateLocal, a)
  | _ => (stMediaError, 0)

/-- A local translation fault is counted (R190). -/
def countFault (wq : Nat) (t : Trans) (s : State) : State :=
  match t with
  | .fault _ =>
    let p := Desc.part (wqOf s wq).desc
    tally 0x22 1 { die := dieOfWq wq, part := p } (bumpXlate (dieOfWq wq) p 3 1 s)
  | _ => s

/-- Translate the local side of a tile (R175, R284, R370). -/
def readyTile (wq : Nat) (w : Wqe) (off len : Nat) (mayWalk : Bool) (s : State) : Ready × State :=
  let lo := localOffset w off
  let n := localOffset w (off + len) - lo
  match tileSpan wq w.lkey (w.laddr + lo) n mayWalk s with
  | (.miss _, s) => (.walking, s)
  | (.ok loc, s) =>
    if isCopy w.opcode then
      match tileSpan wq w.rkey (w.raddr + off) len mayWalk s with
      | (.miss _, s) => (.walking, s)
      | (.ok host, s) =>
        match deadPath s (w.opcode == opCopyOut) host, deadPath s (w.opcode == opCopyIn) loc with
        | some x, _ => (.fail x 0, s)
        | none, some x => (.fail x 0, s)
        | none, none => (.ok loc host, s)
      | (t, s) => (.fail (transFail t).1 (transFail t).2, countFault wq t s)
    else
      match remoteHigh w off len, deadPath s (localNeed w == .write) loc with
      | some a, _ => (.fail stXlateRemote a, s)
      | none, some x => (.fail x 0, s)
      | none, none => (.ok loc [], s)
  | (t, s) => (.fail (transFail t).1 (transFail t).2, countFault wq t s)

/-- Frame opcode of an operation (R282): the WQE's. -/
def frameOp (w : Wqe) : Nat := w.opcode

def formOf (w : Wqe) : Nat :=
  if sendsData w.opcode then Form.mkK w.rkey w.raddr (if w.opcode == opPutAcc then w.accOp else 0)
    (if w.opcode == opPutAcc then w.accFmt else 0) (w.opcode == opPutAcc && w.exact) w.xpath
  else 0

/-- A descriptor of an operation's packet. -/
def opDesc (s : State) (wq : Nat) (o : Op) (kind off plen : Nat) : Desc :=
  { kind := kind, tc := o.wqe.tc, last := off + plen == o.len, opcode := frameOp o.wqe, dest := o.wqe.endpoint, opnum := o.opnum,
    offset := off, length := o.len, tile := tileCode s o.wqe, form := if kind == kData then formOf o.wqe else 0, plen := plen,
    wq := wq, idx := o.idx }

/-- Queue what a ready tile sends: the data packets of a PUT, the request of a GET tile, the request of an atomic (log 41, DEDUCED). -/
def queueTile (s : State) (wq : Nat) (o : Op) (t : Tile) : State :=
  let w := o.wqe
  if sendsData w.opcode then
    (dataPackets t.off t.len).foldl (fun s x =>
      let lo := localOffset w x.1 - localOffset w t.off
      let n := localOffset w (x.1 + x.2) - localOffset w x.1
      queueRequest o.handle { opDesc s wq o kData x.1 x.2 with src := subPieces t.loc lo n } s) s
  else if w.opcode == opGet then
    queueRequest o.handle { opDesc s wq o kRequest t.off 32 with body := requestBody w w.raddr 0 0 } s
  else if isAtomic w.opcode then
    queueRequest o.handle { opDesc s wq o kRequest 0 32 with body := requestBody w w.raddr w.operand w.compare } s
  else s

/-- The withdrawal of a whole tile that failed before its packets left (R566). -/
def withdrawTile (s : State) (wq : Nat) (o : Op) (off len status addr : Nat) : State :=
  if sendsData o.wqe.opcode then
    queueRequest o.handle { opDesc s wq o kWithdraw off 16 with body := withdrawBody status addr len, last := false } s
  else s

def setTile (wq idx off : Nat) (f : Tile → Tile) (s : State) : State :=
  onOp wq idx (fun o => { o with tiles := o.tiles.map fun t => if t.off == off then f t else t }) s

/-- A tile waits for a walk. -/
def walkWaits (s : State) (x : Nat × Nat × Nat) : Bool :=
  match findOp s x.1 x.2.1 with
  | some o => o.result.isNone && o.tiles.any fun t => t.off == x.2.2 && t.st == .walking
  | none => false

/-- A tile waits for a walk of its die's translation unit, behind those that wait already (R166). -/
def queueWalk (x : Nat × Nat × Nat) (s : State) : State :=
  if s.xl.walks.contains x then s else { s with xl := { s.xl with walks := s.xl.walks.filter (walkWaits s) ++ [x] } }

/-- The walk of a tile is one of the 64 that its translation unit runs (R166). -/
def walkRuns (s : State) (x : Nat × Nat × Nat) : Bool :=
  ((s.xl.walks.filter fun y => dieOfWq y.1 == dieOfWq x.1 && walkWaits s y).take 64).contains x

/-- Take a tile through its translation: it holds its translations and its packets wait, it waits for a walk, or it fails. -/
def startTile (wq idx off : Nat) (mayWalk : Bool) (s : State) : State :=
  match findOp s wq idx with
  | none => s
  | some o =>
    match o.tiles.find? fun t => t.off == off with
    | none => s
    | some t =>
      let (r, s) := readyTile wq o.wqe t.off t.len mayWalk s
      match r with
      | .walking => queueWalk (wq, idx, off) s
      | .ok loc host =>
        let s := setTile wq idx off (fun t => { t with st := .holding, loc := loc, host := host }) s
        let s := onOp wq idx (fun o => if o.xlateAt == 0 then stampOp s wq (fun o t => { o with xlateAt := t }) o else o) s
        queueTile s wq o { t with loc := loc, host := host }
      | .fail st a =>
        let s := setTile wq idx off (fun t => { t with st := .failed st off a }) s
        withdrawTile s wq o off t.len st a

/-- Start every tile of an operation in ascending order. -/
def startTiles (wq idx : Nat) (s : State) : State :=
  match findOp s wq idx with
  | none => s
  | some o => o.tiles.foldl (fun s t => startTile wq idx t.off false s) s

/-- Give an operation its tiles. -/
def withTiles (wq idx : Nat) (s : State) : State :=
  onOp wq idx (fun o => { o with tiles := (tileList s o.wqe).map fun x => { off := x.1, len := x.2 } }) s

/-! ## Operations over a connection (R38, R46, R82, R144) -/

/-- The operation number of an end's next request. -/
def takeOpnum (h : Nat) (s : State) : Nat × State :=
  let n := (endOf s h).nextOp
  (n, setEnd h (fun e => { e with nextOp := (n + 1) % m24 }) s)

/-- Issue an operation over a connection: key checks over the whole buffer, an end that is not Open ends it at offset 0, then its
tiles, and the notification behind its data (R144, R172, R282). -/
def issueConn (wq : Nat) (w : Wqe) (idx : Nat) (s : State) : State :=
  let (n, s) := takeOpnum w.conn s
  let s := putInFlight wq w (wireLength w) w.conn n s
  let s := touch w.conn s
  let e := endOf s w.conn
  if e.state == .broken then decideOp wq idx { status := e.cause } s
  else if !e.isOpen then decideOp wq idx { status := stTransportTimeout } s
  else
    let (c, s) := if wireLength w == 0 then (stOk, s) else keyChecks s wq w
    if c != stOk then decideOp wq idx { status := c } (countRefused wq c s)
    else
      let s := startTiles wq idx (withTiles wq idx s)
      if w.opcode == opNotify || w.opcode == opPutNotify then
        match findOp s wq idx with
        | some o => queueRequest w.conn { opDesc s wq o kRequest 0 32 with body := requestBody w 0 0 w.imm } s
        | none => s
      else s

/-- LENGTH 0 moves no data and completes with OK (R82). -/
def issueMove (wq : Nat) (w : Wqe) (idx : Nat) (s : State) : State :=
  if w.length == 0 then issueDone wq w idx s else issueConn wq w idx s

/-- PUT: the queue engine issues a PUT, which is split into tiles, translated, and sent to copy a local buffer to remote memory (R38). -/
def execPut (wq : Nat) (s : State) : Res := .next <| issue s wq (opIs opPut) (issueMove wq)

/-- GET: the queue engine issues a GET, which requests that remote memory be copied into a local buffer (R38). -/
def execGet (wq : Nat) (s : State) : Res := .next <| issue s wq (opIs opGet) (issueMove wq)
/-- With LENGTH 0 it behaves as a NOTIFY (R82): its request alone is sent. -/
def execPutNotify (wq : Nat) (s : State) : Res := .next <| issue s wq (opIs opPutNotify) (issueConn wq)

/-- PUT_ACC: the queue engine issues a PUT_ACC, which combines local elements into remote elements by the reduction operator (R40). -/
def execPutAcc (wq : Nat) (s : State) : Res := .next <| issue s wq (fun w => opIs opPutAcc w && !isRound w) (issueMove wq)

/-- PUT_ACC_ROUND: the queue engine issues a PUT_ACC with ROUND or ROUND_SR; the initiator rounds local wide-sum records and sends the rounded elements (R247). -/
def execPutAccRound (wq : Nat) (s : State) : Res := .next <| issue s wq isRound (issueMove wq)

/-- NOTIFY: the queue engine issues a NOTIFY, which adds an immediate value to a notify counter at the target (R46). -/
def execNotify (wq : Nat) (s : State) : Res := .next <| issue s wq (opIs opNotify) (issueConn wq)

/-- ATOMIC_FADD: the queue engine issues an atomic fetch-and-add on a 32-bit or 64-bit remote integer (R39). -/
def execAtomicFadd (wq : Nat) (s : State) : Res := .next <| issue s wq (opIs opFadd) (issueConn wq)

/-- ATOMIC_CSWAP: the queue engine issues an atomic 64-bit compare-and-swap on remote memory (R39). -/
def execAtomicCswap (wq : Nat) (s : State) : Res := .next <| issue s wq (opIs opCswap) (issueConn wq)

/-! ## Copies (R371, R372) -/

/-- Attach die whose copy engines serve a partition. -/
def copyDie (s : State) (p : Nat) : Nat := linkOfPart s p

/-- Count on the copy engines of a partition's attach die and in its filtered counts (R373, R500). -/
def bumpCopy (p i n : Nat) (s : State) : State := bumpPart p (31 + i) n (bump (dkey 0x6006 (copyDie s p + 1)) i n s)

/-- Issue a copy: keys, tiles; the four engines take them in turn (log 51, DEDUCED). -/
def issueCopy (wq : Nat) (w : Wqe) (idx : Nat) (s : State) : State :=
  if w.length == 0 then issueDone wq w idx s
  else
    let s := putInFlight wq w w.length 0 0 s
    let (c, s) := keyChecks s wq w
    if c != stOk then decideOp wq idx { status := c } (countRefused wq c s)
    else
      let n := (tileList s w).length
      let a := copyDie s (Desc.part (wqOf s wq).desc)
      let s := { s with link := { s.link with nextEngine := tmodD s.link.nextEngine a 0 fun k => (k + n) % 4 } }
      startTiles wq idx (withTiles wq idx s)

/-- COPY_IN: the queue engine issues a COPY_IN, and copy engines copy host memory into a local buffer (R371). -/
def execCopyIn (wq : Nat) (s : State) : Res := .next <| issue s wq (opIs opCopyIn) (issueCopy wq)

/-- COPY_OUT: the queue engine issues a COPY_OUT, and copy engines copy a local buffer to host memory (R371). -/
def execCopyOut (wq : Nat) (s : State) : Res := .next <| issue s wq (opIs opCopyOut) (issueCopy wq)

/-- The first host or destination failure of a copied tile. -/
def copyTile (wq idx : Nat) (w : Wqe) (t : Tile) (ext : List Byte) (s : State) : State :=
  let p := Desc.part (wqOf s wq).desc
  let src := if w.opcode == opCopyIn then t.host else t.loc
  let dst := if w.opcode == opCopyIn then t.loc else t.host
  let fail := fun (st off : Nat) (s : State) =>
    bumpCopy p 3 1 (setTile wq idx t.off (fun t => { t with st := .failed st off 0 }) s)
  let data := readPieces s src ext
  let (bad, s) := match badOffset s src 0 with
    | some (o, a) => (some o, mediaError a s)
    | none => (none, s)
  let d := match bad with
    | some o => data.take o
    | none => data
  let (n, s) := storePieces dst d (noteReads src s)
  let s := onOp wq idx (fun o => if o.readAt == 0 then stampOp s wq (fun o t => { o with readAt := t }) o else o) s
  let s := bumpCopy p (if w.opcode == opCopyIn then 1 else 2) n s
  if n < d.length then fail stMediaError (t.off + n) s
  else if bad.isSome then fail stMediaError (t.off + d.length) s
  else bumpCopy p 0 1 (setTile wq idx t.off (fun t => { t with st := .finished, placed := [(t.off, t.len)] }) s)

/-- Bytes of a tile's source that lie outside the device. -/
def outsideLen (ps : List Piece) : Nat := ps.foldl (fun a p => if p.target == 1 || p.target == 3 then a else a + p.len) 0

/-- Copy the tiles that hold their translations, in order; source bytes from outside come from `ext`. -/
def copyTiles (wq idx : Nat) (w : Wqe) : List Tile → List Byte → State → State
  | [], _, s => s
  | t :: r, ext, s =>
    if t.st == .holding then
      let n := outsideLen (if w.opcode == opCopyIn then t.host else t.loc)
      copyTiles wq idx w r (ext.drop n) (copyTile wq idx w t ext s)
    else copyTiles wq idx w r ext s

/-- The host completes a device read with UR or CA: a tile that still reads host memory ends with a translation fault at the
first page (R370). -/
def execHostReadRefused (wq idx off : Nat) (s : State) : Res := .next <|
  match findOp s wq idx with
  | some o =>
    match o.tiles.find? fun t => t.off == off with
    | some t =>
      let src := if o.wqe.opcode == opCopyIn then t.host else t.loc
      match src.find? fun p => p.target == 2 with
      | some p =>
        if running s && t.st == .holding && o.result.isNone && (sendsData o.wqe.opcode || isCopy o.wqe.opcode) then
          let a := p.va / max p.page 1 * max p.page 1
          let part := Desc.part (wqOf s wq).desc
          let s := setTile wq idx off (fun t => { t with st := .failed stXlateLocal off a }) s
          let s := if isCopy o.wqe.opcode then bumpCopy part 4 1 (bumpCopy part 3 1 s) else s
          -- packets of a sending tile not yet sent are withdrawn
          let s := setEnd o.handle (fun e => { e with toSend := e.toSend.filter fun d =>
            !(d.opnum == o.opnum && d.kind == kData && Nat.ble off d.offset && Nat.blt d.offset (off + t.len)) }) s
          (withdrawTile s wq o off t.len stXlateLocal a)
        else s
      | none => s
    | none => s
  | none => s

/-! ## Walks (R163, R166, R185) -/

/-- A walk of a tile ends: translation, fault or MEDIA_ERROR; a restarted walk reads the device copy as it now is (R163). -/
def execWalkComplete (wq idx off : Nat) (s : State) : Res := .next <|
  match findOp s wq idx with
  | some _ =>
    when_ (running s && walkRuns s (wq, idx, off)) s
      (startTile wq idx off true { s with xl := { s.xl with walks := s.xl.walks.filter (· != (wq, idx, off)) } })
  | none => s

/-! ## Waiting (R95 to R97) -/

/-- WAIT: A WAIT entry becomes the queue's next WQE and holds the queue until its counter or work queue condition holds (R95). -/
def execWait (wq : Nat) (s : State) : Res := .next <| issue s wq (opIs opWait) (issueDone wq)

/-- WAIT_CONDITION_MET: A held WAIT or WAIT-flagged WQE finds its condition satisfied and lets the queue continue (R96). -/
def execWaitConditionMet (wq : Nat) (s : State) : Res := .next <|
  let q := wqOf s wq
  let ok := match nextWqe s wq with
    | some w => conditionHolds s w
    | none => false
  when_ (running s && q.state == .waiting && ok) s <|
    setWq wq (fun q => { q with state := .running, waitDone := true }) (countWaiting wq s)

/-- WAIT_TIMEOUT: the wait limit of a held WQE runs out; the WQE ends with WAIT_TIMEOUT and the queue enters Draining (R97). -/
def execWaitTimeout (wq : Nat) (s : State) : Res := .next <|
  let q := wqOf s wq
  let late := match nextWqe s wq, q.waitSince with
    | some w, some t => w.waitTimeout != 0 && due s t (w.waitTimeout * 64000) && !conditionHolds s w
    | _, _ => false
  when_ (running s && q.holds && slotFree s q && late) s <| settleWaits (endNext wq stWaitTimeout s)

/-! ## TABLE_UPDATE (R179 to R183) -/

/-- Why a record is refused, OK where it is not (R181). -/
def recordCheck (s : State) (p : Nat) (r : BitVec 512) : Nat :=
  let k := Update.kind r
  let i := Update.index r
  if k == 1 then
    if tableBytes s p ≤ i * 8 then stLocalBounds else if unitBad s (tableBase s p + i * 8) then stMediaError else stOk
  else if k == 2 then
    if !(partOf s p).flat.has i then stLocalBounds
    else if Flat.part (Update.value128 r) != p || Flat.target (Update.value128 r) == 3 then stLocalRights else stOk
  else if k == 3 then
    if !(partOf s p).regions.has i then stLocalBounds
    else if Region.part (Update.value256 r) != p || Region.target (Update.value256 r) == 3 then stLocalRights
    else if unitBad s (regionUnit s i) then stMediaError else stOk
  else if k == 4 then
    if !isSlice s p (i % 2 ^ 20) || tableBytes s p ≤ fld (Update.value64 r) 63 12 * 4096 then stLocalBounds else stOk
  else stBadWqe

/-- Write one record (R182). -/
def applyRecord (p : Nat) (r : BitVec 512) (s : State) : State :=
  let k := Update.kind r
  let i := Update.index r
  if k == 1 then { s with xl := { s.xl with ptes := tset s.xl.ptes (p * 2 ^ 32 + i) (Update.value64 r) } }
  else if k == 2 then { s with xl := { s.xl with flat := tset s.xl.flat i (Update.value128 r) } }
  else if k == 3 then { s with xl := { s.xl with regions := tset s.xl.regions i (Update.value256 r) } }
  else
    let v := Update.value64 r
    { s with xl := { s.xl with ctxs := tset s.xl.ctxs (ctxKey p (i % 2 ^ 20)) { root := some (fld v 63 12 * 4096), walkEn := flag v 1 } } }

/-- Apply records in list order up to the first refused: its offset and status, or none. -/
def applyRecords (p : Nat) : Nat → List (BitVec 512) → State → Option (Nat × Nat × Nat) × State
  | _, [], s => (none, s)
  | off, r :: t, s =>
    let c := recordCheck s p r
    if c != stOk then
      let s := if c == stMediaError then
          mediaError (if Update.kind r == 1 then tableBase s p + Update.index r * 8 else regionUnit s (Update.index r)) s else s
      (some (off, c, 0), s)
    else applyRecords p (off + 64) t (applyRecord p r s)

/-- Pieces from the start as far as the list translates, and the fault that ends it. -/
def listPieces (wq : Nat) (key : Nat) : Nat → Nat → Nat → State → List Piece × Option (Nat × Nat × Nat) × State
  | 0, _, _, s => ([], none, s)
  | n + 1, va, off, s =>
    let k := 4096 - va % 4096
    match tileSpan wq key va k true s with
    | (.ok ps, s) =>
      match listPieces wq key n (va + k) (off + k) s with
      | (qs, f, s) => (ps ++ qs, f, s)
    | (t, s) => ([], some (off / 64 * 64, (transFail t).1, (transFail t).2), countFault wq t s)

/-- Issue a TABLE_UPDATE: its list is read as a local buffer, its records are applied in order (R181). -/
def issueUpdate (wq : Nat) (ext : List Byte) (w : Wqe) (idx : Nat) (s : State) : State :=
  let p := Desc.part (wqOf s wq).desc
  let s := putInFlight wq w w.length 0 0 s
  match regionAt (dieOfWq wq) (keyIndex w.lkey) s with
  | (none, s) => decideOp wq idx { status := stMediaError } s
  | (some r, s) =>
  let c := localCheck r w.lkey p (Desc.pasid (wqOf s wq).desc) w.laddr w.length .read anyTarget
  if c != stOk then decideOp wq idx { status := c } (bumpXlate (dieOfWq wq) p 5 1 s)
  else
    let (ps, f, s) := listPieces wq w.lkey (w.length / 4096 + 2) w.laddr 0 s
    let ps := subPieces ps 0 w.length
    let (bad, s) := match badOffset s ps 0 with
      | some (o, a) => (some (o / 64 * 64, stMediaError, 0), mediaError a s)
      | none => (none, s)
    let have_ := ps.foldl (fun a q => a + q.len) 0
    let readable := match bad with
      | some (o, _, _) => o
      | none => have_ / 64 * 64
    let recs := wqesOf (readable / 64) (readPieces s ps ext)
    let (refused, s) := applyRecords p 0 recs (noteReads ps s)
    let endAt := match refused with
      | some x => some x
      | none =>
        match bad with
        | some x => some x
        | none => if have_ < w.length then f else none
    match endAt with
    | some (off, st, a) => decideOp wq idx (verdictResult (decide_ [⟨off, st, a⟩])) s
    | none => decideOp wq idx { status := stOk } s

/-- TABLE_UPDATE: the queue engine issues a TABLE_UPDATE, which applies update records in list order until one is refused (R181). -/
def execTableUpdate (wq : Nat) (ext : List Byte) (s : State) : Res := .next <| issue s wq (opIs opTableUpdate) (issueUpdate wq ext)

/-! ## INVALIDATE (R184 to R188) -/

/-- A translation lies in the scope of an invalidation. -/
def Inval.coversVa (i : Inval) (p pasid va len : Nat) : Bool :=
  i.part == p &&
  (if i.scope == 0 then i.pasid == pasid && Nat.blt va (i.va + i.len) && Nat.blt i.va (va + len)
   else if i.scope == 1 then i.pasid == pasid
   else i.scope == 2)

def Inval.coversPiece (i : Inval) (q : Piece) : Bool :=
  if i.scope == 3 then i.part == q.part && q.region == i.region
  else if q.page == 0 then i.coversVa q.part q.pasid q.va q.len
  else i.coversVa q.part q.pasid (q.va / q.page * q.page) q.page

/-- Key of an arrival record. -/
def arrKey (h opnum : Nat) : Nat := h * m24 + opnum

/-- A target-end tile still holds its translations (R177): a GET tile until its responses are acknowledged, a write until its
last byte is in. -/
def remoteHolds (s : State) (h opnum : Nat) (t : TileOutcome) (a : Arrival) : Bool :=
  t.status == 0 &&
  (if a.opcode == opGet then
    let e := endOf s h
    let mine := fun (d : Desc) => d.opnum == opnum && d.opcode == opGet && Nat.ble t.off d.offset &&
      Nat.blt d.offset (t.off + t.pieces.foldl (fun a p => a + p.len) 0)
    e.toSend.any mine || e.unacked.any fun u => mine u.desc
   else Nat.blt t.got t.len)

/-- A listed tile still holds its translations. -/
def stillHeld (s : State) (x : HeldTile) : Bool :=
  match x with
  | .local_ wq idx off =>
    match findOp s wq idx with
    | some o => o.result.isNone && o.tiles.any fun t => t.off == off && t.st == .holding
    | none => false
  | .remote h opnum off =>
    match tget s.conn.arrivals (arrKey h opnum) with
    | some a => a.tiles.any fun t => t.off == off && remoteHolds s h opnum t a
    | none => false

/-- The local tiles an invalidation lists, with the paths their writes take. -/
def listLocal (s : State) (i : Inval) : List (HeldTile × List FlushPath) :=
  s.q.wqs.flatMap fun e => (e.2.ops.filter fun o => o.result.isNone).flatMap fun o =>
    (o.tiles.filter fun t => t.st == .holding && (t.loc.any i.coversPiece || t.host.any i.coversPiece)).map fun t =>
      let w := o.wqe
      let dst := if w.opcode == opGet || w.opcode == opCopyIn then t.loc else if w.opcode == opCopyOut then t.host else []
      (.local_ e.1 o.idx t.off, dst.flatMap (pathsOf s))

/-- The tiles at target ends that it lists. -/
def listRemote (s : State) (i : Inval) : List (HeldTile × List FlushPath) :=
  s.conn.arrivals.flatMap fun e =>
    let h := e.1 / m24
    let n := e.1 % m24
    (e.2.tiles.filter fun t => remoteHolds s h n t e.2 && t.pieces.any i.coversPiece).map fun t =>
      (.remote h n t.off, if e.2.opcode == opGet then [] else t.pieces.flatMap (pathsOf s))

/-- Remove what the scope covers from every look-aside and region cache (R185 step 1). The spec does not say which region-cache entries match
an address range (scope 0): the model removes none (log 119, DESIGN CHOICE). -/
def removeCached (i : Inval) (s : State) : State :=
  { s with xl := { s.xl with
      look := s.xl.look.filter fun l => !(if i.scope == 3 then l.part == i.part && l.regions.contains i.region else i.coversVa l.part l.pasid l.va l.span),
      rcache := s.xl.rcache.filter fun c =>
        !(if i.scope == 3 then c.index == i.region
          else if i.scope == 2 then Region.part c.word == i.part
          else if i.scope == 1 then Region.part c.word == i.part && Region.pasid c.word == i.pasid else false) } }

/-- The WQE of an invalidation ends with OK and it is counted (R190). -/
def endInval (n : Nat) (i : Inval) (s : State) : State :=
  let s := { s with xl := { s.xl with invals := tdel s.xl.invals n } }
  bumpXlate (dieOfWq i.wq) i.part 7 1 (decideOp i.wq i.idx { status := stOk } s)

/-- Issue an INVALIDATE; past 64 in progress it and its queue are held (R187). -/
def issueInval (wq : Nat) (w : Wqe) (idx : Nat) (s : State) : State :=
  let p := Desc.part (wqOf s wq).desc
  let s := putInFlight wq w 0 0 0 s
  let va := w.raddr / 4096 * 4096
  let i : Inval := { wq := wq, idx := idx, part := p, scope := invScope w, pasid := w.waitObj, va := va,
                     len := (w.raddr + w.operand + 4095) / 4096 * 4096 - va, region := keyIndex w.rkey, since := s.time.now, timeout := cfg s 0x4200 1,
                     step := 2,
                     held := [], paths := [] }
  let l := listLocal s i ++ listRemote s i
  let i := { i with held := l.map (·.1), paths := l.foldl (fun a x => addPaths a x.2) [] }
  let s := removeCached i s
  if i.held.isEmpty then endInval s.xl.nextInval i { s with xl := { s.xl with nextInval := s.xl.nextInval + 1 } }
  else { s with xl := { s.xl with invals := tset s.xl.invals s.xl.nextInval i, nextInval := s.xl.nextInval + 1 } }

/-- INVALIDATE is issued: step 1 removes entries and lists the tiles that hold (R184, R185; log 48, DEDUCED). -/
def execInvalidate (wq : Nat) (s : State) : Res := .next <|
  issue s wq (opIs opInvalidate) (issueInval wq)

/-- INVALIDATE_DRAINED: the list of holding tiles of an INVALIDATE empties, and the squash step begins (R185). -/
def execInvalidateDrained (inv : Nat) (s : State) : Res := .next <|
  match tget s.xl.invals inv with
  | some i =>
    when_ (running s && i.step == 2 && !(i.held.any (stillHeld s))) s
      { s with xl := { s.xl with invals := tset s.xl.invals inv { i with step := 3 } } }
  | none => s

/-- The page address that R186 reports for an offset of a tile: the leaf page of the piece that holds it. -/
def revokedPage : List Piece → Nat → Nat
  | [], _ => 0
  | p :: t, off => if off < p.len then (p.va + off) / max p.page 1 * max p.page 1 else revokedPage t (off - p.len)

/-- FORM of a withdrawal: zero, but form G for a collective's, whose DST_BASE and SEQ say where in the member's output its bytes lie
(R63, R281; log 107, DESIGN CHOICE). -/
def withdrawForm (d : Desc) : Nat :=
  if d.opcode < ocCollPut then 0
  else if d.rmode == 1 then Form.mkG (Form.dstBase d.form) 0 (Form.sAccOp d.form) (Form.sAccFmt d.form) (Form.sExact d.form) false false 1 none
  else d.form

/-- The withdrawal of `n` bytes from a packet's offset on; it goes by RMODE 0 or its tree (R286, R566). -/
def Desc.withdrawal (d : Desc) (status addr n : Nat) : Desc :=
  { d with kind := kWithdraw, body := withdrawBody status addr n, src := [], plen := 16, form := withdrawForm d, last := false,
           rmode := if d.rmode == 1 then 0 else d.rmode, die := none }

/-- A packet that holds a PSN is sent again as a withdrawal of its bytes (R566). -/
def asWithdrawal (status : Nat) (addr : Nat → Nat) (d : Desc) : Desc := d.withdrawal status (addr d.offset) d.plen

/-- A packet that has become a withdrawal is sent again under its own PSN where hold and pace let it go; else its timer brings it. -/
def resendWithdrawn (h psn : Nat) (s : State) : State :=
  let e := endOf s h
  match e.unacked.find? fun (u : Unacked) => u.psn == psn with
  | none => s
  | some u =>
    if underHold s e || !mayPace s e u.desc.tc then s
    else
      sendFrom h u.desc psn u.desc.body (setEnd h (fun e => chargeSend s u.desc.tc u.desc.plen { e with unacked := e.unacked.map fun x =>
        if x.psn == psn then { x with sent := s.time.now, timer := timerOf s e (x.backoff + 1), resent := true, backoff := x.backoff + 1 } else x }) s)

/-- Withdraw what is left of a tile on an end: packets with a PSN under their own, the rest under one new PSN (R566). -/
def withdrawRest (h opnum off len status : Nat) (addr : Nat → Nat) (s : State) : State :=
  let e := endOf s h
  let mine := fun (d : Desc) => d.opnum == opnum && (d.kind == kData || (d.kind == kResponse && d.opcode == opGet))
    && Nat.ble off d.offset && Nat.blt d.offset (off + len)
  let rest := e.toSend.filter mine
  let s := setEnd h (fun e => { e with
    unacked := e.unacked.map fun u => if mine u.desc then { u with desc := asWithdrawal status addr u.desc } else u,
    toSend := e.toSend.filter fun d => !mine d }) s
  let s := (e.unacked.filter fun u => mine u.desc).foldl (fun s u => resendWithdrawn h u.psn s) s
  match rest with
  | d :: _ =>
    let n := rest.foldl (fun a x => a + x.plen) 0
    let w := d.withdrawal status (addr d.offset) n
    if d.kind == kData then queueRequest h w s else queueResponse h w s
  | [] => s

/-- Withdraw the packets of a local member that enter trees or wait on tree edges: those that hold a PSN under it, the others in their own
places (R185, R566). `addr` names the page of a packet. -/
def withdrawTree (wq idx : Nat) (p : Desc → Bool) (status : Nat) (addr : Desc → Nat) (s : State) : State :=
  let hit := fun (d : Desc) => d.mine && d.wq == wq && d.idx == idx && d.kind == kData && p d
  let turn := fun (d : Desc) => if hit d then d.withdrawal status (addr d) d.plen else d
  let held := (s.conn.ends.filter fun x => isEdge x.1).flatMap fun x => (x.2.unacked.filter fun u => hit u.desc).map fun u => (x.1, u.psn)
  let s := { s with
    conn := { s.conn with ends := tmap s.conn.ends fun h e => if !isEdge h then e else
      { e with toSend := e.toSend.map turn, unacked := e.unacked.map fun u => { u with desc := turn u.desc } } },
             fab := { s.fab with treeIn := tmap s.fab.treeIn fun _ l => l.map fun i => { i with desc := turn i.desc } } }
  held.foldl (fun s x => resendWithdrawn x.1 x.2 s) s

/-- The request that asks for a tile goes out no more: one that holds a PSN becomes a withdrawal under it (R185, R566; log 120, DEDUCED). -/
def withdrawAsk (h opnum : Nat) (t : Tile) (status addr : Nat) (s : State) : State :=
  let e := endOf s h
  let mine := fun (d : Desc) => d.opnum == opnum && d.kind == kRequest && d.offset == t.off
  let s := setEnd h (fun e => { e with
    toSend := e.toSend.filter fun d => !mine d,
    unacked := e.unacked.map fun u => if mine u.desc then { u with desc := u.desc.withdrawal status addr t.len } else u }) s
  (e.unacked.filter fun u => mine u.desc).foldl (fun s u => resendWithdrawn h u.psn s) s

/-- Offset in the pieces of a tile at a target of one of its bytes on the wire. -/
def pieceOffset (a : Arrival) (t : TileOutcome) (off : Nat) : Nat :=
  let at_ := targetOffset a.opcode (Form.accOp a.form) (Form.accFmt a.form) (Form.exact a.form)
  at_ off - at_ t.off

/-- A tile of an operation of this device ends with a status while it holds its translations: what of it has not left is withdrawn, with
the address `page` gives for an offset of its buffer (R185, R537, R566). -/
def endHeldTile (wq : Nat) (o : Op) (t : Tile) (st : Nat) (ps : List Piece) (page : List Piece → Nat → Nat) (s : State) : State :=
  let w := o.wqe
  let idx := o.idx
  if w.opcode == opCollStep then
    -- the input of a collective goes to each of its transfers
    let s := s.coll.groups.foldl (fun s x => (x.2.transfers.filter fun r =>
        r.wq == wq && r.idx == idx && !r.tree && Nat.ble r.src t.off && Nat.blt t.off (r.src + r.len)).foldl
      (fun s r => withdrawRest r.handle r.opnum (t.off - r.src) t.len st (fun a => page t.loc (a + r.src - t.off)) s) s) s
    let s := withdrawTree wq idx (fun d => Nat.ble t.off d.inAt && Nat.blt d.inAt (t.off + t.len)) st (fun d => page t.loc (d.inAt - t.off)) s
    setTile wq idx t.off (fun t => { t with st := .finished }) s
  else if sendsData w.opcode then
    let s := withdrawRest o.handle o.opnum t.off t.len st (fun a => page t.loc (localOffset w a - localOffset w t.off)) s
    setTile wq idx t.off (fun t => { t with st := .finished }) s
  else
    let g := t.gap
    let addr := page ps (g - t.off)
    let s := if overConn w.opcode then withdrawAsk o.handle o.opnum t st addr s else s
    setTile wq idx t.off (fun t => { t with st := .failed st g addr }) s

/-- Squash one listed tile (R185 step 3, R186). -/
def squashTile (i : Inval) (x : HeldTile) (s : State) : State :=
  match x with
  | .local_ wq idx off =>
    match findOp s wq idx with
    | some o =>
      match o.tiles.find? fun t => t.off == off with
      | some t =>
        -- of a copy, the buffer whose mapping is withdrawn
        let ps := if t.host.any i.coversPiece && !(t.loc.any i.coversPiece) then t.host else t.loc
        endHeldTile wq o t stXlateRevoked ps revokedPage (bumpXlate (dieOfWq wq) (Desc.part (wqOf s wq).desc) 6 1 s)
      | none => s
    | none => s
  | .remote h opnum off =>
    match tget s.conn.arrivals (arrKey h opnum) with
    | some a =>
      match a.tiles.find? fun t => t.off == off with
      | some t =>
        let e := endOf s h
        let len := t.pieces.foldl (fun a p => a + p.len) 0
        let s := bumpXlate (dieOfEnd h) e.part 6 1 s
        let mark := fun (t : TileOutcome) (g : Nat) => { t with status := stXlateRevoked, failOff := g, addr := revokedPage t.pieces (pieceOffset a t g) }
        if a.opcode == opGet then
          let s := withdrawRest h opnum off len stXlateRevoked (fun x => revokedPage t.pieces (x - off)) s
          { s with conn := { s.conn with arrivals := tmod s.conn.arrivals (arrKey h opnum) fun a =>
              { a with tiles := a.tiles.map fun t => if t.off == off then mark t t.off else t } } }
        else
          let g := firstGap t.placed (off + t.len) (t.placed.length + 1) off
          let addr := revokedPage t.pieces (pieceOffset a t g)
          { s with conn := { s.conn with arrivals := tmod s.conn.arrivals (arrKey h opnum) fun a =>
              { a with tiles := a.tiles.map fun t => if t.off == off then mark t g else t,
                       low := match a.low with
                         | some (o, x, y) => if o ≤ g then some (o, x, y) else some (g, stXlateRevoked, addr)
                         | none => some (g, stXlateRevoked, addr) } } }
      | none => s
    | none => s

/-- INVAL_TIMEOUT: INVAL_TIMEOUT runs out for an INVALIDATE, and every tile still listed is squashed (R185). -/
def execInvalTimeout (inv : Nat) (s : State) : Res := .next <|
  match tget s.xl.invals inv with
  | some i =>
    when_ (running s && i.step == 2 && due s i.since (i.timeout * us)) s <|
      let s := (i.held.filter (stillHeld s)).foldl (fun s x => squashTile i x s) s
      { s with xl := { s.xl with invals := tset s.xl.invals inv { i with step := 3 } } }
  | none => s

/-- The squash is done: with XPATH a flushing read on every path listed, else the completion (R185 step 4). -/
def execInvalidateSquashDone (inv : Nat) (s : State) : Res := .next <|
  match tget s.xl.invals inv with
  | some i =>
    let xp := match findOp s i.wq i.idx with
      | some o => o.wqe.xpath
      | none => false
    when_ (running s && i.step == 3) s <|
      if xp && !i.paths.isEmpty then
        let s := sendFlushes i.paths s
        let s := onOp i.wq i.idx (fun o => { o with flush := some i.paths.length }) s
        { s with xl := { s.xl with invals := tset s.xl.invals inv { i with step := 4 } } }
      else endInval inv i s
  | none => s

/-! ## The end of an operation (R51, R54, R58, R98, R101, R102) -/

/-- The outcome of an operation whose parts have all ended: its own result, its done record, or its tiles; none while a part is
still open. -/
def outcomeOf (o : Op) : Option Result :=
  match o.result with
  | some r => some r
  | none =>
    let op := o.wqe.opcode
    if writeType op then
      match o.done with
      | some d => if o.walking then none else some (doneResult d)
      | none => if isAtomic op && !o.tiles.isEmpty && o.tiles.all Tile.ended then some (verdictResult (decide_ (failedParts o.tiles))) else none
    else if op == opGet || isCopy op then
      if o.tiles.all Tile.ended then some (verdictResult (decide_ (failedParts o.tiles))) else none
    else none

/-- Paths on which a WQE with XPATH flushes at the initiator: those that carried its data into its destination (R54). -/
def flushPaths (s : State) (o : Op) : List FlushPath :=
  let w := o.wqe
  if !w.xpath then []
  else
    let ps := if w.opcode == opGet || w.opcode == opCopyIn || isAtomic w.opcode then o.tiles.flatMap (·.loc)
      else if w.opcode == opCopyOut then o.tiles.flatMap (·.host) else []
    (ps.flatMap (pathsOf s)).foldl (fun a x => addPaths a [x]) []

/-- Running becomes Idle once every posted WQE has ended (R105). -/
def idleIfDone (q : WorkQueue) : WorkQueue :=
  if q.state == .running && q.posted == 0 && q.ops.isEmpty then { q with state := .idle } else q

/-- Write the entry an ended WQE needs (R100, R101). -/
def endEntry (wq : Nat) (q : WorkQueue) (o : Op) (r : Result) (s : State) : State :=
  let cq := Desc.cq q.desc
  let w := o.wqe
  let e : Cqe := { phase := false, tsuspect := false, zeroed := r.zeroed, time := 0, cause := r.cause, status := r.status, index := o.idx,
                   wq := wq, offset := r.off, addr := r.addr }
  if r.status != stOk then
    -- a failing status covers its own WQE, a partial delivery too
    postCqe cq e true s
  else if w.comp || w.batchEnd || q.state == .draining then
    setWq wq (fun q => { q with uncovered := 0 }) (postCqe cq { e with count := q.uncovered } w.batchEnd s)
  else if q.uncovered + 1 == 4096 then
    setWq wq (fun q => { q with uncovered := 0 }) (writeCqe cq { e with count := 4095 } s)
  else setWq wq (fun q => { q with uncovered := q.uncovered + 1 }) s

/-- End the oldest operation of a queue with its outcome: entry, vector, local notification, counts, sample record. -/
def finishOp (wq : Nat) (o : Op) (r : Result) (s : State) : State :=
  let q := wqOf s wq
  let w := o.wqe
  let die := dieOfWq wq
  let p := Desc.part q.desc
  let who : Who := { die := die, part := p, queue := wq, layer := w.layer, operator := w.operator }
  let s := releaseSlot (Desc.cq q.desc) (endEntry wq q o r s)
  let ok := r.status == stOk
  let s := if ok && w.notify then addCounter w.lcounter 1 s else s
  let s := setWq wq (fun q => idleIfDone
    { q with ops := q.ops.filter fun x => x.idx != o.idx, completed := if ok then (q.completed + 1) % m64 else q.completed }) s
  let s := tally (if ok then 0x02 else 0x03) 1 who (bumpFixed die 1 1 s)
  let s := if r.status == stMediaError || r.cause == stMediaError then bumpPart p 46 1 s else s
  noteBusy (settleWaits (sampleEnd wq o r.status s))

/-- The ring of a completion queue can take an entry now; else the end waits (R351). -/
def ringOpen (s : State) (cq : Nat) : Bool :=
  let d := (cqOf s cq).desc
  match localSpan (dieOfCq cq) (Desc.part d) (Desc.pasid d) (Desc.ringKey d) (Desc.ringAddr d + 32 * ((cqOf s cq).written % Desc.size d)) 32
      .write anyTarget true s with
  | (.ok ps, _) => pathState s true ps != .wait
  | _ => true

end Sys2Proof.Machine
end

