-- ==== Sys2Proof/Machine/Groups.lean ====
section
/-! DEFINITION. Collective groups as every family sees them: members, windows, launches, run counters, accumulation areas, and how
arriving elements land in an area or in an output. -/

namespace Sys2Proof.Machine

/-! ## Access (R192, R195) -/

def groupOf (s : State) (g : Nat) : Group := tgetD s.coll.groups g { timeout := cfg s 0x5000 1 }

def setGroup (g : Nat) (f : Group → Group) (s : State) : State :=
  { s with coll := { s.coll with groups := tmod s.coll.groups g f } }

def Group.live (g : Group) : Bool := g.state != .free

/-- Members of a group. -/
def Group.n (g : Group) : Nat := g.members.length

/-- Local members: the ranks whose endpoint lies on this device. -/
def localRanks (s : State) (g : Group) : List Nat := (List.range g.n).filter fun r => isOwn s (nth g.members r)

/-- Engine die that serves a member: the owner of an accelerator endpoint, else the first populated die (R19, R244). -/
def memberDie (s : State) (ep : Nat) : Nat :=
  if epE ep ≤ 7 then ownerDie s (epE ep) else (((List.range (engineDies s)).filter (dieUp s)).head?).getD 0

def firstEngine (s : State) : Nat := (((List.range (engineDies s)).filter (dieUp s)).head?).getD 0

def Wqe.collKind (w : Wqe) : Nat := fld w 431 428
def Wqe.collGroup (w : Wqe) : Nat := fld w 423 408
def Wqe.collParam (w : Wqe) : Nat := fld w 379 364
def Wqe.stream (w : Wqe) : Bool := flag w 363
def Wqe.seq (w : Wqe) : Nat := fld w 255 224
def Wqe.outOff (w : Wqe) : Nat := fld w 127 64
def Wqe.inOff (w : Wqe) : Nat := fld w 63 0

def ckShift : Nat := 1
def ckPermute : Nat := 2
def ckMulticast : Nat := 3
def ckReduce : Nat := 4
def ckAllReduce : Nat := 5
def ckReduceScatter : Nat := 6
def ckAllGather : Nat := 7
def ckScheduled : Nat := 15

/-- A reduction kind (R198). -/
def reduces (k : Nat) : Bool := k == ckReduce || k == ckAllReduce || k == ckReduceScatter

/-- The launch of a rank whose sequence ends in eight given bits; a header carries no more of it (R281). -/
def launchAt (gr : Group) (rank seq8 : Nat) : Option Launch := gr.launches.find? fun l => l.rank == rank && l.seq % 256 == seq8

/-- The launch of a rank and sequence. -/
def launchOf (gr : Group) (rank seq : Nat) : Option Launch := gr.launches.find? fun l => l.rank == rank && l.seq == seq

def setLaunches (g : Nat) (f : List Launch → List Launch) (s : State) : State := setGroup g (fun x => { x with launches := f x.launches }) s

def setTransfers (g : Nat) (f : List Transfer → List Transfer) (s : State) : State := setGroup g (fun x => { x with transfers := f x.transfers }) s

/-! ## Windows (R194, R196) -/

/-- Where an address of a region lies in device memory, read from the tables as they are. -/
def placeIn (s : State) (p pasid key va : Nat) : Option Nat :=
  let r := tgetD s.xl.regions (keyIndex key) 0
  let w := if usesFlat s p pasid r then flatLookup s p pasid va (Region.target r) (Region.port r)
    else (walk s p pasid va (Region.target r) (Region.port r)).1
  match w with
  | .map m => if m.target == 1 then some ((m.out + (va - m.va)) % m64) else none
  | _ => none

/-- The engine die that serves a span of a member: the owner of an accelerator endpoint; for endpoint 8 the die that holds the frame of the
span's first byte (R19, R376; log 103, DESIGN CHOICE). -/
def spanDie (s : State) (j : Join) (off : Nat) : Nat :=
  if epE j.ep ≤ 7 then ownerDie s (epE j.ep)
  else ((placeIn s j.part j.pasid j.key (j.base + off)).map (memDie s)).getD (memberDie s j.ep)

/-- Translate a span of a member's window; the window is checked as a region of the member's partition and slice. Collective
tiles walk at once on a look-aside miss (log 15, DESIGN CHOICE). -/
def winSpan (j : Join) (off len : Nat) (n : Need) (s : State) : Local × State :=
  localSpan (spanDie s j off) j.part j.pasid j.key (j.base + off) len n anyTarget true s

/-! ## Run counters and arrival counters (R209, R212) -/

/-- Add 1 to a run counter of a local member of a slot's run. -/
def addRunCounter (slot rank ctr : Nat) (s : State) : State :=
  { s with coll := { s.coll with slots := tmod s.coll.slots slot fun x =>
      { x with run := x.run.map fun r => { r with members := r.members.map fun m =>
          if m.rank == rank then { m with ctrs := tmodD m.ctrs ctr 0 (· + 1) } else m } } } }

/-- Add 1 to the arrival counter a member joined with (R209). -/
def addArrival (gr : Group) (rank : Nat) (s : State) : State :=
  match tget gr.joins rank with
  | some j => if j.ctr == 0xFFFFFFFF then s else addCounter j.ctr 1 s
  | none => s

/-! ## Accumulation areas (R243, R244, R246) -/

def areaBase (g rank : Nat) : Nat := (g * 2 ^ 16 + rank) * 2 ^ 33
def countBase (g rank : Nat) : Nat := (g * 2 ^ 16 + rank) * 2 ^ 40

/-- Every record starts each sequence as the identity, and no contribution is counted yet (R244, R256). -/
def freshArea (g rank seq : Nat) (s : State) : State :=
  let k := g * 2 ^ 16 + rank
  if tget s.ar.areaSeq k == some seq then s
  else
    { s with ar := { s.ar with
        areas := tkeep s.ar.areas fun a _ => a / 2 ^ 33 != k,
        counts := tkeep s.ar.counts fun a _ => a / 2 ^ 40 != k,
        areaSeq := tset s.ar.areaSeq k seq } }

def recordAt (s : State) (g rank k : Nat) : WideSum := tgetD s.ar.areas (areaBase g rank + k) {}

/-- Contributions counted for an element. -/
def countOf (s : State) (g rank k : Nat) : Nat := tgetD s.ar.counts (countBase g rank + k) 0

/-- Count contributions of elements from `k` on. -/
def addCounts (g rank count : Nat) : Nat → Nat → State → State
  | _, 0, s => s
  | k, n + 1, s =>
    addCounts g rank count (k + 1) n
      { s with ar := { s.ar with counts := tmodD s.ar.counts (countBase g rank + k) 0 (· + count) } }

/-- Add records to the records of an area from `k` on (R239). -/
def addRecords (g rank : Nat) : Nat → List WideSum → State → State
  | _, [], s => s
  | k, w :: t, s =>
    addRecords g rank (k + 1) t
      { s with ar := { s.ar with areas := tmodD s.ar.areas (areaBase g rank + k) {} fun o => wsMerge o w } }

/-- The records a payload contributes: raw elements, or EP64 partials. -/
def asRecords (fmt : Nat) (isPartial : Bool) (d : List Byte) : List WideSum :=
  if isPartial then (storeElems true d).map ep64Load else (decodeElems (formatOf fmt) d).map fun v => wsAdd v {}

/-- Index of the first element at a byte offset of a vector in a format. -/
def elemAt (fmt off : Nat) : Nat := let f := formatOf fmt; off / f.unit * f.perUnit

/-- How many of `n` records updated lay outside the wide-sum buffer: the manual says no replacement, so the count is open (R245, log 36, DEDUCED). -/
def countMisses (die n : Nat) (s : State) : State :=
  let (v, s) := draw s
  tally 0x40 (v % (n + 1)) { die := die } (bump (dkey 0x5521 (die + 1)) 3 (v % (n + 1)) s)

/-- The die that holds record k of a member's area: the owner of an accelerator endpoint, or in turn every engine die by runs of 512
records (R244). -/
def areaDie (s : State) (ep k : Nat) : Nat := if epE ep ≤ 7 then ownerDie s (epE ep) else k / 512 % engineDies s

/-- Count what happens to `n` records of an area from `k` on at the dies that hold them. -/
def onAreaDies (ep k n : Nat) (f : Nat → Nat → State → State) (s : State) : State :=
  (List.range (engineDies s)).foldl (fun s d =>
    let m := ((List.range n).filter fun i => areaDie s ep (k + i) == d).length
    if m == 0 then s else f d m s) s

/-- Accumulate a payload into an area, from a byte offset in output-format bytes (R246; log 53, DEDUCED). -/
def accumulate (ep p g rank fmt off count : Nat) (isPartial : Bool) (d : List Byte) (s : State) : State :=
  let ws := asRecords fmt isPartial d
  let k := elemAt fmt off
  onAreaDies ep k ws.length (fun die n s => countMisses die n (bumpArith die p 0 n (tally 0x33 n { die := die, part := p } s)))
    (addCounts g rank count k ws.length (addRecords g rank k ws s))

/-! ## Writing spans of elements -/

/-- Write spans within pieces; answers the offset of the first byte not written (R137). -/
def storeSpans (ps : List Piece) : List (Nat × List Byte) → State → Option Nat × State
  | [], s => (none, s)
  | (off, d) :: t, s =>
    let (n, s) := storePieces (subPieces ps off d.length) d s
    if n < d.length then (some (off + n), s) else storeSpans ps t s

/-- Elements combined into what a destination holds: the first contribution of an element is written, or combined into +0 where a fenced
member counts as one; later ones are combined (R236, R256). -/
def mixElems (op fmt : Nat) (counts : List Nat) (old new : List Byte) (isPartial zeroFirst : Bool) : Stored :=
  match formatOf fmt with
  | .int n =>
    let vs := if isPartial then storeElems false new else (List.range (new.length / n)).map fun i => field new (i * n) n
    { spans := [(0, (numbered 0 vs).flatMap fun x =>
        leBytes n (if nth counts x.1 == 0 then (if zeroFirst then combineInt op (8 * n) 0 (x.2 % 2 ^ (8 * n)) else x.2 % 2 ^ (8 * n))
          else combineInt op (8 * n) (field old (x.1 * n) n) (x.2 % 2 ^ (8 * n))))] }
  | f =>
    let vs := if isPartial then (storeElems false new).map (storeValue fmt) else decodeElems f new
    let os := decodeElems f old
    encodeElems f .nearest 0 ((numbered 0 vs).map fun x =>
      if nth counts x.1 == 0 then (if zeroFirst then combineNum op ExactNum.zero x.2 else x.2) else combineNum op (numAt os x.1) x.2)

/-- Combine a payload into an output that pieces name, from byte offset `off` of the reduction result; answers the first offset not
written. Old bytes from outside the device come from `ext`. -/
def combineOutput (die p g rank op fmt off count : Nat) (isPartial zeroFirst : Bool) (ps : List Piece) (d ext : List Byte) (s : State) :
    Option Nat × State :=
  let k := elemAt fmt off
  let n := if isPartial then d.length / 4 else (decodeElems (formatOf fmt) d).length
  let st := mixElems op fmt ((List.range n).map fun i => countOf s g rank (k + i)) (readPieces s ps ext) d isPartial zeroFirst
  let (bad, s) := storeSpans ps st.spans (noteReads ps s)
  (bad, bumpArith die p 4 st.saturated (addCounts g rank count k n s))

/-- How a reduction rounds: to nearest, or by the group's key and the sequence (R248, R249). -/
def roundMode (gr : Group) (op seq : Nat) : Mode := if stochastic op then .philox gr.seed seq 0 else .nearest

/-- Round `n` records of an area into the output that pieces name; the first element's index in the whole result is `first`
(R241, R244, R246). -/
def roundArea (ep p g rank op fmt seq area first n : Nat) (ps : List Piece) (s : State) : Option Nat × State :=
  let gr := groupOf s g
  let div := if isMean op then max gr.n 1 else 1
  let vs := (List.range n).map fun i => wsValue div (recordAt s g rank (area + i))
  let st := encodeElems (formatOf fmt) (roundMode gr op seq) first vs
  let (bad, s) := storeSpans ps st.spans s
  let s := bumpArith (areaDie s ep area) p 4 st.saturated s
  (bad, onAreaDies ep area n (fun die m s => let s := bumpArith die p 1 m s; if stochastic op then bumpArith die p 2 m s else s) s)

/-! ## Ends of COLL_STEPs (R204, R223) -/

/-- Input tiles of a COLL_STEP whose transfers have all ended give up their translations (R177). -/
def settleColl (g wq idx : Nat) (s : State) : State :=
  if (groupOf s g).transfers.all fun t => t.ended || t.wq != wq || t.idx != idx then
    onOp wq idx (fun o => { o with tiles := o.tiles.map fun t => if t.st == .holding then { t with st := .finished } else t }) s
  else s

/-- A transfer's operation has ended; a failure keeps its status, its offset and the page address of its done record. -/
def endTransfer (g handle opnum status off addr : Nat) (s : State) : State :=
  match (groupOf s g).transfers.find? fun t => !t.tree && t.handle == handle && t.opnum == opnum && !t.ended with
  | some x =>
    settleColl g x.wq x.idx <| setTransfers g (fun l => l.map fun t =>
      if !t.tree && t.handle == handle && t.opnum == opnum && !t.ended then { t with ended := true, status := status, failOff := off, failAddr := addr } else t) s
  | none => s

/-- Decide a COLL_STEP and drop its transfers. -/
def endStep (g wq idx : Nat) (r : Result) (s : State) : State :=
  let s := setTransfers g (fun l => l.filter fun t => !(t.wq == wq && t.idx == idx)) s
  let s := setLaunches g (fun l => l.map fun x => if x.wq == wq && x.idx == idx then { x with hasEnded := true } else x) s
  let s := { s with fab := { s.fab with treeIn := tmap s.fab.treeIn fun _ l => l.filter fun t => t.desc.wq != wq || t.desc.idx != idx } }
  decideOp wq idx r s

/-- COLL_STEP ends with COLLECTIVE_MISMATCH, counted (R202, R227). -/
def mismatch (g wq idx : Nat) (s : State) : State :=
  let p := Desc.part (wqOf s wq).desc
  bumpColl (dieOfWq wq) p 3 1 (endStep g wq idx { status := stCollMismatch } s)

end Sys2Proof.Machine
end

