-- ==== Sys2Proof/Machine/Complete.lean ====
section
/-! DEFINITION. How a dynamic collective is carried out and when each member's part is complete; the end of every operation. -/

namespace Sys2Proof.Machine

/-! ## What a member reduces and sends (R198, R207, R224) -/

/-- Byte span of rank r's shard: whole units, the last shards shorter where they do not divide (log 19, DEDUCED). -/
def shardSpan (fmt len n r : Nat) : Nat × Nat :=
  let u := (formatOf fmt).unit
  let sb := (len / u + n - 1) / max n 1 * u
  let a := min (r * sb) len
  (a, min sb (len - a))

/-- Ranks not fenced when the collective started. -/
def liveRanks (gr : Group) (fenced : List Nat) : List Nat := (List.range gr.n).filter fun r => !fenced.contains (nth gr.members r)

/-- The next live rank from r on, wrapping. -/
def nextLive (gr : Group) (fenced : List Nat) (r : Nat) : Option Nat :=
  ((List.range gr.n).map fun i => (r + i) % gr.n).find? fun x => !fenced.contains (nth gr.members x)

/-- One reduction of a collective: the rank that reduces, the byte span of the result, where it lands in that rank's output. -/
structure RedItem where
  root : Nat
  start : Nat
  len : Nat
  outAt : Nat
  deriving DecidableEq, Repr

def bigReduce : Nat := 2 ^ 20

/-- The reductions of a launch. -/
def redItems (gr : Group) (l : Launch) : List RedItem :=
  let k := l.sig.kind
  let len := l.sig.len
  if k == ckReduce then (if (liveRanks gr l.startFenced).contains l.sig.param then [⟨l.sig.param, 0, len, 0⟩] else [])
  else if k == ckReduceScatter then
    (liveRanks gr l.startFenced).map fun r => let (a, n) := shardSpan l.sig.accFmt len gr.n r; ⟨r, a, n, 0⟩
  else if k == ckAllReduce then
    if len ≤ bigReduce then
      match nextLive gr l.startFenced 0 with
      | some r => [⟨r, 0, len, 0⟩]
      | none => []
    else
      (List.range gr.n).filterMap fun r =>
        match nextLive gr l.startFenced r with
        | some x => let (a, n) := shardSpan l.sig.accFmt len gr.n r; some ⟨x, a, n, a⟩
        | none => none
  else []

/-- Destination of a SHIFT or PERMUTE (R198). -/
def putDest (s : State) (gr : Group) (l : Launch) : Nat :=
  if l.sig.kind == ckShift then
    let k : Int := if l.sig.param < 2 ^ 15 then l.sig.param else (l.sig.param : Int) - 2 ^ 16
    (((l.rank : Int) + k) % (gr.n : Int)).toNat
  else nth (tgetD s.coll.perms l.sig.param {}).ranks l.rank

/-- Source rank of a SHIFT or PERMUTE. -/
def putSource (s : State) (gr : Group) (l : Launch) : Nat :=
  ((List.range gr.n).find? fun r => putDest s gr { l with rank := r } == l.rank).getD l.rank

/-- The tree of a group with a type and a root rank (R296). -/
def treeOf (s : State) (g type rank : Nat) : Option Nat :=
  (s.fab.trees.find? fun e => fld e.2 127 112 == g && fld e.2 111 110 == type && fld e.2 76 61 == nth (groupOf s g).members rank).map (·.1)

/-! ## Sending (R207, R208, R209) -/

/-- Form G of a member's operation. -/
def launchForm (l : Launch) (w : Wqe) (opcode base : Nat) (note : Bool) : Nat :=
  let r := opcode == ocCollAcc
  Form.mkG base l.seq (if r then l.sig.accOp else 0) (if r then l.sig.accFmt else 0) (r && l.sig.exact) w.xpath false (if r then 1 else 0)
    (if note then some 0 else none)

/-- Descriptor of one packet of a member's operation. -/
def launchDesc (l : Launch) (w : Wqe) (opcode dest opnum base off plen len tile : Nat) (note : Bool) (src : List Piece) : Desc :=
  { kind := kData, tc := w.tc, opcode := opcode, dest := dest, opnum := opnum, offset := off, length := len, tile := tile,
    last := off + plen == len, plen := plen, form := launchForm l w opcode base note, src := src, wq := l.wq, idx := l.idx }

/-- Put an input tile of a COLL_STEP on its operation, by its offset in the window, so that an INVALIDATE finds it (R177). -/
def holdTile (wq idx off len : Nat) (ps : List Piece) (s : State) : State :=
  onOp wq idx (fun o => { o with tiles := o.tiles ++ [{ off := off, len := len, st := .holding, loc := ps }] }) s

/-- One tile of an operation to a rank: its packets wait on the connection, or it is withdrawn (R175, R566). `d` is the operation's
descriptor, `src` the window offset of its byte 0. -/
def putTile (h : Nat) (l : Launch) (j : Join) (d : Desc) (src off n : Nat) (s : State) : State :=
  match winSpan j (src + off) n .read s with
  | (.ok ps, s) =>
    let s := holdTile l.wq l.idx (src + off) n ps s
    (dataPackets off n).foldl (fun s x =>
      queueRequest h { d with offset := x.1, plen := x.2, last := x.1 + x.2 == d.length, src := subPieces ps (x.1 - off) x.2 } s) s
  | (.fail st a, s) => queueRequest h ({ d with offset := off }.withdrawal st a n) s
  | (.miss, s) => s

/-- Tiles of a span. -/
def spanTiles (s : State) (w : Wqe) (len : Nat) : List (Nat × Nat) := tilesOf (tileSize (gen1 s) w.tile len) len

/-- One operation of a member on its connection to a rank: numbered, noted as a transfer, its tiles queued. `mk` makes its
descriptor from the operation number, `tile` queues one tile. -/
def sendOp (g h : Nat) (l : Launch) (w : Wqe) (dest opcode src dst len : Nat) (step : Bool) (mk : Nat → Desc)
    (tile : Join → Desc → Nat → Nat → State → State) (s : State) : State :=
  match tget (groupOf s g).joins l.rank with
  | none => s
  | some j =>
    let (n, s) := takeOpnum h s
    let e := endOf s h
    let t : Transfer := { wq := l.wq, idx := l.idx, rank := l.rank, handle := h, opnum := n, step := step, dest := dest, tree := false,
                          opcode := opcode, src := src, len := len, dst := dst, ended := !e.isOpen,
                          status := if e.isOpen then 0 else if e.state == .broken then e.cause else stTransportTimeout }
    let s := setTransfers g (fun l => l ++ [t]) s
    if !e.isOpen then s
    else (spanTiles s w len).foldl (fun s x => tile j (mk n) x.1 x.2 s) s

/-- A PUT of `len` bytes of the input to a rank (R207). -/
def sendPut (g : Nat) (l : Launch) (w : Wqe) (dest base len : Nat) (note : Bool) (s : State) : State :=
  match tget (groupOf s g).conns (l.rank * 2 ^ 16 + dest) with
  | some h =>
    let s := setEnd h (fun e => { e with spray := if w.tc == 2 then 2 else 1 }) s
    let code := Nat.log2 (tileSize (gen1 s) w.tile len) - 11
    let ep := (endOf s h).peerEp
    sendOp g h l w dest ocCollPut (Wqe.inOff w + base) base len false
      (fun n => launchDesc l w ocCollPut ep n base 0 0 len code note []) (fun j d => putTile h l j d (Wqe.inOff w + base)) s
  | none => s

/-- Port die of a packet of a reduction or a multicast: that of the stripe of its first element, or of its payload's offset (R250, R298;
log 108, DEDUCED). -/
def treeDie (opcode fmt off : Nat) : Nat := if opcode == ocCollAcc then elemAt fmt off / 4096 % 4 else off / 4096 % 4

/-- A packet of a local member waits at its port die to enter a tree. -/
def joinTree (g tree : Nat) (l : Launch) (fmt : Nat) (d : Desc) (s : State) : State :=
  let i : TreeItem := { group := g, seq := l.seq, tree := tree, rank := l.rank, desc := { d with rmode := 2, mine := true } }
  { s with fab := { s.fab with treeIn := tmodD s.fab.treeIn (treeDie d.opcode fmt d.offset) [] fun q => q ++ [i] } }

/-- Output bytes of a member from an offset on came, or will not come. -/
def collReceived (g rank seq off n : Nat) (low : Option (Nat × Nat × Nat)) (paths : List FlushPath) (s : State) : State :=
  setLaunches g (fun ls => ls.map fun y => if y.rank == rank && y.seq == seq then
    { y with received := if n == 0 then y.received else tmodD y.received off 0 (· + n), paths := addPaths y.paths paths,
             low := match y.low, low with
               | some a, some b => if a.1 ≤ b.1 then some a else some b
               | none, b => b
               | a, none => a } else y) s

/-- One tile of a member's operation on a tree: its packets wait at the port dies; one that cannot be translated is withdrawn, and fails at
the member (R175, R566). `d` is the operation's descriptor, `at_` the window offset of its byte 0. -/
def treeTile (g tree : Nat) (l : Launch) (j : Join) (fmt : Nat) (d : Desc) (at_ off n : Nat) (s : State) : State :=
  match winSpan j (at_ + off) n .read s with
  | (.ok ps, s) =>
    let s := holdTile l.wq l.idx (at_ + off) n ps s
    (dataPackets off n).foldl (fun s y =>
      joinTree g tree l fmt { d with offset := y.1, plen := y.2, last := y.1 + y.2 == d.length, src := subPieces ps (y.1 - off) y.2,
                                     inAt := at_ + y.1 } s) s
  | (.fail st a, s) =>
    joinTree g tree l fmt ({ d with offset := off, inAt := at_ + off }.withdrawal st a n)
      (collReceived g l.rank l.seq 0 0 (some (Form.dstBase d.form + off, st, a)) [] s)
  | (.miss, s) => s

/-- A member's operation enters a tree. `src` names where its bytes lie in the window. -/
def sendTree (g tree : Nat) (l : Launch) (w : Wqe) (opcode src base len : Nat) (note : Bool) (s : State) : State :=
  match tget (groupOf s g).joins l.rank with
  | none => s
  | some j =>
    let code := Nat.log2 (tileSize (gen1 s) w.tile len) - 11
    let d := launchDesc l w opcode j.ep 0 base 0 0 len code note []
    (spanTiles s w len).foldl (fun s x => treeTile g tree l j l.sig.accFmt d src x.1 x.2 s) s

/-- The counter a multicast operation's arrival adds to at a member: a run counter of its schedule, or the arrival counter it joined with
(R209, R212). -/
def noteMember (g : Nat) (l : Launch) (k : Nat) (s : State) : State :=
  if l.sig.kind == ckScheduled then addRunCounter (l.sig.param % 16) l.rank k s else addArrival (groupOf s g) l.rank s

/-- Change a multicast operation of a member, or drop it. -/
def setTreeOp (g : Nat) (l : Launch) (base : Nat) (x : Option TreeOp) (s : State) : State :=
  setLaunches g (fun ls => ls.map fun y => if y.wq == l.wq && y.idx == l.idx then
    { y with treeOps := match x with
      | some o => tset y.treeOps base o
      | none => tdel y.treeOps base } else y) s

/-- Every byte of a multicast operation, or of a streamed tile of the member's own, has come: its notification is applied, once flushed
where the sender's XPATH asks for it; not where a byte could not be placed (R209, R212). -/
def treeWhole (g : Nat) (l : Launch) (base : Nat) (xpath : Bool) (o : TreeOp) (s : State) : State :=
  match o.note with
  | none => setTreeOp g l base none s
  | some k =>
    if o.bad then setTreeOp g l base none s
    else if xpath && !o.paths.isEmpty then sendFlushes o.paths (setTreeOp g l base (some { o with flush := some o.paths.length }) s)
    else noteMember g l k (setTreeOp g l base none s)

/-- A flushing read of a multicast operation returns; after the last one its notification is applied (R209). -/
def treeFlushed (g rank base : Nat) (s : State) : State :=
  let out := fun (l : Launch) => match (tgetD l.treeOps base {}).flush with
    | some (_ + 1) => true
    | _ => false
  match (groupOf s g).launches.find? fun l => l.rank == rank && out l with
  | none => s
  | some l =>
    let o := tgetD l.treeOps base {}
    match o.flush with
    | some (n + 1) =>
      if n != 0 then setTreeOp g l base (some { o with flush := some n }) s
      else
        let s := setTreeOp g l base none s
        (match o.note with
         | some k => noteMember g l k s
         | none => s)
    | _ => s

/-- Tiles a member moves within itself (R198). -/
def keepOwn (g : Nat) (l : Launch) (ts : List OwnTile) (s : State) : State :=
  setLaunches g (fun ls => ls.map fun y => if y.wq == l.wq && y.idx == l.idx then { y with own := y.own ++ ts } else y) s

/-- A member's own input is for its own output: tile by tile, but where they are one place; `note` counts its arrival. -/
def selfCopy (g : Nat) (l : Launch) (w : Wqe) (off dst len : Nat) (note : Bool) (s : State) : State :=
  if Wqe.inOff w + off == l.sig.outOff + dst then (if note then noteMember g l 0 s else s)
  else keepOwn g l ((spanTiles s w len).map fun x => { src := Wqe.inOff w + off + x.1, dst := dst + x.1, len := x.2, note := note }) s

/-! ## Landing of bytes at a member (R201, R209, R256) -/

/-- Every element of a reduction has the contributions it waits for (R256). -/
def itemComplete (s : State) (g : Nat) (gr : Group) (l : Launch) (i : RedItem) : Bool :=
  let f := l.sig.accFmt
  let want := gr.n - (gr.members.filter fun m => l.startFenced.contains m).length
  let base := elemAt f (if exactFor l.sig.accOp f l.sig.exact then i.start else i.outAt)
  (List.range (elemAt f i.len)).all fun k => Nat.ble want (countOf s g l.rank (base + k))

/-- Fenced members of a degraded group count as +0 contributions: in exact mode they are added to the records; else the first contribution
is combined into +0 (R237, R256). -/
def addFenced (g : Nat) (l : Launch) (i : RedItem) (s : State) : State :=
  if l.startFenced.isEmpty then s
  else
    let f := l.sig.accFmt
    addRecords g l.rank (elemAt f i.start) (List.replicate (elemAt f i.len) (wsAdd ExactNum.zero {})) s

/-- Round a complete exact reduction into the output (R241, R256). -/
def roundItem (g : Nat) (j : Join) (l : Launch) (i : RedItem) (s : State) : State :=
  if !exactFor l.sig.accOp l.sig.accFmt l.sig.exact then s
  else
    let f := l.sig.accFmt
    let s := addFenced g l i s
    match winSpan j (l.sig.outOff + i.outAt) i.len .write s with
    | (.ok ps, s) =>
      let (bad, s) := roundArea j.ep j.part g l.rank l.sig.accOp f l.seq (elemAt f i.start) (elemAt f i.start) (elemAt f i.len) ps s
      let low := match bad with
        | some o => some (i.outAt + o, stMediaError, 0)
        | none => none
      collReceived g l.rank l.seq 0 0 low (ps.flatMap (pathsOf s)) s
    | (.fail st a, s) => collReceived g l.rank l.seq 0 0 (some (i.outAt, st, a)) [] s
    | (.miss, s) => s

/-- When a local member's reductions are complete it rounds them, and in an ALL_REDUCE multicasts them (R207). -/
def collProgress (g : Nat) (l : Launch) (s : State) : State :=
  let gr := groupOf s g
  let mine := (redItems gr l).filter fun i => i.root == l.rank
  match tget gr.joins l.rank with
  | none => s
  | some j =>
    if l.reduced || !l.started || l.hasEnded || !(mine.all (itemComplete s g gr l)) then s
    else
      let s := mine.foldl (fun s i => roundItem g j l i s) s
      let s := setLaunches g (fun ls => ls.map fun y => if y.rank == l.rank && y.seq == l.seq then { y with reduced := true } else y) s
      if l.sig.kind != ckAllReduce then s
      else
        match treeOf s g 1 l.rank, (findOp s l.wq l.idx).map (·.wqe) with
        | some t, some w => mine.foldl (fun s i => sendTree g t l w ocCollMcast (l.sig.outOff + i.outAt) i.outAt i.len false s) s
        | _, _ => s

/-- Progress of every launch of a rank and sequence. -/
def progressAt (g rank seq : Nat) (s : State) : State :=
  match launchOf (groupOf s g) rank seq with
  | some l => if reduces l.sig.kind then collProgress g l s else s
  | none => s

/-! ## When a member's part is complete (R201, R223, R224) -/

/-- What a member receives from others: the sender's rank, and the output span its bytes land in (R198, R207). -/
def expected (s : State) (gr : Group) (l : Launch) : List (Nat × Nat × Nat) :=
  let k := l.sig.kind
  let len := l.sig.len
  let all :=
    if k == ckShift || k == ckPermute then [(putSource s gr l, 0, len)]
    else if k == ckMulticast then [(l.sig.param, 0, len)]
    else if k == ckAllGather then (List.range gr.n).map fun r => (r, r * len, len)
    else if k == ckAllReduce then (redItems gr l).map fun i => (i.root, i.outAt, i.len)
    else []
  all.filter fun x => x.1 != l.rank

/-- Bytes of a span of the output that came or will not come. -/
def Launch.gotIn (l : Launch) (at_ len : Nat) : Nat :=
  l.received.foldl (fun a x => if at_ ≤ x.1 && x.1 < at_ + len then a + x.2 else a) 0

/-- Every sender that is not fenced has sent a member what it waits for (R201, R223). -/
def inputDone (s : State) (gr : Group) (l : Launch) (fenced : List Nat) : Bool :=
  (expected s gr l).all fun x => fenced.contains (nth gr.members x.1) || Nat.ble x.2.2 (l.gotIn x.2.1 x.2.2)

/-- Members a member sends to or receives from (R223). -/
def peersOf (s : State) (gr : Group) (l : Launch) : List Nat :=
  let k := l.sig.kind
  if k == ckShift || k == ckPermute then [putDest s gr l, putSource s gr l]
  else if k == ckMulticast then (if l.rank == l.sig.param then List.range gr.n else [l.sig.param])
  else List.range gr.n

/-- A packet of a member's tree operation waits or is in flight. -/
def treeBusy (s : State) (wq idx : Nat) : Bool :=
  let mine := fun (d : Desc) => d.mine && d.wq == wq && d.idx == idx
  (s.fab.treeIn.any fun x => x.2.any fun t => mine t.desc) ||
  (s.conn.ends.any fun x => isEdge x.1 && (x.2.toSend.any mine || x.2.unacked.any fun u => mine u.desc))

/-- Tiles a streaming member has still to release (R208). -/
def streamsOn (s : State) (l : Launch) : Bool :=
  match findOp s l.wq l.idx with
  | some o => Wqe.stream o.wqe && Nat.blt o.released (spanTiles s o.wqe l.sig.len).length
  | none => false

/-- The outcome of a dynamic COLL_STEP whose transfers have ended and whose output is in (R63, R201, R223, R224). `listed` numbers the
fenced-member list it names. -/
def collVerdict (s : State) (gr : Group) (l : Launch) (fenced : List Nat) (listed : Nat) : Result :=
  let peers := (peersOf s gr l).eraseDups.filter fun r => r != l.rank && fenced.contains (nth gr.members r)
  let moves := !reduces l.sig.kind
  if moves && !peers.isEmpty then { status := stPartialDelivery, off := peers.length, addr := listed }
  else
    let ts := gr.transfers.filter fun t => t.wq == l.wq && t.idx == l.idx && t.status != 0
    let parts := ts.map (fun t => (⟨t.dst + t.failOff, t.status, t.failAddr⟩ : FailPart)) ++
      (match l.low with
       | some (o, st, a) => [⟨o, st, a⟩]
       | none => [])
    let r := verdictResult (decide_ parts)
    if r.status == stOk && !moves && !l.startFenced.isEmpty then { r with zeroed := true, addr := listed } else r

/-- A fenced-member list is made: numbered, the last 256 kept (R226). -/
def makeList (die p : Nat) (eps : List Nat) (s : State) : Nat × State :=
  let n := s.coll.fencedCount
  let s := { s with coll := { s.coll with fencedCount := (n + 1) % m32,
                                          fencedLists := tkeep (tset s.coll.fencedLists n eps) fun k _ => Nat.blt n (k + 256) } }
  (n, bumpColl die p 6 1 s)

/-- A dynamic COLL_STEP that is complete. -/
def collDone (s : State) (g : Nat) (l : Launch) : Bool :=
  let gr := groupOf s g
  l.started && !l.hasEnded && l.sig.kind != ckScheduled && l.own.isEmpty && !treeBusy s l.wq l.idx && !streamsOn s l &&
  (gr.transfers.all fun t => t.wq != l.wq || t.idx != l.idx || t.ended) &&
  inputDone s gr l s.fab.fenced && l.treeOps.all (fun x => x.2.flush.isNone) &&
  (!reduces l.sig.kind || l.reduced || ((redItems gr l).all fun i => i.root != l.rank))

/-- The member's own bytes of a tile, read from its input (R148, R196): none while a path cannot give them; a failure keeps its status,
its offset within the tile and its address. -/
def readOwn (j : Join) (x : OwnTile) (ext : List Byte) (s : State) :
    Option (Sum (Nat × Nat × Nat) (List Byte × Nat)) × State :=
  match winSpan j x.src x.len .read s with
  | (.ok ps, s) =>
    match pathState s false ps with
    | .wait => (none, s)
    | .dead st => (some (.inl (0, st, 0)), s)
    | .go =>
      match badOffset s ps 0 with
      | some (o, a) => (some (.inl (o, stMediaError, 0)), mediaError a s)
      | none => (some (.inr (readPieces s ps ext, outsideLen ps)), noteReads ps s)
  | (.fail st a, s) => (some (.inl (0, st, a)), s)
  | (.miss, s) => (none, s)

/-- One tile of a member's own bytes lands in its output or counts as its contribution; none while a path waits. Answers how many bytes
of `ext` it took. -/
def moveOwn (g : Nat) (l : Launch) (j : Join) (x : OwnTile) (ext : List Byte) (s : State) : Option Nat × State :=
  let die := memberDie s j.ep
  let fail := fun (off st a : Nat) (s : State) => collReceived g l.rank l.seq 0 0 (some (off, st, a)) [] s
  let exact := exactFor l.sig.accOp l.sig.accFmt l.sig.exact
  match readOwn j x ext s with
  | (none, _) => (none, s)
  | (some (.inl (o, st, a)), t) =>
    -- a contribution that cannot be read counts as one that will not come
    let t := match x.acc with
      | some at_ => addCounts g l.rank 1 (elemAt l.sig.accFmt (if exact then at_ else x.dst)) (elemAt l.sig.accFmt x.len) t
      | none => t
    (some 0, fail (x.dst + o) st a t)
  | (some (.inr (b, used)), t) =>
    match x.acc with
    | some at_ =>
      let t := freshArea g l.rank l.seq t
      if exact then (some used, accumulate j.ep j.part g l.rank l.sig.accFmt at_ 1 false b t)
      else
        match winSpan j (l.sig.outOff + x.dst) x.len .write t with
        | (.ok out, t) =>
          if pathState t true out == .wait then (none, s)
          else
            let old := ext.drop used
            let (bad, t) := combineOutput die j.part g l.rank l.sig.accOp l.sig.accFmt x.dst 1 false (!l.startFenced.isEmpty) out b old t
            let t := collReceived g l.rank l.seq 0 0 none (out.flatMap (pathsOf t)) t
            (some (used + outsideLen out), match bad with
              | some o => fail (x.dst + o) stMediaError 0 t
              | none => t)
        | (.fail st a, t) =>
          (some used, fail x.dst st a (addCounts g l.rank 1 (elemAt l.sig.accFmt x.dst) (elemAt l.sig.accFmt x.len) t))
        | (.miss, _) => (none, s)
    | none =>
      match winSpan j (l.sig.outOff + x.dst) x.len .write t with
      | (.ok out, t) =>
        match pathState t true out with
        | .wait => (none, s)
        | .dead st => (some used, fail x.dst st 0 t)
        | .go =>
          let (n, t) := storePieces out b t
          let paths := out.flatMap (pathsOf t)
          let t := collReceived g l.rank l.seq 0 0 (if n < x.len then some (x.dst + n, stMediaError, 0) else none) paths t
          let xpath := ((findOp t l.wq l.idx).map fun o => o.wqe.xpath).getD false
          (some used, if x.note then treeWhole g l x.dst xpath { bad := Nat.blt n x.len, paths := paths, note := some 0 } t else t)
      | (.fail st a, t) => (some used, fail x.dst st a t)
      | (.miss, _) => (none, s)

/-- The member's own tiles move as far as their paths let them, in order; bytes from outside come from `ext`. -/
def moveAll (g : Nat) (l : Launch) (j : Join) : List OwnTile → List Byte → State → State
  | [], _, s => setLaunches g (fun ls => ls.map fun y => if y.wq == l.wq && y.idx == l.idx then { y with own := [] } else y) s
  | x :: t, ext, s =>
    match moveOwn g l j x ext s with
    | (some n, s) => moveAll g l j t (ext.drop n) s
    | (none, _) => setLaunches g (fun ls => ls.map fun y => if y.wq == l.wq && y.idx == l.idx then { y with own := x :: t } else y) s

/-- A COLL_STEP's own tiles move (R198, R207). -/
def moveLaunch (wq idx : Nat) (ext : List Byte) (s : State) : State :=
  match s.coll.groups.find? fun x => x.2.launches.any fun l => l.wq == wq && l.idx == idx && !l.hasEnded && !l.own.isEmpty with
  | none => s
  | some (g, gr) =>
    match gr.launches.find? fun l => l.wq == wq && l.idx == idx with
    | none => s
    | some l =>
      match tget gr.joins l.rank with
      | none => s
      | some j => progressAt g l.rank l.seq (moveAll g l j l.own ext s)

/-- Decide a COLL_STEP that is complete, making the list of fenced members it reports. -/
def decideColl (wq idx : Nat) (s : State) : State :=
  match s.coll.groups.find? fun x => x.2.launches.any fun l => l.wq == wq && l.idx == idx && !l.hasEnded with
  | none => s
  | some (g, gr) =>
    match gr.launches.find? fun l => l.wq == wq && l.idx == idx with
    | none => s
    | some l =>
      if !collDone s g l then s
      else
        let p := Desc.part (wqOf s wq).desc
        let fenced := gr.members.filter fun m => (if reduces l.sig.kind then l.startFenced else s.fab.fenced).contains m
        let r := collVerdict s gr l s.fab.fenced s.coll.fencedCount
        let named := r.zeroed || r.status == stPartialDelivery
        let s := if named then (makeList (dieOfWq wq) p fenced s).2 else s
        endStep g wq idx r s

/-- Paths that carried a COLL_STEP's bytes into its output, where XPATH is set (R54). -/
def collPaths (s : State) (wq : Nat) (o : Op) : List FlushPath :=
  if o.wqe.opcode != opCollStep || !o.wqe.xpath then []
  else
    s.coll.groups.foldl (fun a x => (x.2.launches.filter fun l => l.wq == wq && l.idx == o.idx).foldl (fun a l => addPaths a l.paths) a) []

/-- An operation that is decided and flushed ends once it is its queue's oldest and its completion ring can be written (R51, R54, R351). -/
def endOldest (wq idx : Nat) (r : Result) (s : State) : State :=
  match (wqOf s wq).ops with
  | x :: _ => if x.idx != idx || !ringOpen s (Desc.cq (wqOf s wq).desc) then s else finishOp wq x r s
  | [] => s

/-- An operation is decided, its flushes are made, and once it is its queue's oldest it ends. `ext` holds the source bytes from outside
that the copy engines read for its tiles. -/
def completeOp (wq idx : Nat) (ext : List Byte) (s : State) : State :=
  match findOp s wq idx with
  | none => s
  | some o =>
    if !running s then s
    else
      let copying := isCopy o.wqe.opcode && o.result.isNone && !o.walking &&
        o.tiles.all fun t => t.st != .holding || (pathState s false (if o.wqe.opcode == opCopyIn then t.host else t.loc) == .go
          && pathState s true (if o.wqe.opcode == opCopyIn then t.loc else t.host) == .go)
      let s := if copying then copyTiles wq idx o.wqe o.tiles ext s else if o.wqe.opcode == opCollStep then decideColl wq idx (moveLaunch wq idx ext s) else s
      match (findOp s wq idx).bind fun o => (outcomeOf o).map fun r => (o, r) with
      | none => s
      | some (o, r) =>
        let s := if o.result.isNone then closeIfIdle o.handle (decideOp wq idx r s) else s
        match o.flush with
        | some 0 => endOldest wq idx r s
        | some _ => s
        | none =>
          let paths := addPaths (flushPaths s o) (collPaths s wq o)
          if paths.isEmpty then endOldest wq idx r (ungate o.handle o.opnum s)
          else sendFlushes paths (onOp wq idx (fun o => { o with flush := some paths.length }) s)

/-- OPERATION_COMPLETION: every tile of an operation has finished or failed; its status is decided and its completion entry, vector, local notify and sample record follow (R58). -/
def execOperationCompletion (wq idx : Nat) (ext : List Byte) (s : State) : Res := .next (completeOp wq idx ext s)

end Sys2Proof.Machine
end

