-- ==== Sys2Proof/Machine/Keys.lean ====
section
/-! DEFINITION. Keys and the device's identity: derived keys, DEVICE_ID, MAC addresses. Digests and tags are read little-endian. -/

namespace Sys2Proof.Machine

/-- The SP 800-108 counter-mode KDF with AES-256-CMAC (R455). -/
def kdf (k : BitVec 256) (label : String) (context : List Byte) : BitVec 256 :=
  let block := fun i => Config.cmac k (beBytes 4 i ++ ascii label ++ [0] ++ context ++ beBytes 4 256)
  BitVec.ofNat 256 ((block 1).toNat + (block 2).toNat * 2 ^ 128)

def digestBytes (d : BitVec 256) : List Byte := leBytes 32 d.toNat

/-- OWNER_DIGEST: the digest of the four owner slots' digests, an empty or revoked slot as zeros (R455). -/
def ownerDigest (s : State) : BitVec 256 :=
  Config.sha3 ((List.range 4).flatMap fun i =>
    let k := tgetD s.sec.slots (4 + i) {}
    digestBytes (if k.state == 1 then k.digest else 0))

def identitySeed : BitVec 256 := kdf Config.rootKey "KZ-ID" []

def identityPublic : List Byte := Config.identityKey identitySeed

/-- Bytes 0 to 7 of the identity key's digest, little-endian (R456). -/
def deviceId : Nat := (Config.sha3 identityPublic).toNat % m64

/-- KEY_EPOCH element of a privilege: 0 Platform, 1 Operator, 2 Meter, 3 + p Tenant p. -/
def epochIndex (priv part : Nat) : Nat := if priv == 3 then 0 else if priv == 2 then 1 else if priv == 4 then 2 else 3 + part

/-- A privilege key (R455). -/
def privKey (s : State) (priv part : Nat) : BitVec 256 :=
  kdf Config.rootKey "KZ-PRIV" ([BitVec.ofNat 8 priv, BitVec.ofNat 8 (if priv == 1 then part else 0xFF)] ++
    beBytes 4 (tgetD s.sec.epochs (epochIndex priv part) 0) ++ digestBytes (ownerDigest s))

/-- A session key: `client` and `device` are the nonces as sent (R455). -/
def sessionKey (k : BitVec 256) (session : Nat) (client device : List Byte) (epoch : Nat) : BitVec 256 :=
  kdf k "KZ-SESS" (beBytes 4 session ++ client ++ device ++ beBytes 4 epoch)

/-- Extend measurement register m by a 32-byte value (R472). -/
def extendMeasure (m : Nat) (d : BitVec 256) (s : State) : State :=
  { s with sec := { s.sec with measure := tmodD s.sec.measure m 0 fun x => Config.sha3 (digestBytes x ++ digestBytes d) } }

/-- A port's MAC address: the base plus the port (R278). -/
def macOf (port : Nat) : Nat := (Config.fused 1 + port) % 2 ^ 48

end Sys2Proof.Machine
end

