-- ==== Sys2Proof/Machine/Conns.lean ====
section
/-! DEFINITION. Establishing, re-establishing and closing connections: the connection control window, the setup service, the
timeouts and RESET. -/

namespace Sys2Proof.Machine

/-! ## The window (R117) -/

def resRefused : Nat := 0x04
def resUnreachable : Nat := 0x05
def resUnconfirmed : Nat := 0x06

def setConnWindow (p : Nat) (f : Window → Window) (s : State) : State :=
  { s with conn := { s.conn with windows := tmodD s.conn.windows p {} f } }

/-- Answer a command of a partition's window. -/
def answerConn (p res code h : Nat) (s : State) : State :=
  let s := setConnWindow p (fun w => { w with word := controlWord res code h }) s
  if res == resPending then { s with conn := { s.conn with busy := tset s.conn.busy p h } }
  else { s with conn := { s.conn with busy := tdel s.conn.busy p } }

/-- COMMAND of the word that is open in a window. -/
def openCode (s : State) (p : Nat) : Nat := fld (tgetD s.conn.windows p {}).word 51 48

/-- A command word written to a partition's connection control window; R76 applies to it. `act` answers the result and the handle. -/
def connControl (s : State) (p code obj : Nat) (desc : Option (BitVec 512)) (act : State → Nat × Nat × State) : Res :=
  need (Nat.blt p 12) .noSuchPartition <|
    let s1 := match desc with
      | some d => setConnWindow p (fun w => { w with desc := d }) s
      | none => s
    if !running s then s
    else
      match (partOf s p).state with
      | .off => s
      | .resetting => answerConn p resBusy code obj s1
      | .up =>
        if fld (tgetD s.conn.windows p {}).word 63 56 == resPending then s1
        else
          let r := act s1
          answerConn p r.1 code r.2.1 r.2.2

namespace ConnDesc
def spray (d : BitVec 256) : Nat := fld d 243 242
def part (d : BitVec 256) : Nat := fld d 239 236
def pasid (d : BitVec 256) : Nat := fld d 235 216
def localE (d : BitVec 256) : Nat := fld d 203 200
def peer (d : BitVec 256) : Nat := fld d 199 184
def rate (d : BitVec 256) : Nat := fld d 63 32
end ConnDesc

/-! ## Making an end (R112, R155, R396, R397) -/

/-- Ends of a die, and of a partition on it. -/
def endsOn (s : State) (die : Nat) : Nat := (s.conn.ends.filter fun e => dieOfEnd e.1 == die).length
def openEndsOn (s : State) (die : Nat) : Nat := (s.conn.ends.filter fun e => dieOfEnd e.1 == die && e.2.isOpen).length
def partEndsOn (s : State) (die p : Nat) : Nat :=
  (s.conn.ends.filter fun e => dieOfEnd e.1 == die && e.2.part == p && !e.2.mgmt && e.2.coll.isNone).length

/-- The lowest free index of a die (the manual leaves the choice open, log 14, DESIGN CHOICE), but not the handle of the other end: the
two ends of a connection have different handles (R110). -/
def freeHandle (s : State) (die : Nat) (other : Option Nat := none) : Option Nat :=
  ((List.range (min 65536 (endsOn s die + 2))).map fun i => die * 2 ^ 17 + i).find? fun h => (tget s.conn.ends h).isNone && other != some h

/-- A fresh end: random initial PSN, window of 256 packets (R119, R155). -/
def newEnd (e : End) (rate : Nat) (s : State) : End × State :=
  let (n, s) := draw s
  let n := n % m32
  ({ e with nextPsn := n, firstPsn := n, acked := sub32 n 1, window := 256, rate := rate }, s)

def addEnd (h : Nat) (e : End) (s : State) : State :=
  fillCache h { s with conn := { s.conn with ends := tset s.conn.ends h e } }

/-- The words of a CONNECT_REQ (log 47, DESIGN CHOICE). -/
def reqWords (r : SetupReq) : List Nat :=
  [r.fromEp, r.fromHandle, r.toEp, (r.target.map (· + 1)).getD 0, r.epoch, r.domain, r.pasid, r.part, r.spray, b2n r.mgmt, r.psn] ++
  (match r.coll with
   | some (g, sl, a, b) => [1, g, sl, a, b]
   | none => [0, 0, 0, 0, 0])

/-- What a CONNECT_REQ says. -/
def reqOf (p : Packet) : SetupReq :=
  let w := setupWord p
  { fromEp := w 0, fromHandle := w 1, toEp := w 2, target := if w 3 == 0 then none else some (w 3 - 1), epoch := w 4, domain := w 5,
    pasid := w 6, part := w 7, spray := w 8, mgmt := w 9 == 1, psn := w 10,
    coll := if w 11 == 1 then some (w 12, w 13, w 14, w 15) else none }

/-- The request of a Connecting end (R118, R119). -/
def reqFor (s : State) (h : Nat) (e : End) : SetupReq :=
  { fromEp := e.localEp, fromHandle := h, toEp := e.peerEp, target := if e.established then some e.peerHandle else none,
    epoch := (epochOf s h + 1) % m16, domain := (partOf s e.part).domain, pasid := e.pasid, part := e.part, spray := e.spray, mgmt := e.mgmt,
    psn := e.nextPsn, coll := e.coll }

/-- Requests that wait for the setup service (R120). -/
def pendingReqs (s : State) : Nat := (s.mesh.carry.filter fun c => c.dst == hubCode && Hdr.kind c.pkt.hdr == kConnectReq).length

/-- The setup service has no room for another request (R120). -/
def setupFull (s : State) : Bool := Nat.ble 16384 (pendingReqs s)

/-- CONNECT_NAK: its word names the RESULT the CONNECT gets. -/
def nak (r : SetupReq) (res : Nat) (s : State) : State := sendConn kConnectNak r.fromEp r.fromHandle 0 r.mgmt [res] s

/-- A CONNECT_REQ goes to the setup service it names; one of an end to its own device waits at this device's (R119, R120). -/
def askSetup (r : SetupReq) (s : State) : State :=
  if isOwn s r.toEp && setupFull s then nak r resNoResource s else sendConn kConnectReq r.toEp 0 0 r.mgmt (reqWords r) s

/-- Send the CONNECT_REQ of a Connecting end (R118, R119, R120). -/
def sendConnectReq (h : Nat) (s : State) : State :=
  let e := endOf s h
  let s := setEnd h (fun e => { e with tries := e.tries + 1, triedAt := s.time.now, tryFor := cfg s 0x4100 8 * us }) s
  askSetup (reqFor s h e) s

/-- CONNECT: A connection control command allocates an initiator end and sends CONNECT_REQ (R118); one that names an absent die is INVALID
(R117; log 128, DESIGN CHOICE). -/
def execConnect (p obj : Nat) (desc : BitVec 512) (s : State) : Res :=
  connControl s p 0x1 obj (some desc) fun s =>
    let d := lowDesc desc
    let die := dieOfEnd obj
    if ConnDesc.part d != p || ConnDesc.spray d == 3 || !dieUp s die || !Nat.blt die 8 then (resInvalid, obj, s)
    else
      match coord s with
      | none => (resUnreachable, obj, s)
      | some c =>
        if (partOf s p).quotaEnds ≤ partEndsOn s die p then (resNoResource, obj, s)
        else
          match freeHandle s die with
          | none => (resNoResource, obj, s)
          | some h =>
            let rate := if ConnDesc.rate d == 0 then cfg s 0x4101 1 else ConnDesc.rate d
            let (e, s) := newEnd { initiator := true, state := .connecting, localEp := c + ConnDesc.localE d, peerEp := ConnDesc.peer d, part := p,
                                   pasid := ConnDesc.pasid d, spray := ConnDesc.spray d } rate s
            (resPending, h, sendConnectReq h (addEnd h e s))

/-- The end a command names: an initiator end of the partition that is not Free (R117). -/
def withEndOf (s : State) (p h : Nat) (act : End → Nat × Nat × State) : Nat × Nat × State :=
  match tget s.conn.ends h with
  | some e => if e.live && e.initiator && e.part == p then act e else (resInvalid, h, s)
  | none => (resInvalid, h, s)

/-- The command open for an end, if one is, gets its result. -/
def answerOpen (e : End) (h res : Nat) (s : State) : State :=
  if tget s.conn.busy e.part == some h then answerConn e.part res (openCode s e.part) h s else s

/-- An end enters Closing: nothing not yet sent is sent any more, and CLOSE_TIMEOUT bounds the operations in flight (R118, R122). -/
def toClosing (h : Nat) (s : State) : State :=
  setEnd h (fun e => { e with state := .closing, closeWait := true, tries := 0, triedAt := s.time.now, tryFor := cfg s 0x4100 9 * us,
                              toSend := [] }) s

/-- CLOSE: A connection control command moves an end to Closing, gives in-flight operations up to CLOSE_TIMEOUT, and sends CLOSE_REQ (R118). -/
def execClose (p obj : Nat) (s : State) : Res :=
  connControl s p 0x2 obj none fun s =>
    withEndOf s p obj fun e =>
      match e.state with
      | .open_ =>
        (resPending, obj, closeIfIdle obj
          (toClosing obj s))
      | .broken =>
        (resPending, obj, closeIfIdle obj
          (toClosing obj s))
      | _ => (resBusy, obj, s)

/-- REESTABLISH: A connection control command sends a CONNECT_REQ under a new epoch for a Broken or idle Open end (R118). -/
def execReestablish (p obj : Nat) (s : State) : Res :=
  connControl s p 0x3 obj none fun s =>
    withEndOf s p obj fun e =>
      if (e.state == .open_ && (opsOn s obj).isEmpty) || e.state == .broken then
        let (e, s) := newEnd { e with state := .connecting, tries := 0, toSend := [], unacked := [] } e.rate s
        (resPending, obj, sendConnectReq obj (setEnd obj (fun _ => e) s))
      else (resBusy, obj, s)

/-- MODIFY_CONN: A connection control command changes the SPRAY and RATE of an end, from its next packet and its next Bellows update on
(R117). -/
def execModifyConn (p obj : Nat) (desc : BitVec 512) (s : State) : Res :=
  connControl s p 0x4 obj (some desc) fun s =>
    withEndOf s p obj fun _ =>
      let d := lowDesc desc
      if ConnDesc.spray d == 3 then (resInvalid, obj, s)
      else (resDone, obj, setEnd obj (fun e => { e with spray := ConnDesc.spray d, rateSet := some (ConnDesc.rate d) }) s)

def CState.code (c : CState) : Nat :=
  match c with
  | .free => 0
  | .connecting => 1
  | .open_ => 2
  | .broken => 3
  | .closing => 4

/-- What READ_CONN fills in (R117). -/
def readConnDesc (e : End) : BitVec 512 :=
  BitVec.ofNat 512 (pack [(252, e.state.code), (244, e.cause), (242, e.spray), (236, e.part), (216, e.pasid), (200, e.localEp),
    (184, e.peerEp), (168, e.epoch), (148, e.peerHandle), (96, e.nextPsn), (64, e.acked), (32, e.rate % m32), (0, e.recvThrough)])

/-- READ_CONN: A connection control command fills the descriptor with an end's state (R117). -/
def execReadConn (p obj : Nat) (s : State) : Res :=
  connControl s p 0x5 obj none fun s =>
    withEndOf s p obj fun e => (resDone, obj, setConnWindow p (fun w => { w with desc := readConnDesc e }) s)

/-- CONN_COMMAND_RESERVED: A connection control command word with a reserved COMMAND code ends with INVALID (R117). -/
def execConnCommandReserved (p code obj : Nat) (s : State) : Res :=
  connControl s p (code % 16) (obj % 2 ^ 20) none fun s => (resInvalid, obj % 2 ^ 20, s)

/-! ## The setup service (R118 to R121, R401) -/

/-- The partition a request reaches at a target endpoint, none where it is refused (R121, R401). -/
def targetPartition (s : State) (r : SetupReq) : Option Nat :=
  let own := isOwn s r.fromEp
  let e := epE r.toEp
  let joined := fun p => (partOf s p).enabled && (if own then p == r.part || (e ≤ 7 && (partOf s p).domain == r.domain && r.domain != 0)
    else (partOf s p).domain == r.domain && r.domain != 0)
  if e ≤ 7 then
    let a := tgetD s.link.accel e {}
    match a.owner with
    | some p => if !a.inReset && joined p then some p else none
    | none => none
  else if e ≤ 9 then
    if own then (if (partOf s r.part).enabled then some r.part else none)
    else (List.range 12).find? joined
  else none

/-- The engine die of a new target end: the owner of an accelerator endpoint, else the populated die with the fewest open ends, the
lowest of equals (R111, log 14, DESIGN CHOICE). -/
def targetDie (s : State) (toEp : Nat) : Nat :=
  if epE toEp ≤ 7 then ownerDie s (epE toEp)
  else (leastBy (openEndsOn s) ((List.range (engineDies s)).filter (dieUp s))).getD 0

/-- The greater of two epochs over a distance below 2^15 (R119). -/
def laterEpoch (a b : Nat) : Nat := if after 16 a b then a else b


/-- CONNECT_ACK: the epoch both ends take, the target's handle and its initial PSN. -/
def ackReq (r : SetupReq) (h epoch psn : Nat) (s : State) : State := sendConn kConnectAck r.fromEp r.fromHandle epoch r.mgmt [h, psn] s

/-- What an end keeps through an establishment; its halves start afresh (R118, R119). -/
def End.identity (e : End) : End :=
  { initiator := e.initiator, localEp := e.localEp, peerEp := e.peerEp, peerHandle := e.peerHandle, part := e.part, pasid := e.pasid,
    spray := e.spray, mgmt := e.mgmt, coll := e.coll, established := e.established, rate := e.rate, nextPsn := e.nextPsn,
    firstPsn := e.firstPsn, acked := e.acked }

/-- Accept a request on an end: the epoch both ends take, fresh halves, and the acknowledgement. -/
def acceptEnd (h : Nat) (e : End) (r : SetupReq) (s : State) : State :=
  let ep := laterEpoch (r.epoch % m16) ((epochOf s h + 1) % m16)
  let s := setEpoch h ep s
  let (e, s) := newEnd { e.identity with
    state := .open_, epoch := ep, reqEpoch := r.epoch, recvThrough := sub32 r.psn 1, lastHeard := s.time.now,
                      orphanFor := cfg s 0x4100 0xA * ms, peerHandle := r.fromHandle, established := true } (cfg s 0x4101 1) s
  let s := addEnd h e (dropArrivals h s)
  ackReq r h ep e.nextPsn s

/-- A fresh CONNECT: checks, a new target end, or a refusal; a partition or slice under reset refuses (R409). -/
def freshConnect (r : SetupReq) (s : State) : State :=
  let p := if r.mgmt then (if epE r.toEp == 9 && epE r.fromEp == 9 then some 0xF else none) else targetPartition s r
  match p with
  | none => nak r resRefused s
  | some p =>
    if !r.mgmt && (!(r.pasid == 0 || (partOf s p).slices.contains r.pasid) || !partUp s p || (tget (partOf s p).resets (r.pasid + 1)).isSome)
    then nak r resRefused s
    else
      let die := targetDie s r.toEp
      let quota := if r.mgmt then Nat.blt (s.conn.ends.filter fun e => e.2.mgmt).length 4096 else Nat.blt (partEndsOn s die p) (partOf s p).quotaEnds
      match freeHandle s die (some r.fromHandle) with
      | some h =>
        if quota then
          acceptEnd h { initiator := false, localEp := r.toEp, peerEp := r.fromEp, part := p, pasid := r.pasid, spray := r.spray, mgmt := r.mgmt,
                          coll := r.coll.map fun x => (x.1, x.2.1, x.2.2.2, x.2.2.1) } r s
        else nak r resNoResource s
      | none => nak r resNoResource s

/-- The end that an establishment already made. -/
def madeBy (s : State) (r : SetupReq) : Option (Nat × End) :=
  s.conn.ends.find? fun e => !isEdge e.1 && !e.2.initiator && e.2.isOpen && e.2.peerEp == r.fromEp && e.2.peerHandle == r.fromHandle && e.2.reqEpoch == r.epoch

/-- What the setup service does with a request (R119 to R121; log 77, DEDUCED). -/
def serveReq (r : SetupReq) (s : State) : State :=
  if (coord s).isNone || !isOwn s r.toEp then s
  else
    match madeBy s r with
    | some (h, e) => ackReq r h e.epoch e.firstPsn s
    | none =>
      match r.target with
      | some h =>
        match tget s.conn.ends h with
        | some e =>
          if !isEdge h && !e.initiator && e.isOpen && e.peerEp == r.fromEp && e.peerHandle == r.fromHandle then acceptEnd h e r s
          else freshConnect r s
        | none => freshConnect r s
      | none => freshConnect r s

/-- The setup service takes the CONNECT_REQ that has come to it (R120). -/
def execConnectReq (r : SetupReq) (s : State) : Res := .next (atHub kConnectReq (fun p => reqOf p == r) (serveReq r) s)

/-! ## The initiator end (R118 to R120) -/

/-- A CONNECT_ACK says this (log 47, DESIGN CHOICE). -/
def ackSays (h peerHandle epoch psn : Nat) (p : Packet) : Bool :=
  Hdr.handle p.hdr == h && setupWord p 0 == peerHandle && Hdr.epoch p.hdr == epoch && setupWord p 1 == psn

/-- A CONNECT_NAK says this. -/
def nakSays (h : Nat) (noResource : Bool) (p : Packet) : Bool := Hdr.handle p.hdr == h && (setupWord p 0 == resNoResource) == noResource

/-- A CLOSE_REQ says this. -/
def closeSays (h fromEp fromHandle epoch : Nat) (p : Packet) : Bool :=
  Hdr.handle p.hdr == h && setupWord p 0 == fromEp && setupWord p 1 == fromHandle && Hdr.epoch p.hdr == epoch

/-- A RESET names this end and epoch. -/
def resetSays (h epoch : Nat) (p : Packet) : Bool := Hdr.handle p.hdr == h && Hdr.epoch p.hdr == epoch

/-- Close every connection of a list of handles; one not yet open is given up, and what is still under way on an open one ends (R195, R216;
log 111, DESIGN CHOICE). -/
def closeConns (hs : List Nat) (s : State) : State :=
  (hs.filter fun h => (endOf s h).live).foldl (fun s h =>
    if (endOf s h).state == .connecting then
      let s := uncache h s
      { s with conn := { s.conn with ends := tdel s.conn.ends h } }
    else sendCloseReq h (setEnd h (fun e => { e with state := .closing, tries := 0, toSend := [] }) (endTransfersOn h stTransportTimeout s))) s

/-- A verified schedule whose connections are all open is resident (R214, R472). -/
def settleSlot (n : Nat) (s : State) : State :=
  match tget s.coll.slots n with
  | some x =>
    if x.opening && x.conns.all fun c => (endOf s c.2).isOpen then
      extendMeasure 7 (BitVec.ofNat 256 (fld x.hdr 255 0))
        { s with coll := { s.coll with slots := tset s.coll.slots n { x with state := .resident, opening := false } } }
    else s
  | none => s

/-- A load whose connections cannot be opened ends with NO_RESOURCE (R214; log 21, DEDUCED). -/
def refuseSlot (n : Nat) (s : State) : State :=
  match tget s.coll.slots n with
  | some x =>
    if !x.opening then s
    else closeConns (x.conns.map (·.2)) { s with coll := { s.coll with slots := tset s.coll.slots n { state := .refused } } }
  | none => s

/-- A Connecting end leaves for Free and its window gets a result; a group's connection keeps it Forming, a schedule's refuses the load. -/
def connectFails (h res : Nat) (s : State) : State :=
  let e := endOf s h
  let s := uncache h s
  let s := { s with conn := { s.conn with ends := tdel s.conn.ends h } }
  let s := match e.coll with
    | some (g, 0, _, _) => record 3 0x5001 0xF (dieOfEnd h) [g] s
    | some (_, n + 1, _, _) => refuseSlot n s
    | none => s
  answerOpen e h res s

/-- What CONNECT_ACK does: the PSN the CONNECT_REQ carried stays the initial PSN. -/
def connectAck (h peerHandle epoch psn : Nat) (s : State) : State :=
  let e := endOf s h
  if !e.initiator || e.state != .connecting then s
  else
    let s := setEpoch h epoch s
    let rate := if e.rate == 0 then cfg s 0x4101 1 else e.rate
    let s := setEnd h (fun _ => { e.identity with
      state := .open_, peerHandle := peerHandle % 2 ^ 20, established := true, epoch := epoch % m16, acked := sub32 e.nextPsn 1,
      nextOp := e.nextOp, recvThrough := sub32 psn 1, lastHeard := s.time.now, rate := rate }) s
    let s := match e.coll with
      | some (_, n + 1, _, _) => settleSlot n s
      | _ => s
    answerOpen e h resDone s

/-- CONNECT_ACK: an initiator end in Connecting receives CONNECT_ACK and becomes Open (R118). -/
def execConnectAck (h peerHandle epoch psn : Nat) (s : State) : Res := .next <|
  atHub kConnectAck (ackSays h peerHandle epoch psn) (connectAck h peerHandle epoch psn) s

/-- CONNECT_NAK: an initiator end in Connecting receives CONNECT_NAK and returns to Free with REFUSED or NO_RESOURCE (R118). -/
def execConnectNak (h : Nat) (noResource : Bool) (s : State) : Res := .next <|
  atHub kConnectNak (nakSays h noResource) (fun s =>
    let e := endOf s h
    if e.initiator && e.state == .connecting then connectFails h (if noResource then resNoResource else resRefused) s else s) s

/-- CONNECT_TIMEOUT: CONNECT_TIMEOUT passes without an answer; the CONNECT_REQ is resent, or after the fourth send the end is freed with UNREACHABLE (R120). -/
def execConnectTimeout (h : Nat) (s : State) : Res := .next <|
  let e := endOf s h
  when_ (running s && e.initiator && e.state == .connecting && inCache s h && due s e.triedAt e.tryFor) s <|
    if e.tries < 4 then sendConnectReq h s else connectFails h resUnreachable s

/-- CLOSE_REQ for a target end: it closes, its epoch advances; a Free end or an old epoch changes nothing (R118). -/
def execCloseReq (h fromEp fromHandle epoch : Nat) (s : State) : Res := .next <|
  atHub kCloseReq (closeSays h fromEp fromHandle epoch) (fun s =>
    let e := endOf s h
    let s := if e.live && !e.initiator && e.epoch == epoch then freeEnd h s else s
    sendConn kCloseAck fromEp fromHandle epoch e.mgmt [] s) s

/-- A Closing end becomes Free and its CLOSE gets a result. -/
def closeEnds (h res : Nat) (s : State) : State :=
  let e := endOf s h
  let s := uncache h s
  answerOpen e h res { s with conn := { s.conn with ends := tdel s.conn.ends h } }

/-- CLOSE_ACK: A Closing initiator end receives CLOSE_ACK and becomes Free with DONE (R118). -/
def execCloseAck (h : Nat) (s : State) : Res := .next <|
  atHub kCloseAck (fun p => Hdr.handle p.hdr == h) (fun s =>
    let e := endOf s h
    if e.initiator && e.state == .closing && !e.closeWait then closeEnds h resDone s else s) s

/-- CLOSE_TIMEOUT: CLOSE_TIMEOUT passes; in-flight operations end with TRANSPORT_TIMEOUT, or CLOSE_REQ is resent, or after the fourth send the end is freed with UNCONFIRMED (R118). -/
def execCloseTimeout (h : Nat) (s : State) : Res := .next <|
  let e := endOf s h
  when_ (running s && e.initiator && e.state == .closing && inCache s h && due s e.triedAt e.tryFor) s <|
    if e.closeWait then sendCloseReq h (endOpsWith h stTransportTimeout s)
    else if e.tries < 4 then sendCloseReq h s
    else closeEnds h resUnconfirmed s

/-! ## Orphans, hold-off and fills (R114 to R116, R123) -/

/-- An end holds an arrival record that is not complete. -/
def hasOpenArrival (s : State) (h : Nat) : Bool := s.conn.arrivals.any fun e => e.1 / m24 == h && !e.2.complete

/-- ORPHAN_TIMEOUT: A target end with an incomplete arrival record has heard nothing for ORPHAN_TIMEOUT and closes itself (R123). -/
def execOrphanTimeout (h : Nat) (s : State) : Res := .next <|
  let e := endOf s h
  when_ (running s && e.isOpen && !e.initiator && inCache s h && hasOpenArrival s h && due s e.lastHeard e.orphanFor) s <|
    closeTarget h s

/-- EPOCH_HOLDOFF_END: 5 ms after a cold or warm reset, the connection engine starts accepting DATA, REQUEST and RESPONSE packets (R116). -/
def execEpochHoldoffEnd (s : State) : Res := .next <|
  let ok := match s.conn.holdoff with
    | some t => Nat.ble t s.time.now
    | none => false
  when_ (running s && ok) s { s with conn := { s.conn with holdoff := none } }

/-- An end is filled into the cache of its die, or the fill meets an uncorrectable error and the end is Broken (R114, R115). -/
def execConnectionFill (h : Nat) (bad : Bool) (s : State) : Res := .next <|
  let e := endOf s h
  when_ (running s && e.live && !inCache s h) s <|
    let s := tally 0x16 1 { die := dieOfEnd h, part := e.part } s
    if bad then
      let s := record 3 0x4001 e.part (dieOfEnd h) [h] s
      if e.initiator then breakEnd h stMediaError s
      else bumpConn (dieOfEnd h) e.part 7 1 (setEnd h (fun e => { e with state := .broken, cause := stMediaError }) s)
    else fillCache h s

end Sys2Proof.Machine
end

