-- ==== Sys2Proof/Machine/Sending.lean ====
section
/-! DEFINITION. The send half of a connection end: what may leave, packets and their resends, acknowledgements taken, timers, and
the Bellows control. -/

namespace Sys2Proof.Machine

/-! ## Counting (R496, R498, R500, R501) -/

/-- Payload bytes of a packet leave an engine die for a partition; `own` names the work queue entry they are of. -/
def countSent (die p : Nat) (d : Desc) (own : Bool) (n : Nat) (s : State) : State :=
  let w := (findOp s d.wq d.idx).map (·.wqe)
  let who : Who := if own then
      { die := die, part := p, queue := d.wq, layer := (w.map Wqe.layer).getD 0xFFFF, operator := (w.map Wqe.operator).getD 0xFFFF }
    else { die := die, part := p }
  let s := bumpPart p (37 + d.tc) n (bumpFixed die 2 n (tally 0x10 n who s))
  { s with obs := { s.obs with partBw := tmodD s.obs.partBw p {} fun b => { b with sent := b.sent + n } },
           mtr := { s.mtr with fabricBytes := tmodD s.mtr.fabricBytes p 0 (· + n) } }

/-- Payload bytes placed. -/
def countPlaced (die p tc n : Nat) (s : State) : State :=
  let s := bumpPart p (41 + tc) n (bumpFixed die 3 n (tally 0x11 n { die := die, part := p } s))
  { s with obs := { s.obs with partBw := tmodD s.obs.partBw p {} fun b => { b with placed := b.placed + n } },
           mtr := { s.mtr with fabricBytes := tmodD s.mtr.fabricBytes p 0 (· + n) } }

/-! ## The payload of a packet (R148, R247) -/

/-- A page or a run of elements from spans, gaps zero. -/
def flatten (n : Nat) (spans : List (Nat × List Byte)) : List Byte :=
  spans.foldl (fun l x => splice l x.1 x.2) (List.replicate n 0)

/-- The elements of a ROUND's packet, rounded from its records (R241, R247). -/
def roundRecords (w : Wqe) (off : Nat) (recs : List Byte) : Stored :=
  let f := formatOf w.accFmt
  let k := off / f.unit * f.perUnit
  let m : Mode := if w.accOp == opRoundSr then .philox w.imm 0 0 else .nearest
  encodeElems f m k ((List.range (recs.length / 48)).map fun i => wsValue 1 (wsOf (slice recs (48 * i) 48)))

/-- The bytes of a ROUND's packet. -/
def roundPayload (w : Wqe) (off n : Nat) (recs : List Byte) : List Byte := slice (flatten n (roundRecords w off recs).spans) 0 n

/-- The bytes a packet carries, read now from where they lie. -/
def payloadOf (s : State) (d : Desc) (ext : List Byte) : List Byte :=
  if d.src.isEmpty then d.body
  else
    let b := readPieces s d.src ext
    match findOp s d.wq d.idx with
    | some o => if isRound o.wqe && d.kind == kData && d.opcode == opPutAcc then roundPayload o.wqe d.offset d.plen b else b
    | none => b

/-- A ROUND's packet counts its records rounded and the MX blocks whose scale saturated (R235, R266). -/
def countRound (h : Nat) (d : Desc) (ext : List Byte) (s : State) : State :=
  match findOp s d.wq d.idx with
  | some o =>
    if isRound o.wqe && d.kind == kData && d.opcode == opPutAcc then
      let e := endOf s h
      let n := elemAt o.wqe.accFmt d.plen
      let s := bumpArith (dieOfEnd h) e.part 4 (roundRecords o.wqe d.offset (readPieces s d.src ext)).saturated s
      let s := bumpArith (dieOfEnd h) e.part 1 n s
      if o.wqe.accOp == opRoundSr then bumpArith (dieOfEnd h) e.part 2 n s else s
    else s
  | none => s

/-- First offset and length of the tile a packet's bytes lie in. -/
def tileSpanOf (off len code : Nat) : Nat × Nat :=
  let t := 2 ^ (code + 11)
  (off / t * t, min t (len - off / t * t))

/-- The bytes of a tile from an offset on are withdrawn with a status (R148, R566). -/
def failSource (h : Nat) (d : Desc) (off status : Nat) (s : State) : State :=
  let (t0, tl) := tileSpanOf d.offset d.length d.tile
  withdrawRest h d.opnum off (t0 + tl - off) status (fun _ => 0) s

/-- The status a packet's source ends its tile with, where it cannot be read; the device address of the unit, if it is one. -/
def sourceFault (s : State) (d : Desc) : Option (Nat × Option Nat) :=
  match badOffset s d.src 0 with
  | some (_, a) => some (stMediaError, some a)
  | none =>
    match pathState s false d.src with
    | .dead x => some (x, none)
    | _ => none

/-- Bytes of a packet whose source lies before the failing 64-byte unit: whole elements of a ROUND's records (R247, R566). -/
def wholeBefore (s : State) (d : Desc) : Nat :=
  match badOffset s d.src 0 with
  | some (o, a) =>
    let k := o - a % 64
    (match findOp s d.wq d.idx with
     | some x =>
       if isRound x.wqe && d.kind == kData && d.opcode == opPutAcc then
         let f := formatOf x.wqe.accFmt
         min d.plen (k / 48 / f.perUnit * f.unit)
       else min d.plen k
     | none => min d.plen k)
  | none => 0

/-- The packet that waits first is cut before the failing unit of its source: the bytes before it are sent, the rest is a packet of its
own (R566). -/
def cutHead (h : Nat) (d : Desc) (k : Nat) (s : State) : State :=
  let n := match findOp s d.wq d.idx with
    | some x => if isRound x.wqe && d.kind == kData && d.opcode == opPutAcc then localOffset x.wqe (d.offset + k) - localOffset x.wqe d.offset else k
    | none => k
  let most := d.src.foldl (fun a p => a + p.len) 0
  let front := { d with plen := k, last := false, src := subPieces d.src 0 n }
  let back := { d with offset := d.offset + k, plen := d.plen - k, src := subPieces d.src n (most - n) }
  setEnd h (fun e => { e with toSend := match e.toSend with
    | _ :: t => front :: back :: t
    | [] => [] }) s

/-- The launch of a work queue entry. -/
def launchOn (gr : Group) (wq idx : Nat) : Option Launch := gr.launches.find? fun l => l.wq == wq && l.idx == idx

/-- The packets of a local member's tile on trees from one on are withdrawn, and the member's own outcome has the failure (R148, R566). -/
def failTree (g : Nat) (d : Desc) (status : Nat) (s : State) : State :=
  let (t0, tl) := tileSpanOf d.offset d.length d.tile
  let s := match launchOn (groupOf s g) d.wq d.idx with
    | some l => collReceived g l.rank l.seq 0 0 (some (Form.dstBase d.form + d.offset, status, 0)) [] s
    | none => s
  withdrawTree d.wq d.idx (fun x => x.opcode == d.opcode && Form.dstBase x.form == Form.dstBase d.form && Nat.ble d.offset x.offset
    && Nat.blt x.offset (t0 + tl)) status (fun _ => 0) s

/-- A packet's source cannot be read: from the failing unit on where it waits to be sent, from its first byte where it holds a PSN or
waits on a tree edge, its tile is withdrawn (R148, R566; log 42, DEDUCED). -/
def faultSource (h : Nat) (d : Desc) (fresh : Bool) (f : Nat × Option Nat) (s : State) : State :=
  let k := if fresh then wholeBefore s d else 0
  let s := match f.2 with
    | some a => mediaError a s
    | none => s
  if isEdge h then failTree (edgeOf s h).group d f.1 s else
  failSource h d (d.offset + k) f.1 (if k == 0 then s else cutHead h d k s)

/-! ## Sending (R130, R135, R139, R151, R155) -/

/-- Atomics sent whose results have not come (R139). -/
def atomicsOut (s : State) (h : Nat) (e : End) : Nat :=
  ((opsOn s h).filter fun x => isAtomic x.2.wqe.opcode && !(e.toSend.any fun d => d.opnum == x.2.opnum)).length

/-- An earlier operation of the end, or this one's data, still waits for a walk: connection order is posting order (R47, R282). -/
def orderWaits (s : State) (h : Nat) (d : Desc) : Bool :=
  (opsOn s h).any fun x => x.2.walking && (after 24 d.opnum x.2.opnum || (d.opnum == x.2.opnum && d.kind == kRequest && sendsData x.2.wqe.opcode))

/-- A send half may send its next packet. -/
def maySend (s : State) (h : Nat) (e : End) (d : Desc) : Bool :=
  let dist := sub32 e.nextPsn e.acked
  e.isOpen && inCache s h && !underHold s e && Nat.blt dist (min e.window 65536) && (e.reach.isNone || Nat.ble dist 256)
    && !(e.initiator && orderWaits s h d)
    && !(d.kind == kRequest && (d.opcode == opFadd || d.opcode == opCswap) && Nat.ble 16 (atomicsOut s h e))
    && mayPace s e d.tc
    && pathState s false d.src == .go

/-- Send a new packet: it takes the next PSN (R127, R130). -/
def sendNew (h : Nat) (d : Desc) (rest : List Desc) (ext : List Byte) (s : State) : State :=
  let e := endOf s h
  let b := payloadOf s d ext
  let s := noteReads d.src s
  let psn := e.nextPsn
  let u : Unacked := { psn := psn, desc := d, sent := s.time.now, timer := rtoOf s e }
  let s := setEnd h (fun e => chargeSend s d.tc b.length
    { e with toSend := rest, nextPsn := add32 psn 1, unacked := e.unacked ++ [u], lastSent := s.time.now }) s
  let s := onOp d.wq d.idx (fun o =>
    if e.initiator && o.handle == h && o.opnum == d.opnum && o.readAt == 0 then stampOp s d.wq (fun o t => { o with readAt := t }) o else o) s
  -- what an edge sends was counted when it entered the tree
  let s := if (d.kind == kData || d.kind == kResponse) && !isEdge h then countSent (dieOfEnd h) e.part d (e.initiator && d.src != []) b.length s else s
  let s := countRound h d ext s
  sendFrom h d psn b (touch h s)

/-- SEND_PACKET: A send half sends its next sequenced packet once window, rate and reach allow (R130). -/
def execSendPacket (h : Nat) (ext : List Byte) (s : State) : Res := .next <|
  let e := endOf s h
  match e.toSend with
  | [] => s
  | d :: rest =>
    if !running s || !e.live then s
    else
      match sourceFault s d with
      | some f => (if inCache s h then faultSource h d true f s else s)
      | none => (when_ (maySend s h e d) s (sendNew h d rest ext s))

/-- The source of a waiting packet, or of one that is resent, meets an uncorrectable error (R148; log 42, DEDUCED). -/
def execSourceReadError (h : Nat) (psn : Option Nat) (s : State) : Res := .next <|
  let e := endOf s h
  let d := match psn with
    | some n => (e.unacked.find? fun (u : Unacked) => u.psn == n).map Unacked.desc
    | none => e.toSend.head?
  match d with
  | some d =>
    match badOffset s d.src 0 with
    | some (_, a) => (when_ (running s && e.isOpen && inCache s h) s (faultSource h d psn.isNone (stMediaError, some a) s))
    | none => s
  | none => s

/-! ## Resends (R142 to R144) -/

/-- The engine die whose TC1 resends a packet's counts with: on a tree edge the one of the member's queue, or the first where a port die
forwards (R227; log 109, DESIGN CHOICE). -/
def resendDie (s : State) (h : Nat) (d : Desc) : Nat := if !isEdge h then dieOfEnd h else if d.mine then dieOfWq d.wq else firstEngine s

/-- Resend one packet under its own PSN, its data read again; each resend doubles its timer (R143, R147, R148). -/
def resendOne (h : Nat) (u : Unacked) (count hop : Bool) (ext : List Byte) (s : State) : State :=
  let e := endOf s h
  match sourceFault s u.desc with
  | some f => faultSource h u.desc false f s
  | none =>
    if pathState s false u.desc.src != .go then s
    else
      let b := payloadOf s u.desc ext
      let s := noteReads u.desc.src s
      let s := setEnd h (fun e => chargeSend s u.desc.tc b.length { e with unacked := e.unacked.map fun x =>
        if x.psn == u.psn then { x with sent := s.time.now, timer := timerOf s e (x.backoff + 1), resent := true, hopped := x.hopped || hop,
                                        resends := if count then x.resends + 1 else x.resends, backoff := x.backoff + 1 }
        else x }) s
      let s := bumpConn (dieOfEnd h) e.part 5 1 (tally 0x12 1 { die := dieOfEnd h, part := e.part } s)
      let s := if u.desc.tc == 1 then bumpColl (resendDie s h u.desc) e.part 7 1 s else s
      sendFrom h u.desc u.psn b s

/-- Resend packets in PSN order as the pace lets them go; bytes from outside come from `ext` in order. -/
def resendAll (h : Nat) (count hop : Bool) : List Unacked → List Byte → State → State
  | [], _, s => s
  | u :: t, ext, s =>
    resendAll h count hop t (ext.drop (outsideLen u.desc.src)) (if mayPace s (endOf s h) u.desc.tc then resendOne h u count hop ext s else s)

/-- A packet was resent within the last RTO_MAX: under a hold no other is (R135). -/
def resentLately (s : State) (e : End) : Bool := e.unacked.any fun u => u.resent && !due s u.sent e.holdFor

/-- Unacknowledged packets within reach whose deadline has passed; under a hold one per RTO_MAX (R135, R142). -/
def overdue (s : State) (e : End) : List Unacked :=
  let l := e.unacked.filter fun u => Nat.ble (sub32 u.psn e.acked) 256 && due s u.sent u.timer
  if !underHold s e then l else if resentLately s e then [] else l.take 1

/-! ## Packets of tree edges (R254, R255) -/

/-- A copy of a packet that came by an edge is still to be sent or acknowledged. -/
def originOpen (s : State) (h psn : Nat) : Bool :=
  let p := fun (d : Desc) => d.origin == some (h, psn)
  s.conn.ends.any fun x => isEdge x.1 && (x.2.toSend.any p || x.2.unacked.any fun u => p u.desc)

/-- A local member's transfers on trees have all ended: its input gives up its translations (R177). -/
def settleMember (g : Nat) (d : Desc) (s : State) : State :=
  if !d.mine || treeBusy s d.wq d.idx then s else settleColl g d.wq d.idx s

/-- A packet of an edge is acknowledged: a slot is free, the packet it forwards is acknowledged in its turn, a member's transfer ends. -/
def edgeDone (h : Nat) (d : Desc) (s : State) : State :=
  let s := if d.slot == 0 then s else { s with ar := { s.ar with slots := s.ar.slots.filter fun x => x.number != d.slot } }
  let s := match d.origin with
    | some (k, psn) => if originOpen s k psn then s else ungate k psn s
    | none => s
  settleMember (edgeOf s h).group d s

/-- A packet of an edge that has broken reaches nobody: a slot's partial is lost, a member's transfer fails, and what it forwards is never
acknowledged (R144, R255; log 110, DEDUCED). -/
def edgeLost (h : Nat) (d : Desc) (s : State) : State :=
  let s := if d.slot == 0 then s else { s with ar := { s.ar with slots := s.ar.slots.filter fun x => x.number != d.slot } }
  if !d.mine then s
  else
    let g := (edgeOf s h).group
    match launchOn (groupOf s g) d.wq d.idx with
    | some l => settleMember g d (collReceived g l.rank l.seq 0 0 (some (Form.dstBase d.form + d.offset, stTransportTimeout, 0)) [] s)
    | none => s

/-- An edge breaks at its retry limit. -/
def breakEdge (h : Nat) (s : State) : State :=
  let e := endOf s h
  let s := setEnd h (fun e => { e with state := .broken, cause := stTransportTimeout, toSend := [], unacked := [] }) s
  (e.unacked.map Unacked.desc ++ e.toSend).foldl (fun s d => edgeLost h d s) s

/-- A packet waits to be sent on an edge. -/
def queueEdge (h : Nat) (d : Desc) (s : State) : State :=
  if (endOf s h).isOpen then setEnd h (fun e => { e with toSend := e.toSend ++ [d] }) s else edgeLost h d s

/-- The end gives up: Broken at an initiator and on an edge, closed at a target (R144). -/
def giveUp (h : Nat) (s : State) : State :=
  if isEdge h then breakEdge h s else if (endOf s h).initiator then breakEnd h stTransportTimeout s else closeTarget h s

/-- RETRANSMIT_TIMER: the timer of a send half, of a connection or of a tree edge, expires and it resends every overdue packet within reach
(R142, R255). -/
def execRetransmitTimer (h : Nat) (edge : Bool) (ext : List Byte) (s : State) : Res := .next <|
  let e := endOf s h
  let l := overdue s e
  when_ (running s && isEdge h == edge && e.isOpen && inCache s h && !l.isEmpty) s <|
    if counting s e && l.any fun u => Nat.ble (cfg s 0x4100 3) u.resends then giveUp h s
    else resendAll h (counting s e) false l ext s

/-! ## What an acknowledgement does (R132, R139, R141, R142) -/

/-- Tiles of sending operations none of whose packets is left give up their translations (R177; log 46, DEDUCED). -/
def settlePuts (h : Nat) (s : State) : State :=
  let e := endOf s h
  (opsOn s h).foldl (fun s x =>
    let o := x.2
    if !sendsData o.wqe.opcode then s
    else onOp x.1 o.idx (fun o => { o with tiles := o.tiles.map fun t =>
      let mine := fun (d : Desc) => d.opnum == o.opnum && d.kind != kRequest && Nat.ble t.off d.offset && Nat.blt d.offset (t.off + t.len)
      if t.st == .holding && !(e.toSend.any mine) && !(e.unacked.any fun u => mine u.desc) then { t with st := .finished } else t }) s) s

/-- Target side: GET records whose responses are all acknowledged are done with, and results of acknowledged atomics leave the
store (R139, R177). -/
def settleGets (h : Nat) (s : State) : State :=
  let e := endOf s h
  let busy := fun n => (e.toSend.any fun d => d.opnum == n && d.opcode == opGet) || e.unacked.any fun u => u.desc.opnum == n && u.desc.opcode == opGet
  { s with conn := { s.conn with arrivals := tkeep s.conn.arrivals fun k a =>
      !(k / m24 == h && a.opcode == opGet && Nat.ble a.length (a.placed + a.refused) && !busy (k % m24)) } }

/-- Operation numbers of the done records in a payload. -/
def doneNums (b : List Byte) : List Nat := (List.range (b.length / 16)).map fun i => field b (16 * i) 3

/-- Take packets as acknowledged: acked-through moves up to the first that is not, and every timer left returns to RTO when it
moves (R142, R143). -/
def takeAcked (h : Nat) (p : Unacked → Bool) (s : State) : State :=
  let e := endOf s h
  let gone := e.unacked.filter p
  let left := e.unacked.filter fun u => !p u
  let acked := match left with
    | u :: _ => sub32 u.psn 1
    | [] => sub32 e.nextPsn 1
  let moved := acked != e.acked
  let freed := gone.flatMap fun u => if u.desc.kind == kResponse && u.desc.opcode == 0 then doneNums u.desc.body else []
  let s := setEnd h (fun e => { e with
    acked := acked, unacked := if moved then left.map fun u => { u with backoff := 0, timer := rtoOf s e } else left,
                                atomics := e.atomics.filter fun a => !freed.contains a.1,
                                reach := match e.reach with
      | some r => if after 32 acked r then none else some r
      | none => none }) s
  if isEdge h then gone.foldl (fun s u => edgeDone h u.desc s) s
  else if (endOf s h).initiator then closeIfIdle h (settlePuts h s) else settleGets h s

/-- Samples kept: those of the last BASE_WINDOW (R153). -/
def recent {α : Type} (s : State) (l : List (Nat × α)) : List (Nat × α) := l.filter fun x => !due s x.1 (cfg s 0x4101 9 * us)

def leastNat : List Nat → Option Nat
  | [] => none
  | a :: t =>
    match leastNat t with
    | some b => some (min a b)
    | none => some a

def leastInt : List Int → Option Int
  | [] => none
  | a :: t =>
    match leastInt t with
    | some b => some (min a b)
    | none => some a

/-- A round-trip sample (R141); it enters base RTT unless the delay is suspect (R153). Its quotients are cut to whole ns
(log 99, DESIGN CHOICE). -/
def takeRtt (s : State) (x : Nat) (suspect : Bool) (e : End) : End :=
  let e := if suspect then e else { e with rtts := recent s e.rtts ++ [(s.time.now, x)] }
  if e.rttValid then
    let d := if x < e.srtt then e.srtt - x else x - e.srtt
    let srtt := if x < e.srtt then e.srtt - (e.srtt - x) / 8 else e.srtt + (x - e.srtt) / 8
    { e with srtt := srtt, rttvar := if d < e.rttvar then e.rttvar - (e.rttvar - d) / 4 else e.rttvar + (d - e.rttvar) / 4 }
  else { e with srtt := x, rttvar := x / 2, rttValid := true }

/-- A signed 32-bit number. -/
def signed32 (n : Nat) : Int := if n % m32 < 2 ^ 31 then (n % m32 : Nat) else (n % m32 : Nat) - (m32 : Int)

/-- Fields of an ACK body (R132). -/
structure AckBody where
  dt : Nat
  bitmap : BitVec 256
  delay : Int
  marked : Nat
  total : Nat
  echo : Nat
  immediate : Bool
  suspect : Bool

def ackBody (b : List Byte) : AckBody :=
  let w : BitVec 512 := BitVec.ofNat 512 (ofLe (slice b 0 64))
  { dt := fld w 255 224, bitmap := BitVec.ofNat 256 (fld w 511 256), delay := signed32 (fld w 223 192), marked := fld w 191 160,
    total := fld w 159 128, echo := fld w 127 96, immediate := flag w 65, suspect := flag w 64 }

/-- An ACK covers a PSN. -/
def AckBody.covers (a : AckBody) (psn : Nat) : Bool :=
  let d := sub32 psn a.dt
  !after 32 psn a.dt || (Nat.ble d 256 && flag a.bitmap (d - 1))

/-- Packets that at least REORDER_THRESHOLD acknowledged packets of higher PSN have overtaken, and that were not resent for it
(R142; log 100, DEDUCED). -/
def overtaken (s : State) (e : End) : List Unacked :=
  e.unacked.filter fun u =>
    let above := sub32 e.nextPsn u.psn - 1
    let open_ := (e.unacked.filter fun x => after 32 x.psn u.psn).length
    !u.hopped && Nat.ble (sub32 u.psn e.acked) 256 && Nat.ble (cfg s 0x4100 4) (above - open_)

/-- Take an ACK: marks, delay, round trip, acknowledged packets, and a resend of what was overtaken. -/
def takeAck (h : Nat) (a : AckBody) (ext : List Byte) (s : State) : State :=
  let e := endOf s h
  let fresh := e.unacked.filter fun u => a.covers u.psn
  let sample := fresh.any fun u => u.sent % m32 == a.echo && !u.resent
  let x := sub32 s.time.now a.echo
  let suspect := a.suspect || timeSuspect s
  let s := setEnd h (fun e =>
    let e := rollInterval s e
    let e := { e with marked := e.marked + a.marked, total := e.total + a.total, ackMap := if after 32 e.acked a.dt then e.ackMap else a.bitmap }
    let e := if suspect then e else
      { e with delays := recent s e.delays ++ [(s.time.now, a.delay)],
               maxDelay := some (match e.maxDelay with
                 | some m => max m a.delay
                 | none => a.delay) }
    if sample then takeRtt s x suspect e else e) s
  let s := bumpPart e.part 45 a.marked (tally 0x14 a.marked { die := dieOfEnd h, part := e.part } s)
  let s := takeAcked h (fun u => a.covers u.psn) s
  let e := endOf s h
  if e.isOpen && !underHold s e then resendAll h (counting s e) true (overtaken s e) ext s else s

/-! ## HOLD and its limit (R135) -/

def takeHold (h : Nat) (s : State) : State :=
  let e := endOf s h
  let s := tally 0x15 1 { die := dieOfEnd h, part := e.part } s
  setEnd h (fun e => { e with
    hold := some s.time.now, holdFor := rtoMax s, holdStart := if underHold s e then e.holdStart else some s.time.now,
                              holdLimit := if underHold s e then e.holdLimit else cfg s 0x4100 7 * us }) s

/-- HOLD_LIMIT: A HOLD has lasted HOLD_LIMIT, and resends count again toward the retry limit (R135). -/
def execHoldLimit (h : Nat) (s : State) : Res := .next <|
  let e := endOf s h
  let late := match e.holdStart with
    | some t => due s t e.holdLimit
    | none => false
  when_ (running s && e.isOpen && inCache s h && underHold s e && late) s (setEnd h (fun e => { e with holdStart := none }) s)

/-! ## Bellows (R153 to R155) -/

/-- ⌈a ÷ b⌉. -/
def ceilDiv (a b : Nat) : Nat := (a + b - 1) / b

def windowFor (s : State) (rate rtt : Nat) : Nat :=
  min (max (ceilDiv (rate * rtt * 5) (4 * 1000 * 32768)) (cfg s 0x4101 0xA)) 65536

/-- What one update does to an end: the decrease by marks or by queueing delay, at most once an srtt, or the increase, from the RATE that
MODIFY_CONN wrote where one waits. Fractions of 1 Mb/s are cut (log 16, DEDUCED). With no round-trip sample of the last BASE_WINDOW the
window stays as it is (log 101, DESIGN CHOICE). -/
def bellows (s : State) (e : End) : End :=
  let e := { e with rate := e.rateSet.getD e.rate, rateSet := none }
  let base := leastInt ((recent s e.delays).map (·.2))
  let q : Nat := match e.maxDelay, base with
    | some m, some b => (m - b).toNat
    | _, _ => 0
  let target := cfg s 0x4101 8
  let fresh : End := { e with marked := 0, total := 0, maxDelay := none, pacedSent := false, lastUpdate := s.time.now }
  let settle := fun (rate : Nat) (e : End) =>
    let r := min (max rate (cfg s 0x4101 2)) (rateLimit s e)
    { e with rate := r, window := match leastNat ((recent s e.rtts).map (·.2)) with
      | some t => windowFor s r t
      | none => e.window }
  let again := match e.lastDecrease with
    | some t => !due s t e.srtt
    | none => false
  if e.marked != 0 || target < q then
    if again then { fresh with clean := 0 }
    else
      let cut := if e.marked != 0 then e.rate * cfg s 0x4101 4 * e.marked / (1024 * max e.total 1)
        else e.rate * cfg s 0x4101 5 * (q - target) / (1024 * max q 1)
      settle (e.rate - cut) { fresh with clean := 0, lastDecrease := some s.time.now }
  else
    let c := e.clean + 1
    settle (e.rate + cfg s 0x4101 6 * max 1 (min (c - 5) (cfg s 0x4101 7))) { fresh with clean := c }

/-- BELLOWS_UPDATE: once per update interval a send half updates its rate and window from marks and delay (R154). -/
def execBellowsUpdate (h : Nat) (s : State) : Res := .next <|
  let e := endOf s h
  when_ (running s && e.isOpen && inCache s h && e.pacedSent && !underHold s e && due s e.lastUpdate (max e.srtt 4000)) s
    (setEnd h (bellows s) s)

/-- SEND_HALF_IDLE: A send half idle for more than BASE_WINDOW clears its base delay and base RTT (R155). -/
def execSendHalfIdle (h : Nat) (s : State) : Res := .next <|
  let e := endOf s h
  when_ (running s && e.isOpen && inCache s h && due s e.lastSent (cfg s 0x4101 9 * us + 1)) s
    (setEnd h (fun e => { e with delays := [], rtts := [] }) s)

end Sys2Proof.Machine
end

