-- ==== Sys2Proof/Machine/Receiving.lean ====
section
/-! DEFINITION. The receive half of a connection end: classes of packets, checks, placement at a target and at an initiator, arrival
records, notifications, done records, acknowledgements sent. -/

namespace Sys2Proof.Machine

/-! ## NACK, HOLD and accepted packets (R129, R132 to R135) -/

/-- A NACK: the PSN it names, then its reason; the manual gives the body no layout (log 17, DESIGN CHOICE). -/
def sendNack (h psn reason : Nat) (s : State) : State := sendControl h kNack (ackTc (endOf s h).rxTc) (leBytes 8 (pack [(32, reason), (0, psn)])) s

def sendHold (h : Nat) (s : State) : State := sendControl h kHold (ackTc (endOf s h).rxTc) [] s

/-- Mark a PSN accepted and advance delivered-through over every contiguous set bit (R129). -/
def advance : Nat → End → End
  | 0, e => e
  | n + 1, e => if flag e.bitmap 0 then advance n { e with bitmap := e.bitmap >>> 1, recvThrough := add32 e.recvThrough 1 } else e

def acceptPsn (psn : Nat) (e : End) : End :=
  let d := sub32 psn e.recvThrough
  advance 256 { e with bitmap := e.bitmap ||| BitVec.ofNat 256 (2 ^ (d - 1)) }

/-- The end has heard from its peer: its orphan timer starts again (R123). -/
def heard (s : State) (e : End) : End := { e with lastHeard := s.time.now, orphanFor := cfg s 0x4100 0xA * ms }

/-- A new packet was processed; an edge's waits for its own forwarding: its PSN, its payload bytes, and whether its ACK has to wait (R129, R132, R133, R152). -/
def noteNew (h : Nat) (hdr : Hdr) (plen : Nat) (held : Bool) (s : State) : State :=
  let s := setEnd h (fun e => acceptPsn (Hdr.psn hdr)
    { heard s e with
      rxTotal := e.rxTotal + plen, rxMarked := if Hdr.mark hdr then e.rxMarked + plen else e.rxMarked, rxTc := Hdr.tc hdr,
                     rxDelay := signed32 (sub32 s.time.now (Hdr.sendTime hdr)), rxEcho := Hdr.sendTime hdr,
                     gated := if held then e.gated ++ [(Hdr.psn hdr, if isEdge h then Hdr.psn hdr else Hdr.opnum hdr)] else e.gated }) s
  if held then s else ackable h 1 s

/-! ## Classes and checks of an arriving packet (R124, R128, R131, R146) -/

/-- A packet for a target end that a reset ended is answered with RESET, at most once per 10 µs (R124). -/
def answerReset (h epoch : Nat) (s : State) : State :=
  match tget s.conn.resets h with
  | some r =>
    let quiet := match r.answered with
      | some t => !due s t 10000
      | none => false
    if r.epoch != epoch || quiet then s
    else
      sendConn kReset r.peerEp r.peerHandle r.epoch false []
        { s with conn := { s.conn with resets := tset s.conn.resets h { r with answered := some s.time.now } } }
  | none => s

/-- A failed end-to-end check: counted, answered with NACK CHECK; more than 16 in a second are recorded, once a second (R146). -/
def checkFailed (h psn : Nat) (nack : Bool) (s : State) : State :=
  let e := endOf s h
  let s := bumpConn (dieOfEnd h) e.part 4 1 s
  let l := (e.checkFails.filter fun t => !due s t sec) ++ [s.time.now]
  let quiet := match e.checkEventAt with
    | some t => !due s t sec
    | none => false
  let s := setEnd h (fun e => { e with checkFails := l }) s
  let s := if 16 < l.length && !quiet then
      setEnd h (fun e => { e with checkEventAt := some s.time.now }) (record 2 0x4003 e.part (dieOfEnd h) [h, l.length] s) else s
  if nack then sendNack h psn 2 s else s

/-- A collective's opcode (R282). -/
def collective (op : Nat) : Bool := op == ocCollPut || op == ocCollAcc || op == ocCollMcast

/-- Opcode and kind go together (R282); any other frame is dropped and counted. -/
def opcodeFits (kind op : Nat) : Bool :=
  if kind == kData then op == opPut || op == opPutNotify || op == opPutAcc || collective op
  else if kind == kRequest then op == opGet || op == opPutNotify || op == opNotify || op == opFadd || op == opCswap
  else if kind == kResponse then op == 0 || op == opGet
  else if kind == kWithdraw then op == opPut || op == opGet || op == opPutNotify || op == opPutAcc || collective op
  else op == 0

def sequenced (kind : Nat) : Bool := kind == kData || kind == kRequest || kind == kResponse || kind == kWithdraw

/-- An end takes packets: it is Open, or still gives its operations their time (R118); at any other end a packet of its epoch is dropped
and not classified (log 102, DESIGN CHOICE). -/
def End.takes (e : End) : Bool := e.isOpen || (e.state == .closing && e.closeWait)

/-- Direction: requests reach target ends, responses initiator ends (R109). -/
def directionFits (e : End) (kind : Nat) : Bool :=
  if kind == kData || kind == kRequest then !e.initiator else if kind == kResponse then e.initiator else true

/-- The next packet of its route reaches the die its HANDLE names (R21, R125, R280). -/
def reaches (p : Packet) (s : State) : Option State := (meshTake (edCode (dieOfEnd (handleOf p.hdr))) (· == p) s).map (·.2)

/-- Packets of a die that wait for the fill of their end (R114). -/
def waitingOn (s : State) (die : Nat) : Nat := (s.conn.waitFill.filter fun c => c.dst == edCode die).length

/-- A packet for an end that is not in the cache waits for its fill; past 4,096 of the die it stays on the mesh (R114). -/
def awaitFill (p : Packet) (h : Nat) (taken s : State) : State :=
  let die := dieOfEnd h
  if waitingOn s die < 4096 then
    let src := ((s.mesh.carry.find? fun c => c.dst == edCode die && c.pkt == p).map (·.src)).getD (edCode die)
    { taken with conn := { taken.conn with waitFill := taken.conn.waitFill ++ [{ src := src, dst := edCode die, pkt := p }] } }
  else s

/-- The check of R131 is made: the device is aligned or in holdover (R330). -/
def tooOld (s : State) (hdr : Hdr) : Bool :=
  !timeSuspect s && decide ((5000000 : Int) < signed32 (sub32 s.time.now (Hdr.sendTime hdr)))

/-- A packet that its end can classify: class, age and check, then what its kind does with a new one; none where the packet has to wait. -/
def classify (p : Packet) (kind h : Nat) (e : End) (act : Nat → End → Hdr → State → Option State) (s : State) : Option State :=
  let hdr := p.hdr
  let bad := trailer hdr p.route p.payload != p.crc
  if !sequenced kind then
    if bad then some (checkFailed h (Hdr.psn hdr) true s)
    else act h e hdr (setEnd h (heard s) (touch h s))
  else
    let d := sub32 (Hdr.psn hdr) e.recvThrough
    if d == 0 || Nat.ble (m32 - 65535) d || (Nat.ble d 256 && flag e.bitmap (d - 1)) then
      let s := bumpConn (dieOfEnd h) e.part 0 1 (tally 0x13 1 { die := dieOfEnd h, part := e.part } s)
      some (sendAck h true (setEnd h (fun e => { heard s e with rxEcho := Hdr.sendTime hdr, rxTc := Hdr.tc hdr }) (touch h s)))
    else if d ≤ 256 then
      if tooOld s hdr then some (bumpConn (dieOfEnd h) e.part 3 1 s)
      else if bad then some (checkFailed h (Hdr.psn hdr) true s)
      else act h e hdr (touch h s)
    else if d ≤ 65536 then some (sendNack h (Hdr.psn hdr) 1 (bumpConn (dieOfEnd h) e.part 2 1 s))
    else some (bumpConn (dieOfEnd h) e.part 3 1 s)

/-- A packet of one kind reaches the end its header names: hold-off, opcode, epoch, cache, then its class. -/
def arrive (s : State) (p : Packet) (kind : Nat) (act : Nat → End → Hdr → State → Option State) : State :=
  let hdr := p.hdr
  let h := handleOf hdr
  if !running s || Hdr.kind hdr != kind then s
  else
    match reaches p s with
    | none => s
    | some t =>
      let t' := bumpFixed (dieOfEnd h) 5 1 (leaveIdle t)
      if s.conn.holdoff.isSome && (kind == kData || kind == kRequest || kind == kResponse) then t'
      else if !opcodeFits kind (Hdr.opcode hdr) then
        { t' with conn := { t'.conn with reservedOps := tmodD t'.conn.reservedOps (dieOfEnd h) 0 (· + 1) } }
      else
        match tget s.conn.ends h with
        | none => answerReset h (Hdr.epoch hdr) t'
        | some e =>
          if Hdr.epoch hdr != e.epoch then answerReset h (Hdr.epoch hdr) (bumpConn (dieOfEnd h) e.part 1 1 t')
          else if !e.takes || !directionFits e kind || (s.fab.fenced.contains e.localEp && !e.mgmt && !isEdge h) then t'
          else if !inCache s h then awaitFill p h t s
          else (classify p kind h e act t').getD s

/-! ## The checks of a remote access (R39, R173, R247) -/

/-- A region suits an endpoint: 1 for endpoint 8, 3 for endpoint 9; an accelerator endpoint reaches accelerator ports and host
memory (R173, log 18, DEDUCED). -/
def suits (e target : Nat) : Bool :=
  if e == 8 then target == 1 else if e == 9 then target == 3 else target == 0 || target == 2

/-- Check 1 of R173. -/
def remoteKeyOk (e : End) (r : BitVec 256) (key : Nat) : Bool :=
  Region.valid r && Region.tag r == keyTag key && Region.remote r && Region.part r == e.part && Region.pasid r == e.pasid
    && suits (epE e.localEp) (Region.target r)

/-- A region as the hub reads it: its table, with no cache of its own (R19, R171). -/
def hubRegion (idx : Nat) (s : State) : Option (BitVec 256) × State :=
  if unitBad s (regionUnit s idx) then (none, mediaError (regionUnit s idx) s) else (some (tgetD s.xl.regions idx 0), s)

/-- An access at an end's endpoint is the hub's to check: endpoint 9 (R19, R37). -/
def End.atHub (e : End) : Bool := epE e.localEp == 9

/-- The engine die that checks an access of an end and translates it: for endpoint 8 the die that holds the frame of its first byte, or
the end's own where that byte lies nowhere; else the end's own (R19, R111, R376; log 103, DESIGN CHOICE). -/
def checkDie (s : State) (h : Nat) (e : End) (key va : Nat) : Nat :=
  if epE e.localEp == 8 then ((placeIn s e.part e.pasid key va).map (memDie s)).getD (dieOfEnd h) else dieOfEnd h

/-- The engine die that places or performs an access: for endpoint 8 the die that holds the frame of the first piece (R376, R377, R382). -/
def placeDie (s : State) (h : Nat) (e : End) (ps : List Piece) : Nat :=
  match ps with
  | p :: _ => if epE e.localEp == 8 && p.target == 1 then memDie s p.out else dieOfEnd h
  | [] => dieOfEnd h

/-- Add to XLATE_COUNTS for an access of an end; the hub has no translation unit to count for it (R190). -/
def countXlate (e : End) (die i : Nat) (s : State) : State := if e.atHub then s else bumpXlate die e.part i 1 s

/-- The region an access of an end names, as the die that checks it reads it. -/
def regionOf (e : End) (die key : Nat) (s : State) : Option (BitVec 256) × State :=
  if e.atHub then hubRegion (keyIndex key) s else regionAt die (keyIndex key) s

/-- Checks 1 to 4 of R173 over an extent: a status with a fault address, or the pieces. -/
def remoteCheck (h : Nat) (e : End) (key va len : Nat) (right : BitVec 256 → Bool) (aligned : Bool) (s : State) :
    Sum (Nat × Nat) (List Piece) × State :=
  let die := checkDie s h e key va
  match regionOf e die key s with
  | (none, s) => (.inl (stMediaError, 0), s)
  | (some r, s) =>
  let refuse := fun (st : Nat) => (Sum.inl (st, 0), countXlate e die 5 s)
  if !remoteKeyOk e r key then refuse stRemoteKey
  else if !(Nat.ble (Region.base r) va && Nat.ble (va + len) (Region.base r + Region.length r)) || !aligned then refuse stRemoteBounds
  else if !right r then refuse stRemoteRights
  else
    match xlate die e.part e.pasid (keyIndex key) r true va len s with
    | (.ok ps, s) => (.inr ps, s)
    | (.fault a, s) => (.inl (stXlateRemote, a), tally 0x22 1 { die := die, part := e.part } (countXlate e die 4 s))
    | (_, s) => (.inl (stMediaError, 0), s)

/-! ## Arrival records (R136, R137, R176) -/

def setArrival (k : Nat) (f : Arrival → Arrival) (s : State) : State :=
  { s with conn := { s.conn with arrivals := tmod s.conn.arrivals k f } }

/-- A GET of an initiator end whose data has begun to come and has not all come: its record is open (R136, R139). -/
def getOpen (o : Op) : Bool :=
  o.wqe.opcode == opGet && o.result.isNone && o.tiles.any fun t => !t.placed.isEmpty || !t.refused.isEmpty

/-- Arrival records of a die: those of its target ends, and those of the GETs of its queues (R136). -/
def arrivalsOn (s : State) (die : Nat) : Nat :=
  (s.conn.arrivals.filter fun e => dieOfEnd (e.1 / m24) == die).length +
  s.q.wqs.foldl (fun a e => if dieOfWq e.1 == die then a + (e.2.ops.filter getOpen).length else a) 0

/-- A record for an operation exists or can be opened. -/
def recordFree (s : State) (h opnum : Nat) : Bool :=
  (tget s.conn.arrivals (arrKey h opnum)).isSome || Nat.blt (arrivalsOn s (dieOfEnd h)) 65536

/-- Open the record of an operation where there is none, or add what a further frame says to it. -/
def openArrival (h : Nat) (hdr : Hdr) (xpath : Bool) (note : Option Nat) (s : State) : State :=
  let k := arrKey h (Hdr.opnum hdr)
  match tget s.conn.arrivals k with
  | some a =>
    let a' : Arrival := { a with xpath := a.xpath || xpath, note := if note.isSome then note else a.note }
    { s with conn := { s.conn with arrivals := tset s.conn.arrivals k a' } }
  | none =>
    let a : Arrival := { opcode := Hdr.opcode hdr, length := Hdr.length hdr, xpath := xpath, form := Hdr.form hdr,
                         note := note }
    { s with conn := { s.conn with arrivals := tset s.conn.arrivals k a } }

/-- The lower of two refusals. -/
def lowOf (a : Option (Nat × Nat × Nat)) (off st addr : Nat) : Option (Nat × Nat × Nat) :=
  match a with
  | some (o, x, y) => if o ≤ off then some (o, x, y) else some (off, st, addr)
  | none => some (off, st, addr)

/-- What a form G or S header says (R281). -/
structure CollHdr where
  base : Nat
  op : Nat
  fmt : Nat
  exact : Bool
  xpath : Bool
  isPartial : Bool := false
  count : Nat := 1
  note : Option Nat := none
  seq : Nat := 0

def collHdr (hdr : Hdr) : CollHdr :=
  let f := Hdr.form hdr
  if Hdr.rmode hdr == 1 then
    { base := Form.dstBase f, op := Form.sAccOp f, fmt := Form.sAccFmt f, exact := Form.sExact f, xpath := Form.sXpath f,
      note := if Form.sNotify f then some (Form.sCtr f) else none }
  else
    { base := Form.dstBase f, op := Form.gAccOp f, fmt := Form.gAccFmt f, exact := Form.gExact f, xpath := Form.gXpath f,
      isPartial := Form.gPartial f, count := max 1 (Form.gCount f), note := if Form.gNotify f then some (Form.gCtr f) else none, seq := Form.gSeq f }

/-- The frame asks for a flush at the target (R281). -/
def frameXpath (hdr : Hdr) : Bool := if collective (Hdr.opcode hdr) then (collHdr hdr).xpath else Form.xpath (Hdr.form hdr)

/-- The launch a collective's bytes belong to at a member: by the sequence bits, or the run of its schedule slot. -/
def collLaunch (s : State) (g slot1 rank seq8 : Nat) : Option Launch :=
  if slot1 == 0 then launchAt (groupOf s g) rank seq8
  else
    match tget s.coll.slots (slot1 - 1) with
    | some x =>
      match x.run with
      | some r => launchOf (groupOf s g) rank r.seq
      | none => none
    | none => none

/-- A contribution that lands in an accumulation area. -/
def CollHdr.toArea (c : CollHdr) (op : Nat) : Bool := op == ocCollAcc && exactFor c.op c.fmt c.exact

/-- Status at a target of a failure of a member's window. -/
def asRemote (st : Nat) : Nat :=
  if st == stLocalKey then stRemoteKey else if st == stLocalBounds then stRemoteBounds
  else if st == stLocalRights then stRemoteRights else if st == stXlateLocal then stXlateRemote else st

/-- Check and translate the whole tile a DATA packet belongs to (R176, R196). -/
def checkTile (h : Nat) (e : End) (hdr : Hdr) (s : State) : TileOutcome × State :=
  let op := Hdr.opcode hdr
  let (t0, tl) := tileSpanOf (Hdr.offset hdr) (Hdr.length hdr) (Hdr.tile hdr)
  let good := fun (ps : List Piece) => ({ off := t0, len := tl, status := 0, failOff := 0, addr := 0, pieces := ps } : TileOutcome)
  let refused := fun (st addr : Nat) => ({ off := t0, len := tl, status := st, failOff := t0, addr := addr, pieces := [] } : TileOutcome)
  if collective op then
    let c := collHdr hdr
    match e.coll with
    | none => (refused stRemoteKey 0, s)
    | some (g, slot1, rank, _) =>
      match collLaunch s g slot1 rank c.seq, tget (groupOf s g).joins rank with
      | some l, some j =>
        if c.toArea op then (good [], s)
        else
          match winSpan j (l.sig.outOff + c.base + t0) tl .write s with
          | (.ok ps, s) => (good ps, s)
          | (.fail st a, s) => (refused (asRemote st) a, s)
          | (.miss, s) => (refused stXlateRemote 0, s)
      | _, _ => (refused stCollMismatch 0, s)
  else
    let f := Hdr.form hdr
    let acc := op == opPutAcc
    let exact := acc && exactFor (Form.accOp f) (Form.accFmt f) (Form.exact f) && Form.accOp f != opRound && Form.accOp f != opRoundSr
    let lo := targetOffset op (Form.accOp f) (Form.accFmt f) (Form.exact f) t0
    let n := targetOffset op (Form.accOp f) (Form.accFmt f) (Form.exact f) (t0 + tl) - lo
    match remoteCheck h e (Form.rkey f) (Form.raddr f + lo) n (if acc then Region.accumulate else Region.write)
        (!exact || Form.raddr f % 16 == 0) s with
    | (.inr ps, s) => (good ps, s)
    | (.inl (st, a), s) => (refused st a, s)

/-- The outcome of a tile, made on its first packet and kept in the record. -/
def tileOutcome (h : Nat) (e : End) (hdr : Hdr) (s : State) : TileOutcome × State :=
  let k := arrKey h (Hdr.opnum hdr)
  let (t0, _) := tileSpanOf (Hdr.offset hdr) (Hdr.length hdr) (Hdr.tile hdr)
  match (tgetD s.conn.arrivals k {}).tiles.find? fun t => t.off == t0 with
  | some t => (t, s)
  | none =>
    let (t, s) := checkTile h e hdr s
    (t, setArrival k (fun a => { a with tiles := a.tiles ++ [t], low := if t.status == 0 then a.low else lowOf a.low t.off t.status t.addr }) s)

/-- Bytes of a payload up to the last whole element or page before an offset. -/
def wholeElems (fmt off : Nat) : Nat := let u := (formatOf fmt).unit; off / u * u

/-- Write a packet's payload through the pieces that hold its bytes; answers how many of its bytes were placed (R40, R43, R137,
R236, R239, R247). -/
def placePayload (h : Nat) (e : End) (hdr : Hdr) (ps : List Piece) (d ext : List Byte) (s : State) : Nat × State :=
  let op := Hdr.opcode hdr
  let die := placeDie s h e ps
  if op == ocCollAcc then
    let c := collHdr hdr
    match e.coll with
    | some (g, slot1, rank, _) =>
      match collLaunch s g slot1 rank c.seq with
      | some l =>
        let s := freshArea g rank l.seq s
        if c.toArea op then
          (d.length, accumulate e.localEp e.part g rank c.fmt (c.base + Hdr.offset hdr) c.count c.isPartial d s)
        else
          match combineOutput die e.part g rank c.op c.fmt (c.base + Hdr.offset hdr) c.count c.isPartial (!l.startFenced.isEmpty) ps d ext s with
          | (none, s) => (d.length, s)
          | (some o, s) => (wholeElems c.fmt o, s)
      | none => (0, s)
    | none => (0, s)
  else if op == opPutAcc && Form.accOp (Hdr.form hdr) != opRound && Form.accOp (Hdr.form hdr) != opRoundSr then
    let f := Hdr.form hdr
    let fmt := Form.accFmt f
    if exactFor (Form.accOp f) fmt (Form.exact f) then
      let (bad, s) := match badOffset s ps 0 with
        | some (o, a) => (some o, mediaError a s)
        | none => (none, s)
      let vs := decodeElems (formatOf fmt) d
      let vs := match bad with
        | some o => vs.take (o / 48)
        | none => vs
      let old := readPieces s ps ext
      let new := (numbered 0 vs).flatMap fun x => wsBytes (wsAdd x.2 (wsOf (slice old (48 * x.1) 48)))
      let (n, s) := storePieces ps new (noteReads ps s)
      let s := bumpArith die e.part 0 (n / 48) (tally 0x33 (n / 48) { die := die, part := e.part } s)
      if n / 48 == (decodeElems (formatOf fmt) d).length then (d.length, s)
      else (n / 48 / (formatOf fmt).perUnit * (formatOf fmt).unit, s)
    else
      let (bad, s) := match badOffset s ps 0 with
        | some (o, a) => (some (wholeElems fmt o), mediaError a s)
        | none => (none, s)
      let d' := match bad with
        | some o => d.take o
        | none => d
      let st := combineElems (Form.accOp f) (formatOf fmt) (slice (readPieces s ps ext) 0 d'.length) d'
      let (fail, s) := storeSpans ps st.spans (bumpArith die e.part 4 st.saturated (noteReads ps s))
      match fail with
      | some o => (wholeElems fmt o, s)
      | none => (d'.length, s)
  else if op == opPutAcc && (formatOf (Form.accFmt (Hdr.form hdr))).isMx then
    -- a ROUND writes no pad byte of a page (R229)
    let f := formatOf (Form.accFmt (Hdr.form hdr))
    match storeSpans ps ((numbered 0 (groups 4096 d)).map fun x => (4096 * x.1, x.2.take f.pageUsed)) s with
    | (some o, s) => (wholeElems (Form.accFmt (Hdr.form hdr)) o, s)
    | (none, s) => (d.length, s)
  else storePieces ps d s

/-- The pieces a packet's bytes go to within its tile. -/
def packetPieces (hdr : Hdr) (t : TileOutcome) (plen : Nat) : List Piece :=
  let f := Hdr.form hdr
  let op := Hdr.opcode hdr
  let at_ := fun o => if collective op then o else targetOffset op (Form.accOp f) (Form.accFmt f) (Form.exact f) o
  let lo := at_ (Hdr.offset hdr)
  subPieces t.pieces (lo - at_ t.off) (at_ (Hdr.offset hdr + plen) - lo)

/-- A write-type operation's ACK waits for its flush and its own notification (R133; log 45, DEDUCED). -/
def gatedAck (hdr : Hdr) : Bool := frameXpath hdr || Hdr.opcode hdr == opPutNotify

/-- Bytes of a collective came, or will not come, at the member an end names. -/
def collLanded (h : Nat) (hdr : Hdr) (n : Nat) (low : Option (Nat × Nat × Nat)) (paths : List FlushPath) (s : State) : State :=
  match (endOf s h).coll with
  | none => s
  | some (g, slot1, rank, _) =>
    let c := collHdr hdr
    match collLaunch s g slot1 rank c.seq with
    | none => s
    | some l =>
      let low := match low with
        | some (o, st, a) => some (c.base + o, st, a)
        | none => none
      progressAt g rank l.seq (collReceived g rank l.seq (c.base + Hdr.offset hdr) n low paths s)

/-- Count the outcome of a packet of `plen` payload bytes in its record, and what the ACK says of it. -/
def noteArrival (h : Nat) (hdr : Hdr) (t0 placed refused plen : Nat) (f : TileOutcome → TileOutcome) (low : Option (Nat × Nat × Nat))
    (paths : List FlushPath) (gated : Bool) (s : State) : State :=
  let k := arrKey h (Hdr.opnum hdr)
  let s := setArrival k (fun a => { a with
    placed := a.placed + placed, refused := a.refused + refused, tiles := a.tiles.map fun t => if t.off == t0 then f t else t,
                                    low := match low with
      | some (o, st, ad) => lowOf a.low o st ad
      | none => a.low,
                                    paths := addPaths a.paths paths }) s
  let s := setEnd h (fun e => { e with paths := addPaths e.paths paths }) s
  let s := if collective (Hdr.opcode hdr) then collLanded h hdr (placed + refused) low paths s else s
  noteNew h hdr plen gated s

/-- Count placed payload bytes: those that lie in frames of several dies at each die (R377). -/
def countPieces (h : Nat) (e : End) (tc : Nat) : List Piece → Nat → State → State
  | [], n, s => if n == 0 then s else countPlaced (dieOfEnd h) e.part tc n s
  | p :: t, n, s => countPieces h e tc t (n - p.len) (if min n p.len == 0 then s else countPlaced (placeDie s h e [p]) e.part tc (min n p.len) s)

/-- A DATA packet of a tile that was refused, whole or from an offset on: it is acknowledged and not placed, and the refusal reaches down
to it (R58, R137). -/
def refuseData (h : Nat) (hdr : Hdr) (t : TileOutcome) (plen : Nat) (gated : Bool) (s : State) : State :=
  let off := min t.failOff (Hdr.offset hdr)
  noteArrival h hdr t.off 0 plen plen (fun t => { t with got := t.got + plen, failOff := off })
    (if off < t.failOff then some (off, t.status, t.addr) else none) [] gated s

/-- A DATA packet of a tile that passed its checks: its bytes are placed up to one that cannot be (R137). -/
def placeData (p : Packet) (ext : List Byte) (h : Nat) (e : End) (hdr : Hdr) (t : TileOutcome) (ps : List Piece) (gated : Bool) (s : State) : State :=
  let plen := p.payload.length
  let (n, s) := placePayload h e hdr ps p.payload ext s
  let s := if ps.foldl (fun a q => a + q.len) 0 == plen then countPieces h e (Hdr.tc hdr) ps n s
    else countPlaced (placeDie s h e ps) e.part (Hdr.tc hdr) n s
  let paths := ps.flatMap (pathsOf s)
  if n == plen then
    noteArrival h hdr t.off n 0 plen (fun t => { t with got := t.got + plen, placed := t.placed ++ [(Hdr.offset hdr, plen)] }) none paths gated s
  else
    let off := Hdr.offset hdr + n
    noteArrival h hdr t.off n (plen - n) plen
      (fun t => { t with status := stMediaError, failOff := off, got := t.got + plen, placed := t.placed ++ [(Hdr.offset hdr, n)] })
      (some (off, stMediaError, 0)) paths gated s

/-- A new DATA packet at a target end (log 37, DEDUCED). -/
def takeData (p : Packet) (ext : List Byte) (h : Nat) (e : End) (hdr : Hdr) (s : State) : State :=
  if !recordFree s h (Hdr.opnum hdr) then sendHold h s
  else
    let s := openArrival h hdr (frameXpath hdr) (if collective (Hdr.opcode hdr) then (collHdr hdr).note else none) s
    let plen := p.payload.length
    let (t, s) := tileOutcome h e hdr s
    let gated := gatedAck hdr
    if t.status != 0 then refuseData h hdr t plen gated s
    else
      let ps := packetPieces hdr t plen
      match pathState s true ps with
      | .wait => sendHold h s
      | .dead st =>
        noteArrival h hdr t.off 0 plen plen (fun t => { t with status := st, failOff := Hdr.offset hdr, got := t.got + plen })
          (some (Hdr.offset hdr, st, 0)) [] gated s
      | .go => placeData p ext h e hdr t ps gated s

/-- DATA_PACKET: A receive half takes a DATA packet, classifies it, checks age, CRC and extent, places it and updates its bitmap and arrival record (R129). -/
def execDataPacket (p : Packet) (ext : List Byte) (s : State) : Res := .next <|
  -- a tree edge's packet is STORE_ADMISSION's or MCAST_REPLICATE's
  if isEdge (handleOf p.hdr) then s else arrive s p kData fun h e hdr s => some (takeData p ext h e hdr s)

/-! ## Requests (R39, R46, R173, R176, R283) -/

def Req.raddr (b : List Byte) : Nat := field b 24 8
def Req.rkey (b : List Byte) : Nat := field b 20 4
def Req.rcounter (b : List Byte) : Nat := bits (ofLe (slice b 0 32)) 159 140
def Req.a64 (b : List Byte) : Bool := bit (ofLe (slice b 0 32)) 129
def Req.xpath (b : List Byte) : Bool := bit (ofLe (slice b 0 32)) 128
def Req.operand (b : List Byte) : Nat := field b 8 8
def Req.low (b : List Byte) : Nat := field b 0 8

/-- A descriptor of the response direction. -/
def respDesc (hdr : Hdr) (kind off plen : Nat) : Desc :=
  { kind := kind, tc := Hdr.tc hdr, opcode := opGet, opnum := Hdr.opnum hdr, offset := off, length := Hdr.length hdr, tile := Hdr.tile hdr,
    last := off + plen == Hdr.length hdr, plen := plen }

/-- A GET request of one tile: its packets wait to be sent, or the tile is refused and withdrawn (R139, R173, R566). -/
def takeGet (b : List Byte) (h : Nat) (e : End) (hdr : Hdr) (s : State) : State :=
  let s := openArrival h hdr false none s
  let (t0, tl) := tileSpanOf (Hdr.offset hdr) (Hdr.length hdr) (Hdr.tile hdr)
  let k := arrKey h (Hdr.opnum hdr)
  let refuse := fun (st a : Nat) (s : State) =>
    let s := queueResponse h { respDesc hdr kWithdraw t0 16 with body := withdrawBody st a tl, last := false } s
    noteNew h hdr 32 false (setArrival k (fun a => { a with refused := a.refused + tl }) s)
  match remoteCheck h e (Req.rkey b) (Req.raddr b + t0) tl Region.read true s with
  | (.inl (st, a), s) => refuse st a s
  | (.inr ps, s) =>
    match pathState s false ps with
    | .dead st => refuse st 0 s
    | _ =>
      let s := (dataPackets t0 tl).foldl (fun s x =>
        queueResponse h { respDesc hdr kResponse x.1 x.2 with src := subPieces ps (x.1 - t0) x.2 } s) s
      noteNew h hdr 32 false (setArrival k (fun a => { a with placed := a.placed + tl, tiles := a.tiles ++
        [{ off := t0, len := tl, status := 0, failOff := 0, addr := 0, pieces := ps }] }) s)

/-- Size of an atomic's operand in bytes (R39). -/
def atomicSize (op : Nat) (b : List Byte) : Nat := if op == opCswap || Req.a64 b then 8 else 4

/-- The check of an atomic's target (R39, R173). -/
def atomicCheck (h : Nat) (e : End) (op : Nat) (b : List Byte) (s : State) : Sum (Nat × Nat) (List Piece) × State :=
  let size := atomicSize op b
  remoteCheck h e (Req.rkey b) (Req.raddr b) size Region.atomic (Req.raddr b % size == 0) s

/-- The path of an atomic's target cannot take it yet (R135). -/
def atomicWaits (h : Nat) (e : End) (op : Nat) (b : List Byte) (s : State) : Bool :=
  match atomicCheck h e op b s with
  | (.inr ps, t) => pathState t true ps == .wait
  | (.inl _, _) => false

/-- The ACK of a REQUEST waits for its notification, or under XPATH for its flush (R54, R133). -/
def gatedRequest (op : Nat) (b : List Byte) : Bool := !isAtomic op || Req.xpath b

/-- A new REQUEST at a target end: a GET is served, an atomic or a notification waits in its record for its turn (R49); one whose target
cannot take writes now is answered with HOLD (R135). -/
def takeRequest (p : Packet) (h : Nat) (e : End) (hdr : Hdr) (s : State) : State :=
  let op := Hdr.opcode hdr
  if !recordFree s h (Hdr.opnum hdr) then sendHold h s
  else if op == opGet then takeGet p.payload h e hdr s
  else if isAtomic op && atomicWaits h e op p.payload s then sendHold h s
  else
    let s := openArrival h hdr (Req.xpath p.payload) none s
    let k := arrKey h (Hdr.opnum hdr)
    let s := setArrival k (fun a => { a with body := p.payload, noteDue := !isAtomic op, reqPsn := Hdr.psn hdr,
                                             xpath := a.xpath || Req.xpath p.payload }) s
    noteNew h hdr 32 (gatedRequest op p.payload) s

/-- REQUEST_PACKET: A receive half takes a REQUEST (GET request, atomic or notification) and processes it (R129). -/
def execRequestPacket (p : Packet) (s : State) : Res := .next <|
  arrive s p kRequest fun h e hdr s => some (takeRequest p h e hdr s)

/-! ## Done records (R138, R139) -/

def doneBytes (d : Done) : List Byte := leBytes 16 (pack [(64, d.addr % m64), (32, d.off % m32), (24, d.status), (0, d.opnum % m24)])

/-- Send the waiting done records, at most 16, in a RESPONSE. -/
def sendDone (h : Nat) (s : State) : State :=
  let e := endOf s h
  let now := e.doneQ.take 16
  if now.isEmpty then s
  else
    let b := now.flatMap doneBytes
    let d : Desc := { kind := kResponse, tc := ackTc e.rxTc, opnum := e.nextOp, length := b.length, plen := b.length, body := b }
    queueResponse h d (setEnd h (fun e => { e with doneQ := e.doneQ.drop 16, doneSince := s.time.now, nextOp := (e.nextOp + 1) % m24 }) s)

/-- A done record is ready; 16 make a packet. -/
def addDone (h : Nat) (d : Done) (s : State) : State :=
  let s := setEnd h (fun e => { e with doneSince := if e.doneQ.isEmpty then s.time.now else e.doneSince, doneQ := e.doneQ ++ [d] }) s
  if 16 ≤ (endOf s h).doneQ.length then sendDone h s else s

/-- DONE_BATCH_TIMER: 500 ns after the oldest waiting done record, the done records are sent in a RESPONSE (R138). -/
def execDoneBatchTimer (h : Nat) (s : State) : Res := .next <|
  let e := endOf s h
  when_ (running s && e.isOpen && inCache s h && !e.doneQ.isEmpty && due s e.doneSince 500) s (sendDone h s)

/-- ACK_DELAY: ACK_DELAY after the oldest unacknowledged packet, the receive half sends an ACK (R133). -/
def execAckDelay (h : Nat) (s : State) : Res := .next <|
  let e := endOf s h
  when_ (running s && e.takes && inCache s h && e.ackPending != 0 && due s e.ackSince e.ackFor) s (sendAck h false s)

/-- An operation is done with at the target: its done record, the ACKs that waited for it, and its record closes. -/
def finishArrival (h opnum : Nat) (d : Done) (s : State) : State :=
  ungate h opnum (addDone h d { s with conn := { s.conn with arrivals := tdel s.conn.arrivals (arrKey h opnum) } })

/-- The done record of an operation from what its record holds. -/
def doneOf (opnum : Nat) (a : Arrival) : Done :=
  match a.low with
  | some (o, st, ad) => { opnum := opnum, status := st, off := o, addr := if hasAddr st then ad else 0 }
  | none => { opnum := opnum, status := 0, off := 0xFFFFFFFF, addr := 0 }

/-! ## Atomics (R39, R49, R139) -/

/-- The value an atomic leaves. -/
def atomicNew (op : Nat) (b : List Byte) (size old : Nat) : Nat :=
  if op == opFadd then (old + Req.operand b) % 2 ^ (8 * size) else if old == Req.low b then Req.operand b else old

/-- The code of an atomic at memory outside the device, with its operand and comparand in its operand size (R39). -/
def atomicOut (op : Nat) (b : List Byte) : Nat × Nat × Nat × Nat :=
  let size := atomicSize op b
  (if op == opFadd then 0 else 2, size, Req.operand b % 2 ^ (8 * size), Req.low b % 2 ^ (8 * size))

/-- The one read-modify-write of an atomic at its target; outside the device it is an AtomicOp (R39). -/
def atomicWrite (op : Nat) (b : List Byte) (ps : List Piece) (new : Nat) (s : State) : State :=
  let (code, size, operand, compare) := atomicOut op b
  match ps with
  | q :: _ =>
    if q.inMemory then writePieces ps (leBytes size new) s
    else if q.target == 2 then toHost q.port (.atomic (hostTag s q.part q.pasid true) q.out code size operand compare) s
    else s.emit (.atomic q.target q.port q.out code size operand compare)
  | [] => s

/-- The done record of a performed atomic: its old value, which the result store holds (R139). -/
def atomicDone (e : End) (opnum : Nat) : Done :=
  { opnum := opnum, status := 0, off := 0xFFFFFFFF, addr := ((e.atomics.find? fun a => a.1 == opnum).map (·.2)).getD 0 }

/-- Perform an atomic: the checks, one read-modify-write, the flush that XPATH asks for, and its done record with the old value (R39, R54,
R139). The old value of memory outside the device comes from `ext`. -/
def performAtomic (h opnum : Nat) (e : End) (a : Arrival) (ext : List Byte) (s : State) : State :=
  let size := atomicSize a.opcode a.body
  let fail := fun (st ad : Nat) (s : State) => finishArrival h opnum { opnum := opnum, status := st, off := 0, addr := ad } s
  match atomicCheck h e a.opcode a.body s with
  | (.inl (st, ad), s) => fail st ad s
  | (.inr ps, s) =>
    match pathState s true ps with
    | .wait => s
    | .dead st => fail st 0 s
    | .go =>
      match badOffset s ps 0 with
      | some (_, u) => fail stMediaError 0 (mediaError u s)
      | none =>
        let old := ofLe (readPieces s ps ext) % 2 ^ (8 * size)
        let s := atomicWrite a.opcode a.body ps (atomicNew a.opcode a.body size old) (noteReads ps s)
        let paths := ps.foldl (fun l p => addPaths l (pathsOf s p)) []
        let s := setEnd h (fun e => { e with atomics := e.atomics ++ [(opnum, old)], paths := addPaths e.paths paths }) s
        if !a.xpath then finishArrival h opnum (atomicDone (endOf s h) opnum) s
        else
          sendFlushes paths (setArrival (arrKey h opnum) (fun a => { a with complete := true, body := [], flush := some paths.length }) s)

/-! ## Full arrival, notifications and flushes (R44, R46, R47, R54, R138) -/

/-- Every packet before a PSN has been accepted. -/
def inOrder (e : End) (psn : Nat) : Bool := !after 32 psn e.recvThrough

/-- No atomic or notification of an earlier request waits: an atomic, too, comes after every earlier notification of its connection (R48,
R49; log 127, DESIGN CHOICE). -/
def earlierDone (s : State) (h opnum psn : Nat) : Bool :=
  !(s.conn.arrivals.any fun x => x.1 / m24 == h && x.1 % m24 != opnum && !x.2.body.isEmpty && after 32 psn x.2.reqPsn)

/-- The operation has fully arrived, its request with it, and it is its turn where order counts: the flushes of a notification start when
every byte it covers is placed, an earlier atomic's too (R47, R52, R54). -/
def fullyArrived (s : State) (h opnum : Nat) (e : End) (a : Arrival) : Bool :=
  !a.complete && a.opcode != opGet &&
  (if isAtomic a.opcode then !a.body.isEmpty && inOrder e a.reqPsn && earlierDone s h opnum a.reqPsn
   else if a.opcode == opNotify then !a.body.isEmpty && inOrder e a.reqPsn && earlierDone s h opnum a.reqPsn
   else a.placed + a.refused == a.length &&
     (a.opcode != opPutNotify || (!a.body.isEmpty && inOrder e a.reqPsn && earlierDone s h opnum a.reqPsn)))

/-- Run and arrival counters a collective's transfer asks for (R209, R212, R281). -/
def collNote (e : End) (a : Arrival) (s : State) : State :=
  match e.coll with
  | some (g, slot1, rank, _) =>
    match a.note with
    | some c => if slot1 == 0 then addArrival (groupOf s g) rank s else addRunCounter (slot1 - 1) rank c s
    | none => s
  | none => s

/-- After its flushes an operation without a notification ends; one with it waits for NOTIFICATION_APPLY. -/
def afterFlush (h opnum : Nat) (s : State) : State :=
  let k := arrKey h opnum
  match tget s.conn.arrivals k with
  | none => s
  | some a =>
    if a.noteDue then setArrival k (fun a => { a with flush := some 0 }) s
    else if isAtomic a.opcode then finishArrival h opnum (atomicDone (endOf s h) opnum) s
    else
      let s := if a.low.isNone && collective a.opcode then collNote (endOf s h) a s else s
      finishArrival h opnum (doneOf opnum a) s

/-- OPERATION_FULLY_ARRIVED: an operation's placed plus refused bytes reach its length; the target flushes, applies the notification and queues a done record (R138). -/
def execOperationFullyArrived (h opnum : Nat) (ext : List Byte) (s : State) : Res := .next <|
  let e := endOf s h
  match tget s.conn.arrivals (arrKey h opnum) with
  | none => s
  | some a =>
    when_ (running s && e.isOpen && !e.initiator && inCache s h && fullyArrived s h opnum e a) s <|
      if isAtomic a.opcode then performAtomic h opnum e a ext s
      else
        let paths := if !a.xpath then [] else if a.noteDue then e.paths else a.paths
        let s := setArrival (arrKey h opnum) (fun a => { a with complete := true, flush := some paths.length }) s
        let s := if a.xpath && a.noteDue then setEnd h (fun e => { e with paths := [] }) s else s
        if paths.isEmpty then afterFlush h opnum s else sendFlushes paths s

/-- The status a notification is refused with, OK where it is applied (R46, R173). -/
def noteCheck (die : Nat) (e : End) (b : List Byte) (s : State) : Nat × State :=
  match regionOf e die (Req.rkey b) s with
  | (none, s) => (stMediaError, s)
  | (some r, s) =>
  if !remoteKeyOk e r (Req.rkey b) then (stRemoteKey, s)
  else if !Region.notify r then (stRemoteRights, s)
  else
    match tget s.q.ctrs (Req.rcounter b) with
    | some c => if c.part == Region.part r && c.pasid == Region.pasid r then (stOk, s) else (stRemoteRights, s)
    | none => (stRemoteRights, s)

/-- Apply a notification whose bytes are placed and flushed, in connection order; a failed operation's is not applied (R46, R49,
R61; log 43, DEDUCED). -/
def execNotificationApply (h opnum : Nat) (s : State) : Res := .next <|
  let e := endOf s h
  let k := arrKey h opnum
  match tget s.conn.arrivals k with
  | none => s
  | some a =>
    let ok := running s && e.isOpen && inCache s h && a.complete && a.noteDue && a.flush == some 0 && inOrder e a.reqPsn && earlierDone s h opnum a.reqPsn
    when_ ok s <|
      if a.low.isSome then finishArrival h opnum (doneOf opnum a) s
      else
        let (st, s) := noteCheck (dieOfEnd h) e a.body s
        if st != stOk then
          let off := if a.opcode == opNotify then 0 else a.length
          finishArrival h opnum { opnum := opnum, status := st, off := off, addr := 0 } (if st == stMediaError then s else countXlate e (dieOfEnd h) 5 s)
        else
          let s := addCounter (Req.rcounter a.body) (Req.low a.body) s
          let s := tally 0x30 1 { die := dieOfEnd h, part := e.part } s
          finishArrival h opnum (doneOf opnum a) s

/-- A flushing read returns; after the last one the flag is written (R54, R138, R185). -/
def execFlushingReadReturn (f : FlushOf) (s : State) : Res := .next <|
  if !running s then s
  else
    match f with
    | .op wq idx =>
      match findOp s wq idx with
      | some o =>
        match o.flush with
        | some (n + 1) =>
          let s := onOp wq idx (fun o => stampOp s wq (fun o t => { o with flush := some n, flushAt := t }) o) s
          if n == 0 && (s.xl.invals.all fun i => !(i.2.wq == wq && i.2.idx == idx)) then completeOp wq idx [] (ungate o.handle o.opnum s) else s
        | _ => s
      | none => s
    | .arrival h n =>
      match tget s.conn.arrivals (arrKey h n) with
      | some a =>
        match a.flush with
        | some (k + 1) =>
          let s := setArrival (arrKey h n) (fun a => { a with flush := some k }) s
          (if k == 0 then afterFlush h n s else s)
        | _ => s
      | none => s
    | .inval n =>
      match tget s.xl.invals n with
      | some i =>
        match (findOp s i.wq i.idx).bind (·.flush) with
        | some (k + 1) =>
          let s := onOp i.wq i.idx (fun o => stampOp s i.wq (fun o t => { o with flush := some k, flushAt := t }) o) s
          (if k == 0 && i.step == 4 then endInval n i s else s)
        | _ => s
      | none => s
    | .tree g rank base => treeFlushed g rank base s
    | .part p key =>
      { s with part := { s.part with parts := tmod s.part.parts p fun x =>
        { x with resets := tmod x.resets key fun r => { r with flushes := r.flushes - 1 } } } }

/-! ## Responses at an initiator (R137, R139) -/

/-- The tile of an operation that holds an offset. -/
def tileAt (o : Op) (off : Nat) : Option Tile := o.tiles.find? fun t => Nat.ble t.off off && Nat.blt off (t.off + t.len)

/-- A GET is decided when its placed and refused bytes reach its length (R139). -/
def decideGet (wq idx : Nat) (s : State) : State :=
  match findOp s wq idx with
  | some o => if o.result.isNone && o.tiles.all Tile.ended then decideOp wq idx (verdictResult (decide_ (failedParts o.tiles))) s else s
  | none => s

/-- GET data arrives: it is placed in the local buffer, or only acknowledged where its tile has failed (R137, R139). Data whose record
cannot be opened is answered with HOLD (R136; log 104, DEDUCED); data whose path cannot take it waits. -/
def takeGetData (p : Packet) (h : Nat) (e : End) (hdr : Hdr) (s : State) : Option State :=
  let n := p.payload.length
  match opByNum s h (Hdr.opnum hdr) with
  | none => some (noteNew h hdr n false s)
  | some (wq, o) =>
    let ack := fun (s : State) => noteNew h hdr n o.wqe.xpath (onOp wq o.idx (stampOp s wq fun o t => { o with netAt := t }) s)
    match tileAt o (Hdr.offset hdr) with
    | none => some (noteNew h hdr n false s)
    | some t =>
      if !getOpen o && !Nat.blt (arrivalsOn s (dieOfEnd h)) 65536 then some (sendHold h s)
      else if t.st != .holding then some (ack s)
      else
        let ps := subPieces t.loc (Hdr.offset hdr - t.off) n
        match pathState s true ps with
        | .wait => none
        | .dead st => some (decideGet wq o.idx (ack (setTile wq o.idx t.off (fun t => { t with st := .failed st t.gap 0 }) s)))
        | .go =>
          let (k, s) := storePieces ps p.payload s
          let s := countPlaced (dieOfEnd h) e.part (Hdr.tc hdr) k s
          let t' : Tile := { t with placed := t.placed ++ [(Hdr.offset hdr, k)] }
          some (decideGet wq o.idx (ack (setTile wq o.idx t.off (fun _ =>
            if k == n then Tile.settle t' else { t' with st := .failed stMediaError t'.gap 0 }) s)))

/-- One done record: the operation's outcome is decided, and every packet of it acknowledged (R139). -/
def takeDone (h : Nat) (d : Done) (s : State) : State :=
  let s := takeAcked h (fun u => u.desc.opnum == d.opnum && u.desc.kind != kResponse) s
  match opByNum s h d.opnum with
  | none =>
    match (endOf s h).coll with
    | some (g, _, _, _) => endTransfer g h d.opnum d.status (if d.status == 0 then 0 else d.off) d.addr s
    | none => s
  | some (wq, o) =>
    let outcome := fun (x : Nat × Nat × Nat) (s : State) =>
      decideOp wq o.idx (doneResult x) (onOp wq o.idx (fun o => { o with done := some x }) s)
    if !isAtomic o.wqe.opcode then outcome (d.status, d.off, d.addr) s
    else if d.status != 0 then outcome (d.status, 0, d.addr) s
    else
      match o.tiles with
      | t :: _ =>
        let size := if o.wqe.opcode == opCswap || o.wqe.a64 then 8 else 4
        match deadPath s true t.loc with
        | some st => outcome (st, 0, 0) s
        | none =>
          let (k, s) := storePieces t.loc (leBytes size d.addr) s
          outcome (if k == size then (0, 0, 0) else (stMediaError, 0, 0))
            (onOp wq o.idx (fun o => { o with tiles := o.tiles.map fun t => { t with st := .finished } }) s)
      | [] => s

def donesOf (b : List Byte) : List Done :=
  (List.range (b.length / 16)).map fun i =>
    { opnum := field b (16 * i) 3, status := field b (16 * i + 3) 1, off := field b (16 * i + 4) 4, addr := field b (16 * i + 8) 8 }

/-- A result buffer of an atomic among done records cannot be written yet (R45). -/
def resultWaits (s : State) (h : Nat) (ds : List Done) : Bool :=
  ds.any fun d => d.status == 0 &&
    (match opByNum s h d.opnum with
     | some (_, o) => isAtomic o.wqe.opcode && (match o.tiles with
        | t :: _ => pathState s true t.loc == .wait
        | [] => false)
     | none => false)

/-- A RESPONSE: GET data, or done records, which wait while a result buffer cannot be written. -/
def takeResponse (p : Packet) (h : Nat) (e : End) (hdr : Hdr) (s : State) : Option State :=
  if Hdr.opcode hdr == opGet then (takeGetData p h e hdr s).map (closeIfIdle h)
  else
    let ds := donesOf p.payload
    if resultWaits s h ds then none
    else some (closeIfIdle h (ds.foldl (fun s d => takeDone h d s) (noteNew h hdr p.payload.length false s)))

/-- RESPONSE_PACKET: an initiator receive half takes a RESPONSE carrying GET data, atomic results or done records (R139). -/
def execResponsePacket (p : Packet) (s : State) : Res := .next <| arrive s p kResponse (takeResponse p)

/-! ## ACK, NACK, HOLD (R132, R134, R135) -/

/-- An ACK reaches a send half. -/
def arriveAck (p : Packet) (ext : List Byte) (s : State) : State := arrive s p kAck fun h _ _ s => some (takeAck h (ackBody p.payload) ext s)

/-- ACK_PACKET: A send half takes an ACK, advances acked-through, updates its map and round-trip time, and releases tiles (R132). -/
def execAckPacket (p : Packet) (ext : List Byte) (s : State) : Res := .next <|
  -- a tree edge's is TREE_EDGE_ACK's
  if isEdge (handleOf p.hdr) then s else arriveAck p ext s

/-- TREE_EDGE_ACK: the same on a tree edge, whose acknowledgement frees a slot's partial and lets a forwarded packet be acknowledged in its
turn (R254, R255). -/
def execTreeEdgeAck (hdr : BitVec 320) (payload : List Byte) (crc : BitVec 32) (ext : List Byte) (s : State) : Res := .next <|
  if isEdge (handleOf hdr) then arriveAck { hdr := hdr, payload := payload, crc := crc } ext s else s

/-- A NACK: CHECK resends the packet it names at once, under a hold once per RTO_MAX; REACH limits the window, and the resend it answers
does not count (R130, R134, R135, R144). -/
def takeNack (h : Nat) (e : End) (psn reason : Nat) (ext : List Byte) (s : State) : State :=
  if reason == 2 then
    match e.unacked.find? fun (u : Unacked) => u.psn == psn with
    | some u => if e.isOpen && !(underHold s e && resentLately s e) then resendOne h u (counting s e) false ext s else s
    | none => s
  else if reason == 1 then
    setEnd h (fun e => { e with
      reach := match e.reach with
        | some r => if after 32 psn r then some psn else some r
        | none => some psn,
                         unacked := e.unacked.map fun u => if u.psn == psn then { u with resends := u.resends - 1 } else u }) s
  else s

/-- NACK_PACKET: A send half takes a NACK; a CHECK causes a resend at once, a REACH limits its window (R134). -/
def execNackPacket (p : Packet) (ext : List Byte) (s : State) : Res := .next <|
  arrive s p kNack fun h e _ s => some (takeNack h e (field p.payload 0 4) (field p.payload 4 1) ext s)

/-- HOLD_PACKET: A send half takes a HOLD, stops new packets and stops counting resends (R135). -/
def execHoldPacket (p : Packet) (s : State) : Res := .next <| arrive s p kHold fun h _ _ s => some (takeHold h s)

/-! ## Withdrawals (R566) -/

/-- Withdrawn bytes count as refused, at an initiator in its GET's tile, at a target in the record (R566). -/
def takeWithdraw (p : Packet) (h : Nat) (e : End) (hdr : Hdr) (s : State) : State :=
  let st := field p.payload 0 1
  let n := field p.payload 4 4
  let addr := field p.payload 8 8
  let off := Hdr.offset hdr
  if e.initiator then
    match opByNum s h (Hdr.opnum hdr) with
    | some (wq, o) =>
      if !getOpen o && !Nat.blt (arrivalsOn s (dieOfEnd h)) 65536 then sendHold h s
      else
        let s := noteNew h hdr 16 false s
        match tileAt o off with
        | some t =>
          closeIfIdle h (decideGet wq o.idx (setTile wq o.idx t.off (fun t => Tile.settle { t with refused := t.refused ++ [(off, n, st, addr)] }) s))
        | none => s
    | none => noteNew h hdr 16 false s
  -- the request of a GET tile that goes out no more: no data comes this way (log 120, DEDUCED)
  else if Hdr.opcode hdr == opGet then noteNew h hdr 16 false s
  else if !recordFree s h (Hdr.opnum hdr) then sendHold h s
  else
    let s := openArrival h hdr false none s
    let (t0, _) := tileSpanOf off (Hdr.length hdr) (Hdr.tile hdr)
    noteArrival h hdr t0 0 n 16 (fun t => { t with got := t.got + n }) (some (off, st, addr)) [] (Hdr.opcode hdr == opPutNotify) s

/-- WITHDRAW: A receive half takes a WITHDRAW and counts its bytes as refused in the arrival record (R566). -/
def execWithdraw (p : Packet) (s : State) : Res := .next <|
  -- a tree edge's is STORE_ADMISSION's or MCAST_REPLICATE's
  if isEdge (handleOf p.hdr) then s else arrive s p kWithdraw fun h e hdr s => some (takeWithdraw p h e hdr s)

/-- A packet with a reserved KIND is dropped and counted (R126). -/
def execReservedKindDrop (p : Packet) (s : State) : Res := .next <|
  let k := Hdr.kind p.hdr
  let die := dieOfEnd (handleOf p.hdr)
  if !running s || !(k == 7 || k == 14 || k == 15) then s
  else
    match reaches p s with
    | some s => { s with conn := { s.conn with reservedKinds := tmodD s.conn.reservedKinds die 0 (· + 1) } }
    | none => s

end Sys2Proof.Machine
end

