-- ==== Sys2Proof/Machine/Server.lean ====
section
/-! DEFINITION. The dictionary server as the other files see it: the command record it runs, who sent it, the checks every
access passes, and the answer that ends a record. -/

namespace Sys2Proof.Machine

/-! ## Results (R430) -/

def rDone : Nat := 0x00
def rBusy : Nat := 0x01
def rInvalid : Nat := 0x02
def rNoResource : Nat := 0x03
def rNoEntry : Nat := 0x10
def rDenied : Nat := 0x11
def rAccess : Nat := 0x12
def rRange : Nat := 0x13
def rLength : Nat := 0x14
def rNotRun : Nat := 0x15
def rStaleManager : Nat := 0x16
def rBadCommand : Nat := 0x17

/-- Command codes (R429). -/
def cRead : Nat := 0x01
def cWrite : Nat := 0x02
def cDescribe : Nat := 0x03
def cNext : Nat := 0x04
def cOpen : Nat := 0x10
def cClose : Nat := 0x11

/-! ## The record under way -/

/-- The command record the server runs next, with its request; none while it waits for the end of a reset (R431; log 84, DESIGN CHOICE). -/
def current (s : State) : Option (Request × Cmd) :=
  match s.far.running with
  | some r =>
    match r.todo with
    | c :: _ => if r.waiting then none else some (r.req, c)
    | [] => none
  | none => none

/-- Who sends a record: session number, privilege (0 in session 0), partition of a Tenant, path. -/
structure Sender where
  num : Nat
  priv : Nat
  part : Nat
  path : FPath
  deriving DecidableEq, Repr

def senderOf (s : State) (r : Request) : Sender :=
  match tget s.far.sessions r.session with
  | some x => { num := r.session, priv := x.priv, part := x.part, path := r.path }
  | none => { num := r.session, priv := 0, part := 0xFF, path := r.path }

/-- Change the session of a sender. -/
def onSession (num : Nat) (f : Session → Session) (s : State) : State :=
  { s with far := { s.far with sessions := tmod s.far.sessions num f } }

/-- The own selector of a session, or its default (R421). -/
def selOf (s : State) (num key : Nat) (dflt : Nat := 0) : Nat :=
  match tget s.far.sessions num with
  | some x => tgetD x.sels key dflt
  | none => dflt

/-! ## Closing sessions (R418, R471) -/

/-- A bank whose held pieces are discarded is left invalid (R471). -/
def spoilBank (s : State) : State :=
  { s with sec := { s.sec with banks := tmap s.sec.banks fun _ b => if b.state == 5 then { b with state := 0, data := [] } else b } }

/-- Discard the pieces a session holds. -/
def dropStaged (num : Nat) (s : State) : State :=
  match tget s.far.sessions num with
  | some x =>
    match x.staged with
    | some g =>
      let s := onSession num (fun x => { x with staged := none }) s
      if g.key == dkey 0x9010 2 then spoilBank s else s
    | none => s
  | none => s

/-- A session closes, by its number (R418, R432, R475). -/
def closeSession (num : Nat) (s : State) : State :=
  let s := dropStaged num s
  { s with far := { s.far with sessions := tdel s.far.sessions num } }

/-! ## Privilege (R420) -/

/-- A session's privilege includes the one an entry needs. Codes as DESCRIBE: 1 Tenant, 2 Operator, 3 Platform, 4 Meter. -/
def includes (priv needed : Nat) : Bool :=
  if needed == 0 then true
  else if needed == 4 then priv == 4
  else Nat.ble needed priv && Nat.blt priv 4

/-- Indexes whose subindex p + 1 belongs to partition p. -/
def perPartition (i : Nat) : Bool :=
  (Nat.ble 0x7001 i && Nat.ble i 0x700C && i != 0x700B) || i == 0x7021 || i == 0x7030 || i == 0x8022 || i == 0x8100

/-- The entry stands within a sender's reach for a read or a write (R420, R432). -/
def reach (w : Sender) (e : Entry) (n : Nat) (reading : Bool) : Bool :=
  if w.priv == 0 then reading && e.priv == 0
  else if w.priv == 3 && e.priv == 4 then reading
  else includes w.priv e.priv && (w.priv != 1 || !perPartition e.index || n == w.part + 1 || n == 0)

/-! ## The end of a record and of a request -/

/-- Bytes of a response frame: header, records, tag (R428, R429). -/
def respLength (r : Response) : Nat :=
  40 + r.answers.foldl (fun a x => a + 12 + (x.data.length + 3) / 4 * 4) 0

/-- The 24-byte header of a Farnen frame (R428). -/
def farnenHeader (magic version type length session counter transaction commands : Nat) : List Byte :=
  leBytes 2 magic ++ leBytes 1 version ++ leBytes 1 type ++ leBytes 2 length ++ leBytes 4 session ++ leBytes 8 counter ++
    leBytes 2 transaction ++ leBytes 1 commands ++ leBytes 3 0

/-- The bytes of a command record: its 12-byte head with a RESULT and a LENGTH, and its data padded to a multiple of 4 (R429). -/
def cmdBytes (c : Cmd) (result length : Nat) (data : List Byte) : List Byte :=
  leBytes 1 c.code ++ leBytes 1 result ++ leBytes 2 c.index ++ leBytes 1 c.sub ++ leBytes 1 0 ++ leBytes 2 length ++ leBytes 4 c.offset ++
    slice data 0 ((data.length + 3) / 4 * 4)

/-- The bytes of a request or a notice before its tag, over which the tag is computed (R428). -/
def frameBody (f : FarnenFrame) : List Byte :=
  farnenHeader f.magic f.version f.type f.length f.session f.counter f.transaction f.cmds.length ++
    f.cmds.flatMap fun c => cmdBytes c 0 c.length c.data

/-- The bytes of a response: each record again with its RESULT and the data it carries, whose LENGTH it names (log 123, DEDUCED), and the
tag; in session 0 that is zero (R428, R429). -/
def respBytes (r : Response) : List Byte :=
  let body := farnenHeader 0x4E46 1 2 (respLength r) r.session r.counter r.transaction r.answers.length ++
    r.answers.flatMap fun a => cmdBytes a.cmd a.result a.data.length a.data
  body ++ leBytes 16 ((r.key.map fun k => (Config.cmac k body).toNat).getD 0)

/-- The mailbox of a partition's function takes the response and may raise its vector (R434). -/
def mailboxAnswer (p : Nat) (r : Response) (s : State) : State :=
  let m := tgetD s.far.mailboxes p {}
  let m' := { m with respLength := respLength r, done := true, running := false, resp := some r }
  let s := { s with far := { s.far with mailboxes := tset s.far.mailboxes p m' } }
  if m.irqEn && m.vector ≤ 2047 && p < 12 then raiseMsix p m.vector s else s

/-- Send a response over the path its request came by (R427, R434, R436), and keep it for a resend (R433); past COUNTER
2^64 − 1 the session closes (R475). -/
def respond (path : FPath) (r : Response) (s : State) : State :=
  let s := onSession r.session (fun x => { x with kept := some r }) s
  let s := if r.counter == m64 - 1 && r.session != 0 then closeSession r.session s else s
  match path with
  | .mailbox p => mailboxAnswer p r s
  | .accelMailbox p => mailboxAnswer p r s
  | .sideband => { s with far := { s.far with sideband := some r } }.emit (.sideReady s.far.sideI3c)
  | _ => s.emit (.farnen path (respBytes r))

/-- The server takes the next waiting request (R431). -/
def startNext (s : State) : State :=
  match s.far.running, s.far.queue with
  | none, r :: q => { s with far := { s.far with running := some { req := r, todo := r.cmds }, queue := q } }
  | _, _ => s

/-- The device's management connections close: the peer is told, and the end's epoch advances (R275). -/
def closeManagement (s : State) : State :=
  let gone : List (Nat × End) := s.conn.ends.filter fun x => x.2.mgmt
  let ids := gone.map (·.1)
  let s := { s with conn := { s.conn with
      ends := s.conn.ends.filter fun x => !x.2.mgmt,
                                      epochs := gone.foldl (fun (t : Tab Nat) (x : Nat × End) => tset t x.1 ((x.2.epoch + 1) % m16)) s.conn.epochs,
                                      cached := s.conn.cached.filter fun h => !ids.contains h,
                                      waitFill := s.conn.waitFill.filter fun c => !ids.contains (Hdr.handle c.pkt.hdr),
                                      arrivals := tkeep s.conn.arrivals fun k _ => !ids.contains (k / m24) } }
  gone.foldl (fun s (x : Nat × End) =>
    if x.2.initiator then sendConn kCloseReq x.2.peerEp x.2.peerHandle x.2.epoch true [x.2.localEp, x.1] s else sendReset x.2 s) s

/-- The record under way closes the management connections once its response has been sent. -/
def closeAfter (s : State) : State :=
  match s.far.running with
  | some r => { s with far := { s.far with running := some { r with closeMgmt := true } } }
  | none => s

/-- A request whose records have all ended: it is counted, its response goes out at once or, where it wrote a stored entry,
after the commit (R424, R431); a NOTICE has none (R428). -/
def endRequest (r : Running) (s : State) : State :=
  let resp : Response :=
    { session := r.req.session, counter := r.req.counter, transaction := r.req.transaction, answers := r.answers, key := r.req.key }
  let s := bump (dkey 0x9100 3) 0 1 { s with far := { s.far with running := none } }
  let s :=
    if r.stored then
      let held := if r.req.notice then s.far.held else s.far.held ++ [(r.req.path, resp)]
      { s with far := { s.far with commitDue := true, held := held } }
    else if r.req.notice then s
    else respond r.req.path resp s
  startNext (if !r.closeMgmt then s
    else if r.stored then { s with far := { s.far with closeMgmt := true } }
    else closeManagement s)

/-- The later records of a request one of whose records failed carry NOT_RUN (R431). -/
def notRun (cs : List Cmd) : List Answer := cs.map fun c => ⟨c, rNotRun, []⟩

/-- End the record under way with a result and data (R431). -/
def finish (res : Nat) (data : List Byte) (s : State) : State :=
  match s.far.running with
  | none => s
  | some r =>
    match r.todo with
    | [] => s
    | c :: rest =>
      let s := if res == rDenied then bump (dkey 0x9100 3) 4 1 s else s
      let ans := r.answers ++ [⟨c, res, data⟩]
      if res == rDone && !rest.isEmpty then
        { s with far := { s.far with running := some { r with todo := rest, answers := ans, waiting := false } } }
      else
        let ans := if res == rDone then ans else ans ++ notRun rest
        endRequest { r with todo := [], answers := ans, waiting := false } s

/-- The record under way has written a stored entry (R424). -/
def markStored (s : State) : State :=
  match s.far.running with
  | some r => { s with far := { s.far with running := some { r with stored := true } } }
  | none => s

/-- The record under way ends only when a reset does (R404, R409). -/
def markWaiting (s : State) : State :=
  match s.far.running with
  | some r => { s with far := { s.far with running := some { r with waiting := true } } }
  | none => s

/-- A reset that the waiting record started has ended. -/
def finishWaiting (res : Nat) (s : State) : State :=
  match s.far.running with
  | some r => if r.waiting then finish res [] s else s
  | none => s

/-! ## The checks of a write (R417, R419, R420) -/

/-- Element count and size an ARRAY value names in its first four bytes (R416). -/
def arrayCount (d : List Byte) : Nat := field d 0 2

def arrayEsize (d : List Byte) : Nat := field d 2 2

/-- An ARRAY encoding: count, element size, elements (R416). -/
def arrayOf (esize : Nat) (elems : List Byte) : List Byte :=
  leBytes 2 (elems.length / max esize 1) ++ leBytes 2 esize ++ elems

/-- Offset and length of a write fit the value (R417). A whole ARRAY is its encoding of R416 (log 10, DEDUCED). -/
def lengthFits (e : Entry) (c : Cmd) : Bool :=
  c.length == c.data.length &&
  (if e.ty == 14 then
    if c.offset == 0 then arrayEsize c.data == e.size && c.length == 4 + arrayCount c.data * e.size && Nat.ble 4 c.length
    else c.offset % e.size == 0 && c.length % e.size == 0
  else if e.ty == 12 || e.ty == 13 then Nat.ble (c.offset + c.length) e.size
  else c.offset == 0 && c.length == e.size)

/-- A scalar lies within its stated range; a BOOL is 0 or 1 (R417). I32 values are held to ±100,000, the one signed
setting's range (R338); PORT_OWNER and T1S_NODE take 0xFF for none. -/
def inRange (e : Entry) (c : Cmd) : Bool :=
  let v := ofLe c.data
  if v == 0xFF && (e.index == 0x700B || (e.index == 0x3800 && e.first == 1)) then true
  else if e.ty == 8 then v ≤ 100000 || m32 - 100000 ≤ v
  else if e.ty ≤ 11 then Nat.ble e.lo v && Nat.ble v e.hi else true

/-- In recovery the server accepts only the image entries, KEY_SLOTS and the identity entries (R470, log 27, DEDUCED). -/
def recoveryEntry (i n : Nat) : Bool :=
  i == 0x1000 || (i == 0x9010 && Nat.ble 1 n && Nat.ble n 3) || (i == 0x9000 && n == 1) || (i == 0x9020 && (n == 6 || n == 7))

/-- Recovery shuts an entry out. -/
def shutOut (s : State) (i n : Nat) : Bool := s.sec.recovery && !recoveryEntry i n

/-- What a write meets before its entry's own checks: privilege, access, length, range. -/
def writeCheck (s : State) (w : Sender) (e : Entry) (c : Cmd) : Nat :=
  if shutOut s e.index c.sub || !reach w e c.sub false then rDenied
  else if e.access == 0 then rAccess
  else if !lengthFits e c then rLength
  else if !inRange e c then rRange
  else rDone

/-- Run the record under way where it is a WRITE of an entry whose data pass a test: the checks, then what the entry does.
Any other record leaves the state as it is. -/
def onWrite (s : State) (i first last : Nat) (p : List Byte → Bool)
    (act : Sender → Cmd → State → Nat × State) : State :=
  match current s with
  | some (r, c) =>
    if serving s && c.code == cWrite && c.index == i && Nat.ble first c.sub && Nat.ble c.sub last && p c.data then
      match entryAt i c.sub with
      | some e =>
        let w := senderOf s r
        let k := writeCheck s w e c
        if k == rDone then
          let (res, t) := act w c s
          (finish res [] t)
        else (finish k [] s)
      | none => (finish rNoEntry [] s)
    else s
  | none => s

/-- As `onWrite`, for an entry whose record ends later, or whose own function ends it. -/
def onWriteRaw (s : State) (i n : Nat) (p : List Byte → Bool) (act : Sender → Cmd → State → State) : State :=
  match current s with
  | some (r, c) =>
    if serving s && c.code == cWrite && c.index == i && c.sub == n && p c.data then
      match entryAt i n with
      | some e =>
        let w := senderOf s r
        let k := writeCheck s w e c
        if k == rDone then (act w c s) else (finish k [] s)
      | none => (finish rNoEntry [] s)
    else s
  | none => s

/-- Run the record under way where it is a READ of an entry that a read changes: the checks, then the value and the change. -/
def onRead (s : State) (i first last : Nat) (act : Sender → Cmd → State → Nat × List Byte × State) : State :=
  match current s with
  | some (r, c) =>
    if serving s && c.code == cRead && c.index == i && Nat.ble first c.sub && Nat.ble c.sub last then
      match entryAt i c.sub with
      | some e =>
        let w := senderOf s r
        if shutOut s i c.sub || !reach w e c.sub true then (finish rDenied [] s)
        else if e.ty != 14 && Nat.blt e.size c.offset then (finish rLength [] s)
        else
          let (res, d, t) := act w c s
          (finish res d t)
      | none => (finish rNoEntry [] s)
    else s
  | none => s

/-- The bytes a READ returns of a value: from its offset, at most the length wanted (R429). -/
def readSpan (c : Cmd) (v : List Byte) : List Byte := (v.drop c.offset).take c.length

/-- The bytes a READ returns of an ARRAY of elements: the whole encoding from offset 0; past it, the offset counts from the
first element (R416, R417, log 10, DEDUCED). -/
def readArray (c : Cmd) (esize : Nat) (elems : List Byte) : List Byte :=
  if c.offset == 0 then (arrayOf esize elems).take c.length else (elems.drop c.offset).take c.length

/-- Elements of an ARRAY after a write: the whole at offset 0, elements in place after it; none where the elements written
run past the end (R417). -/
def writeArray (c : Cmd) (old : List Byte) : Option (List Byte) :=
  if c.offset == 0 then some (c.data.drop 4)
  else if c.offset + c.data.length ≤ old.length then some (splice old c.offset c.data) else none

end Sys2Proof.Machine
end

