-- ==== Sys2Proof/Machine/Coll.lean ====
section
/-! DEFINITION. Collective groups: creation, joining, the member table, launches, READY, START, ABORT, streaming and retirement. -/

namespace Sys2Proof.Machine

/-! ## Selectors (R421, R227) -/

def groupSel (s : State) (w : Sender) : Nat := selOf s w.num (dkey 0x5100 0)

/-! ## The collective area (R193, R243, R244, R380) -/

/-- Units of 4 KiB of the collective area on an engine die. -/
def collUnits (s : State) (die : Nat) : Nat :=
  ((List.range s.part.collArea.count).filter fun i => (s.part.collArea.base + i) % engineDies s == die).length * 512

def collUsed (s : State) (die : Nat) : Nat := tgetD s.part.collUsed die 0

/-- Units a group takes on an engine die: its member table at position 0, an accelerator member's area on its owner, an endpoint-8
member's area in runs of 512 records over all dies. -/
def groupUnits (s : State) (members : List Nat) (accElems : Nat) (die : Nat) : Nat :=
  let table := if die == 0 then (32 * members.length + 4095) / 4096 else 0
  let d := engineDies s
  let locals := members.filter (isOwn s)
  locals.foldl (fun a m =>
    if epE m ≤ 7 then (if ownerDie s (epE m) == die then a + (accElems * 48 + 4095) / 4096 else a)
    else
      let runs := (List.range ((accElems + 511) / 512)).filter fun k => k % d == die
      a + ((runs.map fun k => min 512 (accElems - 512 * k)).sum * 48 + 4095) / 4096) table

def dies (s : State) : List Nat := List.range (engineDies s)

/-- Take or give back a group's units. -/
def useUnits (take : Bool) (members : List Nat) (accElems : Nat) (s : State) : State :=
  (dies s).foldl (fun s d =>
    let n := groupUnits s members accElems d
    { s with part := { s.part with collUsed := tset s.part.collUsed d (if take then collUsed s d + n else collUsed s d - n) } }) s

/-! ## Creating and deleting (R192, R193, R195) -/

/-- MEMBERS breaks R192. -/
def membersBad (s : State) (ms : List Nat) : Bool :=
  ms.isEmpty || Nat.blt 27648 ms.length || ms.eraseDups.length != ms.length ||
  ms.any fun m => Nat.blt 8 (epE m) || !epInRange s m

/-- Partition of a local member's accelerator endpoint. -/
def epOwner (s : State) (m : Nat) : Option Nat := if epE m ≤ 7 then (tgetD s.link.accel (epE m) {}).owner else none

/-- The local accelerator members lie in partitions that are joined (R193, R400). -/
def membersJoined (s : State) (ms : List Nat) : Bool :=
  let os := ((ms.filter (isOwn s)).filterMap (epOwner s)).eraseDups
  os.all fun p => os.all fun q => p == q || ((partOf s p).domain != 0 && (partOf s p).domain == (partOf s q).domain)

/-- GROUP_CMD CREATE (R193); of a group that is not Free BUSY (log 78, DEDUCED). -/
def createGroup (g : Nat) (s : State) : Nat × State :=
  let gr := groupOf s g
  if gr.state != .free then (rBusy, s)
  else if membersBad s gr.members || gen1 s then (rInvalid, s)
  else
    let acc := if bit gr.flags 0 then gr.accElems else 0
    if !membersJoined s gr.members || (dies s).any (fun d => Nat.blt (collUnits s d) (collUsed s d + groupUnits s gr.members acc d)) then (rNoResource, s)
    else
      let gr' : Group := { gr with state := .forming, retired := 0xFFFFFFFF, joins := [], homeJoins := [], table := [],
                                   conns := [], launches := [], sent := [], readys := [], transfers := [], lastRun := none }
      (rDone, useUnits true gr.members acc { s with coll := { s.coll with groups := tset s.coll.groups g gr' } })

/-- GROUP_CMD_CREATE: GROUP_CMD CREATE checks the member list and creates the group, with its member table and accumulation areas (R193). -/
def execGroupCmdCreate (s : State) : Res := .next <|
  onWrite s 0x5103 0 0 (fun d => ofLe d == 1) fun w _ s => createGroup (groupSel s w) s

/-- Unload a schedule slot: its steps, connections and pending launches go (R216). -/
def unloadSlot (n : Nat) (s : State) : State :=
  match tget s.coll.slots n with
  | none => s
  | some x =>
    let g := x.group
    let ls := (groupOf s g).launches.filter fun l => l.sig.kind == ckScheduled && l.sig.param % 16 == n && !l.started && !l.hasEnded
    let s := ls.foldl (fun s l => mismatch g l.wq l.idx s) s
    let s := closeConns (x.conns.map (·.2)) s
    { s with coll := { s.coll with slots := tdel s.coll.slots n } }

def deleteGroup (g : Nat) (s : State) : Nat × State :=
  let gr := groupOf s g
  if gr.state == .free then (rInvalid, s)
  else
    let s := (gr.launches.filter fun l => !l.hasEnded).foldl (fun s l => mismatch g l.wq l.idx s) s
    let s := closeConns (gr.conns.map (·.2)) s
    let s := ((s.coll.slots.filter fun x => x.2.group == g).map (·.1)).foldl (fun s n => unloadSlot n s) s
    let s := useUnits false gr.members (if bit gr.flags 0 then gr.accElems else 0) s
    let s := { s with
      conn := { s.conn with ends := tkeep s.conn.ends fun h _ => !isEdge h || (edgeOf s h).group != g },
      ar := { s.ar with edges := tkeep s.ar.edges fun _ e => e.group != g,
                        areas := tkeep s.ar.areas fun a _ => a / 2 ^ 49 != g,
                        counts := tkeep s.ar.counts fun a _ => a / 2 ^ 56 != g,
                        areaSeq := tkeep s.ar.areaSeq fun a _ => a / 2 ^ 16 != g,
                        slots := s.ar.slots.filter fun x => x.group != g },
               fab := { s.fab with treeIn := tmap s.fab.treeIn fun _ l => l.filter fun t => t.group != g },
               coll := { s.coll with
        perms := tmap s.coll.perms fun _ p => if p.group == some g then { p with group := none } else p,
                         groups := tset s.coll.groups g { flags := gr.flags, timeout := gr.timeout, members := gr.members, accElems := gr.accElems, seed := gr.seed } } }
    (rDone, s)

/-- GROUP_CMD_DELETE: GROUP_CMD DELETE frees the group, ends its launches, closes its connections and unloads its schedules (R195). -/
def execGroupCmdDelete (s : State) : Res := .next <|
  onWrite s 0x5103 0 0 (fun d => ofLe d == 2) fun w _ s => deleteGroup (groupSel s w) s

/-! ## Joining (R194, R195) -/

/-- Rank of an endpoint in a group. -/
def rankOf (gr : Group) (ep : Nat) : Option Nat := (List.range gr.n).find? fun r => nth gr.members r == ep

/-- The checks of a join after which it is accepted (R194). -/
def joinOk (s : State) (gr : Group) (p : Nat) (j : Join) : Bool :=
  let r := tgetD s.xl.regions (keyIndex j.key) 0
  isSlice s p j.pasid && Region.valid r && Region.tag r == keyTag j.key && Region.part r == p && Region.pasid r == j.pasid &&
  Region.remote r && Region.read r && Region.write r && (!bit gr.flags 0 || Region.accumulate r) &&
  Nat.ble (Region.base r) j.base && Nat.ble (j.base + j.len) (Region.base r + Region.length r) &&
  (j.ctr == 0xFFFFFFFF || objectIn s (false, j.ctr) p j.pasid)

/-- Device of rank 0 (R193). -/
def homeOf (gr : Group) : Nat := epDev (nth gr.members 0)

def joinArgs (rank : Nat) (j : Join) : List Nat := [rank, j.ep, j.pasid, j.key, j.ctr, j.base, j.len]

/-- Partition an endpoint's join belongs to: the accelerator's owner, or a Tenant's own, or the one of the key's region. -/
def joinPart (s : State) (w : Sender) (ep key : Nat) : Nat :=
  match epOwner s ep with
  | some p => p
  | none => if w.priv == 1 then w.part else Region.part (tgetD s.xl.regions (keyIndex key) 0)

/-- GROUP_JOIN: A member is joined with a window, a slice and an arrival counter, and the join is forwarded to the home device (R194). -/
def execGroupJoin (s : State) : Res := .next <|
  onWrite s 0x5200 0 0 (fun _ => true) fun w c s =>
    let d := c.data
    let g := field d 0 2
    let ep := field d 2 2
    let key := field d 4 4
    let p := joinPart s w ep key
    let j : Join := { ep := ep, key := key, base := field d 8 8, len := field d 16 8, ctr := field d 24 4, pasid := field d 28 4, part := p }
    let gr := groupOf s g
    if w.priv == 1 && (!isOwn s ep || p != w.part) then (rDenied, s)
    else
      match gr.state, rankOf gr ep with
      | .free, _ => (rInvalid, s)
      | _, none => (rInvalid, s)
      | _, some r =>
        if !isOwn s ep || !joinOk s gr p j then (rInvalid, s)
        else (rDone, (setGroup g (fun x => { x with joins := tset x.joins r j }) s).emit (.coll 1 g (homeOf gr) (joinArgs r j)))

/-- Ends of the group connections of a local member. -/
def rankConns (gr : Group) (rank : Nat) : List Nat := (gr.conns.filter fun x => x.1 / 2 ^ 16 == rank).map (·.2)

/-- A member's join goes, with its group connections: a Ready group is Forming again, until a new member table has come and the connections
it needs are open (R195). -/
def leaveMember (g rank : Nat) (s : State) : State :=
  let s := closeConns (rankConns (groupOf s g) rank) s
  setGroup g (fun x => { x with joins := tdel x.joins rank, homeJoins := tdel x.homeJoins rank, table := [],
                                conns := tkeep x.conns fun k _ => k / 2 ^ 16 != rank,
                                state := if x.state == .ready then .forming else x.state }) s

/-- GROUP_LEAVE: A member leaves its group, and the group returns to Forming (R195). -/
def execGroupLeave (s : State) : Res := .next <|
  onWrite s 0x5201 0 0 (fun _ => true) fun w c s =>
    let g := field c.data 0 2
    let ep := field c.data 2 2
    let gr := groupOf s g
    match rankOf gr ep with
    | some r =>
      match tget gr.joins r with
      | some j => if w.priv == 1 && j.part != w.part then (rDenied, s) else (rDone, leaveMember g r s)
      | none => (rInvalid, s)
    | none => (rInvalid, s)

/-- Devices that hold a member, each once. -/
def memberDevices (gr : Group) : List Nat := (gr.members.map epDev).eraseDups

/-- JOIN_ARRIVAL: the home device receives a join, and once every member has joined it sends the member table to every member device (R194). -/
def execJoinArrival (g rank : Nat) (j : Join) (s : State) : Res := .next <|
  let gr := groupOf s g
  when_ (running s && gr.live && isOwn s (homeOf gr) && Nat.blt rank gr.n && nth gr.members rank == j.ep) s <|
    let s := setGroup g (fun x => { x with homeJoins := tset x.homeJoins rank j }) s
    let gr := groupOf s g
    if gr.homeJoins.length == gr.n then
      let args := gr.homeJoins.flatMap fun x => joinArgs x.1 x.2
      s.emits ((memberDevices gr).map fun d => .coll 2 g d args)
    else s

/-! ## Group connections and tree edges (R206, R255, R297) -/

/-- Open one group or schedule connection as a Connecting end. -/
def openColl (g slot1 rank peer : Nat) (s : State) : Option Nat × State :=
  let gr := groupOf s g
  match tget gr.joins rank with
  | none => (none, s)
  | some j =>
    let die := memberDie s j.ep
    match freeHandle s die with
    | none => (none, s)
    | some h =>
      let (e, s) := newEnd { initiator := true, state := .connecting, localEp := j.ep, peerEp := nth gr.members peer, part := j.part,
                             pasid := j.pasid, spray := 2, coll := some (g, slot1, rank, peer) } (cfg s 0x4101 1) s
      (some h, sendConnectReq h (addEnd h e s))

/-- An end that is open or about to be. -/
def End.usable (e : End) : Bool := e.isOpen || e.state == .connecting

/-- Open connections for (local rank, peer) pairs that have none, or have a broken one; answers whether all could be made (log 44,
DEDUCED). -/
def openAll (g slot1 : Nat) (have_ : Tab Nat) : List (Nat × Nat) → State → Bool × Tab Nat × State
  | [], s => (true, have_, s)
  | (r, p) :: t, s =>
    match tget have_ (r * 2 ^ 16 + p) with
    | some h =>
      if (endOf s h).usable then openAll g slot1 have_ t s
      else
        match openColl g slot1 r p (closeConns [h] s) with
        | (some h, s) => openAll g slot1 (tset have_ (r * 2 ^ 16 + p) h) t s
        | (none, s) => (false, have_, s)
    | none =>
      match openColl g slot1 r p s with
      | (some h, s) => openAll g slot1 (tset have_ (r * 2 ^ 16 + p) h) t s
      | (none, s) => (false, have_, s)

/-- Directions in which a tree entry has neighbours (R296). -/
def treeDirs (e : BitVec 128) : List Nat :=
  (if fld e 109 107 < 6 then [fld e 109 107] else []) ++ maskBits 6 (fld e 106 101)

def edgesOn (s : State) (die : Nat) : Nat := (s.ar.edges.filter fun e => e.1 / 2 ^ 14 == die).length

/-- Lowest edge number free on a port die. -/
def freeEdge (s : State) (die : Nat) : Option Nat :=
  ((List.range (min 16384 (edgesOn s die + 1))).map fun i => die * 2 ^ 14 + i).find? fun k => (tget s.ar.edges k).isNone

/-- An edge of a tree, and the half of its connection at this port die, which opens once its other end is known (R255, R297). -/
def addEdge (key g tree dir : Nat) (s : State) : State :=
  let root := fld (tgetD s.fab.trees tree 0) 76 61
  let e : End := { initiator := false, state := .connecting, localEp := root, peerEp := root, part := 0xF }
  { s with ar := { s.ar with edges := tset s.ar.edges key { tree := tree, dir := dir, group := g } },
           conn := { s.conn with ends := tset s.conn.ends (edgeHalf key) e } }

/-- One edge for each port die and direction of each of the group's trees (R297). -/
def openEdges (g : Nat) (s : State) : State :=
  (s.fab.trees.filter fun e => fld e.2 127 112 == g && fld e.2 111 110 != 0).foldl (fun s e =>
    (treeDirs e.2).foldl (fun s k =>
      (List.range 4).foldl (fun s die =>
        if s.ar.edges.any fun x => x.1 / 2 ^ 14 == die && x.2.tree == e.1 && x.2.dir == k then s
        else
          match freeEdge s die with
          | some key => addEdge key g e.1 k s
          | none => record 3 0x5001 0xF (fpCode die) [g] s) s) s) s

/-- The group connections a device needs: from each local member to every other (R206). -/
def connPairs (gr : Group) : List (Nat × Nat) :=
  (gr.joins.map (·.1)).flatMap fun r => ((List.range gr.n).filter (· != r)).map fun p => (r, p)

/-- The group connections a device needs are all open. -/
def connsOpen (s : State) (gr : Group) : Bool :=
  (connPairs gr).all fun x => match tget gr.conns (x.1 * 2 ^ 16 + x.2) with
    | some h => (endOf s h).isOpen
    | none => false

/-- The member table comes: connections and edges are opened, and those that a member's new join has broken are opened again (R195,
R206). -/
def execMemberTable (g : Nat) (table : List Join) (s : State) : Res := .next <|
  let gr := groupOf s g
  when_ (running s && gr.live && table.length == gr.n) s <|
    let s := setGroup g (fun x => { x with table := table }) s
    let (ok, conns, s) := openAll g 0 gr.conns (connPairs gr) s
    let s := setGroup g (fun x => { x with conns := conns }) s
    openEdges g (if ok then s else record 3 0x5001 0xF (firstEngine s) [g] s)

/-- Every edge a group's trees need on this device. -/
def edgesOpen (s : State) (g : Nat) : Bool :=
  (s.fab.trees.filter fun e => fld e.2 127 112 == g && fld e.2 111 110 != 0).all fun e =>
    (treeDirs e.2).all fun k => (List.range 4).all fun die => s.ar.edges.any fun x => x.1 / 2 ^ 14 == die && x.2.tree == e.1 && x.2.dir == k

/-- Every local member has launched a sequence, and READY for it has not gone out: send it to the coordinator (R202, R203). -/
def sendReady (g seq : Nat) (s : State) : State :=
  let gr := groupOf s g
  let ranks := (gr.joins.map (·.1)).filter fun r => !s.fab.fenced.contains (nth gr.members r)
  if gr.state != .ready || seq != add32 gr.retired 1 || gr.sent.contains seq || ranks.isEmpty || !(ranks.all fun r => (launchOf gr r seq).isSome) then s
  else
    match gr.launches.find? fun l => l.seq == seq with
    | none => s
    | some l =>
      -- launches that differ on one device give the coordinator different signatures
      let sig := match gr.launches.find? fun x => x.seq == seq && !(x.sig == l.sig) with
        | some x => x.sig
        | none => l.sig
      (setGroup g (fun x => { x with sent := x.sent ++ [seq] }) s).emit
        (.coll 3 g (homeOf gr) [seq, sig.kind, sig.param, sig.accOp, sig.accFmt, b2n sig.exact, sig.len, sig.outOff, sig.permCheck, sig.cfgCheck])

/-- An edge's half opens with its other end's number, epoch and initial PSN; one that is open with this end goes on (R255). -/
def openEdge (x : Nat × Nat × Nat × Nat) (s : State) : State :=
  let h := edgeHalf x.1
  let peer := edgeKey (x.1 / 2 ^ 14) (x.2.1 % 2 ^ 14)
  match tget s.conn.ends h with
  | none => s
  | some e =>
    if e.isOpen && e.peerHandle == peer && e.epoch == x.2.2.1 % m16 then s
    else
      let (e, s) := newEnd { initiator := false, state := .open_, localEp := e.localEp, peerEp := e.peerEp, part := 0xF, peerHandle := peer,
                             epoch := x.2.2.1 % m16, recvThrough := sub32 x.2.2.2 1, lastHeard := s.time.now, established := true } (cfg s 0x4101 1) s
      { s with conn := { s.conn with ends := tset s.conn.ends h e } }

/-- The connections are open, and each edge is told its other end's number, epoch and initial PSN (key, number, epoch, PSN); an edge
that is told nothing failed its check (R195, R297, log 20, DESIGN CHOICE). -/
def execGroupReady (g : Nat) (edges : List (Nat × Nat × Nat × Nat)) (s : State) : Res := .next <|
  let gr := groupOf s g
  let ok := gr.state == .forming && gr.table.length == gr.n && gr.n != 0 && connsOpen s gr && edgesOpen s g &&
    (gr.joins.length == (localRanks s gr).length)
  when_ (running s && ok) s <|
    let own := s.ar.edges.filter fun e => e.2.group == g
    match own.find? fun e => !(edges.any fun x => x.1 == e.1) with
    | some e => record 3 0x3003 0xF (fpCode (e.1 / 2 ^ 14)) [e.2.tree, e.2.dir] s
    | none =>
      let s := (edges.filter fun x => own.any fun e => e.1 == x.1).foldl (fun s x => openEdge x s) s
      let s := setGroup g (fun x => { x with state := .ready }) s
      -- launches held while the group was Forming go on
      sendReady g (add32 gr.retired 1) s

/-! ## Permutation tables (R227) -/

/-- A list of U16 values. -/
def u16s (d : List Byte) : List Nat := (List.range (d.length / 2)).map fun i => field d (2 * i) 2
def u16Bytes (l : List Nat) : List Byte := l.flatMap (leBytes 2)

def isPermutation (n : Nat) (l : List Nat) : Bool := l.length == n && (List.range n).all fun i => l.contains i

/-- PERM_TABLE: A write of a permutation table checks it and binds it to the selected group (R227). -/
def execPermTable (s : State) : Res := .next <|
  onWrite s 0x5111 0 0 (fun _ => true) fun w c s =>
    let k := selOf s w.num (dkey 0x5110 0)
    let g := groupSel s w
    let gr := groupOf s g
    match writeArray c (u16Bytes (tgetD s.coll.perms k {}).ranks) with
    | none => (rLength, s)
    | some d =>
      if gr.state == .free || !isPermutation gr.n (u16s d) then (rInvalid, s)
      else (rDone, { s with coll := { s.coll with perms := tset s.coll.perms k { group := some g, ranks := u16s d } } })

/-! ## Launching (R197 to R203) -/

/-- 32-bit check of a permutation table. -/
def permCheck (s : State) (l : List Nat) : Nat := if s.coll.perms.isEmpty && l.isEmpty then 0 else (crc32c (u16Bytes l)).toNat

/-- The configuration check of a group (R203). -/
def cfgCheck (gr : Group) : Nat :=
  (crc32c (arrayOf 2 (u16Bytes gr.members) ++ leBytes 1 gr.flags ++ leBytes 4 gr.timeout ++ leBytes 4 gr.accElems ++ leBytes 8 gr.seed)).toNat

def sigOf (s : State) (gr : Group) (w : Wqe) : Signature :=
  let k := Wqe.collKind w
  { kind := k, param := Wqe.collParam w, accOp := w.accOp, accFmt := w.accFmt, exact := w.exact, len := w.length, outOff := Wqe.outOff w,
    permCheck := if k == ckPermute then permCheck s (tgetD s.coll.perms (Wqe.collParam w) {}).ranks else 0, cfgCheck := cfgCheck gr }

/-- Bytes read and written of a member's window by a launch. -/
def extents (s : State) (gr : Group) (rank : Nat) (w : Wqe) : Nat × Nat :=
  let k := Wqe.collKind w
  let l := w.length
  if k == ckMulticast then (if rank == Wqe.collParam w then (l, 0) else (0, l))
  else if k == ckReduce then (l, if rank == Wqe.collParam w then l else 0)
  else if k == ckReduceScatter then (l, l / max gr.n 1)
  else if k == ckAllGather then (l, l * gr.n)
  else if k == ckScheduled then
    match tget s.coll.slots (Wqe.collParam w % 16) with
    | some x => (fld x.hdr 927 888, fld x.hdr 887 848)
    | none => (0, 0)
  else (l, l)

/-- The checks of R199, in order, with those of R81 that stay (checks 1, 2 and 5). -/
def collCheck (s : State) (wq : Nat) (w : Wqe) : Nat :=
  let d := (wqOf s wq).desc
  let p := Desc.part d
  let g := Wqe.collGroup w
  let gr := groupOf s g
  let k := Wqe.collKind w
  let f := formatOf w.accFmt
  let slot := tgetD s.coll.slots (Wqe.collParam w % 16) {}
  if Nat.ble 12 w.tile || !((namedObjects w).all (objectExists s)) || gen1 s then stBadWqe
  else if gr.state == .free || k == 0 || (8 ≤ k && k != ckScheduled) || (k != ckScheduled && w.tc < 2) then stBadWqe
  else if (k == ckShift && Wqe.collParam w == 0) || ((k == ckMulticast || k == ckReduce) && gr.n ≤ Wqe.collParam w)
      || (k == ckPermute && (tgetD s.coll.perms (Wqe.collParam w) {}).group != some g)
      || (Wqe.stream w && (!(k == ckShift || k == ckPermute || k == ckMulticast || k == ckAllGather) || !w.wait || w.waitKind != 0)) then stBadWqe
  else if reduces k && (!accOk w.accOp w.accFmt w.exact .collective
      || w.length % (f.unit * (if k == ckReduceScatter then gr.n else 1)) != 0 || (exactFor w.accOp w.accFmt w.exact && gr.accElems == 0)) then stBadWqe
  else if k == ckScheduled && (slot.state != .resident || slot.group != g || fld slot.hdr 983 980 != w.accOp || fld slot.hdr 979 976 != w.accFmt
      || flag slot.hdr 975 != w.exact) then stBadWqe
  else
    match rankOf gr w.endpoint with
    | none => stLocalRights
    | some r =>
      match tget gr.joins r with
      | none => stLocalRights
      | some j =>
        let (i, o) := extents s gr r w
        if j.part != p || j.pasid != Desc.pasid d then stLocalRights
        else if Wqe.stream w && k == ckMulticast && r != Wqe.collParam w then stBadWqe
        else if (i != 0 && Nat.blt j.len (Wqe.inOff w + i)) || (o != 0 && Nat.blt j.len (Wqe.outOff w + o)) then stLocalBounds
        else if !((namedObjects w).all fun x => objectIn s x p (Desc.pasid d)) then stLocalRights
        else stOk

/-- Register a launch by its distance from RETIRED (R202); a fenced member's ends with FENCED (R223). -/
def registerLaunch (wq : Nat) (w : Wqe) (idx : Nat) (s : State) : State :=
  let g := Wqe.collGroup w
  let gr := groupOf s g
  let p := Desc.part (wqOf s wq).desc
  let s := putInFlight wq w w.length 0 0 s
  let d := sub32 (Wqe.seq w) gr.retired
  let fenced := s.fab.fenced.contains w.endpoint
  if d == 0 || 16 < d then (if fenced then decideOp wq idx { status := stFenced } s else mismatch g wq idx s)
  else
    match rankOf gr w.endpoint with
    | none => s
    | some r =>
      if (launchOf gr r (Wqe.seq w)).isSome then (if fenced then decideOp wq idx { status := stFenced } s else mismatch g wq idx s)
      else
        let l : Launch := { wq := wq, idx := idx, rank := r, seq := Wqe.seq w, sig := sigOf s gr w, since := s.time.now }
        let s := setLaunches g (· ++ [l]) s
        if fenced then endStep g wq idx { status := stFenced } s else
        let s := if d != 1 then bumpColl (dieOfWq wq) p 4 1 s else s
        sendReady g (Wqe.seq w) s

/-- Issue a COLL_STEP: its own checks in place of 3 and 4 of R81, its wait, then its launch (R199, R200). -/
def execCollStep (wq : Nat) (s : State) : Res := .next <| issueWith collCheck s wq (opIs opCollStep) (registerLaunch wq)

/-! ## The coordinator (R203, R204, R217, R225) -/

/-- Member devices that still have a member not fenced. -/
def readyDevices (s : State) (gr : Group) : List Nat := ((gr.members.filter fun m => !s.fab.fenced.contains m).map epDev).eraseDups

/-- First gate-cycle start at or after an instant, of a cycle that counts from GATE_BASE of port 0 (R217). -/
def cycleStart (s : State) (cycle at_ : Nat) : Nat :=
  let b := (tgetD s.fab.ports 0 {}).gateBase
  if cycle == 0 then at_ else if at_ ≤ b then b else b + ceilDiv (at_ - b) cycle * cycle

/-- The instant a scheduled run starts at (R217). -/
def startInstant (s : State) (gr : Group) (sig : Signature) : Nat :=
  match tget s.coll.slots (sig.param % 16) with
  | some x =>
    let lead := s.time.now + fld x.hdr 943 928 * us
    let after_ := match gr.lastRun with
      | some (t, d, c) => t + d + c
      | none => 0
    cycleStart s (fld x.hdr 815 784) (max lead after_)
  | none => s.time.now

/-- Send ABORT to every member device. -/
def sendAbort (g seq : Nat) (fenced : Bool) (s : State) : State :=
  let gr := groupOf s g
  let s := setGroup g (fun x => { x with readys := x.readys.filter (fun r => r.seq != seq), aborted := insertNew x.aborted seq }) s
  s.emits ((memberDevices gr).map fun d => .coll 5 g d [seq, b2n fenced])

/-- What the coordinator does with the READYs of a sequence it holds: with every member device's it sends START, or ABORT where their
signatures differ; a scheduled run that a fence has come before is aborted (R203, R224, R225). -/
def judgeReady (g seq : Nat) (s : State) : State :=
  let gr := groupOf s g
  let rs := gr.readys.filter fun r => r.seq == seq
  match rs with
  | [] => s
  | r0 :: _ =>
    let sig := r0.sig
    if sig.kind == ckScheduled && gr.members.any (fun m => s.fab.fenced.contains m) then sendAbort g seq true s
    else if !((readyDevices s gr).all fun d => rs.any fun r => r.dev == d) then s
    else if !(rs.all fun r => r.sig == sig) then
      let s := if rs.all fun r => r.sig.cfgCheck == sig.cfgCheck then s else record 3 0x5004 0xF (firstEngine s) [g, seq] s
      sendAbort g seq false s
    else
      let t := if sig.kind == ckScheduled then startInstant s gr sig else 0
      let hdr := (tgetD s.coll.slots (sig.param % 16) {}).hdr
      let s := setGroup g (fun x => { x with
        readys := x.readys.filter fun r => r.seq != seq,
                                      lastRun := if sig.kind == ckScheduled then some (t, fld hdr 847 816, fld hdr 815 784) else x.lastRun }) s
      s.emits ((memberDevices gr).map fun d => .coll 4 g d [seq, t])

/-- READY: the coordinator receives a READY with its signature, and on the last one sends START, or ABORT on a mismatch (R203). One for a
sequence it has aborted, or that is behind it, is stale. -/
def execReady (g dev seq : Nat) (sig : Signature) (s : State) : Res := .next <|
  let gr := groupOf s g
  let d := sub32 seq gr.retired
  when_ (running s && gr.live && isOwn s (homeOf gr) && (memberDevices gr).contains (epDev dev) && Nat.blt 0 d && Nat.ble d 16
      && !gr.aborted.contains seq) s <|
    let m : ReadyMsg := { dev := epDev dev, seq := seq, sig := sig, at_ := s.time.now }
    judgeReady g seq (setGroup g (fun x => { x with readys := x.readys.filter (fun r => !(r.seq == seq && r.dev == m.dev)) ++ [m] }) s)

/-- COORDINATOR_TIMEOUT: the group TIMEOUT passes since the first READY without every READY, and the coordinator sends ABORT (R204). -/
def execCoordinatorTimeout (g seq : Nat) (s : State) : Res := .next <|
  let gr := groupOf s g
  let late := match gr.readys.find? fun r => r.seq == seq with
    | some r => due s r.at_ (gr.timeout * ms)
    | none => false
  when_ (running s && gr.live && isOwn s (homeOf gr) && late) s (sendAbort g seq false s)

/-! ## START and ABORT at a member device (R203, R204, R207, R221, R224) -/

/-- A span of a member's input goes to whom the kind says: to the destination of a SHIFT or PERMUTE, or along its multicast tree and, in an
ALL_GATHER, into its own output (R198, R207). `note` counts the arrival of a streamed tile (R209). -/
def sendSpan (g : Nat) (l : Launch) (w : Wqe) (note : Bool) (x : Nat × Nat) (s : State) : State :=
  let gr := groupOf s g
  let k := l.sig.kind
  if k == ckShift || k == ckPermute then
    let d := putDest s gr l
    if d == l.rank then selfCopy g l w x.1 x.1 x.2 note s else sendPut g l w d x.1 x.2 note s
  else
    let base := if k == ckAllGather then l.rank * l.sig.len + x.1 else x.1
    let s := if k == ckAllGather then selfCopy g l w x.1 base x.2 false s else s
    match treeOf s g 1 l.rank with
    | some t => sendTree g t l w ocCollMcast (Wqe.inOff w + x.1) base x.2 note s
    | none => s

/-- A member's contribution to one reduction: along its tree, or, where the group has none, to the member itself (R207). -/
def sendItem (g : Nat) (l : Launch) (w : Wqe) (i : RedItem) (s : State) : State :=
  match treeOf s g 2 i.root with
  | some t =>
    sendTree g t l w ocCollAcc (Wqe.inOff w + i.start) (if exactFor l.sig.accOp l.sig.accFmt l.sig.exact then i.start else i.outAt) i.len false s
  | none =>
    if i.root != l.rank then s
    else
      keepOwn g l ((spanTiles s w i.len).map fun x =>
        { src := Wqe.inOff w + i.start + x.1, dst := i.outAt + x.1, len := x.2, acc := some (i.start + x.1) }) s

/-- What one local member of a dynamic collective sends when it starts; a streaming member sends its first tile (R207, R208). -/
def startMember (g : Nat) (l : Launch) (s : State) : State :=
  let gr := groupOf s g
  match findOp s l.wq l.idx with
  | none => s
  | some o =>
    let w := o.wqe
    let s := onOp l.wq l.idx (fun o => { o with released := 1, lastRelease := s.time.now }) s
    if reduces l.sig.kind then (redItems gr l).foldl (fun s i => sendItem g l w i s) s
    else if l.sig.kind == ckMulticast && l.rank != l.sig.param then s
    else
      (if Wqe.stream w then (spanTiles s w l.sig.len).take 1 else [(0, l.sig.len)]).foldl (fun s x => sendSpan g l w (Wqe.stream w) x s) s

/-- Start a dynamic collective: members fenced before START are noted; without DEGRADED_OK a reduction ends with MEMBER_FENCED (R224). -/
def startDynamic (g seq : Nat) (s : State) : State :=
  let gr := groupOf s g
  let fenced := gr.members.filter fun m => s.fab.fenced.contains m
  let ls := gr.launches.filter fun l => l.seq == seq && !l.hasEnded && !l.started
  match ls with
  | [] => s
  | l0 :: _ =>
    let s := bumpColl (dieOfWq l0.wq) (Desc.part (wqOf s l0.wq).desc) 0 1 s
    ls.foldl (fun s l =>
      let l' : Launch := { l with started := true, startFenced := fenced }
      let s := setLaunches g (fun ls => ls.map fun y =>
        if y.wq == l.wq && y.idx == l.idx then { y with started := true, startFenced := fenced } else y) s
      if reduces l.sig.kind && !fenced.isEmpty && !bit gr.flags 1 then endStep g l.wq l.idx { status := stMemberFenced } s
      else progressAt g l.rank seq (startMember g l' s)) s

/-- Arm a scheduled run: run counters at 0, every local member's part open (R212, R217); one that comes too late is aborted (R221). -/
def armRun (g seq t : Nat) (s : State) : State :=
  let gr := groupOf s g
  let ls := gr.launches.filter fun l => l.seq == seq && !l.hasEnded && !l.started
  match ls with
  | [] => s
  | l :: _ =>
    let n := l.sig.param % 16
    if t < s.time.now + us then s.emit (.coll 5 g (homeOf gr) [seq, 0])
    else
      let others := s.coll.slots.any fun x => x.1 != n && x.2.run.isSome
      let w := (findOp s l.wq l.idx).map (·.wqe)
      let r : Run := { seq := seq, t := t, members := ls.map fun l => { rank := l.rank, wq := l.wq, idx := l.idx },
                       layer := (w.map Wqe.layer).getD 0xFFFF, operator := (w.map Wqe.operator).getD 0xFFFF }
      let s := { s with coll := { s.coll with slots := tmod s.coll.slots n fun x => { x with run := some r } } }
      let s := setLaunches g (fun ys => ys.map fun y => if y.seq == seq then { y with started := true } else y) s
      let s := ls.foldl (fun s l => freshArea g l.rank seq s) s
      let die := dieOfWq l.wq
      let p := Desc.part (wqOf s l.wq).desc
      let s := bumpColl die p 0 1 s
      if others then bumpColl die p 5 1 s else s

/-- A sequence is retired on this device: what was held for it goes on (R202). -/
def retire (g seq : Nat) (s : State) : State :=
  let s := setGroup g (fun x => { x with retired := seq, launches := x.launches.filter fun l => l.seq != seq, sent := x.sent.filter (· != seq) }) s
  sendReady g (add32 seq 1) s

/-- START: the dynamic collective begins, or the scheduled run is armed at T (R203). It comes from the coordinator, on the group's home
device `src`; one from elsewhere starts nothing (log 129, DEDUCED). On a device whose members are all fenced nothing of the
sequence is left to end, so it is retired (R202; log 112, DEDUCED). -/
def execStart (g seq t src : Nat) (s : State) : Res := .next <|
  let gr := groupOf s g
  when_ (running s && gr.live && epDev src == homeOf gr) s <|
    if gr.launches.any fun l => l.seq == seq && !l.hasEnded then
      (if gr.launches.any fun l => l.seq == seq && l.sig.kind == ckScheduled then armRun g seq t s else startDynamic g seq s)
    else if seq == add32 gr.retired 1 && (localRanks s gr).all fun r => s.fab.fenced.contains (nth gr.members r) then retire g seq s
    else s

/-- Stop a run of a group's sequence in whatever slot it is. -/
def dropRun (g seq : Nat) (s : State) : State :=
  { s with coll := { s.coll with slots := tmap s.coll.slots fun _ x =>
      match x.run with
      | some r => if x.group == g && r.seq == seq then { x with run := none } else x
      | none => x } }

/-- ABORT: RETIRED is set, every COLL_STEP of the sequence ends with COLLECTIVE_MISMATCH, or MEMBER_FENCED where a fence caused it
(R204, R225); one of a sequence that is over already changes nothing. -/
def abortSeq (g seq : Nat) (fenced : Bool) (s : State) : State :=
  let gr := groupOf s g
  let d := sub32 seq gr.retired
  let ahead := Nat.blt 0 d && Nat.ble d 16
  let ls := gr.launches.filter fun l => l.seq == seq && !l.hasEnded
  let s := ls.foldl (fun s l => if fenced then endStep g l.wq l.idx { status := stMemberFenced } s else mismatch g l.wq l.idx s) s
  let s := dropRun g seq s
  let s := setGroup g (fun x => { x with
    retired := if ahead then seq else x.retired,
    launches := x.launches.filter fun l => l.seq != seq, sent := x.sent.filter (· != seq), readys := x.readys.filter (fun r => r.seq != seq),
    aborted := x.aborted.filter (· != seq) }) s
  if ahead then sendReady g (add32 seq 1) (bumpColl (firstEngine s) 0xFF 2 1 s) else s

/-- ABORT: A device receives ABORT; RETIRED is set to s and every COLL_STEP of s ends with COLLECTIVE_MISMATCH (R204). -/
def execAbort (g seq : Nat) (fenced : Bool) (s : State) : Res := .next <|
  let gr := groupOf s g
  when_ (running s && gr.live) s <|
    -- the coordinator passes on an ABORT that a member device sent it, whether or not its own members have ended the sequence (R204, R221)
    let relay := isOwn s (homeOf gr) && !gr.aborted.contains seq
    let s := if relay then
        s.emits (((memberDevices gr).filter fun x => x != homeOf gr).map fun x => .coll 5 g x [seq, b2n fenced]) else s
    abortSeq g seq fenced s

/-- COLL_STEP_TIMEOUT: A COLL_STEP has had no START or ABORT within TIMEOUT, ends with COLLECTIVE_MISMATCH and sends ABORT (R204). -/
def execCollStepTimeout (wq idx : Nat) (s : State) : Res := .next <|
  match s.coll.groups.find? fun x => x.2.launches.any fun l => l.wq == wq && l.idx == idx && !l.hasEnded && !l.started with
  | none => s
  | some (g, gr) =>
    match gr.launches.find? fun l => l.wq == wq && l.idx == idx with
    | none => s
    | some l => when_ (running s && due s l.since (gr.timeout * ms)) s <| (mismatch g wq idx s).emit (.coll 5 g (homeOf gr) [l.seq, 0])

/-- Every local member's COLL_STEP of the next sequence has ended: it is retired, and held launches may go on (R202); a fenced member need
not have launched. -/
def execSequenceRetired (g : Nat) (s : State) : Res := .next <|
  let gr := groupOf s g
  let seq := add32 gr.retired 1
  let done := fun (r : Nat) => match launchOf gr r seq with
    | some l => l.hasEnded
    | none => s.fab.fenced.contains (nth gr.members r)
  let ok := (gr.launches.any fun l => l.seq == seq) && (gr.launches.all fun l => l.seq != seq || l.hasEnded) && (gr.joins.map (·.1)).all done
  when_ (running s && gr.live && ok) s (retire g seq (dropRun g seq s))

/-! ## RESET on a group connection (R226) -/

/-- The peer of a group connection was reset: the dynamic collectives of the member under way end with TARGET_RESET, whether or not their
bytes travel on it, and a scheduled run is aborted (R124, R221, R226). -/
def resetColl (e : End) (s : State) : State :=
  match e.coll with
  | none => s
  | some (g, slot1, rank, _) =>
    let gr := groupOf s g
    if slot1 == 0 then
      (gr.launches.filter fun l => l.rank == rank && l.started && !l.hasEnded && l.sig.kind != ckScheduled).foldl (fun s l =>
        endStep g l.wq l.idx { status := stTargetReset } s) s
    else
      match (tget s.coll.slots (slot1 - 1)).bind (·.run) with
      | some r => s.emit (.coll 5 g (homeOf gr) [r.seq, 0])
      | none => s

/-- RESET_PACKET: an end receives RESET from its peer and moves to Broken with TARGET_RESET, or to Free when Closing (R124); a group's collectives under way end (R226). -/
def execResetPacket (h epoch : Nat) (s : State) : Res := .next <|
  atHub kReset (resetSays h epoch) (fun s =>
    let e := endOf s h
    if !e.initiator || e.epoch != epoch then s
    else
      match e.state with
      | .open_ => resetColl e (breakEnd h stTargetReset s)
      | .closing => closeEnds h resDone (endOpsWith h stTargetReset s)
      | _ => s) s

/-! ## Tile streaming (R208) -/

/-- The launch of an operation. -/
def launchFor (s : State) (wq idx : Nat) : Option (Nat × Launch) :=
  (s.coll.groups.flatMap fun x => (x.2.launches.filter fun l => l.wq == wq && l.idx == idx && !l.hasEnded).map fun l => (x.1, l)).head?

/-- The counter of a streaming COLL_STEP meets WAIT_VALUE + i. -/
def tileReady (s : State) (w : Wqe) (i : Nat) : Bool :=
  match tget s.q.ctrs w.waitObj with
  | some c => reached c.value (w.waitValue + i)
  | none => false

/-- A tile of a streaming COLL_STEP is released, an operation of its own (R208, R209; log 57, DEDUCED). -/
def execStreamTileRelease (wq idx : Nat) (s : State) : Res := .next <|
  match findOp s wq idx, launchFor s wq idx with
  | some o, some (g, l) =>
    match (spanTiles s o.wqe l.sig.len)[o.released]? with
    | some x =>
      when_ (running s && l.started && Wqe.stream o.wqe && tileReady s o.wqe o.released) s <|
        sendSpan g l o.wqe true x (onOp wq idx (fun o => { o with released := o.released + 1, lastRelease := s.time.now }) s)
    | none => s
  | _, _ => s

/-- Bytes a streaming member will not send are withdrawn from whom they were for (R208, R566). -/
def withdrawSpan (g : Nat) (l : Launch) (w : Wqe) (off len : Nat) (s : State) : State :=
  let gr := groupOf s g
  let k := l.sig.kind
  let gone := fun (opcode ep n base : Nat) => (launchDesc l w opcode ep n base 0 0 len 12 false []).withdrawal stWaitTimeout 0 len
  if k == ckShift || k == ckPermute then
    match tget gr.conns (l.rank * 2 ^ 16 + putDest s gr l) with
    | some h => let (n, s) := takeOpnum h s; queueRequest h (gone ocCollPut (endOf s h).peerEp n off) s
    | none => s
  else
    match treeOf s g 1 l.rank with
    | some t =>
      joinTree g t l l.sig.accFmt (gone ocCollMcast ((tget gr.joins l.rank).map (·.ep) |>.getD 0) 0
        (if k == ckAllGather then l.rank * l.sig.len + off else off)) s
    | none => s

/-- A streamed tile's wait runs out: it and the tiles behind it fail at its offset (R208). -/
def execStreamTileTimeout (wq idx : Nat) (s : State) : Res := .next <|
  match findOp s wq idx, launchFor s wq idx with
  | some o, some (g, l) =>
    match (spanTiles s o.wqe l.sig.len)[o.released]? with
    | some x =>
      let late := o.wqe.waitTimeout != 0 && due s o.lastRelease (o.wqe.waitTimeout * 64000) && !tileReady s o.wqe o.released
      when_ (running s && l.started && Wqe.stream o.wqe && late) s <|
        let s := onOp wq idx (fun o => { o with released := (spanTiles s o.wqe l.sig.len).length }) s
        let at_ := if l.sig.kind == ckAllGather then l.rank * l.sig.len + x.1 else x.1
        withdrawSpan g l o.wqe x.1 (l.sig.len - x.1) (collReceived g l.rank l.seq 0 0 (some (at_, stWaitTimeout, 0)) [] s)
    | none => s
  | _, _ => s

end Sys2Proof.Machine
end

