-- ==== Sys2Proof/Machine/DevMem.lean ====
section
/-! DEFINITION. Device memory as its controllers keep it: corrections, worn blocks and channels, scrubbing, darns, zeroing. -/

namespace Sys2Proof.Machine

def hour : Nat := 3600 * sec

/-- Add to MEM_COUNTS: 0 units corrected, 1 uncorrectable reads, 2 blocks remapped, 3 blocks lost, 4 scrub passes, 5 segments darned, 6 ns
throttled (R395). -/
def countMem (die i n : Nat) (s : State) : State := bump (dkey 0x2402 (die + 1)) i n s

/-- Units corrected within the last `dur` ns, with one corrected now: the instant of each unit's last correction (R387). -/
def correctedUnits (s : State) (dur u : Nat) (l : Tab Nat) : Tab Nat := tset (tkeep l fun _ t => !due s t dur) u s.time.now

/-- Instants of the last `dur` ns, with now. -/
def window (s : State) (dur : Nat) (l : List Nat) : List Nat := (l.filter fun t => !due s t dur) ++ [s.time.now]

/-! ## Channels (R387 to R391) -/

/-- The memory package of a die's pair (R16). -/
def packageOf (die : Nat) : Nat := die / 2

def spareFree (s : State) (die : Nat) : Bool := !s.mem.spareUsed.contains (packageOf die)

/-- A slot is served by channel 16 from now on (R388). -/
def darnChannel (die slot : Nat) (s : State) : State :=
  rebuildPattern (record 1 0x2013 0xF die [die, slot] (setChan die slot (fun c => { c with onSpare := true, darn := none, corr := [], pinCorr := [] }) s))

/-- A darn takes the pair's spare; before the channel is first used it needs no copy (R388). -/
def startDarn (die slot : Nat) (s : State) : State :=
  let s := { s with mem := { s.mem with spareUsed := insertNew s.mem.spareUsed (packageOf die) } }
  if s.pow.boot != 0 then darnChannel die slot s
  else setChan die slot (fun c => { c with darn := some 0 }) s

/-- A channel is worn: a record under policy 0, a darn under policy 1 where the spare is free (R387). -/
def wornChannel (die slot : Nat) (s : State) : State :=
  if (chanOf s die slot).worn then s
  else
    let s := setChan die slot (fun c => { c with worn := true }) s
    if cfg s 0x2401 4 == 0 then record 2 0x2018 0xF die [die, slot] s
    else if spareFree s die then startDarn die slot s else s

/-- CHANNEL_FAIL: A channel fails to train or suffers a pin fault beyond correction and is darned, or withdrawn without a spare (R387). -/
def execChannelFail (die slot : Nat) (s : State) : Res :=
  need (Nat.blt die 8) .noSuchDie <|
    when_ (dieUp s die && Nat.blt slot 8 && !(chanOf s die slot).dead && !s.elec.held) s <|
      if spareFree s die then startDarn die slot s
      else record 3 0x2014 0xF die [die, slot] (setChan die slot (fun c => { c with dead := true, darn := none }) s)

/-- CHAN_DARN: A write of CHAN_DARN starts a darn of a channel onto its pair's spare (R388). -/
def execChanDarn (s : State) : Res := .next <|
  onWrite s 0x2401 5 5 (fun _ => true) fun _ c s =>
    let die := field c.data 0 1
    let slot := field c.data 1 1
    if 7 < die || 7 < slot then (rRange, s)
    else if !dieUp s die then (rInvalid, s)
    else if !spareFree s die then (rNoResource, s)
    else (rDone, startDarn die slot s)

/-! ## Blocks (R384, R386) -/

/-- A block is worn: a record under policy 0; else it is copied to the pool, where the table has room. -/
def wornBlock (die b : Nat) (s : State) : State :=
  let s := { s with mem := { s.mem with blockCorr := tdel s.mem.blockCorr b } }
  if cfg s 0x2401 4 == 0 then record 2 0x2017 0xF die [4096 * b] s
  else if (65536 ≤ remapsOf s die && (tget s.mem.remaps b).isNone) || 65536 ≤ poolUsed s die then
    if s.mem.poolFull.contains die then s
    else record 2 0x2011 0xF die [die] { s with mem := { s.mem with poolFull := s.mem.poolFull ++ [die] } }
  else { s with mem := { s.mem with remaps := tset s.mem.remaps b .copying } }

/-- A unit was corrected: it is counted for its die, its channel and pin, and its block (R384, R386, R387). -/
def corrected (a pin : Nat) (s : State) : State :=
  let die := memDie s a
  let slot := (slotOf s a).1
  let b := a / 4096
  let s := countMem die 0 1 (tally 0x41 1 { die := die } s)
  let c := chanOf s die slot
  let all := correctedUnits s hour (a / 64) c.corr
  let pins := correctedUnits s hour (a / 64) (tgetD c.pinCorr pin [])
  let s := setChan die slot (fun c => { c with corr := all, pinCorr := tset c.pinCorr pin pins }) s
  let s := if cfg s 0x2401 3 < all.length || 64 ≤ pins.length then wornChannel die slot s else s
  let blk := window s (24 * hour) (tgetD s.mem.blockCorr b [])
  let s := { s with mem := { s.mem with blockCorr := tset s.mem.blockCorr b blk } }
  if cfg s 0x2401 2 ≤ blk.length && tget s.mem.remaps b != some .copying && tget s.mem.remaps b != some .lost then wornBlock die b s else s

/-- A unit stays uncorrectable after its second read (R384). -/
def uncorrectable (a : Nat) (s : State) : State := mediaError a { s with mem := { s.mem with bad := insertNew s.mem.bad (a / 64) } }

/-- The memory rails are on and the device has left reset. -/
def memPowered (s : State) : Bool := !s.elec.held && !s.elec.waitPg && !s.elec.thermtrip && s.elec.coldN && !s.mem.selfRefresh
  && (match s.pow.state with
      | .sleep => false
      | _ => true)

/-- A read of the unit at device address a shows errors, on a data pin: corrected, or uncorrectable twice (R384). -/
def execMemoryReadError (a : Nat) (correctable : Bool) (pin : Nat) (s : State) : Res := .next <|
  when_ (memPowered s && Nat.blt (a / frameSize) (deviceFrames s) && dieUp s (memDie s a)) s <|
    if correctable then corrected a pin s else uncorrectable a s

/-- Units of a die's nine channels of 2,560 frames, in the order a scrub takes them: the first 19,074 frames are its die frames (R375,
R385) (log 75, DEDUCED). -/
def scrubUnits : Nat := 9 * 2560 * (frameSize / 64)

/-- The next unit is scrubbed: result 0 clean, 1 corrected, 2 uncorrectable (R385). -/
def execScrub (die result pin : Nat) (s : State) : Res :=
  need (Nat.blt die 8) .noSuchDie <|
    when_ (memPowered s && dieUp s die && Nat.ble result 2) s <|
      let u := tgetD s.mem.scrubAt die 0
      let f := 64 * u / frameSize
      -- the die frames, the device reserve above them, and last the spare channel's units
      let a := if f < 19074 then (f * engineDies s + die) * frameSize + 64 * u % frameSize
        else 2 ^ 40 + 2 ^ 36 * die + (f - 19074) * frameSize + 64 * u % frameSize
      let s := { s with mem := { s.mem with scrubAt := tset s.mem.scrubAt die ((u + 1) % scrubUnits) } }
      let s := if u + 1 == scrubUnits then countMem die 4 1 s else s
      if f < firstWithdrawn s die || (19074 ≤ f && f < 20480) then
        if result == 1 then corrected a pin s else if result == 2 then uncorrectable a s else s
      else if result == 1 then countMem die 0 1 (tally 0x41 1 { die := die } s)
      else if result == 2 then countMem die 1 1 s else s

/-- The copy of a worn block ends; one that met an uncorrectable unit leaves the block lost (R386). -/
def execRemapCopyDone (b : Nat) (bad : Bool) (s : State) : Res := .next <|
  when_ (memPowered s && tget s.mem.remaps b == some .copying) s <|
    let die := memDie s (4096 * b)
    if bad then mediaError (4096 * b) { s with mem := { s.mem with remaps := tdel s.mem.remaps b } }
    else
      let s := { s with mem := { s.mem with remaps := tset s.mem.remaps b .pool, wearList := insertNew s.mem.wearList b } }
      rebuildPattern (record 1 0x2010 0xF die [4096 * b] (countMem die 2 1 s))

/-- A segment of a darn is copied; units uncorrectable in the copy, by device address, mark their blocks lost (R388). -/
def execDarnSegmentDone (die slot : Nat) (bad : List Nat) (s : State) : Res :=
  need (Nat.blt die 8) .noSuchDie <|
    match (chanOf s die slot).darn with
    | some k =>
      when_ (memPowered s && Nat.blt slot 8) s <|
        let s := (bad.filter fun a => memDie s a == die).foldl (fun s a => uncorrectable a s) (countMem die 5 1 s)
        if k + 1 < 80 then setChan die slot (fun c => { c with darn := some (k + 1) }) s else darnChannel die slot s
    | none => s

/-- A bank is refreshed (R392). -/
def execRefresh (die slot bank : Nat) (s : State) : Res :=
  need (Nat.blt die 8) .noSuchDie <|
    when_ (memPowered s && dieUp s die && Nat.blt slot 8 && Nat.blt bank 64) s
      { s with mem := { s.mem with refreshed := tset s.mem.refreshed (64 * (8 * die + slot) + bank) s.time.now } }

/-- Every unit has been written with zeros: accesses go on, no unit is bad, each lost block was written whole (R386, R394). -/
def execMemoryZeroed (s : State) : Res := .next <|
  when_ (memPowered s && s.mem.zeroing) s
    { s with mem := { s.mem with
        bytes := [], hub := [], bad := [], zeroing := false,
                      remaps := (tkeep s.mem.remaps fun b r => !(r == .lost && Nat.ble 65536 (poolUsed s (memDie s (4096 * b))))).map fun e =>
          if e.2 == .lost then (e.1, .pool) else e } }

end Sys2Proof.Machine
end

