-- ==== Sys2Proof/Machine/Sched.lean ====
section
/-! DEFINITION. Compiled schedules: loading and checking an image, the chanter's steps and what each does, the end of a run. -/

namespace Sys2Proof.Machine

/-! ## The image (R211, R212, R295) -/

abbrev StepW := BitVec 256

def Step.time (x : StepW) : Nat := fld x 255 224
def Step.op (x : StepW) : Nat := fld x 223 220
def Step.src (x : StepW) : Nat := fld x 219 218
def Step.notify (x : StepW) : Bool := flag x 217
def Step.last (x : StepW) : Bool := flag x 216
def Step.peer (x : StepW) : Nat := fld x 215 200
def Step.route (x : StepW) : Nat := fld x 199 188
def Step.ctr (x : StepW) : Nat := fld x 187 184
def Step.length (x : StepW) : Nat := fld x 183 152
def Step.srcOff (x : StepW) : Nat := fld x 151 112
def Step.dstOff (x : StepW) : Nat := fld x 111 72
def Step.member (x : StepW) : Nat := fld x 71 56

def sSend : Nat := 1
def sSendAcc : Nat := 2
def sTreeAcc : Nat := 3
def sMcast : Nat := 4
def sLocalAcc : Nat := 5
def sRound : Nat := 6
def sWaitCount : Nat := 7
def sTransform : Nat := 8
def sCopy : Nat := 9

abbrev SchedHdr := BitVec 1024

def SHdr.accOp (h : SchedHdr) : Nat := fld h 983 980
def SHdr.accFmt (h : SchedHdr) : Nat := fld h 979 976
def SHdr.exact (h : SchedHdr) : Bool := flag h 975
def SHdr.routes (h : SchedHdr) : Nat := fld h 971 960
def SHdr.group (h : SchedHdr) : Nat := fld h 959 944
def SHdr.inExtent (h : SchedHdr) : Nat := fld h 927 888
def SHdr.outExtent (h : SchedHdr) : Nat := fld h 887 848
def SHdr.duration (h : SchedHdr) : Nat := fld h 847 816
def SHdr.gateCycle (h : SchedHdr) : Nat := fld h 815 784
def SHdr.tc1Open (h : SchedHdr) : Nat := fld h 783 752
/-- Steps of engine die e. -/
def SHdr.steps (h : SchedHdr) (e : Nat) : Nat := fld h (511 + 32 * e) (480 + 32 * e)

/-- The number that n bytes at an offset spell. -/
def wordAt (d : List Byte) (off n : Nat) : Nat := ofLe (slice d off n)

/-- Step lists of the engine dies, which follow one another. -/
def stepLists (d : List Byte) (h : SchedHdr) : Nat → Nat → Tab (List StepW)
  | 0, _ => []
  | n + 1, off =>
    let e := 7 - n
    let k := SHdr.steps h e
    let l := (List.range k).map fun i => BitVec.ofNat 256 (wordAt d (off + 32 * i) 32)
    if k == 0 then stepLists d h n off else (e, l) :: stepLists d h n (off + 32 * k)

/-! ## Loading (R214, R215, R216) -/

/-- Bytes that a key, address and length name in device memory, in the context of the key's region. -/
def deviceBytes (key addr len : Nat) (s : State) : Option (List Byte) × State :=
  let r := tgetD s.xl.regions (keyIndex key) 0
  match localSpan (firstEngine s) (Region.part r) (Region.pasid r) key addr len .read (· == 1) true s with
  | (.ok ps, s) => (if (badOffset s ps 0).isSome then none else some (readPieces s ps []), noteReads ps s)
  | (_, s) => (none, s)

/-- SCHED_LOAD: A schedule load starts verification of an image into a slot (R214). -/
def execSchedLoad (s : State) : Res := .next <|
  onWrite s 0x5300 0 0 (fun _ => true) fun _ c s =>
    let d := c.data
    let n := field d 0 1
    if gen1 s then (rInvalid, s)
    else if 15 < n then (rNoResource, s)
    else
      let x := tgetD s.coll.slots n {}
      if x.state == .verifying || x.state == .resident then (rBusy, s)
      else
        let x' : Slot := { state := .verifying, key := field d 1 4, addr := field d 5 8, len := field d 13 4 }
        (rDone, { s with coll := { s.coll with slots := tset s.coll.slots n x' } })

/-- Steps resident on a die over all slots. -/
def residentSteps (s : State) (e : Nat) : Nat :=
  s.coll.slots.foldl (fun a x => if x.2.state == .resident then a + (tgetD x.2.steps e []).length else a) 0

/-- The gate configuration of every port suits a schedule (R215). -/
def gatesSuit (s : State) (h : SchedHdr) : Bool :=
  (List.range 24).all fun p =>
    let l := (tgetD s.fab.ports p {}).gateList
    l.foldl (fun a e => a + e.duration) 0 == SHdr.gateCycle h &&
    Nat.ble (SHdr.tc1Open h) (l.foldl (fun a e => if bit e.gates 1 then a + e.duration else a) 0)

/-- Devices of the torus. -/
def torusSize (s : State) : Nat := dimSize s 0 * dimSize s 1 * dimSize s 2

/-- Where a route entry leads from a device, and its hops (R295). -/
def routeEnd (s : State) (from_ : Nat) (r : BitVec 128) : Nat × Nat :=
  let go := fun (c d neg hops : Nat) =>
    let n := dimSize s d
    withCoord c d (if neg == 1 then (coordOf c d + n * 16 - hops) % n else (coordOf c d + hops) % n)
  let c := go (go (go (epDev from_) 0 (fld r 127 127) (fld r 126 123)) 1 (fld r 122 122) (fld r 121 118)) 2 (fld r 117 117) (fld r 116 113)
  (c, fld r 126 123 + fld r 121 118 + fld r 116 113)

/-- A step moves into an accumulation area (R213). -/
def intoArea (h : SchedHdr) (x : StepW) : Bool :=
  (Step.op x == sLocalAcc || Step.op x == sSendAcc || Step.op x == sTreeAcc) && exactFor (SHdr.accOp h) (SHdr.accFmt h) (SHdr.exact h)

/-- Extents of a step fit the declared extents and the area, which a ROUND reads whatever its SRC says (R213, R214, R246). -/
def extentsOk (gr : Group) (h : SchedHdr) (x : StepW) : Bool :=
  let n := Step.length x
  let area := fun off => Nat.ble (elemAt (SHdr.accFmt h) (off + n)) gr.accElems
  (if Step.op x == sRound then area (Step.srcOff x)
   else if Step.src x == 0 then Nat.ble (Step.srcOff x + n) (SHdr.inExtent h)
   else if Step.src x == 1 then Nat.ble (Step.srcOff x + n) (SHdr.outExtent h)
   else Step.src x == 2 && area (Step.srcOff x)) &&
  (if intoArea h x then area (Step.dstOff x) else Step.op x == sTransform || Nat.ble (Step.dstOff x + n) (SHdr.outExtent h))

def reduceStep (x : StepW) : Bool := Step.op x == sSendAcc || Step.op x == sTreeAcc || Step.op x == sLocalAcc

/-- The header names a reduction that is permitted, or none (R232). -/
def headerAcc (h : SchedHdr) : Bool :=
  if SHdr.accOp h == 0 then !SHdr.exact h && (SHdr.accFmt h == 0 || formatOf (SHdr.accFmt h) != .reserved)
  else accOk (SHdr.accOp h) (SHdr.accFmt h) (SHdr.exact h) .collective

/-- PARTITION of a binding. -/
def bindPart (b : BitVec 512) : Nat := fld b 503 500

/-- Kernel k needs a matrix array and the die has none in service (R536). -/
def noArray (s : State) (die k : Nat) : Bool :=
  (k == 3 || k == 4) && s.pow.arraysOut.contains (8 * die) && s.pow.arraysOut.contains (8 * die + 1)

/-- A TRANSFORM's kernel is there and its parameters fit (R257, R259, R263). The parameter block lies in `par`. -/
def transformOk (s : State) (part : Nat) (h : SchedHdr) (x : StepW) (par : List Byte) : Bool :=
  let b := tgetD s.ar.binds (Step.peer x) 0
  let k := fld b 511 504
  let n := Step.length x
  Nat.blt (Step.peer x) 4096 && k != 0 && bindPart b == part &&
  (if k < 0x10 then
     match kernelShape k par n with
     | some o => Nat.ble (Step.dstOff x + o) (SHdr.outExtent h)
     | none => false
   else (tgetD s.ar.kernels k .empty == .resident) && Nat.ble n (2 ^ 22) && Nat.ble (Step.dstOff x + fld b 447 416) (SHdr.outExtent h))

/-- The parameter block of a binding, where it lies in the device; else from `ext`. -/
def paramBlock (b : BitVec 512) (ext : List Byte) (s : State) : List Byte × Nat × State :=
  let n := fld b 415 384
  if n == 0 then ([], 0, s)
  else
    match localSpan (firstEngine s) (bindPart b) (fld b 499 480) (fld b 383 352) (fld b 191 128) n .read anyTarget true s with
    | (.ok ps, s) => (readPieces s ps ext, outsideLen ps, noteReads ps s)
    | (_, s) => ([], 0, s)

/-- The checks one step of die e's list passes (R214, R246, R295). -/
def stepOk (s : State) (g : Nat) (h : SchedHdr) (routes : List (BitVec 128)) (e : Nat) (x : StepW) (par : List Byte) : Bool :=
  let gr := groupOf s g
  let ep := nth gr.members (Step.member x)
  let op := Step.op x
  let toRank := op == sSend || op == sSendAcc
  let treeOk := fun (ty : Nat) => match tget s.fab.trees (Step.peer x) with
    | some t => fld t 127 112 == g && fld t 111 110 == ty
    | none => false
  1 ≤ op && op ≤ 9 && Nat.ble (Step.time x) (SHdr.duration h) && Nat.blt (Step.member x) gr.n && isOwn s ep
    && (8 ≤ epE ep || ownerDie s (epE ep) == e) && Step.src x != 3 && Nat.ble (Step.route x) (SHdr.routes h)
    && (!toRank || Nat.blt (Step.peer x) gr.n) && (op != sTreeAcc || treeOk 2) && (op != sMcast || treeOk 1)
    && (op == sWaitCount || extentsOk gr h x)
    && (!reduceStep x || accOk (SHdr.accOp h) (SHdr.accFmt h) (SHdr.exact h) .collective)
    && (op != sTransform || !noArray s e (fld (tgetD s.ar.binds (Step.peer x) 0) 511 504))
    && (op != sTransform || transformOk s ((tget gr.joins (Step.member x)).map (·.part) |>.getD 0xF) h x par)
    && (Step.route x == 0 || !toRank ||
        (let (c, n) := routeEnd s ep ((routes[Step.route x - 1]?).getD 0)
         Nat.ble (torusSize s) 512 && c == epDev (nth gr.members (Step.peer x)) && Nat.ble n 31))

/-- TIME never decreases in a list (R214). -/
def risingTimes : Nat → List StepW → Bool
  | _, [] => true
  | t, x :: r => Nat.ble t (Step.time x) && risingTimes (Step.time x) r

/-- Check every step of a list; parameter blocks from outside come from `ext` in step order. -/
def stepsOk (g : Nat) (h : SchedHdr) (routes : List (BitVec 128)) (e : Nat) : List StepW → List Byte → State → Bool × List Byte × State
  | [], ext, s => (true, ext, s)
  | x :: t, ext, s =>
    let (par, used, s) := if Step.op x == sTransform then paramBlock (tgetD s.ar.binds (Step.peer x) 0) ext s else ([], 0, s)
    if stepOk s g h routes e x par then stepsOk g h routes e t (ext.drop used) s else (false, ext, s)

def listsOk (g : Nat) (h : SchedHdr) (routes : List (BitVec 128)) : Tab (List StepW) → List Byte → State → Bool × State
  | [], _, s => (true, s)
  | (e, l) :: t, ext, s =>
    let (ok, ext, s) := stepsOk g h routes e l ext s
    if ok && dieUp s e && risingTimes 0 l then listsOk g h routes t ext s else (false, s)

/-- (Local rank, peer) pairs a SEND or SEND_ACC names. -/
def stepPairs (l : Tab (List StepW)) : List (Nat × Nat) :=
  ((l.flatMap fun x => (x.2.filter fun y => (Step.op y == sSend || Step.op y == sSendAcc) && Step.peer y != Step.member y).map fun y =>
    (Step.member y, Step.peer y))).eraseDups

def setSlot (n : Nat) (f : Slot → Slot) (s : State) : State := { s with coll := { s.coll with slots := tmod s.coll.slots n f } }

/-- Verification of a slot's image ends: it is resident once its connections are open, or refused (log 21, DEDUCED) (R214). -/
def execScheduleVerified (slot : Nat) (ext : List Byte) (s : State) : Res := .next <|
  match tget s.coll.slots slot with
  | none => s
  | some x =>
    if !running s || x.state != .verifying || x.opening then s
    else
      let refuse := fun (s : State) => setSlot slot (fun _ => { state := .refused }) s
      match deviceBytes x.key x.addr x.len s with
      | (none, s) => (refuse s)
      | (some d, s) =>
        let h : SchedHdr := BitVec.ofNat 1024 (wordAt d 0 128)
        let g := SHdr.group h
        let gr := groupOf s g
        let routes := (List.range (SHdr.routes h)).map fun i => BitVec.ofNat 128 (wordAt d (128 + 16 * i) 16)
        let lists := stepLists d h 8 (128 + 16 * SHdr.routes h)
        let total := 128 + 16 * SHdr.routes h + 32 * lists.foldl (fun a y => a + y.2.length) 0
        let head := fld h 1023 992 == 0x53435A4B && fld h 991 984 == 1 && (Config.sha3 (d.drop 128)).toNat == fld h 255 0 && gr.state != .free
          && d.length == total && gatesSuit s h && 1 ≤ fld h 943 928 && headerAcc h
        let lasts := (localRanks s gr).all fun r => lists.any fun y => y.2.any fun z => Step.last z && Step.member z == r
        let exactOk := !(exactFor (SHdr.accOp h) (SHdr.accFmt h) (SHdr.exact h)) || gr.accElems != 0
        let room := lists.all fun y => Nat.ble (residentSteps s y.1 + y.2.length) 131072
        if !head || !lasts || !exactOk then (refuse s)
        else
          match listsOk g h routes lists ext s with
          | (false, s) => (refuse s)
          | (true, s) =>
            if !room then (refuse s)
            else
              let (ok, conns, s) := openAll g (slot + 1) [] (stepPairs lists) s
              let s := setSlot slot (fun x => { x with opening := true, group := g, hdr := h, routes := routes, steps := lists, conns := conns }) s
              if ok then settleSlot slot s else refuseSlot slot s

/-- SCHED_UNLOAD: A schedule slot is freed unless a run of it is in progress (R216). -/
def execSchedUnload (s : State) : Res := .next <|
  onWrite s 0x5302 0 0 (fun _ => true) fun _ c s =>
    let n := ofLe c.data
    match tget s.coll.slots n with
    | none => (if 15 < n then rInvalid else rDone, s)
    | some x =>
      if x.run.isSome then (rBusy, s) else (rDone, unloadSlot n s)

/-! ## The chanter (R218) -/

/-- A slot, its run, a step of a die's list, and the launch the step runs for. -/
structure StepCtx where
  x : Slot
  r : Run
  st : StepW
  m : RunMember

def stepKey (die idx : Nat) : Nat := die * 2 ^ 20 + idx

def stepCtx (s : State) (slot die idx : Nat) : Option StepCtx :=
  match tget s.coll.slots slot with
  | some x =>
    match x.run, (tgetD x.steps die [])[idx]? with
    | some r, some st => (r.members.find? fun m => m.rank == Step.member st).map fun m => ⟨x, r, st, m⟩
    | _, _ => none
  | none => none

def setRun (slot : Nat) (f : Run → Run) (s : State) : State := setSlot slot (fun x => { x with run := x.run.map f }) s

def setMember (slot rank : Nat) (f : RunMember → RunMember) (s : State) : State :=
  setRun slot (fun r => { r with members := r.members.map fun m => if m.rank == rank then f m else m }) s

/-- Every earlier step of the member in the list has been issued, and no WAIT_COUNT of it holds (R218). -/
def turnOf (c : StepCtx) (die idx : Nat) : Bool :=
  c.m.hold.isNone && !c.m.ended &&
  (List.range idx).all fun i =>
    match (tgetD c.x.steps die [])[i]? with
    | some y => Step.member y != Step.member c.st || (c.r.issued.contains (stepKey die i)
        && !(Step.op y == sWaitCount && c.r.fired.contains (stepKey die i)))
    | none => true

/-- A step issued more than LATE_LIMIT after its instant is counted late, and the first of a run recorded (R218). -/
def noteLate (slot die : Nat) (c : StepCtx) (s : State) : State :=
  let at_ := c.r.t + Step.time c.st
  if !Nat.blt (at_ + cfg s 0x5000 2) s.time.now then s
  else
    let p := ((tget (groupOf s c.x.group).joins c.m.rank).map (·.part)).getD 0xFF
    let who : Who := { die := die, part := p, layer := c.r.layer, operator := c.r.operator }
    let s := tally 0x32 1 who (bumpColl die p 1 1 s)
    let s := if !c.r.lateSeen then record 2 0x5002 p die [c.x.group, c.r.seq, Step.time c.st] s else s
    setRun slot (fun r => { r with lateSeen := true }) s

/-- CHANTER_STEP: at T plus TIME the chanter issues the next schedule step of a member, and counts it late past LATE_LIMIT; a TRANSFORM is
late when it begins (R218, R263). -/
def execChanterStep (slot die idx : Nat) (s : State) : Res := .next <|
  match stepCtx s slot die idx with
  | none => s
  | some c =>
    let at_ := c.r.t + Step.time c.st
    let k := stepKey die idx
    when_ (running s && !c.r.stopped && Nat.ble at_ s.time.now && !c.r.issued.contains k && turnOf c die idx) s <|
      let p := ((tget (groupOf s c.x.group).joins c.m.rank).map (·.part)).getD 0xFF
      let who : Who := { die := die, part := p, layer := c.r.layer, operator := c.r.operator }
      let s := tally 0x31 1 who s
      let s := if Step.op c.st == sTransform then s else noteLate slot die c s
      let s := setRun slot (fun r => { r with issued := r.issued ++ [k], fired := r.fired ++ [k] }) s
      setMember slot c.m.rank (fun m => { m with lastDone := m.lastDone || Step.last c.st }) s

/-! ## What the steps do (R213) -/

/-- Perform a fired step of one operation; `act` answers whether it was done, else it waits. -/
def fireStep (slot die idx op : Nat) (s : State) (act : StepCtx → Launch → Wqe → Join → State → Bool × State) : State :=
  match stepCtx s slot die idx with
  | none => s
  | some c =>
    let g := c.x.group
    match launchOf (groupOf s g) c.m.rank c.r.seq, tget (groupOf s g).joins c.m.rank, findOp s c.m.wq c.m.idx with
    | some l, some j, some o =>
      if running s && c.r.fired.contains (stepKey die idx) && Step.op c.st == op then
        let (ok, t) := act c l o.wqe j s
        (if ok then setRun slot (fun r => { r with fired := r.fired.filter (· != stepKey die idx) }) t else t)
      else s
    | _, _, _ => s

/-- Window offset of a step's source. -/
def srcAt (l : Launch) (w : Wqe) (x : StepW) : Nat := (if Step.src x == 0 then Wqe.inOff w else l.sig.outOff) + Step.srcOff x

/-- What a step's source gives: its bytes and how many came from outside, a wait, or a status. -/
inductive Source where
  | bytes (b : List Byte) (used : Nat)
  | wait
  | fail (status : Nat)
  deriving DecidableEq, Repr

/-- Read a step's source; an accumulation area as a source of plain bytes has no stated content, so they are free (log 22, DESIGN CHOICE). -/
def stepSource (l : Launch) (w : Wqe) (j : Join) (x : StepW) (ext : List Byte) (s : State) : Source × State :=
  if Step.src x == 2 then let (b, s) := drawBytes (Step.length x) s; (.bytes b 0, s)
  else
    match winSpan j (srcAt l w x) (Step.length x) .read s with
    | (.ok ps, s) =>
      match pathState s false ps with
      | .wait => (.wait, s)
      | .dead st => (.fail st, s)
      | .go => match badOffset s ps 0 with
        | some (_, a) => (.fail stMediaError, mediaError a s)
        | none => (.bytes (readPieces s ps ext) (outsideLen ps), noteReads ps s)
    | (.fail st _, s) => (.fail st, s)
    | (.miss, s) => (.wait, s)

/-- Fail a step's member at an output offset. -/
def failStep (g : Nat) (l : Launch) (off st : Nat) (s : State) : State := collReceived g l.rank l.seq 0 0 (some (off, st, 0)) [] s

/-- Write bytes into a member's output; answers whether all are placed (R213). -/
def toOutput (g : Nat) (l : Launch) (j : Join) (off : Nat) (d : List Byte) (s : State) : Bool × State :=
  match winSpan j (l.sig.outOff + off) d.length .write s with
  | (.ok ps, s) =>
    let (n, s) := storePieces ps d s
    (n == d.length, collReceived g l.rank l.seq 0 0 (if n < d.length then some (off + n, stMediaError, 0) else none) (ps.flatMap (pathsOf s)) s)
  | (.fail st a, s) => (false, collReceived g l.rank l.seq 0 0 (some (off, st, a)) [] s)
  | (.miss, s) => (false, s)

/-- Form and route of a step's frames: source route of its ROUTE entry, but on trees and without one form G (R281, R286). -/
def stepDesc (c : StepCtx) (l : Launch) (w : Wqe) (opcode dest opnum code : Nat) (tree : Bool) : Desc :=
  let x := c.st
  let h := c.x.hdr
  let acc := opcode == ocCollAcc
  let note := if Step.notify x then some (Step.ctr x) else none
  let op := if acc then SHdr.accOp h else 0
  let fmt := if acc then SHdr.accFmt h else 0
  let route := (c.x.routes[Step.route x - 1]?).getD 0
  let d : Desc := { kind := kData, tc := 1, opcode := opcode, dest := dest, opnum := opnum, length := Step.length x, tile := code,
                    wq := l.wq, idx := l.idx }
  if tree || Step.route x == 0 then
    { d with form := Form.mkG (Step.dstOff x) l.seq op fmt (acc && SHdr.exact h) w.xpath false (if acc then 1 else 0) note }
  else { d with rmode := 1, die := some (fld route 112 111), form := Form.mkS (Step.dstOff x) op fmt (acc && SHdr.exact h) w.xpath note route }

/-- Packets of a tile whose source is the accumulation area: their bytes are free (log 22, DESIGN CHOICE). -/
def areaPackets (d : Desc) (off n : Nat) (send : Desc → State → State) (s : State) : State :=
  (dataPackets off n).foldl (fun s x =>
    let (b, s) := drawBytes x.2 s
    send { d with offset := x.1, plen := x.2, last := x.1 + x.2 == d.length, body := b } s) s

/-- A step that sends to a rank, on its schedule connection. -/
def stepSend (opcode : Nat) (c : StepCtx) (l : Launch) (w : Wqe) (s : State) : Bool × State :=
  let g := c.x.group
  let x := c.st
  match tget c.x.conns (l.rank * 2 ^ 16 + Step.peer x) with
  | some h =>
    let code := Nat.log2 (tileSize (gen1 s) w.tile (Step.length x)) - 11
    let ep := (endOf s h).peerEp
    (true, sendOp g h l w (Step.peer x) opcode (srcAt l w x) (Step.dstOff x) (Step.length x) true
      (fun n => stepDesc c l w opcode ep n code false)
      (fun j d off n s => if Step.src x == 2 then areaPackets d off n (queueRequest h) s else putTile h l j d (srcAt l w x) off n s) s)
  | none => (true, failStep g l (Step.dstOff x) stTransportTimeout s)

/-- A step's NOTIFY at its own member, once its bytes are placed. -/
def ownNote (slot : Nat) (c : StepCtx) (good : Bool) (s : State) : State :=
  if good && Step.notify c.st then addRunCounter slot c.m.rank (Step.ctr c.st) s else s

/-- Copy a step's source to its own member's output, with its NOTIFY; answers whether it is done (R213). -/
def ownCopy (slot : Nat) (c : StepCtx) (l : Launch) (w : Wqe) (j : Join) (ext : List Byte) (s : State) : Bool × State :=
  match stepSource l w j c.st ext s with
  | (.bytes b _, s) =>
    let (good, s) := toOutput c.x.group l j (Step.dstOff c.st) b s
    (true, ownNote slot c good s)
  | (.fail st, s) => (true, failStep c.x.group l (Step.dstOff c.st) st s)
  | (.wait, s) => (false, s)

/-- Accumulate a step's source at its own member, the area in exact mode, else the output, with its NOTIFY; answers whether it is done
(R213). -/
def ownAcc (slot die : Nat) (c : StepCtx) (l : Launch) (w : Wqe) (j : Join) (ext : List Byte) (s : State) : Bool × State :=
  let g := c.x.group
  let h := c.x.hdr
  let x := c.st
  match stepSource l w j x ext s with
  | (.wait, s) => (false, s)
  | (.fail st, s) => (true, failStep g l (Step.dstOff x) st s)
  | (.bytes b used, s) =>
    if exactFor (SHdr.accOp h) (SHdr.accFmt h) (SHdr.exact h) then
      (true, ownNote slot c true (accumulate j.ep j.part g l.rank (SHdr.accFmt h) (Step.dstOff x) 1 false b s))
    else
      match winSpan j (l.sig.outOff + Step.dstOff x) b.length .write s with
      | (.ok ps, s) =>
        match pathState s true ps with
        | .wait => (false, s)
        | .dead st => (true, failStep g l (Step.dstOff x) st s)
        | .go =>
          let (bad, s) := combineOutput die j.part g l.rank (SHdr.accOp h) (SHdr.accFmt h) (Step.dstOff x) 1 false false ps b (ext.drop used) s
          let s := collReceived g l.rank l.seq 0 0 none (ps.flatMap (pathsOf s)) s
          (true, match bad with
            | some o => failStep g l (Step.dstOff x + o) stMediaError s
            | none => ownNote slot c true s)
      | (.fail st _, s) => (true, failStep g l (Step.dstOff x) st s)
      | (.miss, s) => (false, s)

/-- SEND: A schedule step PUTs from SRC to the peer's output (R213). -/
def execSend (slot die idx : Nat) (ext : List Byte) (s : State) : Res := .next <|
  fireStep slot die idx sSend s fun c l w j s =>
    if Step.peer c.st == l.rank then ownCopy slot c l w j ext s else stepSend ocCollPut c l w s

/-- SEND_ACC: A schedule step PUT_ACCs from SRC into the peer (R213). -/
def execSendAcc (slot die idx : Nat) (ext : List Byte) (s : State) : Res := .next <|
  fireStep slot die idx sSendAcc s fun c l w j s =>
    if Step.peer c.st == l.rank then ownAcc slot die c l w j ext s else stepSend ocCollAcc c l w s

/-- A step into a tree: its packets wait at the port dies. -/
def stepTree (opcode : Nat) (c : StepCtx) (l : Launch) (w : Wqe) (j : Join) (s : State) : Bool × State :=
  let x := c.st
  let g := c.x.group
  let fmt := SHdr.accFmt c.x.hdr
  let d := stepDesc c l w opcode j.ep 0 (Nat.log2 (tileSize (gen1 s) w.tile (Step.length x)) - 11) true
  (true, (spanTiles s w (Step.length x)).foldl (fun s t =>
    if Step.src x == 2 then areaPackets d t.1 t.2 (joinTree g (Step.peer x) l fmt) s
    else treeTile g (Step.peer x) l j fmt d (srcAt l w x) t.1 t.2 s) s)

/-- TREE_ACC: A schedule step PUT_ACCs along a reduction tree, reduced in the stores it passes (R213). -/
def execTreeAcc (slot die idx : Nat) (s : State) : Res := .next <| fireStep slot die idx sTreeAcc s fun c l w j s => stepTree ocCollAcc c l w j s

/-- MCAST: a schedule step sends SRC along a multicast tree to every member of the tree (R213). -/
def execMcast (slot die idx : Nat) (s : State) : Res := .next <| fireStep slot die idx sMcast s fun c l w j s => stepTree ocCollMcast c l w j s

/-- LOCAL_ACC: A schedule step accumulates SRC into the member's own accumulation area (R213). -/
def execLocalAcc (slot die idx : Nat) (ext : List Byte) (s : State) : Res := .next <|
  fireStep slot die idx sLocalAcc s fun c l w j s => ownAcc slot die c l w j ext s

/-- ROUND: LENGTH bytes of elements from the area into the output, once; the element's index is its place in the output (R213,
R249). -/
def execRound (slot die idx : Nat) (s : State) : Res := .next <|
  fireStep slot die idx sRound s fun c l _ j s =>
    let h := c.x.hdr
    let x := c.st
    let f := SHdr.accFmt h
    let g := c.x.group
    match winSpan j (l.sig.outOff + Step.dstOff x) (Step.length x) .write s with
    | (.ok ps, s) =>
      match pathState s true ps with
      | .wait => (false, s)
      | .dead st => (true, failStep g l (Step.dstOff x) st s)
      | .go =>
        let (bad, s) := roundArea j.ep j.part g l.rank (SHdr.accOp h) f l.seq (elemAt f (Step.srcOff x)) (elemAt f (Step.dstOff x))
          (elemAt f (Step.length x)) ps s
        let s := collReceived g l.rank l.seq 0 0 none (ps.flatMap (pathsOf s)) s
        (true, match bad with
          | some o => failStep g l (Step.dstOff x + o) stMediaError s
          | none => ownNote slot c true s)
    | (.fail st _, s) => (true, failStep g l (Step.dstOff x) st s)
    | (.miss, s) => (false, s)

/-- WAIT_COUNT: A schedule step holds the member's later steps until a run counter reaches LENGTH (R213). -/
def execWaitCount (slot die idx : Nat) (s : State) : Res := .next <|
  fireStep slot die idx sWaitCount s fun c _ _ _ s =>
    let k := Step.ctr c.st
    (true, setMember slot c.m.rank (fun m =>
      if Step.length c.st ≤ tgetD m.ctrs k 0 then m else { m with hold := some (k, Step.length c.st) }) s)

/-- RUN_COUNTER_REACHED: A run counter reaches the value of a pending WAIT_COUNT, and the member's steps resume (R213). -/
def execRunCounterReached (slot rank : Nat) (s : State) : Res := .next <|
  when_ (running s) s <|
    setMember slot rank (fun m =>
      match m.hold with
      | some (k, v) => if v ≤ tgetD m.ctrs k 0 then { m with hold := none } else m
      | none => m) s

/-- KERNEL of the binding a job's step names. -/
def jobKernel (s : State) (j : Job) : Nat :=
  let st := ((tgetD (tgetD s.coll.slots j.slot {}).steps j.die [])[j.idx]?).getD 0
  fld (tgetD s.ar.binds (Step.peer st) 0) 511 504

/-- A kernel runs on the matrix arrays of its die (R259). -/
def usesArrays (k : Nat) : Bool := k == 3 || k == 4

/-- A kernel runs on a vector cluster of its die (R259, R262). -/
def usesCluster (k : Nat) : Bool := k != 4

/-- Vector clusters of a die that serve: its spare makes up for one withdrawn (R15, R534). -/
def clustersUp (s : State) (die : Nat) : Nat := min 4 (5 - (s.pow.clustersOut.filter fun x => x / 8 == die).length)

/-- What a kernel runs on is free on its die: one of its clusters, its matrix arrays (R263; log 113, DEDUCED). -/
def kernelRoom (s : State) (die k : Nat) : Bool :=
  let ks := (s.ar.jobs.filter fun j => j.die == die).map (jobKernel s)
  (!usesCluster k || Nat.blt (ks.filter usesCluster).length (clustersUp s die)) && (!usesArrays k || !ks.any usesArrays)

/-- TRANSFORM: an invocation of the binding's kernel begins on the die once what it runs on is free, late past LATE_LIMIT (R257, R263); a
die with no matrix array left for it aborts the run (R536). -/
def execTransform (slot die idx : Nat) (s : State) : Res := .next <|
  fireStep slot die idx sTransform s fun c _ _ j s =>
    let k := fld (tgetD s.ar.binds (Step.peer c.st) 0) 511 504
    if noArray s die k then
      let s := record 3 0x5003 j.part die [k, Step.peer c.st, 3] (bumpArith die j.part 6 1 s)
      (true, s.emit (.coll 5 c.x.group (homeOf (groupOf s c.x.group)) [c.r.seq, 0]))
    else if !kernelRoom s die k then (false, s)
    else
      let s := noteLate slot die c (bumpArith die j.part 5 1 (tally 0x34 1 { die := die, part := j.part } s))
      (true, setMember slot c.m.rank (fun m => { m with open_ := m.open_ + 1 })
        { s with ar := { s.ar with jobs := s.ar.jobs ++ [⟨slot, die, idx, s.time.now⟩] } })

/-- COPY: A schedule step copies locally from SRC to the output (R213). -/
def execCopy (slot die idx : Nat) (ext : List Byte) (s : State) : Res := .next <|
  fireStep slot die idx sCopy s fun c l w j s => ownCopy slot c l w j ext s

/-! ## The end of a run (R221, R222, R225) -/

/-- RUN_TIMEOUT: A scheduled run has not ended by T plus DURATION plus TIMEOUT and is aborted (R221). -/
def execRunTimeout (slot : Nat) (s : State) : Res := .next <|
  match tget s.coll.slots slot with
  | some x =>
    match x.run with
    | some r =>
      let gr := groupOf s x.group
      let late := due s r.t (SHdr.duration x.hdr + gr.timeout * ms) && r.members.any fun m => !m.ended
      when_ (running s && late) s (s.emit (.coll 5 x.group (homeOf gr) [r.seq, 0]))
    | none => s
  | none => s

/-- The schedule has a reduction step on this device. -/
def hasReduction (x : Slot) : Bool := x.steps.any fun e => e.2.any reduceStep

/-- Nothing of a member's part of a run is open. -/
def memberQuiet (s : State) (x : Slot) (r : Run) (m : RunMember) : Bool :=
  m.open_ == 0 && !treeBusy s m.wq m.idx
    && ((groupOf s x.group).transfers.all fun t => t.wq != m.wq || t.idx != m.idx || t.ended)
    && !(r.fired.any fun k => match (tgetD x.steps (k / 2 ^ 20) [])[k % 2 ^ 20]? with
      | some y => Step.member y == m.rank
      | none => false)

/-- MEMBER_COMPLETE: A member's LAST step has been issued and every step it issued has ended, so its scheduled COLL_STEP ends (R222). -/
def execMemberComplete (slot rank : Nat) (s : State) : Res := .next <|
  match tget s.coll.slots slot with
  | some x =>
    match x.run with
    | some r =>
      match r.members.find? fun m => m.rank == rank with
      | some m =>
        let g := x.group
        let gr := groupOf s g
        let fenced := gr.members.filter fun y => s.fab.fenced.contains y
        when_ (running s && !m.ended && (m.lastDone || r.stopped) && memberQuiet s x r m) s <|
          let die := dieOfWq m.wq
          let p := Desc.part (wqOf s m.wq).desc
          let s := setMember slot rank (fun m => { m with ended := true }) s
          if r.stopped then
            if hasReduction x then endStep g m.wq m.idx { status := stMemberFenced } s
            else
              let (n, s) := makeList die p fenced s
              endStep g m.wq m.idx { status := stPartialDelivery, off := fenced.length, addr := n } s
          else
            match launchOf gr rank r.seq with
            | some l => endStep g m.wq m.idx (collVerdict s gr { l with sig := { l.sig with kind := ckReduce }, startFenced := [] } [] 0) s
            | none => s
      | none => s
    | none => s
  | none => s

end Sys2Proof.Machine
end

