-- ==== Sys2Proof/Machine/Store.lean ====
section
/-! DEFINITION. Trees at a port die: reduction-store admission and forwarding, multicast replication, acknowledgements of tree edges;
and the transform kernels' images, bindings and invocations. -/

namespace Sys2Proof.Machine

/-! ## Tree entries and edges (R255, R296 to R299) -/

def Tree.group (t : BitVec 128) : Nat := fld t 127 112
def Tree.parent (t : BitVec 128) : Nat := fld t 109 107
def Tree.children (t : BitVec 128) : List Nat := maskBits 6 (fld t 106 101)
def Tree.local_ (t : BitVec 128) : List Nat := maskBits 9 (fld t 100 92)
def Tree.subtree (t : BitVec 128) : Nat := fld t 91 77
def Tree.root (t : BitVec 128) : Nat := fld t 76 61

/-- This device holds the root. -/
def Tree.isRoot (t : BitVec 128) : Bool := Tree.parent t == 7

/-- A tree entry is in a port die's cache (R296). -/
def treeCached (s : State) (die tree : Nat) : Bool := s.fab.treeCache.contains (die * 2 ^ 20 + tree)

/-- The edge of a tree in a direction at a port die. -/
def edgeToward (s : State) (die tree dir : Nat) : Option Nat :=
  (s.ar.edges.find? fun x => x.1 / 2 ^ 14 == die && x.2.tree == tree && x.2.dir == dir).map (·.1)

/-! ## Where a tree's bytes land (R209, R246, R256, R298) -/

/-- Elements of an operation of `len` bytes that have all its contributions at the root. -/
def rootFull (s : State) (g rank want fmt base len : Nat) : Bool :=
  (List.range (elemAt fmt len)).all fun k => Nat.ble want (countOf s g rank (elemAt fmt base + k))

/-- Bytes of a tree's withdrawal. -/
def withdrawnBytes (d : List Byte) : Nat := field d 4 4

/-- Fenced members count as +0 contributions in a reduction (R224, R256). -/
def zeroed (s : State) (gr : Group) (l : Launch) : Bool :=
  l.sig.kind != ckScheduled && (if l.started then !l.startFenced.isEmpty else gr.members.any fun m => s.fab.fenced.contains m)

/-- The root's member and launch that a tree packet is for; none where its COLL_STEP has ended or its endpoint is fenced, and the packet then
goes nowhere (R300; log 114, DESIGN CHOICE). -/
def landsAt (s : State) (g rank seq8 : Nat) : Option (Launch × Join) :=
  let gr := groupOf s g
  if s.fab.fenced.contains (nth gr.members rank) then none
  else
    match launchAt gr rank seq8, tget gr.joins rank with
    | some l, some j => if l.hasEnded then none else some (l, j)
    | _, _ => none

/-- The output span of a contribution in ACC_FMT bytes: its offset in the reduction and its elements. -/
def rootSpan (hdr : Hdr) (d : List Byte) : Nat × Nat :=
  let c := collHdr hdr
  let n := if Hdr.kind hdr == kWithdraw then elemAt c.fmt (withdrawnBytes d)
    else if c.isPartial then d.length / (if exactFor c.op c.fmt c.exact then 8 else 4)
    else (formatOf c.fmt).elemsIn d.length
  (c.base + Hdr.offset hdr, n)

/-- The root's output cannot take a contribution now (R135). -/
def rootWaits (s : State) (g rank : Nat) (hdr : Hdr) (d : List Byte) : Bool :=
  let c := collHdr hdr
  match landsAt s g rank c.seq with
  | some (l, j) =>
    let (off, n) := rootSpan hdr d
    if c.toArea ocCollAcc || Hdr.kind hdr == kWithdraw then false
    else match winSpan j (l.sig.outOff + off) ((formatOf c.fmt).bytesOf n) .write s with
      | (.ok ps, s) => pathState s true ps == .wait
      | _ => false
  | none => false

/-- The root's engine die absorbs a contribution, or counts one that will not come (R250, R256, R566). -/
def absorbRoot (t : BitVec 128) (rank : Nat) (hdr : Hdr) (d ext : List Byte) (s : State) : State :=
  let g := Tree.group t
  let c := collHdr hdr
  match landsAt s g rank c.seq with
  | none => s
  | some (l, j) =>
    let (off, n) := rootSpan hdr d
    let full := fun (s : State) => rootFull s g rank (Tree.subtree t) c.fmt c.base (Hdr.length hdr)
    let fail := fun (o st a : Nat) (s : State) => collReceived g rank l.seq 0 0 (some (o, st, a)) [] s
    let lost := fun (st a : Nat) (s : State) => fail off st a (addCounts g rank c.count (elemAt c.fmt off) n s)
    let was := full s
    let s := freshArea g rank l.seq s
    let s :=
      if Hdr.kind hdr == kWithdraw then lost (field d 0 1) (field d 8 8) s
      else
        let s := countPlaced (spanDie s j (l.sig.outOff + off)) j.part (Hdr.tc hdr) d.length s
        if c.toArea ocCollAcc then accumulate j.ep j.part g rank c.fmt off c.count c.isPartial d s
        else
          match winSpan j (l.sig.outOff + off) ((formatOf c.fmt).bytesOf n) .write s with
          | (.ok ps, s) =>
            (match deadPath s true ps with
             | some st => lost st 0 s
             | none =>
               let (bad, s) := combineOutput (memberDie s j.ep) j.part g rank c.op c.fmt off c.count c.isPartial (zeroed s (groupOf s g) l) ps d ext s
               let s := collReceived g rank l.seq 0 0 none (ps.flatMap (pathsOf s)) s
               match bad with
               | some o => fail (off + o) stMediaError 0 s
               | none => s)
          | (.fail st a, s) => lost (asRemote st) a s
          | (.miss, s) => s
    -- a schedule's TREE_ACC asks for its notification once all its contributions are there
    let note := match c.note with
      | some k => if full s && !was && l.sig.kind == ckScheduled then noteMember g l k s else s
      | none => s
    progressAt g rank l.seq note

/-- A packet of a multicast lands at a local member, its tile translated whole, or counts as bytes that will not come; its operation's
notification follows its last byte (R176, R209, R298, R566). -/
def landMcast (g rank : Nat) (hdr : Hdr) (d : List Byte) (s : State) : State :=
  let c := collHdr hdr
  match landsAt s g rank c.seq with
  | none => s
  | some (l, j) =>
    let off := c.base + Hdr.offset hdr
    let count := fun (n : Nat) (low : Option (Nat × Nat × Nat)) (ps : List Piece) (s : State) =>
      let paths := ps.flatMap (pathsOf s)
      let o := tgetD l.treeOps c.base {}
      let o : TreeOp := { o with got := o.got + n, bad := o.bad || low.isSome, paths := addPaths o.paths paths,
                                 note := if c.note.isSome then c.note else o.note }
      let s := collReceived g rank l.seq off n low paths s
      if Hdr.length hdr ≤ o.got then treeWhole g l c.base c.xpath o s else setTreeOp g l c.base (some o) s
    if Hdr.kind hdr == kWithdraw then count (withdrawnBytes d) (some (off, field d 0 1, field d 8 8)) [] s
    else
      let n := d.length
      let (t0, tl) := tileSpanOf (Hdr.offset hdr) (Hdr.length hdr) (Hdr.tile hdr)
      match winSpan j (l.sig.outOff + c.base + t0) tl .write s with
      | (.ok ps, s) =>
        let ps := subPieces ps (Hdr.offset hdr - t0) n
        match deadPath s true ps with
        | some st => count n (some (off, st, 0)) [] s
        | none =>
          let (m, s) := storePieces ps d s
          count n (if m < n then some (off + m, stMediaError, 0) else none) ps
            (countPlaced (spanDie s j (l.sig.outOff + off)) j.part (Hdr.tc hdr) m s)
      | (.fail st a, s) => count n (some (off, asRemote st, a)) [] s
      | (.miss, s) => s

/-- A local member's output cannot take a multicast packet now (R135). -/
def mcastWaits (s : State) (g rank : Nat) (hdr : Hdr) (n : Nat) : Bool :=
  let c := collHdr hdr
  match landsAt s g rank c.seq with
  | some (l, j) =>
    Hdr.kind hdr == kData && (match winSpan j (l.sig.outOff + c.base + Hdr.offset hdr) n .write s with
      | (.ok ps, s) => pathState s true ps == .wait
      | _ => false)
  | none => false

/-- Local members other than the root that a multicast reaches; a copy for a fenced one is dropped (R298, R300). -/
def mcastRanks (s : State) (t : BitVec 128) : List Nat :=
  let gr := groupOf s (Tree.group t)
  let here := (coord s).getD 0
  (Tree.local_ t).filterMap fun e =>
    if here + e == Tree.root t then none else (rankOf gr (here + e)).filter fun r => !s.fab.fenced.contains (nth gr.members r)

/-! ## Reduction stores (R250 to R254) -/

/-- 48 MiB of chunks on each port die. -/
def storeSlots : Nat := 12288

def slotsOf (s : State) (die : Nat) : Nat := (s.ar.slots.filter fun x => x.die == die).length

/-- One chunk of a contribution: its place among the operation's chunks, its offset in ACC_FMT bytes, its bytes. -/
structure Chunk where
  n : Nat
  off : Nat
  data : List Byte

/-- The whole chunks a packet carries: one as a partial, one or more raw. -/
def chunksOf (hdr : Hdr) (d : List Byte) : List Chunk :=
  let c := collHdr hdr
  let exact := exactFor c.op c.fmt c.exact
  let k := chunkElems exact
  let off := Hdr.offset hdr
  if c.isPartial then [⟨elemAt c.fmt off / k, off, d⟩]
  else
    let size := (formatOf c.fmt).bytesOf k
    (List.range (ceilDiv d.length (max size 1))).map fun i => ⟨elemAt c.fmt off / k + i, off + i * size, (d.drop (i * size)).take size⟩

/-- How a chunk fared at admission. -/
inductive Admitted where
  | absorbed | noSlot | escaped
  deriving DecidableEq, Repr

/-- The slot holds this chunk of this operation and has not forwarded. -/
def StoreSlot.holds (x : StoreSlot) (die tree : Nat) (c : CollHdr) (n : Nat) : Bool :=
  x.die == die && x.tree == tree && x.seq == c.seq && x.base == c.base && x.chunk == n && x.number == 0

/-- Admit one chunk: combine, take a slot, or leave it to be forwarded (R253). -/
def takeChunk (die tree : Nat) (hdr : Hdr) (k : Chunk) (s : State) : Admitted × State :=
  let c := collHdr hdr
  let exact := exactFor c.op c.fmt c.exact
  let new := if c.isPartial then some (storeElems exact k.data) else toStore exact c.fmt k.data
  match s.ar.slots.find? fun x => x.holds die tree c k.n with
  | some x =>
    match new.bind fun v => storeCombine exact c.op c.fmt x.vals v with
    | some v =>
      let x' : StoreSlot := { x with vals := v, count := x.count + c.count }
      (.absorbed, bump (dkey 0x5520 (die + 1)) 0 1
        { s with ar := { s.ar with slots := s.ar.slots.map fun y => if y.holds die tree c k.n then x' else y } })
    | none => (.escaped, bump (dkey 0x5520 (die + 1)) 2 1 s)
  | none =>
    if storeSlots ≤ slotsOf s die then (.noSlot, bump (dkey 0x5520 (die + 1)) 1 1 s)
    else
      match new with
      | some v =>
        let x : StoreSlot := { die := die, group := (tgetD s.fab.trees tree 0 |> Tree.group), tree := tree, seq := c.seq, base := c.base, chunk := k.n,
                               exact := exact, accOp := c.op, accFmt := c.fmt, count := c.count, vals := v,
                               hdr := setFld hdr 189 158 k.off, taken := s.time.now, linger := cfg s 0x5001 1 }
        let s := bump (dkey 0x5520 (die + 1)) 0 1 { s with ar := { s.ar with slots := s.ar.slots ++ [x] } }
        (.absorbed, raise (dkey 0x5520 (die + 1)) 4 (slotsOf s die) s)
      | none => (.escaped, bump (dkey 0x5520 (die + 1)) 2 1 s)

/-- The partial a slot forwards: its own trailer, its COUNT the members it includes (R251, R285). -/
def partialOf (x : StoreSlot) : Packet :=
  let h := setFld (setFld (setFld x.hdr 31 31 1) 30 16 x.count) 310 310 0
  let d := storeBytes x.exact x.vals
  { hdr := h, payload := d, crc := trailer h 0 d }

/-- What an edge sends of a packet that keeps its header and trailer. -/
def rawDesc (p : Packet) : Desc :=
  { kind := Hdr.kind p.hdr, tc := Hdr.tc p.hdr, rmode := 2, opcode := Hdr.opcode p.hdr, length := Hdr.length p.hdr, offset := Hdr.offset p.hdr,
    tile := Hdr.tile p.hdr, form := Hdr.form p.hdr, plen := p.payload.length, body := p.payload, raw := some p }

/-- A slot's partial waits on its parent edge; the slot is free once it is acknowledged (R254). -/
def forwardSlot (x : StoreSlot) (s : State) : State :=
  match edgeToward s x.die x.tree (Tree.parent (tgetD s.fab.trees x.tree 0)) with
  | none => s
  | some key =>
    let n := s.ar.partials + 1
    let s := { s with ar := { s.ar with partials := n, slots := s.ar.slots.map fun y => if y == x then { y with number := n } else y } }
    queueEdge (edgeHalf key) { rawDesc (partialOf x) with slot := n } s

/-- Slots of a port die whose COUNT has reached their subtree forward (R254). -/
def forwardFull (die : Nat) (s : State) : State :=
  (s.ar.slots.filter fun x => x.die == die && x.number == 0 && Nat.ble (Tree.subtree (tgetD s.fab.trees x.tree 0)) x.count).foldl
    (fun s x => forwardSlot x s) s

/-- A frame of one raw chunk of a packet, its own trailer. -/
def chunkPacket (p : Packet) (k : Chunk) : Packet :=
  let h := setFld p.hdr 189 158 k.off
  { p with hdr := h, payload := k.data, crc := trailer h p.route k.data }

/-- A port die on the way to the root admits a contribution chunk by chunk; answers the chunks it does not absorb, and whether they are all
of them. An MX contribution and a withdrawal are never absorbed (R250, R253). -/
def admitAll (die tree : Nat) (p : Packet) (s : State) : List Chunk × Bool × State :=
  let ks := chunksOf p.hdr p.payload
  if (formatOf (collHdr p.hdr).fmt).isMx || Hdr.kind p.hdr == kWithdraw then (ks, true, s)
  else
    let (left, s) := ks.foldl (fun (acc : List Chunk × State) k =>
      let (r, s) := takeChunk die tree p.hdr k acc.2
      (if r == .absorbed then acc.1 else acc.1 ++ [k], s)) ([], s)
    (left, left.length == ks.length, s)

/-- A new packet of an edge at its port die: where its tree goes on it is admitted and the rest forwarded, the whole packet with its trailer
where none of it is absorbed, and acknowledged once that is; at the root's device the root's engine die absorbs it (R253, R255, R285; log 59,
DEDUCED). -/
def takeContribution (p : Packet) (die tree : Nat) (t : BitVec 128) (ext : List Byte) (h : Nat) (hdr : Hdr) (s : State) : Option State :=
  let n := p.payload.length
  if Tree.isRoot t then
    match rankOf (groupOf s (Tree.group t)) (Tree.root t) with
    | none => some (noteNew h hdr n false s)
    | some r => some (if rootWaits s (Tree.group t) r hdr p.payload then sendHold h s
        else noteNew h hdr n false (absorbRoot t r hdr p.payload ext s))
  else
    match edgeToward s die tree (Tree.parent t) with
    | none => some s
    | some key =>
      let (left, whole, s) := admitAll die tree p s
      let s := noteNew h hdr n (!left.isEmpty) s
      let send := fun (p : Packet) (s : State) => queueEdge (edgeHalf key) { rawDesc p with origin := some (h, Hdr.psn hdr) } s
      some (forwardFull die (if whole then send p s else left.foldl (fun s k => send (chunkPacket p k) s) s))

/-- A new multicast packet of an edge: a copy lands at each local member and one goes on each child edge, and it is acknowledged once those
are (R255, R298). -/
def takeMcast (p : Packet) (die tree : Nat) (t : BitVec 128) (h : Nat) (hdr : Hdr) (s : State) : Option State :=
  let g := Tree.group t
  let n := p.payload.length
  let ranks := mcastRanks s t
  if ranks.any fun r => mcastWaits s g r hdr n then some (sendHold h s)
  else
    let on := (Tree.children t).filterMap (edgeToward s die tree)
    let s := ranks.foldl (fun s r => landMcast g r hdr p.payload s) s
    let s := noteNew h hdr n (!on.isEmpty) s
    some (on.foldl (fun s key => queueEdge (edgeHalf key) { rawDesc p with origin := some (h, Hdr.psn hdr) } s) s)

/-- An arriving packet of a tree edge: checked and classified as on any connection, it waits for its tree entry (R146, R255, R285, R296). -/
def byEdge (die op : Nat) (p : Packet) (s : State) (act : Nat → BitVec 128 → Nat → Hdr → State → Option State) : State :=
  let key := edgeKey (Hdr.edgeDie p.hdr) (Hdr.edge p.hdr)
  let kind := Hdr.kind p.hdr
  if !isEdge (handleOf p.hdr) || Hdr.edgeDie p.hdr != die || Hdr.opcode p.hdr != op || !(kind == kData || kind == kWithdraw) then s
  else
    arrive s p kind fun h _ hdr s =>
      match tget s.ar.edges key with
      | none => some s
      | some x =>
        match tget s.fab.trees x.tree with
        | none => some s
        | some t => if treeCached s die x.tree then act x.tree t h hdr s else none

/-- The first packet of local members that waits at a port die, of an opcode. -/
def firstWaiting (s : State) (die op : Nat) : Option TreeItem := (tgetD s.fab.treeIn die []).find? fun i => i.desc.opcode == op

def dropWaiting (die : Nat) (i : TreeItem) (s : State) : State :=
  { s with fab := { s.fab with treeIn := tmod s.fab.treeIn die fun l => l.erase i } }

/-- A multicast packet that waits is cut before the failing unit of its source. -/
def cutItem (die : Nat) (i : TreeItem) (k : Nat) (s : State) : State :=
  let d := i.desc
  let front := { i with desc := { d with plen := k, last := false, src := subPieces d.src 0 k } }
  let back := { i with desc := { d with offset := d.offset + k, plen := d.plen - k, inAt := d.inAt + k, src := subPieces d.src k (d.plen - k) } }
  { s with fab := { s.fab with treeIn := tmod s.fab.treeIn die fun l => l.flatMap fun x => if x == i then [front, back] else [x] } }

/-- The source of a waiting packet cannot be read: its tile is withdrawn, of a multicast from the failing unit on, of a contribution from its
first byte (R148, R566; log 42, DEDUCED). -/
def faultItem (die : Nat) (i : TreeItem) (f : Nat × Option Nat) (s : State) : State :=
  let k := if i.desc.opcode == ocCollMcast then wholeBefore s i.desc else 0
  let s := match f.2 with
    | some a => mediaError a s
    | none => s
  let s := if k == 0 then s else cutItem die i k s
  failTree i.group { i.desc with offset := i.desc.offset + k } f.1 s

/-- A local member's packet enters its tree at a port die: its payload is read now, and again at each send (R148, R255). `act` sends or lands
it; none where it has to wait. -/
def byMember (die op : Nat) (ext : List Byte) (s : State) (act : TreeItem → BitVec 128 → Packet → State → Option State) : State :=
  match firstWaiting s die op with
  | none => s
  | some i =>
    match tget s.fab.trees i.tree with
    | none => s
    | some t =>
      if !treeCached s die i.tree then s
      else
        match sourceFault s i.desc with
        | some f => faultItem die i f s
        | none =>
          if pathState s false i.desc.src != .go then s
          else
            let b := payloadOf s i.desc ext
            let p := mkPacket s { peerEp := Tree.root t } i.desc 0 b
            let part := Desc.part (wqOf s i.desc.wq).desc
            let s1 := noteReads i.desc.src (dropWaiting die i s)
            let s1 := if i.desc.kind == kData then countSent (dieOfWq i.desc.wq) part i.desc true b.length s1 else s1
            match act i t p s1 with
            | some s => settleMember i.group i.desc s
            | none => s

/-- A chunk of a member's packet that is not absorbed, read from its input at each send. -/
def chunkDesc (d : Desc) (k : Chunk) : Desc :=
  let at_ := k.off - d.offset
  { d with offset := k.off, plen := k.data.length, inAt := d.inAt + at_, src := subPieces d.src at_ k.data.length,
           body := (d.body.drop at_).take k.data.length, last := d.last && at_ + k.data.length == d.plen }

/-- A member's contribution at its port die (R250, R253, R255). -/
def enterContribution (die : Nat) (ext : List Byte) (s : State) : State :=
  byMember die ocCollAcc ext s fun i t p s =>
    if Tree.isRoot t then
      match rankOf (groupOf s (Tree.group t)) (Tree.root t) with
      | none => some s
      | some r => if rootWaits s (Tree.group t) r p.hdr p.payload then none
        else some (absorbRoot t r p.hdr p.payload (ext.drop (outsideLen i.desc.src)) s)
    else
      match edgeToward s die i.tree (Tree.parent t) with
      | none => some s
      | some key =>
        let (left, whole, s) := admitAll die i.tree p s
        some (forwardFull die (if whole then queueEdge (edgeHalf key) i.desc s
          else left.foldl (fun s k => queueEdge (edgeHalf key) (chunkDesc i.desc k) s) s))

/-- A root's multicast packet at its port die (R298). -/
def enterMcast (die : Nat) (ext : List Byte) (s : State) : State :=
  byMember die ocCollMcast ext s fun i t p s =>
    let ranks := mcastRanks s t
    if ranks.any fun r => mcastWaits s (Tree.group t) r p.hdr p.payload.length then none
    else
      let s := ranks.foldl (fun s r => landMcast (Tree.group t) r p.hdr p.payload s) s
      some (((Tree.children t).filterMap (edgeToward s die i.tree)).foldl (fun s key => queueEdge (edgeHalf key) i.desc s) s)

/-- STORE_ADMISSION: A port die admits each chunk of an arriving tree contribution: combine, take a slot, or forward unreduced (R253). -/
def execStoreAdmission (die : Nat) (arriving : Option Packet) (ext : List Byte) (s : State) : Res :=
  need (Nat.blt die 4) .noSuchDie <|
    if !running s then s
    else
      match arriving with
      | some p => byEdge die ocCollAcc p s fun tree t h hdr s => takeContribution p die tree t ext h hdr s
      | none => enterContribution die ext s

/-- ADMIT_LINGER after slot i of the store was taken it forwards what it has (R254). -/
def execAdmitLinger (i : Nat) (s : State) : Res := .next <|
  match s.ar.slots[i]? with
  | none => s
  | some x =>
    when_ (running s && x.number == 0 && due s x.taken x.linger) s (bump (dkey 0x5520 (x.die + 1)) 3 1 (forwardSlot x s))

/-- MCAST_REPLICATE: A port die receives a COLL_MCAST frame and sends a copy on each child edge and to each local member (R298). -/
def execMcastReplicate (die : Nat) (arriving : Option Packet) (ext : List Byte) (s : State) : Res :=
  need (Nat.blt die 4) .noSuchDie <|
    if !running s then s
    else
      match arriving with
      | some p => byEdge die ocCollMcast p s fun tree t h hdr s => takeMcast p die tree t h hdr s
      | none => enterMcast die ext s

/-! ## Kernels (R257 to R266) -/

/-- KERNEL_LOAD: A user kernel image is loaded and verified into a kernel number (R257). -/
def execKernelLoad (s : State) : Res := .next <|
  onWrite s 0x5500 0 0 (fun _ => true) fun _ c s =>
    let d := c.data
    let k := field d 0 1
    let st := tgetD s.ar.kernels k .empty
    if k < 0x10 then (rRange, s)
    else if gen1 s then (rInvalid, s)
    else if st == .verifying || st == .resident then (rBusy, s)
    else
      (rDone, { s with ar := { s.ar with kernels := tset s.ar.kernels k .verifying, images := tset s.ar.images k (field d 1 4, field d 5 8, field d 13 4) } })

def Bind.kernel (b : BitVec 512) : Nat := fld b 511 504
def Bind.pasid (b : BitVec 512) : Nat := fld b 499 480
def Bind.budget (b : BitVec 512) : Nat := fld b 479 448
def Bind.outLength (b : BitVec 512) : Nat := fld b 447 416
def Bind.parLength (b : BitVec 512) : Nat := fld b 415 384
def Bind.parKey (b : BitVec 512) : Nat := fld b 383 352
def Bind.stateKey (b : BitVec 512) : Nat := fld b 351 320
def Bind.stateLength (b : BitVec 512) : Nat := fld b 319 256
def Bind.stateAddr (b : BitVec 512) : Nat := fld b 255 192
def Bind.parAddr (b : BitVec 512) : Nat := fld b 191 128

/-- KERNEL_UNLOAD: A user kernel is unloaded unless a binding names it (R266). -/
def execKernelUnload (s : State) : Res := .next <|
  onWrite s 0x5502 0 0 (fun _ => true) fun _ c s =>
    let k := ofLe c.data
    if s.ar.binds.any fun b => Bind.kernel b.2 == k && k != 0 then (rBusy, s)
    else (rDone, { s with ar := { s.ar with kernels := tdel s.ar.kernels k, images := tdel s.ar.images k, code := tdel s.ar.code k } })

/-- A resident schedule names a binding. -/
def bindNamed (s : State) (b : Nat) : Bool :=
  s.coll.slots.any fun x => x.2.state == .resident && x.2.steps.any fun e => e.2.any fun y => Step.op y == sTransform && Step.peer y == b

/-- The keys of a binding allow what the kernel does with its spans (R258). -/
def bindKeysOk (s : State) (b : BitVec 512) : Bool :=
  let region := fun key => tgetD s.xl.regions (keyIndex key) 0
  let ok := fun key addr len n => localCheck (region key) key (bindPart b) (Bind.pasid b) addr len n anyTarget == stOk
  ok (Bind.parKey b) (Bind.parAddr b) (Bind.parLength b) .read &&
  (Bind.stateKey b == 0 || (ok (Bind.stateKey b) (Bind.stateAddr b) (Bind.stateLength b) .read &&
    ok (Bind.stateKey b) (Bind.stateAddr b) (Bind.stateLength b) .write))

/-- KERNEL_BIND: A binding record is written after its keys and spans are checked (R258). -/
def execKernelBind (s : State) : Res := .next <|
  onWrite s 0x5511 0 0 (fun _ => true) fun w c s =>
    let n := selOf s w.num (dkey 0x5510 0)
    let b : BitVec 512 := BitVec.ofNat 512 (ofLe c.data)
    if bindNamed s n then (rBusy, s)
    else if Bind.kernel b == 0 then (rDone, { s with ar := { s.ar with binds := tdel s.ar.binds n } })
    else if 4096 < Bind.parLength b || (0x10 ≤ Bind.kernel b && (Bind.budget b < 16 || 65536 < Bind.budget b)) then (rRange, s)
    else if 12 ≤ bindPart b || !bindKeysOk s b then (rInvalid, s)
    else (rDone, { s with ar := { s.ar with binds := tset s.ar.binds n (setFld b 127 0 0) } })

/-- An invocation under way leaves the die. -/
def dropJob (slot die idx : Nat) (s : State) : State :=
  { s with ar := { s.ar with jobs := s.ar.jobs.filter fun j => !(j.slot == slot && j.die == die && j.idx == idx) } }

/-- The pieces of a binding's state span. -/
def statePieces (die : Nat) (b : BitVec 512) (n : Need) (s : State) : List Piece × State :=
  if Bind.stateKey b == 0 then ([], s)
  else
    match localSpan die (bindPart b) (Bind.pasid b) (Bind.stateKey b) (Bind.stateAddr b) (Bind.stateLength b) n anyTarget true s with
    | (.ok ps, s) => (ps, s)
    | (_, s) => ([], s)

/-- What a user kernel does with an input, a parameter block and a state (R262; log 115, DESIGN CHOICE). -/
def userRun (s : State) (b : BitVec 512) (par inp state : List Byte) : KernelRun :=
  Config.userKernel (tgetD s.ar.code (Bind.kernel b) []) inp par state

/-- A user kernel has run past its cycle budget (R263). -/
def overBudget (b : BitVec 512) (len : Nat) (r : KernelRun) : Bool := Nat.blt (2 * Bind.budget b * ceilDiv len 4096) r.cycles

/-- What a kernel puts out: spans of its output, its new state, blocks that saturated (R259 to R262); none where it is a user kernel that is
stopped. -/
def runKernel (s : State) (b : BitVec 512) (seq : Nat) (par inp state : List Byte) : Option (Stored × List Byte) :=
  let k := Bind.kernel b
  if k == 1 then some (mxQuant par inp seq, state)
  else if k == 2 then some (mxDequant par inp, state)
  else if k == 3 then let (p, st) := lowrankProject par inp state; some ({ spans := [(0, p)] }, st)
  else if k == 4 then some ({ spans := [(0, lowrankExpand par inp state)] }, state)
  else if k == 5 then some ({ spans := [(0, expertCombine par inp state)] }, state)
  else
    let r := userRun s b par inp state
    if r.fault || overBudget b inp.length r then none
    else some ({ spans := [(0, slice r.out 0 (Bind.outLength b))] }, slice r.state 0 (Bind.stateLength b))

/-- The invocation a TRANSFORM step started, with its binding. -/
def jobCtx (s : State) (slot die idx : Nat) : Option (StepCtx × Launch × Wqe × Join × Nat × BitVec 512) :=
  if !(s.ar.jobs.any fun j => j.slot == slot && j.die == die && j.idx == idx) then none
  else
    match stepCtx s slot die idx with
    | none => none
    | some c =>
      match launchOf (groupOf s c.x.group) c.m.rank c.r.seq, tget (groupOf s c.x.group).joins c.m.rank, findOp s c.m.wq c.m.idx,
          tget s.ar.binds (Step.peer c.st) with
      | some l, some j, some o, some b => some (c, l, o.wqe, j, Step.peer c.st, b)
      | _, _, _, _ => none

/-- The member's step is over. -/
def endJob (slot die idx rank : Nat) (s : State) : State :=
  noteBusy (setMember slot rank (fun m => { m with open_ := m.open_ - 1 }) (dropJob slot die idx s))

/-- What an invocation reads: its input, parameter block and state, from what the command brings where they lie outside. -/
inductive KernelIn where
  | read (inp par state : List Byte)
  | wait
  | fail (status : Nat)

def kernelIn (die : Nat) (c : StepCtx) (l : Launch) (w : Wqe) (j : Join) (b : BitVec 512) (x : Invocation) (s : State) : KernelIn × State :=
  match stepSource l w j c.st x.input s with
  | (.wait, s) => (.wait, s)
  | (.fail st, s) => (.fail st, s)
  | (.bytes inp _, s) =>
    let (par, _, s) := paramBlock b x.params s
    let (ps, s) := statePieces die b .read s
    (.read inp par (readPieces s ps x.state), noteReads ps s)

/-- An invocation finishes: what it read decides its output and new state, which are written (R257, R264) (log 95, DEDUCED). -/
def execKernelDone (slot die idx : Nat) (input params state : List Byte) (s : State) : Res := .next <|
  match jobCtx s slot die idx with
  | none => (when_ (running s) s (dropJob slot die idx s))
  | some (c, l, w, j, _, b) =>
    if !running s then s
    else
      let g := c.x.group
      match kernelIn die c l w j b { idx := idx, input := input, params := params, state := state } s with
      | (.wait, _) => s
      | (.fail st, s) => (endJob slot die idx l.rank (failStep g l (Step.dstOff c.st) st s))
      | (.read inp par st, t) =>
        match runKernel t b l.seq par inp st with
        | none => s
        | some (out, st') =>
          let (good, s) := out.spans.foldl (fun (a : Bool × State) x =>
            let (ok, s) := toOutput g l j (Step.dstOff c.st + x.1) x.2 a.2
            (a.1 && ok, s)) (true, t)
          let (ws, s) := statePieces die b .write s
          let s := if st' == st then s else writePieces ws st' s
          let s := bumpArith die j.part 4 out.saturated s
          let s := if Bind.kernel b == 1 && field par 8 4 == 1 then
              bumpArith die j.part 2 (decodeElems (formatOf (field par 0 4)) inp).length s
            else s
          (ownNote slot c good (endJob slot die idx l.rank s))

/-- A user kernel is stopped: its output and state hold what it happened to write, the stop is counted and recorded, and the run is
aborted (R263; log 52, DEDUCED). `stops` says what its run must be for it. -/
def stopKernel (slot die cause : Nat) (stops : BitVec 512 → Nat → KernelRun → Bool) (x : Invocation) (s : State) : State :=
  let idx := x.idx
  match jobCtx s slot die idx with
  | none => s
  | some (c, l, w, j, n, b) =>
    if !running s || Bind.kernel b < 0x10 then s
    else
      let g := c.x.group
      match kernelIn die c l w j b x s with
      | (.read inp par st, t) =>
        if !stops b inp.length (userRun t b par inp st) then s
        else
          let (d, s) := drawBytes (Bind.outLength b) t
          let (_, s) := toOutput g l j (Step.dstOff c.st) d s
          let (d, s) := drawBytes (Bind.stateLength b) s
          let (ws, s) := statePieces die b .write s
          let s := writePieces ws d s
          let s := record 3 0x5003 j.part die [Bind.kernel b, n, cause] (bumpArith die j.part 6 1 s)
          (endJob slot die idx l.rank s).emit (.coll 5 g (homeOf (groupOf s g)) [l.seq, 0])
      | _ => s

/-- KERNEL_BUDGET_EXCEEDED: A user kernel runs past its cycle budget; it is stopped and the run aborted (R263). -/
def execKernelBudgetExceeded (slot die : Nat) (job : Invocation) (s : State) : Res := .next <| stopKernel slot die 1 overBudget job s

/-- KERNEL_FAULT: a user kernel makes an access or instruction not permitted; it is stopped and the run aborted (R263). -/
def execKernelFault (slot die : Nat) (job : Invocation) (s : State) : Res := .next <| stopKernel slot die 2 (fun _ _ r => r.fault) job s

end Sys2Proof.Machine
end

