-- ==== Sys2Proof/Machine/Fabric.lean ====
section
/-! DEFINITION. The torus fabric at a port die: link frames and coordinates, the checks of an arriving frame, the choice of a queue,
tree entries, fences. -/

namespace Sys2Proof.Machine

def dropMalformed : Nat := 0
def dropForeign : Nat := 1
def dropGeneration : Nat := 2
def dropUnassigned : Nat := 3
def dropDest : Nat := 4
def dropTtl : Nat := 5
def dropUnreachable : Nat := 6
def dropRoute : Nat := 7
def dropTree : Nat := 8
def dropFence : Nat := 9
def dropOverflow : Nat := 10

/-- Count in ROUTE_COUNTS of a port die: the drops of R302, then mesh crossings, escape entries, dateline crossings (R304). -/
def countRoute (die i : Nat) (s : State) : State := bump (dkey 0x3030 (die + 1)) i 1 s

/-! ## The bytes of a frame (R276 to R279) -/

/-- The bytes of a fabric frame: big-endian header, payload, trailer, pad to 64 bytes, FCS (R276, R277, R303). -/
def frameBytes (etherType dst src : Nat) (p : Packet) : List Byte :=
  let d := beBytes 6 dst ++ beBytes 6 src ++ beBytes 2 etherType ++ beBytes 40 p.hdr.toNat ++
    (if Hdr.ver p.hdr == 1 then beBytes 8 p.route.toNat else []) ++ p.payload ++ beBytes 4 p.crc.toNat
  let d := d ++ List.replicate (60 - d.length) 0
  d ++ leBytes 4 (fcs d).toNat

/-- Payload length of a frame, by its header (R279). -/
def payloadLen (h : Hdr) : Nat :=
  let off := Hdr.offset h
  let len := Hdr.length h
  let t := 2 ^ (Hdr.tile h + 11)
  let part := Hdr.ver h == 2 && Hdr.rmode h != 1 && ocCollPut ≤ Hdr.opcode h && Hdr.opcode h ≤ ocCollMcast && Form.gPartial (Hdr.form h)
  if Hdr.ver h == 3 then 0
  else if Hdr.kind h == kData && part then
    let c := collHdr h
    let exact := exactFor c.op c.fmt c.exact
    (if exact then 8 else 4) * min (chunkElems exact) (elemAt c.fmt (len - off))
  else if Hdr.kind h == kData || (Hdr.kind h == kResponse && Hdr.opcode h == 2) then min 4096 (min len (t * (off / t + 1)) - off)
  else if Hdr.kind h == kRequest then 32
  else if Hdr.kind h == kWithdraw then 16
  else len

/-- The big-endian number of `n` bytes at an offset. -/
def fieldBe (d : List Byte) (off n : Nat) : Nat := ofLe (slice d off n).reverse

/-- A frame as its bytes spell it (R276, R277, R279). A VLAN tag shows as its EtherType 0x8100 (log 106, PRESUMED). -/
def readFrame (f : FrameBytes) : Frame :=
  let d := f.data
  let h : Hdr := BitVec.ofNat 320 (fieldBe d 14 40)
  let at_ := if Hdr.ver h == 1 then 62 else 54
  let n := payloadLen h
  { pkt := { hdr := h, payload := slice d at_ n, crc := BitVec.ofNat 32 (fieldBe d (at_ + n) 4),
             route := if Hdr.ver h == 1 then BitVec.ofNat 64 (fieldBe d 54 8) else 0 },
    etherType := fieldBe d 12 2, tagged := fieldBe d 12 2 == 0x8100,
    fcsOk := leBytes 4 (fcs (d.take (d.length - 4))).toNat == d.drop (d.length - 4), size := d.length, full := f.full, mgmt := f.mgmt }

/-! ## Link frames (R271 to R275) -/

def isManager (s : State) : Bool := s.mgr.role == 1

/-- The header of a port's ANNOUNCE (R271). -/
def announceHdr (s : State) (p : Nat) : Hdr :=
  BitVec.ofNat 320 (pack [(318, 3), (314, 1), (312, if s.far.generation == 1 then 1 else 2), (307, p), (306, b2n (coord s).isSome),
    (305, cfg s 0x3001 3), (304, b2n (isManager s)), (292, (coord s).getD 0 / 16), (280, cfg s 0x3001 1 % 2 ^ 12), (216, deviceId)])

/-- The ANNOUNCE frame of a port: an empty payload, to the MAC address FF-FF-FF-FF-FF-FF (R271). -/
def announceFrame (s : State) (p : Nat) : List Byte :=
  let h := announceHdr s p
  frameBytes (cfg s 0x3000 1) (2 ^ 48 - 1) (macOf p) { hdr := h, payload := [], crc := trailer h 0 [] }

/-- Send an ANNOUNCE on a trained port. -/
def announce (p : Nat) (s : State) : State :=
  if !(portOf s p).isTrained then s
  else (setPort p (fun q => { q with lastAnnounce := s.time.now }) s).emit (.announce p (announceFrame s p))

/-- Every trained port announces a change (R272). -/
def announceAll (s : State) : State := (List.range 24).foldl (fun s p => announce p s) s

/-- ANNOUNCE_TIMER: every 100 ms each port sends an ANNOUNCE link frame (R272). -/
def execAnnounceTimer (port : Nat) (s : State) : Res :=
  need (Nat.blt port 24) .noSuchPort <|
    when_ (running s && (portOf s port).isTrained && due s (portOf s port).lastAnnounce (100 * ms)) s (announce port s)

/-- Why a port is held out, as NEIGHBOURS shows it: 3 miscabled, 6 generation, 4 coordinates, 5 shape; 0 not held out (R273). The
DEVICE_ID of a direction is the one its lowest-numbered port die that has heard one saw (log 61, DEDUCED). -/
def heldReason (s : State) (p : Nat) (h : BitVec 320) : Nat :=
  let k := p % 6
  let first := ((List.range 4).filterMap fun q => (portOf s (6 * q + k)).heard).head?
  let idOk := match first with
    | some f => Hdr.deviceId f == Hdr.deviceId h
    | none => true
  if Hdr.port h != partner p || !idOk then 3
  else if Hdr.gen h != (if s.far.generation == 1 then 1 else 2) then 6
  else
    match coord s with
    | some c =>
      if !Hdr.coordValid h then 0
      else if Hdr.coord h != neighbourOf s c k then 4
      else if Hdr.shape h != cfg s 0x3001 1 then 5
      else 0
    | none => 0

/-- A neighbour heard says something else than the port was last judged by. -/
def judgePort (p : Nat) (s : State) : State :=
  match (portOf s p).heard with
  | none => s
  | some h =>
    let r := heldReason s p h
    if r == (portOf s p).heldOut then s
    else
      let s := setPort p (fun q => { q with heldOut := r }) s
      if r == 0 then s else record 2 0x3001 0xF (fpCode (p / 6)) [p, r] s

/-- Largest depth of a class and largest head-of-line delay at a port since the last read (R335). -/
def noteHwm (p tc : Nat) (s : State) : State :=
  let q := portOf s p
  let mine := q.egress.filter fun x => x.prio / 2 == tc
  let depth := mine.foldl (fun a x => a + x.size) 0
  let delay := (mine.head?.map fun x => s.time.now - x.at_).getD 0
  let old := tgetD q.hwm tc (0, 0)
  setPort p (fun q => { q with hwm := tset q.hwm tc (max old.1 depth, max old.2 delay) }) s

/-- Move what waits in the egress queues of a port that is no longer live to the port die's ingress (R294). -/
def unqueue (p : Nat) (keep : Queued → Bool) (s : State) : State :=
  let gone := (portOf s p).egress.filter fun q => !keep q
  let s := (gone.map fun q => q.prio / 2).eraseDups.foldl (fun s tc => noteHwm p tc s) s
  let s := setPort p (fun x => { x with egress := x.egress.filter keep }) s
  gone.foldl (fun s q => waitAt (p / 6) { q with port := if Hdr.rmode q.pkt.hdr == 2 then q.port else 0 } s) s

/-- A port of a dimension of size 1 is powered down (R268). -/
def powered (s : State) (p : Nat) : Bool := (coord s).isNone || dimSize s (p % 6 / 2) != 1

/-- Count in PFC_COUNTS of a priority: 0 pauses sent, 1 releases sent, 2 pauses received, 3 ns paused, 4 overflow drops, 5 watchdog. -/
def countPfc (p prio i n : Nat) (s : State) : State := bump (dkey 0x3103 6 (p + 1)) (6 * prio + i) n s

/-- A pause of a priority ends, at the latest when its time has run out: the time paused is counted. -/
def endPause (p prio : Nat) (s : State) : State :=
  match tget (portOf s p).paused prio with
  | some x => countPfc p prio 3 (min s.time.now x.until_ - x.since) (setPort p (fun q => { q with paused := tdel q.paused prio }) s)
  | none => s

/-- The port leaves the trained state: its frames move, its pauses end, its thresholds start afresh (R294, R319). -/
def stopPort (p : Nat) (b : Bring) (s : State) : State :=
  let s := ((portOf s p).paused.map (·.1)).foldl (fun s prio => endPause p prio s) s
  let s := setPort p (fun q => { q with bring := b, stepAt := s.time.now, pfcOut := [], ptpOut := [], xoff := [] }) s
  unqueue p (fun _ => false) s

/-- Full bring-up from step 1: the neighbour has to be heard again (R308). -/
def bringDown (p : Nat) (s : State) : State :=
  setPort p (fun q => { q with rate := 0, retrainFails := 0, heard := none, heldOut := 0, fenced := false, warned := false }) (stopPort p .down s)

/-- What waits at a port that is not live moves; at a fenced one the frames of management connections stay (R294, R301). -/
def clearPort (p : Nat) (s : State) : State :=
  if portLive s p || (portOf s p).egress.isEmpty then s else unqueue p (fun q => q.mgmt && portLive s p true) s

/-- Judge every port again by the last ANNOUNCE it heard: one without a neighbour is powered down (R268), one that becomes held out is
recorded, and what waits at a port no longer live moves (R273, R294). -/
def judgePorts (s : State) : State :=
  let all := List.range 24
  let s := all.foldl (fun s p => if powered s p || (portOf s p).bring == .down then s else bringDown p s) s
  let s := all.foldl (fun s p => judgePort p s) s
  all.foldl (fun s p => clearPort p s) s

def setCoord (c : Nat) (s : State) : State := setDict (dkey 0x3001 2) (leBytes 2 c) s

/-- Take coordinates and shape from the first ANNOUNCE that allows it (R275). -/
def takeCoord (p : Nat) (h : BitVec 320) (s : State) : State :=
  if isManager s || (coord s).isSome || !Hdr.coordValid h || !Hdr.open_ h || (portOf s p).heldOut != 0 then s
  else
    let shape := Hdr.shape h
    let size := (bits shape 11 8 + 1) * (bits shape 7 4 + 1) * (bits shape 3 0 + 1)
    if s.far.generation == 1 && 512 < size then record 3 0x3002 0xF (fpCode (p / 6)) [shape] s
    else
      let s := setDict (dkey 0x3001 1) (leBytes 2 shape) s
      announceAll (judgePorts (setCoord (neighbourOf s (Hdr.coord h) (p % 6 ^^^ 1)) s))

/-- A port is fenced toward a device whose endpoints are fenced as a device (R301). -/
def toward (s : State) (p dev : Nat) : Bool :=
  match (portOf s p).heard with
  | some h => Hdr.coordValid h && Hdr.coord h == dev
  | none => false

/-- An ANNOUNCE comes, from a neighbour's MAC address (R273, R275, R278). -/
def execAnnounce (port : Nat) (hdr : BitVec 320) (mac : Nat) (s : State) : Res :=
  need (Nat.blt port 24) .noSuchPort <|
    when_ (running s && (portOf s port).isTrained && Hdr.ver hdr == 3 && Hdr.kind hdr == 1) s <|
      -- a neighbour fenced as a device stays fenced, however late it is heard (R301)
      let same := Hdr.coordValid hdr && toward s port (Hdr.coord hdr)
      let fence := Hdr.coordValid hdr && (List.range 10).all fun e => s.fab.fenced.contains (Hdr.coord hdr + e)
      let s := setPort port (fun q => { q with heard := some hdr, farMac := mac, fenced := (same && q.fenced) || fence }) s
      takeCoord port hdr (judgePorts s)

/-! ## COORD (R275) -/

/-- Every group, schedule slot and connection end but those of management connections is Free or empty. -/
def fabricQuiet (s : State) : Bool :=
  (s.coll.groups.all fun g => g.2.state == .free) && (s.coll.slots.all fun x => x.2.state == .empty) &&
  (s.conn.ends.all fun e => e.2.mgmt || e.2.state == .free)

/-- COORD: A write of COORD sets the coordinates, or with 0xFFFF clears them, sets ASSIGN_OPEN and closes management connections (R275). -/
def execCoord (s : State) : Res := .next <|
  onWriteRaw s 0x3001 2 (fun _ => true) fun _ c s =>
    if !fabricQuiet s then finish rBusy [] s
    else
      let v := ofLe c.data
      if v != 0xFFFF && (v % 16 != 0 || 11 < coordOf v 2) then finish rRange [] s
      else
        let s := setCoord v s
        let s := if v == 0xFFFF then setDict (dkey 0x3001 3) [1] s else s
        let s := announceAll (judgePorts s)
        finish rDone [] (if v == 0xFFFF then closeAfter s else s)

/-! ## Choosing a queue (R287 to R291, R294, R295) -/

/-- Where a frame goes next: a direction, adaptively or not; or a drop. -/
inductive Toward where
  | way (k : Nat) (adaptive : Bool)
  | drop (why : Nat)
  deriving DecidableEq, Repr

/-- Left count and sign of dimension d of a source-routed frame (R281, R303). -/
def leftOf (p : Packet) (d : Nat) : Nat × Bool :=
  if Hdr.ver p.hdr == 1 then (fld p.route (62 - 5 * d) (59 - 5 * d), flag p.route (63 - 5 * d))
  else (Form.sLeft (Hdr.form p.hdr) d, Form.sNeg (Hdr.form p.hdr) d)

/-- The direction a source route takes next. -/
def routeDir (p : Packet) : Option Nat :=
  ((List.range 3).find? fun d => (leftOf p d).1 != 0).map fun d => 2 * d + b2n (leftOf p d).2

/-- Take one hop off the left count of a source route's dimension. -/
def tookHop (p : Packet) (k : Nat) : Packet :=
  let d := k / 2
  if Hdr.ver p.hdr == 1 then { p with route := setFld p.route (62 - 5 * d) (59 - 5 * d) ((leftOf p d).1 - 1) }
  else { p with hdr := setFld p.hdr (33 - 5 * d) (30 - 5 * d) ((leftOf p d).1 - 1) }

/-- The frame carries a source route. -/
def sourceRouted (p : Packet) : Bool := Hdr.ver p.hdr == 1 || Hdr.rmode p.hdr == 1

/-- Two largest frames of the generation in use. -/
def twoFrames (s : State) : Nat := 2 * largestFrame s

def dlFor (s : State) (q : Queued) (k : Nat) : Bool := nextDl s (Hdr.dl q.pkt.hdr) (cameIn q.from_) k

def prioFor (s : State) (q : Queued) (k : Nat) : Nat := prioOf (Hdr.tc q.pkt.hdr) (dlFor s q k)

/-- The lowest-numbered port die with a live port of a direction, the frame's own first (R294). -/
def dieToward (s : State) (die k : Nat) (mgmt : Bool) : Option Nat :=
  if portLive s (6 * die + k) mgmt then some die else (List.range 4).find? fun q => portLive s (6 * q + k) mgmt

/-- A queue, its port die, the room it must keep free, and whether it is an escape entry. -/
structure Choice where
  die : Nat
  k : Nat
  room : Nat
  escape : Bool

/-- The dimension-order rules of R291 for a direction. -/
def dorChoice (s : State) (die : Nat) (q : Queued) (k : Nat) (escape : Bool) : Option Choice :=
  (dieToward s die k q.mgmt).map fun d =>
    let straight := d == die && (match cameIn q.from_ with
      | some j => j / 2 == k / 2
      | none => false)
    ⟨d, k, if straight then q.size else q.size + largestFrame s, escape⟩

/-- What a frame that waits at a port die can do: the choices in order of preference, or the reason it is dropped. -/
def choices (s : State) (die : Nat) (q : Queued) : Sum Nat (List Choice) :=
  match coord s with
  | none => .inl dropUnassigned
  | some c =>
    let dest := Hdr.dest q.pkt.hdr
    let flow := Hdr.flow q.pkt.hdr
    let one := fun (k : Nat) => match dorChoice s die q k false with
      | some x => Sum.inr [x]
      | none => Sum.inl dropUnreachable
    if Hdr.rmode q.pkt.hdr == 2 && Hdr.ver q.pkt.hdr != 1 then one (q.port % 6)
    else if sourceRouted q.pkt then
      match routeDir q.pkt with
      | some k => one k
      | none => .inl dropRoute
    else
      match dorDir s c dest flow with
      | none => .inl dropDest
      | some k0 =>
        if q.spray != 2 || Hdr.tc q.pkt.hdr == 0 then one k0
        else
          let here := (allMinimal s c dest).filter fun k => portLive s (6 * die + k) q.mgmt
          let fits := here.filter fun k => Nat.ble (q.size + twoFrames s) (egressFree s (6 * die + k) (prioFor s q k))
          let best := leastBy (fun k => egressBytes s (6 * die + k) (prioFor s q k)) fits
          let adaptive := match best with
            | some k => [(⟨die, k, q.size + twoFrames s, false⟩ : Choice)]
            | none => []
          let esc := match dorChoice s die q k0 true with
            | some x => [x]
            | none => (allMinimal s c dest).filterMap fun k => dorChoice s die q k false
          if (adaptive ++ esc).isEmpty then .inl dropUnreachable else .inr (adaptive ++ esc)

/-- The first choice with room. -/
def withRoom (s : State) (q : Queued) : List Choice → Option Choice
  | [] => none
  | x :: t => if x.room ≤ egressFree s (6 * x.die + x.k) (prioFor s q x.k) then some x else withRoom s q t

/-- A frame enters an egress queue: DL, mark, crossings and escapes are settled there (R287, R291, R294, R323). -/
def enqueue (die : Nat) (q : Queued) (x : Choice) (s : State) : State :=
  let p := 6 * x.die + x.k
  let dl := dlFor s q x.k
  let tc := Hdr.tc q.pkt.hdr
  let prio := prioOf tc dl
  let held := egressBytes s p (2 * tc) + egressBytes s p (2 * tc + 1) + q.size
  let marked := Hdr.mark q.pkt.hdr || (tc == 2 && cfgPort s p 0x3201 7 < held) || (tc == 3 && cfgPort s p 0x3201 8 < held)
  let hdr := setFld (setFld q.pkt.hdr 311 311 (b2n dl)) 310 310 (b2n marked)
  let crossing := match coord s with
    | some c => crosses s c x.k
    | none => false
  let s := if x.die != die then countRoute die 11 s else s
  let s := if x.escape then countRoute x.die 12 s else s
  let s := if crossing then countRoute x.die 13 s else s
  let q' : Queued := { q with pkt := { q.pkt with hdr := hdr }, prio := prio, port := p, at_ := s.time.now }
  noteHwm p tc (setPort p (fun y => { y with egress := y.egress ++ [q'] }) s)

/-! ## Ingress holds and their flow control (R314, R315, R318) -/

/-- A flow control frame is due: it goes out at the next frame boundary (R315, R320). -/
def sendPause (p prio time : Nat) (s : State) : State :=
  setPort p (fun q => { q with pfcOut := q.pfcOut.filter (fun x => x.1 != prio) ++ [(prio, time)] }) s

/-- A priority of a port that flow control covers: every one under PAUSE, the enabled ones under PFC. -/
def fcCovers (s : State) (p prio : Nat) : Bool :=
  cfgPort s p 0x3103 1 == 1 || (cfgPort s p 0x3103 1 == 2 && bit (cfgPort s p 0x3103 2) prio)

/-- The XOFF and XON thresholds at work after the occupancy of a hold changed. -/
def judgeHold (p prio : Nat) (s : State) : State :=
  let q := portOf s p
  let n := tgetD q.hold prio 0
  let on := (tget q.xoff prio).isSome
  if !fcCovers s p prio then s
  else if !on && cfgPort s p 0x3103 3 < n then sendPause p prio 0xFFFF (setPort p (fun q => { q with xoff := tset q.xoff prio s.time.now }) s)
  else if on && n ≤ cfgPort s p 0x3103 4 then
    let s := setPort p (fun q => { q with xoff := tdel q.xoff prio }) s
    -- PAUSE is released once every priority is at or below XON
    if cfgPort s p 0x3103 1 == 1 && !(portOf s p).xoff.isEmpty then s else sendPause p prio 0 s
  else s

def addHold (p prio n : Nat) (s : State) : State := judgeHold p prio (setPort p (fun q => { q with hold := tmodD q.hold prio 0 (· + n) }) s)
def subHold (p prio n : Nat) (s : State) : State := judgeHold p prio (setPort p (fun q => { q with hold := tmodD q.hold prio 0 (· - n) }) s)

/-- The priority a frame arrived at. -/
def arrivedPrio (q : Queued) : Nat := prioOf (Hdr.tc q.pkt.hdr) (Hdr.dl q.pkt.hdr)

/-! ## An arriving frame (R292, R293, R302) -/

/-- Generation mismatches are recorded at most once a second per port. -/
def generationEvent (p : Nat) (s : State) : State :=
  let quiet := match tget s.fab.genEvent p with
    | some t => !due s t sec
    | none => false
  if quiet then s else record 2 0x3004 0xF (fpCode (p / 6)) [p] { s with fab := { s.fab with genEvent := tset s.fab.genEvent p s.time.now } }

/-- The drops of R302 that a frame's bytes decide, in the table's order. -/
def frameFault (s : State) (f : Frame) : Option Nat :=
  let h := f.pkt.hdr
  let gen := if s.far.generation == 1 then 1 else 2
  if !f.fcsOk || f.size < 64 || largestFrame s < f.size then some dropMalformed
  else if f.tagged || (f.etherType != cfg s 0x3000 1 && f.etherType != 0x88F7 && f.etherType != 0x8808) then some dropForeign
  else if f.etherType != cfg s 0x3000 1 then none
  else if Hdr.ver h == 3 then (if Hdr.kind h == 1 then none else some dropMalformed)
  else if Hdr.ver h != gen then some dropGeneration
  else if Hdr.rmode h == 3 then some dropMalformed
  else if (coord s).isNone then some dropUnassigned
  else if Hdr.rmode h == 2 then none
  else if !epInRange s (Hdr.dest h) then some dropDest
  else if Hdr.ttl h == 0 && !isOwn s (Hdr.dest h) then some dropTtl
  else if isOwn s (Hdr.dest h) && epE (Hdr.dest h) ≤ 7 && !dieUp s (ownerDie s (epE (Hdr.dest h))) then some dropUnreachable
  else none

/-- A frame the device's own dies take: link, PTP and MAC control frames, which rows of their own handle (log 64, DEDUCED). -/
def ownFrame (s : State) (f : Frame) : Bool := f.etherType != cfg s 0x3000 1 || Hdr.ver f.pkt.hdr == 3

/-- An RMODE 2 frame's edge is open and its tree has an entry. -/
def edgeKnown (s : State) (h : Hdr) : Bool :=
  match tget s.ar.edges (edgeKey (Hdr.edgeDie h) (Hdr.edge h)) with
  | some e => (tget s.fab.trees e.tree).isSome
  | none => false

/-- Send a transit frame to a queue, or let it wait in the ingress hold, or drop it (R291, R314, R318). -/
def transit (p : Nat) (q : Queued) (s : State) : State :=
  let die := p / 6
  match choices s die q with
  | .inl why => countRoute die why s
  | .inr cs =>
    match withRoom s q cs with
    | some x => enqueue die q x s
    | none =>
      let prio := arrivedPrio q
      if 262144 < tgetD (portOf s p).hold prio 0 + q.size then
        countRoute die dropOverflow (countPfc p prio 4 1 s)
      else waitAt die q (addHold p prio q.size s)

/-- A frame for this device goes over the mesh to the die that takes it; a connection request past those the setup service holds is
refused (R120, R298, R299). -/
def deliver (die : Nat) (pkt : Packet) (s : State) : State :=
  let c : Carried := { src := fpCode die, dst := takerOf pkt, pkt := pkt }
  if c.dst == hubCode && Hdr.kind pkt.hdr == kConnectReq && setupFull s then nak (reqOf pkt) resNoResource s else toMesh c s

/-- A frame arrives, its symbols corrected (R291, R302; log 94, DESIGN CHOICE). -/
def execFabricFrameArrival (port : Nat) (b : FrameBytes) (s : State) : Res :=
  need (Nat.blt port 24) .noSuchPort <|
    let f := readFrame b
    let q := portOf s port
    let die := port / 6
    if !portsRun s || !q.isTrained || !dieUp s (fpCode die) then s
    else
      let s := countLink port 0 f.size s
      match frameFault s f with
      | some why =>
        let s := countRoute die why s
        if why == dropGeneration then generationEvent port s else s
      | none =>
        let h := f.pkt.hdr
        -- a held-out port carries link frames only; a fenced one those and management connections (R273, R301)
        if ownFrame s f then s
        else if q.heldOut != 0 || (q.fenced && !f.mgmt) then s
        else if Hdr.rmode h == 2 && Hdr.ver h != 1 then
          if edgeKnown s h then deliver die f.pkt s else countRoute die dropTree s
        else
          -- a source route is delivered where its counts are used up, every other frame at DEST's device (R295)
          let done := if sourceRouted f.pkt then (routeDir f.pkt).isNone else isOwn s (Hdr.dest h)
          if sourceRouted f.pkt && (512 < torusSize s || (done && !isOwn s (Hdr.dest h))) then countRoute die dropRoute s
          else if done then
            if s.fab.fenced.contains (Hdr.dest h) && !f.mgmt then countRoute die dropFence s else deliver die f.pkt s
          else
            transit port { pkt := f.pkt, from_ := some port, size := f.size, spray := if f.full then 2 else 0, mgmt := f.mgmt, at_ := s.time.now } s

/-- No earlier frame of the same arrival port, or off the mesh, and the same priority waits at the die. -/
def firstInHold (l : List Queued) (i : Nat) (q : Queued) : Bool :=
  !((l.take i).any fun x => x.via.isEmpty && x.from_ == q.from_ && arrivedPrio x == arrivedPrio q)

/-- Frame i of a port die comes off the mesh, and with it every frame the same die sent before it (R21). -/
def landUpTo (i : Nat) (l : List Queued) : List Queued :=
  let src := (l[i]?.bind fun q => q.via.head?)
  (numbered 0 l).map fun x => if Nat.ble x.1 i && src.isSome && x.2.via.head? == src then { x.2 with via := [] } else x.2

/-- Frame i of those that wait at a port die leaves its ingress hold. -/
def leaveHold (die i : Nat) (l : List Queued) (q : Queued) (s : State) : State :=
  let s := { s with fab := { s.fab with waiting := tset s.fab.waiting die (l.eraseIdx i) } }
  match q.from_ with
  | some p => if 0 < tgetD (portOf s p).hold (arrivedPrio q) 0 then subHold p (arrivedPrio q) q.size s else s
  | none => s

/-- Frame i that waits at a port die finds room, or no route is left to it (R291, R294). -/
def execFrameEnqueue (die i : Nat) (s : State) : Res :=
  need (Nat.blt die 4) .noSuchDie <|
    let l := landUpTo i (tgetD s.fab.waiting die [])
    match l[i]? with
    | none => s
    | some q =>
      if !portsRun s then s
      else if !firstInHold l i q then { s with fab := { s.fab with waiting := tset s.fab.waiting die l } }
      else
        match choices s die q with
        | .inl why => countRoute die why (leaveHold die i l q s)
        | .inr cs =>
          match withRoom s q cs with
          | some x => enqueue die q x (leaveHold die i l q s)
          | none => { s with fab := { s.fab with waiting := tset s.fab.waiting die l } }

/-! ## Tree entries (R296, R297) -/

/-- A tree entry is filled into a port die's cache of 16,384 (R296). -/
def execTreeEntryFill (die tree : Nat) (s : State) : Res :=
  need (Nat.blt die 4) .noSuchDie <|
    when_ (running s && (tget s.fab.trees tree).isSome && !treeCached s die tree) s <|
      let mine := s.fab.treeCache.filter fun x => x / 2 ^ 20 == die
      let mine := if mine.length < 16384 then mine else mine.dropLast
      { s with fab := { s.fab with treeCache := (die * 2 ^ 20 + tree) :: mine ++ s.fab.treeCache.filter fun x => x / 2 ^ 20 != die } }

/-- A write of the selected tree entry (R297). -/
def execTreeEntry (s : State) : Res := .next <|
  onWrite s 0x3011 0 0 (fun _ => true) fun w c s =>
    let n := selOf s w.num (dkey 0x3010 0)
    let old := tgetD s.fab.trees n 0
    let v : BitVec 128 := BitVec.ofNat 128 (ofLe (splice (leBytes 16 old.toNat) c.offset c.data))
    let v := setFld v 60 0 0
    let ready := fun (t : BitVec 128) => fld t 111 110 != 0 && (groupOf s (Tree.group t)).state == .ready
    if ready old || ready v then (rBusy, s)
    else if fld v 111 110 == 3 || Tree.parent v == 6 then (rRange, s)
    else
      let trees := if fld v 111 110 == 0 then tdel s.fab.trees n else tset s.fab.trees n v
      (rDone, { s with fab := { s.fab with trees := trees, treeCache := s.fab.treeCache.filter fun x => x % 2 ^ 20 != n } })

/-! ## Fences (R223, R224, R225, R300, R301) -/

/-- A FENCE_CMD is accepted on the system manager only, and sends a fence notice to every device (log 60, DEDUCED). -/
def fenceCmd (action : Nat) (s : State) : State :=
  onWrite s 0x3020 0 0 (fun d => field d 3 1 == action) fun _ c s =>
    if !isManager s then (rInvalid, s)
    else if 1 < field c.data 2 1 then (rRange, s)
    else (rDone, s.emit (.notice 0x20 0xFFFF [field c.data 0 2, field c.data 2 1, action]))

/-- FENCE_CMD_FENCE: the system manager accepts a fence of an endpoint or device and sends fence notices (R300). -/
def execFenceCmdFence (s : State) : Res := .next <| fenceCmd 1 s

/-- FENCE_CMD_UNFENCE: the system manager accepts an unfence and sends notices (R300). -/
def execFenceCmdUnfence (s : State) : Res := .next <| fenceCmd 0 s

/-- Endpoints a notice names. -/
def fencedBy (ep : Nat) (device : Bool) : List Nat := if device then (List.range 10).map fun e => epDev ep + e else [ep]

/-- Sequences whose READYs a coordinator holds. -/
def readySeqs (s : State) (gr : Group) : List Nat := if isOwn s (homeOf gr) then (gr.readys.map (·.seq)).eraseDups else []

/-- End the COLL_STEPs of a fenced member with FENCED; a reduction under way ends with MEMBER_FENCED at the others, a scheduled run
stops; a fenced member is no longer waited for, at its device or at the coordinator (R202, R223 to R225). -/
def fenceGroup (g : Nat) (eps : List Nat) (s : State) : State :=
  let gr := groupOf s g
  if !(gr.members.any fun m => eps.contains m) then s
  else
    let mine := gr.launches.filter fun l => !l.hasEnded && eps.contains (nth gr.members l.rank)
    let s := mine.foldl (fun s l => endStep g l.wq l.idx { status := stFenced } s) s
    let gr := groupOf s g
    let reds := gr.launches.filter fun l => !l.hasEnded && l.started && reduces l.sig.kind &&
      gr.members.any fun m => eps.contains m && !l.startFenced.contains m
    let s := reds.foldl (fun s l => endStep g l.wq l.idx { status := stMemberFenced } s) s
    let s := { s with coll := { s.coll with slots := tmap s.coll.slots fun _ x =>
        if x.group == g then { x with run := x.run.map fun r => { r with stopped := true } } else x } }
    let s := sendReady g (add32 gr.retired 1) s
    (readySeqs s gr).foldl (fun s n => judgeReady g n s) s

/-- The engine dies drop what has arrived for a fenced endpoint and is not yet placed: atomics and notifications still to be performed
(R300). -/
def dropFenced (eps : List Nat) (s : State) : State :=
  ((s.conn.ends.filter fun x => !x.2.initiator && !x.2.mgmt && eps.contains x.2.localEp).map (·.1)).foldl (fun s h => dropArrivals h s) s

/-- Apply a fence notice (R300). -/
def execFenceNotice (ep : Nat) (device fence : Bool) (s : State) : Res := .next <|
  when_ (running s) s <|
    let eps := fencedBy ep device
    let s := leaveIdle s
    if fence then
      let s := { s with fab := { s.fab with fenced := eps.foldl insertNew s.fab.fenced } }
      let s := s.coll.groups.foldl (fun s x => fenceGroup x.1 eps s) s
      let s := (s.conn.ends.filter fun x => x.2.initiator && !x.2.mgmt && eps.contains x.2.peerEp).foldl (fun s x => breakEnd x.1 stFenced s) (dropFenced eps s)
      if !device then s
      else
        ((List.range 24).filter fun p => toward s p (epDev ep)).foldl (fun s p =>
          unqueue p (fun q => q.mgmt) (setPort p (fun q => { q with fenced := true }) s)) s
    else
      let s := { s with fab := { s.fab with fenced := s.fab.fenced.filter fun x => !eps.contains x } }
      if !device then s
      else ((List.range 24).filter fun p => toward s p (epDev ep)).foldl (fun s p => setPort p (fun q => { q with fenced := false }) s) s

end Sys2Proof.Machine
end

