-- ==== Sys2Proof/Machine/Parts.lean ====
section
/-! DEFINITION. Partitions and slices: what takes effect at a warm or cold reset, SLICE_CMD, partition and slice resets. -/

namespace Sys2Proof.Machine

def setPart (p : Nat) (f : Part → Part) (s : State) : State :=
  { s with part := { s.part with parts := tmodD s.part.parts p {} f } }

/-! ## What takes effect at a warm or cold reset (R362, R378, R396 to R400, R413) -/

/-- PART_ENABLE enables a partition. -/
def wantEnabled (s : State) (p : Nat) : Bool := bit (cfg s 0x7000 1) p

def enabledParts (s : State) : List Nat := below 12 (wantEnabled s)

/-- A range as an entry writes it: two numbers of `w` bits. -/
def wantRange (s : State) (idx w p : Nat) : Range :=
  let v := cfg s idx (p + 1)
  ⟨bits v (w - 1) 0, bits v (2 * w - 1) w⟩

def wantMem (s : State) (p : Nat) : Range := ⟨cfg s 0x7002 (p + 1), cfg s 0x7003 (p + 1)⟩

def wantArea (s : State) : Range := ⟨cfg s 0x5002 1, cfg s 0x5002 2⟩

def Range.meets (a b : Range) : Bool := 0 < a.count && 0 < b.count && Nat.blt a.base (b.base + b.count) && Nat.blt b.base (a.base + a.count)

/-- A range is refused: it passes the limit, or meets another partition's range of its kind (R397). -/
def rangeRefused (s : State) (want : Nat → Range) (limit p : Nat) : Bool :=
  let r := want p
  r.count != 0 && (Nat.blt limit (r.base + r.count) || (enabledParts s).any fun q => q != p && r.meets (want q))

/-- A range of frames holds a withdrawn frame: on each die its last frame is the one that tells (R378, R391). -/
def holdsWithdrawn (s : State) (r : Range) : Bool :=
  let n := engineDies s
  r.count != 0 && (List.range n).any fun d =>
    let last := r.base + r.count - 1
    let f := last - (last + n - d) % n
    Nat.ble r.base f && Nat.ble d last && Nat.ble (firstWithdrawn s d) (f / n)

def memRefused (s : State) (p : Nat) : Bool :=
  rangeRefused s (wantMem s) (deviceFrames s) p || (wantMem s p).meets (wantArea s) || holdsWithdrawn s (wantMem s p)

def areaRefused (s : State) : Bool :=
  let a := wantArea s
  a.count != 0 && (Nat.blt (deviceFrames s) (a.base + a.count) || holdsWithdrawn s a || (enabledParts s).any fun p => a.meets (wantMem s p))

/-- The kinds of range of R397 after device memory: entry, width of its numbers, device limit. -/
def rangeKinds : List (Nat × Nat × Nat) := [(0x7005, 32, 2 ^ 24), (0x7006, 16, 4096), (0x7007, 32, 2 ^ 17), (0x7008, 32, 2 ^ 15), (0x7009, 32, 2 ^ 15)]

def takenRange (s : State) (k : Nat × Nat × Nat) (p : Nat) : Range :=
  if rangeRefused s (wantRange s k.1 k.2.1) k.2.2 p then {} else wantRange s k.1 k.2.1 p

/-- DOMAIN in force: cleared where a lower-numbered partition has the same (R400; log 76, DEDUCED). -/
def domainCleared (s : State) (p : Nat) : Bool :=
  let d := cfg s 0x7001 (p + 1)
  d != 0 && (enabledParts s).any fun q => Nat.blt q p && cfg s 0x7001 (q + 1) == d

/-- A partition as the entries give it; it comes up later. -/
def wantedPart (s : State) (p : Nat) : Part :=
  if !wantEnabled s p then {}
  else
    let k := fun i => takenRange s ((rangeKinds[i]?).getD (0, 0, 0)) p
    let q := cfg s 0x700A (p + 1)
    { enabled := true, state := .resetting, domain := if domainCleared s p then 0 else cfg s 0x7001 (p + 1),
      mem := if memRefused s p then {} else wantMem s p, tableSize := cfg s 0x7004 (p + 1),
      regions := k 0, flat := k 1, wq := k 2, cq := k 3, ctr := k 4,
      quotaEnds := bits q 31 0, quotaOps := bits q 63 32, quotaSlices := bits q 79 64, doorbellCheck := bit (cfg s 0x700C (p + 1)) 0 }

/-- The records of what is refused as the ranges take effect; the kind of a range is its entry's index (log 23, DESIGN CHOICE). -/
def refusalRecords (s : State) (p : Nat) (t : State) : State :=
  let t := if memRefused s p then record 3 0x2016 p hubCode [p] t else t
  let t := rangeKinds.foldl (fun t k => if rangeRefused s (wantRange s k.1 k.2.1) k.2.2 p then record 3 0x7001 p hubCode [p, k.1] t else t) t
  if domainCleared s p then record 3 0x7002 p hubCode [p] t else t

/-- A partition is marked for both links (R362). -/
def markedTwice (s : State) (p : Nat) : Bool := bit (cfg s 0x6000 1) p && bit (cfg s 0x6000 2) p

def wantBound (s : State) (link : Nat) : List Nat :=
  (enabledParts s).filter fun p => bit (cfg s 0x6000 (link + 1)) p && !markedTwice s p

def wantOwner (s : State) (e : Nat) : Option Nat :=
  let o := cfg s 0x700B (e + 1)
  if o < 12 && wantEnabled s o then some o else none

/-- The link PORT_BIND names for a port, + 1. -/
def wantLink (s : State) (e : Nat) : Nat := cfg s 0x6001 (e + 1) % 4

/-- A port's binding fails: its owner is not bound to the same link. -/
def bindRefused (s : State) (e : Nat) : Bool :=
  wantLink s e != 0 && !(match wantOwner s e with
    | some p => (wantBound s (wantLink s e - 1)).contains p
    | none => false)

/-- Binding and ownership of the accelerator ports (R362, R399). -/
def applyBinding (s t : State) : State :=
  let t := { t with link := { t.link with
    boundParts := [(0, wantBound s 0), (1, wantBound s 1)],
                              accel := (List.range 8).map fun e =>
      (e, { (tgetD t.link.accel e {}) with
        owner := wantOwner s e, bound := if bindRefused s e then 0 else wantLink s e, bifurcated := bit (cfg s 0x6001 (e + 1)) 2,
            inReset := (wantOwner s e).isNone }) } }
  let t := ((enabledParts s).filter (markedTwice s)).foldl (fun t p => record 3 0x6002 p hubCode [p] t) t
  ((List.range 8).filter (bindRefused s)).foldl (fun t e => record 3 0x6002 0xF (atCode (e / 4)) [e] t) t

/-- Partition that holds a device frame. -/
def frameOwner (ps : Tab Part) (f : Nat) : Option Nat := (ps.find? fun x => x.2.mem.has f).map (·.1)

/-- The stored entries of partitions and binding come into force; frames that change owner are written with zeros, whole units and blocks,
before a partition comes Up (R386, R413). -/
def applyPartitions (s : State) : State :=
  let parts := (List.range 12).map fun p => (p, wantedPart s p)
  let t := (enabledParts s).foldl (fun t p => refusalRecords s p t) s
  let t := if areaRefused s then record 3 0x2016 0xF hubCode [0xFF] t else t
  let keeps := fun (a : Nat) => Nat.ble (2 ^ 40) a || frameOwner s.part.parts (a / frameSize) == frameOwner parts (a / frameSize)
  let t := repairWhere (fun a _ => !keeps a) { t with
    part := { parts := parts, collArea := if areaRefused s then {} else wantArea s, collUsed := [] },
             mem := { t.mem with bytes := tkeep t.mem.bytes fun a _ => keeps a } }
  applyBinding s t

/-- Enabled partitions come Up with slice 0 (R469, R523, R528). -/
def partitionsUp (s : State) : State :=
  { s with part := { s.part with parts := tmap s.part.parts fun _ x =>
    if x.enabled then { x with state := .up, slices := [], resets := [] } else x } }

/-! ## Steps 1 and 2 of a reset (R188, R226, R409) -/

/-- An object of a partition and slice lies in the scope of a reset: key 0 the partition, PASID + 1 a slice. -/
def inReset (p key part pasid : Nat) : Bool := part == p && (key == 0 || pasid + 1 == key)

def wqIn (p key : Nat) (q : WorkQueue) : Bool := inReset p key (Desc.part q.desc) (Desc.pasid q.desc)
def cqIn (p key : Nat) (c : ComplQueue) : Bool := inReset p key (Desc.part c.desc) (Desc.pasid c.desc)
def ctrIn (p key : Nat) (c : Counter) : Bool := inReset p key c.part c.pasid
def endIn (p key : Nat) (e : End) : Bool := e.live && !e.mgmt && inReset p key e.part e.pasid

/-- Paths that writes under way in a scope take. -/
def resetPaths (s : State) (p key : Nat) : List FlushPath :=
  let i : Inval := { wq := 0, idx := 0, part := p, scope := if key == 0 then 2 else 1, pasid := key - 1, va := 0, len := 0, region := 0,
                     since := 0, step := 0, held := [], paths := [] }
  (listLocal s i ++ listRemote s i).foldl (fun a x => addPaths a x.2) []

/-- An INVALIDATE of the partition in progress squashes every holding tile at once (R188). -/
def squashInvals (p : Nat) (s : State) : State :=
  (s.xl.invals.filter fun x => x.2.part == p).foldl (fun s x =>
    let s := (x.2.held.filter (stillHeld s)).foldl (fun s t => squashTile x.2 t s) s
    { s with xl := { s.xl with invals := tmod s.xl.invals x.1 fun i => { i with step := max i.step 3 } } }) s

/-- Tagged operations that a reset ends leave the die's count of records under way; each is a lost item (R503). -/
def dropTagged (wq : Nat) (q : WorkQueue) (s : State) : State :=
  let n := (q.ops.filter fun o => o.tagged).length
  (List.range n).foldl (fun s _ => loseItem (dieOfWq wq) s) (setSfifo (dieOfWq wq) (fun f => { f with inFlight := f.inFlight - n }) s)

/-- What freed queues leave of collectives: their launches, transfers and waiting packets; runs of which they were members abort (R226). -/
def dropMembers (gone : List Nat) (s : State) : State :=
  let runs := s.coll.slots.filter fun x => match x.2.run with
    | some r => r.members.any fun m => gone.contains m.wq
    | none => false
  let s := runs.foldl (fun s x =>
    let g := x.2.group
    s.emit (.coll 5 g (homeOf (groupOf s g)) [(x.2.run.map (·.seq)).getD 0, 0])) s
  let groups := tmap s.coll.groups fun _ g =>
    { g with launches := g.launches.filter fun l => !gone.contains l.wq, transfers := g.transfers.filter fun t => !gone.contains t.wq }
  let slots := tmap s.coll.slots fun _ (x : Slot) =>
    let run := x.run.bind fun (r : Run) =>
      let ms := r.members.filter fun m => !gone.contains m.wq
      if ms.isEmpty then none else some { r with members := ms }
    { x with run := run }
  let treeIn := tmap s.fab.treeIn fun _ l => l.filter fun (t : TreeItem) => !t.desc.mine || !gone.contains t.desc.wq
  let ends := tmap s.conn.ends fun h (e : End) =>
    if isEdge h then { e with toSend := e.toSend.filter fun d => !d.mine || !gone.contains d.wq } else e
  { s with coll := { s.coll with groups := groups, slots := slots }, fab := { s.fab with treeIn := treeIn }, conn := { s.conn with ends := ends } }

/-- Queues and completion queues become Free and counters are destroyed, with no entry written. -/
def freeQueues (p key : Nat) (s : State) : State :=
  let dead := s.q.wqs.filter fun x => wqLive x.2 && wqIn p key x.2
  let gone := dead.map (·.1)
  let s := dropMembers gone (dead.foldl (fun s x => dropTagged x.1 x.2 s) s)
  settleWaits { s with
    q := { s.q with wqs := tkeep s.q.wqs fun k _ => !gone.contains k,
                    cqs := tkeep s.q.cqs fun _ c => !(c.exists_ && cqIn p key c),
                    ctrs := tkeep s.q.ctrs fun _ c => !ctrIn p key c,
                    turns := tkeep s.q.turns fun _ t => !gone.contains t.wq },
                xl := { s.xl with invals := tkeep s.xl.invals fun _ i => !gone.contains i.wq } }

/-- A connection end becomes Free, sends RESET and is remembered for the packets still to come (R118, R124). -/
def resetEnd (h : Nat) (s : State) : State :=
  let e := endOf s h
  let s := freeEnd h (sendReset e s)
  { s with
    conn := { s.conn with resets := tset s.conn.resets h { peerEp := e.peerEp, peerHandle := e.peerHandle, epoch := e.epoch } },
    coll := { s.coll with groups := tmap s.coll.groups fun _ g => { g with conns := tkeep g.conns fun _ x => x != h },
                          slots := tmap s.coll.slots fun _ x => { x with conns := tkeep x.conns fun _ y => y != h } } }

def resetEnds (p key : Nat) (s : State) : State :=
  (s.conn.ends.filter fun x => endIn p key x.2).foldl (fun s x => resetEnd x.1 s) s

/-- Group joins of the scope are removed (R226). -/
def resetJoins (p key : Nat) (s : State) : State :=
  s.coll.groups.foldl (fun s x => (x.2.joins.filter fun j => inReset p key j.2.part j.2.pasid).foldl (fun s j => leaveMember x.1 j.1 s) s) s

/-- A command of the partition's windows that was PENDING for a freed object ends with BUSY (R410). -/
def endPending (p : Nat) (s : State) : State :=
  let w := (tgetD s.q.windows p {}).word
  let s := if fld w 63 56 == resPending && (key0 s p || !(wqLive (wqOf s (fld w 47 0)))) then
      setWindow p (fun x => { x with word := controlWord resBusy (fld w 51 48) (fld w 47 0) }) s else s
  match tget s.conn.busy p with
  | some h => if key0 s p || (tget s.conn.ends h).isNone then answerConn p resBusy (openCode s p) h s else s
  | none => s
where key0 (s : State) (p : Nat) : Bool := (partOf s p).state == .resetting

/-- Steps 1 and 2, after which the drain begins. -/
def beginReset (p key trigger : Nat) (zero destroy : Bool) (s : State) : State :=
  let r : PReset := { stepAt := s.time.now, trigger := trigger, zero := zero, destroy := destroy, drain := cfg s 0x7011 1,
                      paths := resetPaths s p key }
  let s := squashInvals p s
  let s := setPart p (fun x => { x with
    state := if key == 0 then .resetting else x.state, resets := if key == 0 then [(0, r)] else tset x.resets key r }) s
  endPending p (resetJoins p key (resetEnds p key (freeQueues p key s)))

/-- Start or merge a reset: the partition reset absorbs those of slices, a slice reset merges with its partition's (R412). -/
def startReset (p key trigger : Nat) (zero destroy : Bool) (s : State) : State :=
  let x := partOf s p
  if x.state == .off then s
  else if (tget x.resets 0).isSome then
    if key == 0 then setPart p (fun x => { x with resets := tmod x.resets 0 fun r => { r with zero := r.zero || zero } }) s else s
  else if key != 0 && (tget x.resets key).isSome then
    setPart p (fun x => { x with resets := tmod x.resets key fun r => { r with destroy := r.destroy || destroy } }) s
  else beginReset p key trigger zero destroy s

/-! ## Steps 3 to 7 (R409 to R412) -/

/-- A path is Active. -/
def pathActive (s : State) (f : FlushPath) : Bool :=
  match f with
  | .accel port link =>
    let a := tgetD s.link.accel port {}
    !a.isolated && (if link == 0 then a.up else a.upB)
  | .edrad link => (tgetD s.link.edrad link {}).state == .active
  | .memory _ => true

/-- A path is of a link whose host-domain reset discards its writes: it needs no flush (R411). -/
def pathGone (s : State) (f : FlushPath) : Bool :=
  match f with
  | .edrad link => (tget s.link.hdr link).isSome
  | _ => false

/-- The number an event record names a path with: ports 0 to 7, Edrad links 8 and 9 (log 23, DESIGN CHOICE). -/
def pathCode (f : FlushPath) : Nat :=
  match f with
  | .accel port _ => port
  | .edrad link => 8 + link
  | .memory die => 16 + die

/-- Step 5: flushing reads on the Active paths (R409, R411). -/
def flushReset (p key squashed : Nat) (s : State) : State :=
  match tget (partOf s p).resets key with
  | none => s
  | some r =>
    let ps := r.paths.filter fun f => !pathGone s f
    let act := ps.filter (pathActive s)
    let r' : PReset := { r with step := 5, flushes := act.length, squashed := squashed,
                                unflushed := ((ps.filter fun f => !pathActive s f).head?).map pathCode }
    setPart p (fun x => { x with resets := tset x.resets key r' }) (sendFlushes act s)

/-- A reset is at a step. -/
def resetAt (s : State) (p key step : Nat) (ok : PReset → Bool) : Bool :=
  resetsRun s && (match tget (partOf s p).resets key with
    | some r => r.step == step && ok r
    | none => false)

/-- PARTITION_DRAINED: nothing of a resetting partition remains outstanding, and the squash step starts (R409). -/
def execPartitionDrained (p key : Nat) (s : State) : Res :=
  need (Nat.blt p 12) .noSuchPartition <| when_ (resetAt s p key 3 fun _ => true) s (flushReset p key 0 s)

/-- RESET_DRAIN runs out with `left` accesses outstanding: they are squashed (R409). -/
def execResetDrain (p key left : Nat) (s : State) : Res :=
  need (Nat.blt p 12) .noSuchPartition <|
    when_ (resetAt s p key 3 fun r => due s r.stepAt (r.drain * us)) s (flushReset p key left s)

/-- Clear the translation state of a scope (R189). -/
def clearXlate (p key : Nat) (s : State) : State :=
  let x := partOf s p
  let s := { s with xl := { s.xl with
    ctxs := tkeep s.xl.ctxs fun k _ => !inReset p key (k / 2 ^ 20) (k % 2 ^ 20),
                            look := s.xl.look.filter fun l => !inReset p key l.part l.pasid,
                            rcache := s.xl.rcache.filter fun c => !inReset p key (Region.part c.word) (Region.pasid c.word) } }
  if key != 0 then s
  else
    { s with xl := { s.xl with
      regions := tmap s.xl.regions fun k r => if x.regions.has k then setFld r 0 0 0 else r,
                     flat := tmap s.xl.flat fun k f => if x.flat.has k then setFld f 127 127 0 else f,
                     ptes := tkeep s.xl.ptes fun k _ => k / 2 ^ 32 != p } }

/-- The record waiting for this reset ends with DONE (R404, R412). -/
def endWaiting (p key : Nat) (s : State) : State :=
  match s.far.running with
  | some r =>
    match r.todo with
    | c :: _ =>
      if c.index == 0x7020 && field c.data 0 1 == p && (key == 0 || field c.data 1 4 + 1 == key) then finishWaiting rDone s else s
    | [] => s
  | none => s

/-- Volatile entries of a scope return to their defaults: kernel bindings that name it; for a partition its counts (R423, R500; log 67, DEDUCED; log 70, DEDUCED). -/
def scopeDefaults (p key : Nat) (s : State) : State :=
  let s := { s with ar := { s.ar with binds := tkeep s.ar.binds fun _ b => !inReset p key (bindPart b) (Bind.pasid b) } }
  if key != 0 then s
  else
    { s with counts := tdel (tdel s.counts (dkey 0x7030 (p + 1))) (dkey 0x8100 (p + 1)),
             obs := { s.obs with partBw := tdel s.obs.partBw p } }

/-- Step 5 of a host-domain reset whose partitions have all been reset: it is recorded and counted (R354). -/
def endHostReset (link : Nat) (s : State) : State :=
  match tget s.link.hdr link with
  | none => s
  | some trigger =>
    if (tgetD s.link.boundParts link []).any fun p => (tget (partOf s p).resets 0).isSome then s
    else
      let s := { s with link := { s.link with hdr := tdel s.link.hdr link } }
      record 3 0x6001 0xF (atCode link) [link, trigger] (countEdrad link 10 1 (bump (dkey 0x2002 3) 2 1 s))

/-- Steps 6 and 7, which a drain for a warm reset or for Sleep (trigger 0) does not reach: zeroing, the scope is Up again, the reset is counted and recorded. -/
def endReset (p key : Nat) (r : PReset) (s : State) : State :=
  let (db, dn) := dataRange s p
  let s := clearXlate p key s
  let s := if key == 0 then zeroMem (tableBase s p) (tableBytes s p) s else s
  let s := if key == 0 && r.zero then zeroMem db dn s else s
  let s := scopeDefaults p key s
  let s := setPart p (fun x =>
    if key == 0 then { x with state := .up, slices := [], resets := [] }
    else { x with slices := if r.destroy then x.slices.filter (· + 1 != key) else x.slices, resets := tdel x.resets key }) s
  let i := if key == 0 then 0 else 1
  let s := bump (dkey 0x7030 (p + 1)) i 1 (bump (dkey 0x2002 3) (3 + i) 1 s)
  let s := if r.squashed == 0 then s else bump (dkey 0x7030 (p + 1)) 2 r.squashed s
  let s := if r.unflushed.isSome then bump (dkey 0x7030 (p + 1)) 3 1 s else s
  let s := if key == 0 then record 1 0x7003 p hubCode [p, r.trigger, r.unflushed.getD 0xFF] s else record 1 0x7004 p hubCode [p, key - 1] s
  endHostReset 1 (endHostReset 0 (endWaiting p key s))

/-- PARTITION_RESET_DONE: flushes and zeroing of a partition reset end, and the partition becomes Up (R409). -/
def execPartitionResetDone (p key : Nat) (s : State) : Res :=
  need (Nat.blt p 12) .noSuchPartition <|
    match tget (partOf s p).resets key with
    | some r => when_ (running s && r.step == 5 && r.flushes == 0 && r.trigger != 0) s (endReset p key r s)
    | none => s

/-! ## PART_CMD and SLICE_CMD (R404, R408) -/

/-- A partition reset ordered by PART_CMD; its end shows in PART_STATE (R431). A partition that is Off has nothing to reset (log 24, DEDUCED). -/
def partCmd (action : Nat) (s : State) : State :=
  onWrite s 0x7010 0 0 (fun d => field d 1 1 == action) fun _ c s =>
    let p := field c.data 0 1
    if 11 < p then (rRange, s)
    else if (partOf s p).state == .off then (rInvalid, s)
    else (rDone, startReset p 0 1 (action == 2) false s)

/-- PART_CMD_RESET: PART_CMD action 1 starts a partition reset (R409). -/
def execPartCmdReset (s : State) : Res := .next <| partCmd 1 s

/-- PART_CMD_RESET_ZERO: PART_CMD action 2 starts a partition reset that also zeroes the data range (R409). -/
def execPartCmdResetZero (s : State) : Res := .next <| partCmd 2 s

def sliceAction (a : Nat) (d : List Byte) : Bool := field d 5 1 == a

/-- Slices the device holds, slice 0 of each enabled partition included. -/
def slicesHeld (s : State) : Nat := s.part.parts.foldl (fun n x => if x.2.enabled then n + 1 + x.2.slices.length else n) 0

/-- What a SLICE_CMD of a sender meets first: 0 where it may go on. -/
def sliceCheck (w : Sender) (p pasid : Nat) : Nat :=
  if 11 < p || 2 ^ 20 ≤ pasid then rRange else if w.priv == 1 && w.part != p then rDenied else rDone

/-- SLICE_CMD_CREATE: SLICE_CMD creates a slice (R404). -/
def execSliceCmdCreate (s : State) : Res := .next <|
  onWrite s 0x7020 0 0 (sliceAction 1) fun w c s =>
    let p := field c.data 0 1
    let pasid := field c.data 1 4
    let k := sliceCheck w p pasid
    if k != rDone then (k, s)
    else if !partUp s p || isSlice s p pasid then (rInvalid, s)
    else if (partOf s p).quotaSlices ≤ (partOf s p).slices.length + 1 || 16384 ≤ slicesHeld s then (rNoResource, s)
    else (rDone, setPart p (fun x => { x with slices := x.slices ++ [pasid] }) s)

/-- A region descriptor, a flat tensor map entry, a kernel binding or a group join names a slice. -/
def sliceNamed (s : State) (p pasid : Nat) : Bool :=
  (s.xl.regions.any fun x => Region.valid x.2 && Region.part x.2 == p && Region.pasid x.2 == pasid) ||
  (s.xl.flat.any fun x => Flat.valid x.2 && Flat.part x.2 == p && Flat.pasid x.2 == pasid) ||
  (s.ar.binds.any fun x => bindPart x.2 == p && Bind.pasid x.2 == pasid) ||
  (s.coll.groups.any fun x => x.2.joins.any fun j => j.2.part == p && j.2.pasid == pasid)

/-- SLICE_CMD reset or destroy: the record ends when the reset does. One that comes during its partition's reset merges with it. -/
def sliceReset (action : Nat) (s : State) : State :=
  onWriteRaw s 0x7020 0 (sliceAction action) fun w c s =>
    let p := field c.data 0 1
    let pasid := field c.data 1 4
    let k := sliceCheck w p pasid
    if k != rDone then finish k [] s
    else if (partOf s p).state == .off || !isSlice s p pasid || (action == 3 && pasid == 0) then finish rInvalid [] s
    else if action == 3 && partUp s p && sliceNamed s p pasid then finish rBusy [] s
    else startReset p (pasid + 1) 1 false (action == 3) (markWaiting s)

/-- SLICE_CMD reset; one that comes during a reset of its partition ends with it (R404, R412; log 68, DEDUCED). -/
def execSliceCmdReset (s : State) : Res := .next <| sliceReset 2 s

/-- SLICE_CMD_DESTROY: SLICE_CMD resets and destroys a slice (R404). -/
def execSliceCmdDestroy (s : State) : Res := .next <| sliceReset 3 s

end Sys2Proof.Machine
end

