-- ==== Sys2Proof/Machine/Wake.lean ====
section
/-! DEFINITION. Wake events: what raises the device out of Idle, Standby and Sleep. -/

namespace Sys2Proof.Machine

/-- A wake source is armed: bits of R522; the I3C address match always is. -/
def wakeArmed (s : State) (b : Nat) : Bool := b == 0 || bit (cfg s 0x2001 1) b

/-- The always-on parts have power: a device held for missing rails or tripped wakes from nothing (R550, R554). -/
def alwaysOn (s : State) : Bool := !s.elec.held && !s.elec.waitPg && s.elec.coldN && s.pow.boot == 0

/-- Exit from Standby or Sleep begins with the regulator stage (R523). -/
def startWake (source port : Nat) (latched : Bool) (s : State) : State :=
  { s with pow := { s.pow with state := .leaving, stage := 1, stageAt := s.time.now, attempts := 0, exitStart := s.time.now,
                               source := source, wakePort := port, report := { s.pow.report with latched := latched } } }

/-- A wake event of source bit `b` at a port or link; WAKE_REPORT numbers sources from 1 (R518, R521, R522, R524). -/
def raiseWake (b port : Nat) (s : State) : State :=
  if !alwaysOn s then s
  else
    match s.pow.state with
    | .active => s
    | .idle => if b == 3 || b == 4 then leaveIdle s else s
    | .entering =>
      if wakeArmed s b && s.pow.latch.isNone then { s with pow := { s.pow with latch := some (b + 1, port) } } else s
    | .leaving => if wakeArmed s b then { s with pow := { s.pow with lateWakes := s.pow.lateWakes + 1 } } else s
    | .standby => if wakeArmed s b then startWake (b + 1) port false s else s
    | .sleep => if wakeArmed s b && !s.pow.stuck then startWake (b + 1) port false s else s

/-- The device has reached Standby or Sleep, or the part of an entry in which its wake receivers are armed (R520 step 6). -/
def wakeReceivers (s : State) : Bool :=
  match s.pow.state with
  | .standby => true
  | .sleep => true
  | .entering => Nat.blt 6 s.pow.step
  | _ => false

end Sys2Proof.Machine
end

