-- ==== Sys2Proof/Machine/Edrad.lean ====
section
/-! DEFINITION. Edrad links: flits and replay, training, outages, host-domain resets, low power; the EHA-6 card; partition functions and
BAR4; accelerator ports. -/

namespace Sys2Proof.Machine

/-- An event of a link: link numbers stop at 1; its condition is tested on the running device. -/
def onEdrad (link : Nat) (ok : Edrad → Bool) (s : State) (act : State → State) : Res :=
  need (Nat.blt link 2) .noSuchLink (when_ (running s && dieUp s (atCode link) && ok (edradOf s link)) s (act s))

def boundParts (s : State) (link : Nat) : List Nat := tgetD s.link.boundParts link []

def setCard (link : Nat) (f : Card → Card) (s : State) : State := setEdrad link (fun e => { e with card := f e.card }) s

def accelOf (s : State) (e : Nat) : Accel := tgetD s.link.accel e {}
def setAccel (e : Nat) (f : Accel → Accel) (s : State) : State :=
  { s with link := { s.link with accel := tmodD s.link.accel e {} f } }

/-- Ports bound to a link. -/
def boundPorts (s : State) (link : Nat) : List Nat := below 8 fun e => (accelOf s e).bound == link + 1

/-! ## Flits (R341 to R346) -/

/-- One step of the CRC-64 of R341: a byte enters at the top, eight shifts. -/
def crc64Byte (crc : BitVec 64) (b : Byte) : BitVec 64 :=
  crc64Bits 8 (crc ^^^ (b.setWidth 64 <<< 56))
where crc64Bits : Nat → BitVec 64 → BitVec 64
  | 0, c => c
  | n + 1, c => crc64Bits n (if c.msb then (c <<< 1) ^^^ 0x42F0E1EBA9EA3693 else c <<< 1)

/-- The CRC-64 of bytes 0 to 263 of a flit. -/
def flitCrc (f : Flit) : BitVec 64 := ~~~ ((leBytes 8 f.hdr.toNat ++ slice f.payload 0 256).foldl crc64Byte (BitVec.allOnes 64))

namespace FlitHdr
def type (h : BitVec 64) : Nat := fld h 63 60
def seq (h : BitVec 64) : Nat := fld h 59 48
def ack (h : BitVec 64) : Nat := fld h 47 36
def ackValid (h : BitVec 64) : Bool := flag h 35
def nak (h : BitVec 64) : Bool := flag h 34
end FlitHdr

/-- A fast retrain begins: it is counted, the link is in an outage from leaving Active on (R347, R349). -/
def startFast (link : Nat) (s : State) : State :=
  countEdrad link 6 1 (setEdrad link (fun e => { e with fast := true, step := 2, stepAt := s.time.now }) s)

/-- An outage begins with the first fast retrain; the host-loss timer takes its value now (R349, R352, R373). -/
def startOutage (link : Nat) (s : State) : State :=
  let s := setEdrad link (fun e => { e with state := .outage, outageAt := s.time.now, fastFails := 0, lossMs := cfg s 0x6002 (link + 1) }) s
  startFast link (countEdrad link 8 1 s)

/-- An ACK removes what it covers; with nothing left unacknowledged a link asked to sleep goes to electrical idle (R344, R357). -/
def takeLinkAck (link ack : Nat) (s : State) : State :=
  let e := edradOf s link
  let rest := if e.replay.contains ack then (e.replay.dropWhile (· != ack)).drop 1 else e.replay
  let s := setEdrad link (fun e => { e with
    replay := rest, resends := if rest.length < e.replay.length then 0 else e.resends,
    state := if e.sleeping && e.sleepAcked && rest.isEmpty then .idle else e.state }) s
  drainOutbound link (edradOf s link).outbound.length s

/-- A NAK resends every unacknowledged flit; a flit resent four times without the ACK advancing starts a fast retrain (R345, R346; log 72, DEDUCED). -/
def takeLinkNak (link : Nat) (s : State) : State :=
  let e := edradOf s link
  if e.replay.isEmpty then s
  else if 4 ≤ e.resends then startOutage link s
  else resendFlits link e.replay (setEdrad link (fun e => { e with resends := e.resends + 1 }) s)

/-- Codes of R348 in a CONTROL flit's 16 slots that are not listed. -/
def unknownCodes (payload : List Byte) : Nat :=
  ((List.range 16).filter fun i => 9 < field payload (16 * i) 1).length

/-- The receiver of a link takes a flit; its requests and messages arrive as commands of their own (R345). -/
def execFlit (link : Nat) (f : Flit) (s : State) : Res :=
  onEdrad link (fun e => e.state == .active) s fun s =>
    let e := edradOf s link
    let h := f.hdr
    let s := countEdrad link 4 f.corrected (countEdrad link 5 f.uncorrectable s)
    let bad := f.uncorrectable != 0 || flitCrc f != f.crc
    let s := if bad then countEdrad link 3 1 s else s
    let ahead := (FlitHdr.seq h + 4096 - (e.recvSeq + 1) % 4096) % 4096
    let acks := fun (s : State) =>
      let s := if FlitHdr.ackValid h then takeLinkAck link (FlitHdr.ack h) s else s
      if FlitHdr.nak h then takeLinkNak link s else s
    if !bad && FlitHdr.type h == 0 then acks s
    else if bad || 2 < FlitHdr.type h || (0 < ahead && ahead ≤ 2047) then
      if e.discarding then s
      else sendIdle link true (countEdrad link 2 1 (setEdrad link (fun e => { e with discarding := true }) s))
    else if ahead == 0 then
      let n := if FlitHdr.type h == 2 then unknownCodes f.payload else 0
      let s := setEdrad link (fun e => { e with recvSeq := FlitHdr.seq h, recvAny := true, discarding := false, unknownCodes := e.unknownCodes + n }) s
      -- the ACK that covers it leaves within 64 flits or 256 ns (R344; log 92, DESIGN CHOICE)
      sendIdle link false (acks s)
    else s

/-- A CREDIT message returns credits: posted header and data, non-posted header and data (R343). -/
def execCredit (link ph pd nh nd : Nat) (s : State) : Res :=
  onEdrad link (fun e => e.state == .active) s fun s =>
    let s := setEdrad link (fun e => { e with credits := [nth e.credits 0 + ph, nth e.credits 1 + pd, nth e.credits 2 + nh, nth e.credits 3 + nd] }) s
    drainOutbound link (edradOf s link).outbound.length s

/-! ## Training (R347, R349) -/

/-- Signal on all eight lanes: a full bring-up goes on to step 2 (R347). -/
def execEdradSignalDetect (link : Nat) (s : State) : Res :=
  onEdrad link (fun e => e.step == 0 && !s.elec.clocksOut.contains 0 && (e.state == .down || e.state == .outage || e.state == .training)) s fun s =>
    setEdrad link (fun e => { e with step := 2, stepAt := s.time.now, fast := false,
                                     state := if e.state == .outage then .outage else .training }) s

/-- What LINK_PARAMS of the device carry: link, identity, epoch, timer, last SEQ in order, generation, bound and bifurcated ports,
partitions. -/
def linkParams (s : State) (link : Nat) : List Nat :=
  let e := edradOf s link
  let ports := boundPorts s link
  [link, deviceId, e.epoch, cfg s 0x6002 (link + 1), e.recvSeq, s.far.generation,
   ports.foldl (fun a p => a + 2 ^ p) 0, (ports.filter fun p => (accelOf s p).bifurcated).foldl (fun a p => a + 2 ^ p) 0] ++ boundParts s link

/-- Steps 2 to 4 end; in step 5 the device's LINK_PARAMS leave (R347). -/
def execEdradTrainingStepDone (link : Nat) (s : State) : Res :=
  onEdrad link (fun e => Nat.ble 2 e.step && Nat.ble e.step 4) s fun s =>
    let e := edradOf s link
    let n := if e.step == 2 && e.fast then 4 else e.step + 1
    let s := setEdrad link (fun e => { e with step := n, stepAt := if e.fast then e.stepAt else s.time.now }) s
    if n == 5 then s.emit (.edrad link 2 (linkParams s link)) else s

/-- Bound of the training under way: each step of a full bring-up, a fast retrain as a whole. -/
def trainBound (e : Edrad) : Option Nat :=
  if e.step == 0 then none
  else if e.fast then some (1 * ms)
  else if e.step == 2 then some (10 * ms)
  else if e.step == 3 then some (40 * ms)
  else if e.step == 4 then some (1 * ms)
  else some (100 * us)

/-- A step overruns: a full bring-up restarts at step 1; a fast retrain is tried once more, then a full bring-up starts (R347). -/
def execEdradTrainingTimeout (link : Nat) (s : State) : Res :=
  let late := match trainBound (edradOf s link) with
    | some b => due s (edradOf s link).stepAt b
    | none => false
  onEdrad link (fun _ => late) s fun s =>
    let e := edradOf s link
    if e.fast && e.fastFails == 0 then startFast link (setEdrad link (fun e => { e with fastFails := 1 }) s)
    else setEdrad link (fun e => { e with step := 0, fast := false, fastFails := 0 }) s

/-- EDRAD_LINK_LOSS: an Edrad link loses signal, lock or codewords, starting a fast retrain and an outage (R349). -/
def execEdradLinkLoss (link : Nat) (s : State) : Res := onEdrad link (fun e => e.state == .active) s (startOutage link)

/-! ## Host-domain reset (R354 to R356) -/

/-- What the card does with the requests it held, oldest first: `what` for each, and for one that was held past the completion timeout of
the root port above, which the host has ended by its own rules, also 5: its completion comes late and is discarded (R353). -/
def answerHeld (link what : Nat) (s : State) (held : List (Nat × Nat)) : List Out :=
  held.flatMap fun (id, t) =>
    .card link what id :: if due s t (max (10 * ms) (Config.hostTimeout link)) then [.card link 5 id] else []

/-- The card reports every slot empty; host requests it holds complete with Unsupported Request (R356; log 73, DEDUCED). -/
def cardLost (link : Nat) (s : State) : State :=
  let c := (edradOf s link).card
  (setCard link (fun c => { c with lost := true, holding := false, held := [], hotplug := c.hotplug + c.slots.length, slots := [] }) s).emits
    (answerHeld link 3 s c.held)

/-- Isolate a port as step 3 of R354: its link is disabled and its reset output asserted. -/
def isolate (e : Nat) (byHost : Bool) (s : State) : State :=
  setAccel e (fun a => { a with isolated := true, byHost := byHost, inReset := true, up := false, upB := false, downAt := none }) s

/-- Host-domain reset of a link: trigger 1 host-loss timer, 2 HOST_RESET, 3 changed epoch, 4 a write (R354). One under way merges.
The card loses the hierarchy by its own timer, its HOST_RESET or its own reset, else by the RESET_NOTICE (R356). -/
def hostReset (link trigger : Nat) (s : State) : State :=
  if (tget s.link.hdr link).isSome then s
  else
    let parts := boundParts s link
    let active := (edradOf s link).state == .active
    let s := if active then sendMessage link 6 [1] s else s
    let s := { s with counts := tdel s.counts (dkey 0x6003 (link + 1)), link := { s.link with hdr := tset s.link.hdr link trigger } }
    let s := setEdrad link (fun e => { card := e.card, kept := e.kept, epoch := (e.epoch + 1) % m32, nextSeq := e.nextSeq, recvSeq := e.recvSeq, recvAny := e.recvAny }) s
    let s := (boundPorts s link).foldl (fun s e => isolate e true s) (if active && trigger == 4 then s else cardLost link s)
    let s := { s with link := { s.link with funcs := tkeep s.link.funcs fun k _ =>
      !(parts.contains k && k < 12) && !(Nat.ble (16 + 17 * link) k && Nat.blt k (33 + 17 * link)) } }
    endHostReset link (parts.foldl (fun s p => startReset p 0 3 false false s) s)

/-- HOST_RESET: A HOST_RESET message from the card starts a host-domain reset (R354). -/
def execHostReset (link cause : Nat) (s : State) : Res :=
  onEdrad link (fun e => e.state == .active && Nat.ble 1 cause && Nat.ble cause 4) s (hostReset link 2)

/-- HOST_LOSS_TIMER: an Edrad outage lasts past HOST_LOSS_TIMER and a host-domain reset is performed (R352). -/
def execHostLossTimer (link : Nat) (s : State) : Res :=
  onEdrad link (fun e => e.state == .outage && e.everActive && due s e.outageAt (e.lossMs * ms)) s (hostReset link 1)

/-- HOST_DOMAIN_RESET: A write of HOST_DOMAIN_RESET performs a host-domain reset of the link (R354). -/
def execHostDomainReset (s : State) : Res := .next <|
  onWrite s 0x6002 5 5 (fun _ => true) fun _ c s => if 1 < ofLe c.data then (rRange, s) else (rDone, hostReset (ofLe c.data) 4 s)

/-- The link is Active: what waits is resent, an outage ends, isolated ports are released, the card serves the host again (R350, R355,
R356). -/
def linkActive (link lastSeq : Nat) (credits : List Nat) (s : State) : State :=
  let e := edradOf s link
  let s := if e.fast then s else countEdrad link 7 1 s
  let s := if e.state == .outage then raise (dkey 0x6003 (link + 1)) 9 (s.time.now - e.outageAt) s else s
  let rest := if e.replay.contains lastSeq then (e.replay.dropWhile (· != lastSeq)).drop 1 else e.replay
  let s := setEdrad link (fun e => { e with
    state := .active, step := 0, fast := false, fastFails := 0, kept := true, everActive := true, credits := credits, replay := rest, resends := 0,
    sleeping := false, sleepAcked := false, discarding := false }) s
  let s := resendFlits link rest s
  let s := (boundPorts s link).foldl (fun s e =>
    if (accelOf s e).byHost then setAccel e (fun a => { a with isolated := false, byHost := false, inReset := false }) s else s) s
  let c := (edradOf s link).card
  let s := setCard link (fun c => { c with lost := false, holding := false, held := [], slots := insertNew c.slots 0,
                                           hotplug := if c.slots.contains 0 then c.hotplug else c.hotplug + 1 }) s
  drainOutbound link (edradOf s link).outbound.length (s.emits (answerHeld link 4 s c.held))

/-- LINK_PARAMS of the card arrive: the link is Active, or a changed reset epoch starts a host-domain reset (R350). -/
def execLinkParams (link epoch lastSeq : Nat) (credits : List Nat) (s : State) : Res :=
  onEdrad link (fun e => e.step == 5) s fun s =>
    match (edradOf s link).peerEpoch with
    | some x =>
      if x != epoch then hostReset link 3 s else linkActive link lastSeq credits s
    | none => linkActive link lastSeq credits (setEdrad link (fun e => { e with peerEpoch := some epoch }) s)

/-! ## The card and its messages (R348, R356 to R358) -/

/-- The card takes PORT_STATUS of a downstream port (R348). -/
def execPortStatus (link dev : Nat) (up : Bool) (speed width errors : Nat) (s : State) : Res :=
  onEdrad link (fun e => e.state == .active && !e.card.lost && Nat.ble 1 dev && Nat.ble dev 16) s fun s =>
    setCard link (fun c => { c with
      slots := if up then insertNew c.slots dev else c.slots.filter (· != dev),
      hotplug := if c.slots.contains dev == up then c.hotplug else c.hotplug + 1,
      status := tset c.status dev (speed, width), aer := tmodD c.aer dev 0 (· + errors) }) s

/-- The partition of function n of a link: bound partitions in ascending order (R359). -/
def funcPart (s : State) (link n : Nat) : Option Nat := (boundParts s link)[n]?

/-- SETTINGS of the card: for downstream port `n`, or function `n`. ACS controls: bit 0 P2P request redirect, bit 1 egress control, the
egress vector from bit 8. Vectors whose pending bit is set and whose mask goes are raised (R348). -/
def execSettings (link : Nat) (isPort : Bool) (n bus base limit command acs : Nat) (pasidEn relaxed : Bool)
    (msix : List (Nat × Nat × Nat × Nat)) (s : State) : Res :=
  onEdrad link (fun e => e.state == .active) s fun s =>
    let f := fun (x : Func) => { x with bus := bus, base := base, limit := limit, command := command, acs := acs, pasidEn := pasidEn,
                                        relaxed := relaxed }
    if isPort then
      if 16 < n then s
      else
        let s := { s with link := { s.link with funcs := tmodD s.link.funcs (16 + 17 * link + n) {} f } }
        if n == 0 || (accelOf s ((n - 1) % 8)).bound != link + 1 then s
        else setAccel ((n - 1) % 8) (fun a => { a with acs := acs % 256, egress := acs / 256 }) s
    else
      match funcPart s link n with
      | none => s
      | some p =>
        let table := fun (x : Func) =>
          msix.foldl (fun (t : Tab (Nat × Nat × Nat)) (e : Nat × Nat × Nat × Nat) => if e.1 < 2048 then tset t e.1 e.2 else t) x.msix
        let s := { s with link := { s.link with funcs := tmodD s.link.funcs p {} fun x => { f x with msix := table x } } }
        let free := (tgetD s.link.funcs p {}).msixPending.filter fun v => match tget (tgetD s.link.funcs p {}).msix v with
          | some (_, _, mask) => !bit mask 0
          | none => true
        free.foldl (fun s v => raiseMsix p v { s with link := { s.link with funcs := tmod s.link.funcs p fun x =>
          { x with msixPending := x.msixPending.filter (· != v) } } }) s

/-- The card takes RESET_NOTICE (R356). -/
def execResetNotice (link : Nat) (s : State) : Res := need (Nat.blt link 2) .noSuchLink (cardLost link s)

/-- WAKE: from the device the card sends PM_PME; from the card the device leaves Idle (R348). -/
def execWake (link : Nat) (fromDevice : Bool) (s : State) : Res :=
  onEdrad link (fun e => e.state == .active) s fun s => if fromDevice then s.emit (.card link 1 0) else leaveIdle s

/-- The card takes SLEEP_REQ: it holds host requests and answers (R357). -/
def execSleepReq (link : Nat) (s : State) : Res :=
  onEdrad link (fun e => e.state == .active && e.sleeping) s fun s => (setCard link (fun c => { c with holding := true }) s).emit (.edrad link 9 [])

/-- SLEEP_ACK: the device receives SLEEP_ACK; with empty replay buffers the link enters electrical idle (R357). -/
def execSleepAck (link : Nat) (s : State) : Res :=
  onEdrad link (fun e => e.state == .active && e.sleeping) s fun s =>
    setEdrad link (fun e => { e with sleepAcked := true, state := if e.replay.isEmpty then .idle else e.state }) s

/-- A wake burst reaches a link in electrical idle: the wake source is raised, and a running device retrains the link (R357). -/
def execEdradWakeBurst (link : Nat) (s : State) : Res :=
  need (Nat.blt link 2) .noSuchLink <|
    let e := edradOf s link
    if e.state != .idle || !dieUp s (atCode link) then s
    else
      let s := raiseWake 2 link s
      match s.pow.state with
      | .active => startFast link (setEdrad link (fun e => { e with state := .training }) s)
      | _ => s

/-- Host software writes Power Controller Control on in downstream port 0: the card answers and sends a wake burst (R522). -/
def execSlotControlPower (link : Nat) (s : State) : Res := need (Nat.blt link 2) .noSuchLink (s.emit (.card link 2 0))

/-- A host request reaches the card: Unsupported Request while the hierarchy is lost, passed on over an Active link, else held, with a
wake burst where the link is idle (R357). -/
def execHostRequest (link id : Nat) (s : State) : Res :=
  need (Nat.blt link 2) .noSuchLink <|
    let e := edradOf s link
    if e.card.lost then s.emit (.card link 3 id)
    else if e.state == .active && !e.card.holding then s.emit (.card link 4 id)
    else
      let s := setCard link (fun c => { c with held := c.held ++ [(id, s.time.now)] }) s
      if e.state == .idle then s.emit (.card link 2 0) else s

/-! ## Partition functions (R359 to R361, R410) -/

/-- A function-level reset of a partition's function (R359). -/
def execFunctionLevelReset (p : Nat) (s : State) : Res :=
  need (Nat.blt p 12) .noSuchPartition <|
    when_ (running s && (boundParts s 0 ++ boundParts s 1).contains p) s (startReset p 0 2 false false s)

/-- An error is logged in a function's AER registers. -/
def logAer (p : Nat) (s : State) : State := { s with link := { s.link with funcs := tmodD s.link.funcs p {} fun f => { f with aer := f.aer + 1 } } }

/-- Bytes a BAR4 access covers. -/
def BarOp.len (o : BarOp) : Nat :=
  match o with
  | .read n => n
  | .write d => d.length
  | .atomic _ size _ _ => size

/-- The value an AtomicOp stores. -/
def barAtomic (code size operand compare old : Nat) : Nat :=
  if code == 0 then (old + operand) % 2 ^ (8 * size) else if code == 1 then operand % 2 ^ (8 * size)
  else if old == compare % 2 ^ (8 * size) then operand % 2 ^ (8 * size) else old

def hostBytesOf (p n : Nat) (s : State) : State :=
  { s with mtr := { s.mtr with hostBytes := tmodD s.mtr.hostBytes p 0 (· + n) },
           obs := { s.obs with partBw := tmodD s.obs.partBw p {} fun b => { b with host := b.host + n } } }

/-- An access of device memory within the data range of partition p. -/
def barServe (p a : Nat) (o : BarOp) (s : State) : State :=
  let piece : Piece := { va := a, len := BarOp.len o, target := 1, port := 0, out := a, page := 0, part := p, pasid := 0, region := 0 }
  let s := hostBytesOf p (BarOp.len o) s
  match o with
  | .read n =>
    match firstBadRead s a n with
    | some x => (mediaError x s).emit (.completion p 2 [])
    | none => (noteAccess false piece n s).emit (.completion p 0 (devRead s a n))
  | .write d => (storePieces [piece] d s).2
  | .atomic code size operand compare =>
    match firstBadRead s a size with
    | some x => (mediaError x s).emit (.completion p 2 [])
    | none =>
      let old := devRead s a size
      let s := noteAccess false piece size s
      (storePieces [piece] (leBytes size (barAtomic code size operand compare (ofLe old))) s).2.emit (.completion p 0 old)

/-- An access that is not performed: a write is dropped, anything else completes with Unsupported Request (R361). -/
def barRefuse (p : Nat) (o : BarOp) (s : State) : State :=
  match o with
  | .write _ => s
  | _ => s.emit (.completion p 1 [])

/-- What becomes of an access through BAR4 of partition p's function at device address a; none while the memory holds it. -/
def barAct (p a : Nat) (o : BarOp) (s : State) : Option State :=
  let (b, n) := dataRange s p
  let whole := match o with
    | .atomic code size _ _ => (size == 4 || size == 8) && Nat.ble code 2 && a % size == 0
    | _ => true
  if !partUp s p || !whole then some (barRefuse p o s)
  else if !(Nat.ble b a && Nat.ble (a + BarOp.len o) (b + n)) || withdrawn s a || withdrawn s (a + BarOp.len o - 1) then
    some (barRefuse p o (logAer p s))
  else if memWaits s a || memWaits s (a + BarOp.len o - 1) then none
  else some (barServe p a o s)

/-- One access in turn: it is served, or waits behind those of its function that wait. -/
def barTurn (s : State) (x : Nat × Nat × BarOp) : State :=
  let wait : State := { s with link := { s.link with barWait := s.link.barWait ++ [x] } }
  if s.link.barWait.any fun y => y.1 == x.1 then wait else (barAct x.1 x.2.1 x.2.2 s).getD wait

/-- The accesses that wait are tried again, in order. -/
def serveBars (s : State) : State :=
  if s.link.barWait.isEmpty then s else s.link.barWait.foldl barTurn { s with link := { s.link with barWait := [] } }

/-- An access through BAR4 of partition p's function at device address a. One that the memory holds waits, and is tried again at each tick
(R361, R388, R394; log 74, DESIGN CHOICE). -/
def execBar4Access (p a : Nat) (o : BarOp) (s : State) : Res :=
  need (Nat.blt p 12) .noSuchPartition <|
    if !running s || !(partOf s p).enabled then s else barTurn (leaveIdle s) (p, a, o)

/-! ## Accelerator ports (R366, R367) -/

def onAccel (e : Nat) (ok : Accel → Bool) (s : State) (act : State → State) : Res :=
  need (Nat.blt e 8) .noSuchAccelPort (when_ (running s && dieUp s (atCode (e / 4)) && ok (accelOf s e)) s (act s))

/-- A window that SETTINGS gave holds an address. -/
def Func.holds (f : Func) (a : Nat) : Bool := Nat.ble f.base a && Nat.ble a f.limit && Nat.blt f.base f.limit

/-- Another port of the same link whose BAR window holds an address. -/
def peerPort (s : State) (e link a : Nat) : Option Nat :=
  (boundPorts s link).find? fun x => x != e && ((tgetD s.link.funcs (17 + 17 * link + x) {}).holds a || (tgetD s.link.funcs (25 + 17 * link + x) {}).holds a)

/-- A request of an accelerator is routed (R366): 0 to a peer port, 1 to a partition's function, 2 to the host, 3 refused. -/
def execAcceleratorRequest (e a : Nat) (s : State) : Res :=
  onAccel e (fun x => (x.up || x.upB) && !x.isolated) s fun s =>
    let x := accelOf s e
    let func := below 12 fun p => (tgetD s.link.funcs p {}).holds a && (if x.bound == 0 then x.owner == some p else (boundParts s (x.bound - 1)).contains p)
    match if x.bound == 0 then none else peerPort s e (x.bound - 1) a with
    | some q =>
      if bit x.acs 1 && bit x.egress q then s.emit (.accel e 3 a)
      else if bit x.acs 0 then s.emit (.accel e 2 a)
      else s.emit (.accel e 0 q)
    | none =>
      match func with
      | p :: _ => s.emit (.accel e 1 p)
      | [] => s.emit (.accel e (if x.bound == 0 then 3 else 2) a)

/-- PORT_STATUS of a port goes to the card of the link it is bound to (R348). -/
def reportPort (e : Nat) (second : Bool) (s : State) : State :=
  let x := accelOf s e
  if x.bound == 0 || (edradOf s (x.bound - 1)).state != .active then s
  else sendMessage (x.bound - 1) 3 ([if second then 9 + e else 1 + e] ++
    (if second then [b2n x.upB, x.linkB.1, x.linkB.2.1] else [b2n x.up, x.speed, x.width])) s

/-- A port's link retrains or drops; its loss timer starts (R367). -/
def execAcceleratorLinkDown (e : Nat) (second : Bool) (s : State) : Res :=
  onAccel e (fun x => if second then x.upB else x.up) s fun s =>
    let s := setAccel e (fun x => { x with up := if second then x.up else false, upB := if second then false else x.upB,
                                           downAt := if x.downAt.isNone then some s.time.now else x.downAt, lossMs := cfg s 0x6005 1 }) s
    reportPort e second s

/-- A link down longer than ACCEL_LOSS_TIMER: the port is isolated, and accesses to it end with TARGET_RESET (R367). -/
def execAccelLossTimer (e : Nat) (s : State) : Res :=
  onAccel e (fun x => !x.isolated && !x.lowPower && (match x.downAt with
    | some t => due s t (x.lossMs * ms)
    | none => false)) s fun s =>
    record 3 0x6003 (((accelOf s e).owner).getD 0xF) (atCode (e / 4)) [e] (isolate e false s)

/-- A port's link comes up at a speed, coded as PORT_MAX_SPEED and no faster than it, and a width; at 128 and 64 GT/s always in FLIT mode
(R364; log 122, DEDUCED). A port that the loss timer isolated is released (R367). -/
def execAcceleratorLinkUp (e : Nat) (second : Bool) (speed width : Nat) (flit : Bool) (s : State) : Res :=
  onAccel e (fun x => x.owner.isSome && !(x.isolated && x.byHost) && !x.lowPower && (!second || x.bifurcated)
      && !(if second then x.upB else x.up)) s fun s =>
    let speed := max speed (cfg s 0x6004 (e + 1))
    let flit := flit || Nat.ble speed 1
    let s := setAccel e (fun x => { x with up := if second then x.up else true, upB := second || x.upB,
                                           speed := if second then x.speed else speed, width := if second then x.width else width,
                                           flit := if second then x.flit else flit, linkB := if second then (speed, width, flit) else x.linkB,
                                           isolated := false, inReset := false,
                                           downAt := if !x.bifurcated || (if second then x.up else x.upB) then none else x.downAt }) s
    reportPort e second s

end Sys2Proof.Machine
end

