-- ==== Sys2Proof/Machine/Ports.lean ====
section
/-! DEFINITION. Fabric ports: bring-up, retrains and lane darning, priority flow control, transmission selection, gates, PTP and
system time, latency samples, wake patterns. -/

namespace Sys2Proof.Machine

/-! ## Bring-up (R305 to R309) -/

/-- Rate in Gb/s of a RATE code. -/
def rateOf (code : Nat) : Nat := if code == 1 then 800 else if code == 2 then 400 else if code == 3 then 200 else 0

/-- Count in PORT_COUNTS: 0 corrected, 1 uncorrectable, 2 fast retrains, 3 full bring-ups, 4 failed bring-ups, 5 to 8 symbol errors. -/
def countPort (p i n : Nat) (s : State) : State := bump (dkey 0x3101 4 (p + 1)) i n s

/-- A fast retrain: trigger 0 burst, 1 alignment, 2 darn, 3 watchdog (R309). -/
def fastRetrain (p trigger : Nat) (s : State) : State :=
  record 2 0x3010 0xF (fpCode (p / 6)) [p, trigger]
    (countPort p 2 1 (setPort p (fun q => { q with trigger := trigger }) (stopPort p .retrain s)))

/-- The port dies of a running device; ports of a failed port die do nothing. -/
def portUp (s : State) (p : Nat) : Bool := portsRun s && dieUp s (fpCode (p / 6))

/-- A port command: port numbers stop at 23; the condition is tested on the running device. -/
def onPort (p : Nat) (ok : Port → Bool) (s : State) (act : State → State) : Res :=
  need (Nat.blt p 24) .noSuchPort (when_ (portUp s p && ok (portOf s p)) s (act s))

/-- SIGNAL_DETECTED: signal is detected on all four lanes of a fabric port and bring-up starts (R308). -/
def execSignalDetected (port : Nat) (s : State) : Res :=
  onPort port (fun q => q.bring == .down && !q.failed && !q.stopped && powered s port && !s.elec.clocksOut.contains 0) s fun s =>
    setPort port (fun q => { q with bring := .signal, stepAt := s.time.now }) s

/-- Auto-negotiation completes at the highest rate both ends offer: 1 800, 2 400, 3 200 Gb/s (R308). -/
def execAutonegComplete (port rate : Nat) (s : State) : Res :=
  onPort port (fun q => q.bring == .signal && cfgPort s port 0x3101 1 == 0 && 1 ≤ rate && rate ≤ 3) s fun s =>
    setPort port (fun q => { q with bring := .negotiated, stepAt := s.time.now, rate := rateOf rate }) s

/-- LINK_TRAINING_COMPLETE: link training completes on all four lanes of a fabric port (R308). -/
def execLinkTrainingComplete (port : Nat) (s : State) : Res :=
  let fixed := cfgPort s port 0x3101 1
  onPort port (fun q => q.bring == .negotiated || (q.bring == .signal && fixed != 0)) s fun s =>
    setPort port (fun q => { q with bring := .linkTrained, stepAt := s.time.now, rate := if fixed == 0 then q.rate else rateOf fixed }) s

/-- PORT_TRAINED: PCS alignment and FEC lock are reached; the port is trained and sends its first ANNOUNCE (R308). -/
def execPortTrained (port : Nat) (s : State) : Res :=
  onPort port (fun q => q.bring == .linkTrained) s fun s =>
    let s := setPort port (fun q => { q with bring := .trained, kept := true, retrainFails := 0, stepAt := s.time.now }) s
    let s := { s with fab := { s.fab with firstTrained := if s.fab.firstTrained.isNone then some s.time.now else s.fab.firstTrained } }
    announce port (countPort port 3 1 s)

/-- Bound of the bring-up step under way (log 71, DEDUCED). -/
def stepBound (s : State) (p : Nat) : Option Nat :=
  match (portOf s p).bring with
  | .signal => some (if cfgPort s p 0x3101 1 == 0 then 500 * ms else 1500 * ms)
  | .negotiated => some (1500 * ms)
  | .linkTrained => some (1 * ms)
  | _ => none

/-- A step overruns: the sequence restarts; a worn core with no stock to replace it leaves the port down (R312). -/
def execBringupTimeout (port : Nat) (s : State) : Res :=
  let late := match stepBound s port with
    | some b => due s (portOf s port).stepAt b
    | none => false
  onPort port (fun _ => late) s fun s =>
    setPort port (fun q => { q with failed := q.wornNoStock }) (countPort port 4 1 (bringDown port s))

/-- A write of RATE forces a full bring-up of the selected port (R308). -/
def execRate (s : State) : Res := .next <|
  onWrite s 0x3101 1 1 (fun _ => true) fun w c s =>
    let p := selOf s w.num (dkey 0x3100 0)
    (rDone, bringDown p (setDict (dkey 0x3101 1 (p + 1)) c.data s))

/-- UNCORRECTABLE_BURST: more than 16 uncorrectable codewords within 1 ms start a fast retrain of the port (R309). -/
def execUncorrectableBurst (port : Nat) (s : State) : Res := onPort port (fun q => q.isTrained) s (fastRetrain port 0)

/-- ALIGNMENT_LOSS: a port loses PCS lane alignment and starts a fast retrain (R309). -/
def execAlignmentLoss (port : Nat) (s : State) : Res := onPort port (fun q => q.isTrained) s (fastRetrain port 1)

/-- FAST_RETRAIN_DONE: A fast retrain of a fabric port completes and the port is trained again (R309). -/
def execFastRetrainDone (port : Nat) (s : State) : Res :=
  onPort port (fun q => q.bring == .retrain) s fun s =>
    announce port (setPort port (fun q => { q with bring := .trained, retrainFails := 0, stepAt := s.time.now }) s)

/-- A fast retrain fails: it is tried again, and a second failure in a row starts a full bring-up (R309). -/
def execFastRetrainFail (port : Nat) (s : State) : Res :=
  onPort port (fun q => q.bring == .retrain) s fun s =>
    if (portOf s port).retrainFails == 0 then
      record 2 0x3010 0xF (fpCode (port / 6)) [port, (portOf s port).trigger]
        (setPort port (fun q => { q with retrainFails := 1, stepAt := s.time.now }) (countPort port 2 1 s))
    else if (portOf s port).wornNoStock then setPort port (fun q => { q with failed := true }) (bringDown port s)
    else bringDown port s

/-! ## Lane darning (R310 to R312) -/

/-- Lane cores of a port: 4k to 4k + 3 until a darn. -/
def coresOf (s : State) (p : Nat) : List Nat :=
  let q := portOf s p
  if q.cores.isEmpty then (List.range 4).map fun i => 4 * (p % 6) + i else q.cores

def stockOf (s : State) (die : Nat) : List Nat := tgetD s.fab.stock die [24, 25]

/-- Put a stock core in a worn core's place and retrain. -/
def darnLane (p lane core : Nat) (s : State) : State :=
  let die := p / 6
  let old := nth (coresOf s p) lane
  let cores := (coresOf s p).set lane core
  let s := setPort p (fun q => { q with cores := cores, wearRow := tdel q.wearRow lane }) s
  let s := { s with fab := { s.fab with stock := tset s.fab.stock die ((stockOf s die).filter (· != core)),
                                        failedCores := tmodD s.fab.failedCores die [] (· ++ [old]) } }
  let s := rebuildPattern (record 1 0x3012 0xF (fpCode die) [p, lane, core] s)
  if (portOf s p).isTrained then fastRetrain p 2 s else s

/-- A lane core has been over LANE_WEAR_SER for three windows. -/
def wornLane (p lane : Nat) (s : State) : State :=
  let die := p / 6
  let s := setPort p (fun q => { q with wearRow := tdel q.wearRow lane }) s
  if cfg s 0x3102 1 == 0 then record 2 0x3011 0xF (fpCode die) [p, lane] s
  else
    match stockOf s die with
    | core :: _ => darnLane p lane core s
    | [] => setPort p (fun q => { q with wornNoStock := true }) (record 2 0x3013 0xF (fpCode die) [p, lane] s)

/-- A 10 s window closes: codewords corrected and not, and for each lane the symbol errors and their number per 10^12 symbols (R311). -/
def execLaneWearWindow (port corrected uncorrectable : Nat) (errors ratios : List Nat) (s : State) : Res :=
  onPort port (fun q => q.isTrained) s fun s =>
    let s := countPort port 0 corrected (countPort port 1 uncorrectable s)
    (List.range 4).foldl (fun s lane =>
      let s := countPort port (5 + lane) (nth errors lane) s
      if cfg s 0x3102 2 < nth ratios lane then
        let n := tgetD (portOf s port).wearRow lane 0 + 1
        if 3 ≤ n then wornLane port lane s else setPort port (fun q => { q with wearRow := tset q.wearRow lane n }) s
      else setPort port (fun q => { q with wearRow := tdel q.wearRow lane }) s) s

/-- LANE_DARN: A stock core takes a worn lane core's place and the port makes a fast retrain (R312). -/
def execLaneDarn (s : State) : Res := .next <|
  onWrite s 0x3102 3 3 (fun _ => true) fun _ c s =>
    let p := field c.data 0 1
    let lane := field c.data 1 1
    if 23 < p || 3 < lane then (rRange, s)
    else
      match stockOf s (p / 6) with
      | core :: _ => (rDone, darnLane p lane core s)
      | [] => (rNoResource, s)

/-! ## Priority flow control (R313 to R319) -/

/-- `t` pause units of 512 bit times in ns at a rate in Gb/s. -/
def pauseTime (rate t : Nat) : Nat := if rate == 0 then 0 else ceilDiv (t * 512) rate

/-- The pause of a priority that has run out ends. -/
def endPast (p prio : Nat) (s : State) : State :=
  match tget (portOf s p).paused prio with
  | some x => if x.until_ ≤ s.time.now then endPause p prio s else s
  | none => s

/-- A pause time of a priority arrives; it works from 100 ns after its frame (R316; log 66, DEDUCED). -/
def takePause (p prio t : Nat) (s : State) : State :=
  let s := endPast p prio (countPfc p prio 2 1 s)
  if t == 0 then endPause p prio s
  else
    let q := portOf s p
    let x : Pause := { until_ := s.time.now + 100 + pauseTime q.rate t, since := (tget q.paused prio |>.map (·.since)).getD s.time.now }
    setPort p (fun q => { q with paused := tset q.paused prio x }) s

/-- A PFC frame, or a PAUSE frame whose one time covers every priority; a frame FC_MODE does not honour is only counted (R316). -/
def execPfcFrame (port : Nat) (pause : Bool) (mask : Nat) (times : List Nat) (s : State) : Res :=
  onPort port (fun q => q.isTrained) s fun s =>
    let mode := cfgPort s port 0x3103 1
    let en := cfgPort s port 0x3103 2
    if pause then
      if mode == 1 then (List.range 8).foldl (fun s i => takePause port i (nth times 0) s) s
      else (List.range 8).foldl (fun s i => countPfc port i 2 1 s) s
    else
      (maskBits 8 mask).foldl (fun s i => if mode == 2 && bit en i then takePause port i (nth times i) s else countPfc port i 2 1 s) s

/-- PAUSE_EXPIRY: A received pause time runs out, and the priority may send again (R316). -/
def execPauseExpiry (port prio : Nat) (s : State) : Res :=
  let past := match tget (portOf s port).paused prio with
    | some x => Nat.ble x.until_ s.time.now
    | none => false
  onPort port (fun _ => past) s (endPause port prio)

/-- Half the pause time has passed with the hold still above XON: the pause is sent again (R315). -/
def execPfcRefresh (port prio : Nat) (s : State) : Res :=
  let q := portOf s port
  let on := match tget q.xoff prio with
    | some t => due s t (pauseTime q.rate 0xFFFF / 2)
    | none => false
  onPort port (fun q => on && q.isTrained && cfgPort s port 0x3103 4 < tgetD q.hold prio 0) s fun s =>
    sendPause port prio 0xFFFF (setPort port (fun q => { q with xoff := tset q.xoff prio s.time.now }) s)

/-- PAUSE_WATCHDOG: A priority has been paused without a break for PAUSE_WATCHDOG; the device records it and fast-retrains the port (R319). -/
def execPauseWatchdog (port prio : Nat) (s : State) : Res :=
  let long := match tget (portOf s port).paused prio with
    | some x => due s x.since (cfgPort s port 0x3103 5 * ms) && Nat.ble (x.since + cfgPort s port 0x3103 5 * ms) x.until_
    | none => false
  onPort port (fun q => long && q.isTrained) s fun s =>
    fastRetrain port 3 (countPfc port prio 5 1 (record 3 0x3015 0xF (fpCode (port / 6)) [port, prio] s))

/-! ## Gates (R324 to R326) -/

def cycleOf (l : List GateEntry) : Nat := l.foldl (fun a e => a + e.duration) 0

/-- Index of the entry that runs at an offset in the cycle, and the offset of its end. -/
def entryIndex : List GateEntry → Nat → Nat → Nat → Nat × Nat
  | [], i, end_, _ => (i, end_)
  | e :: t, i, end_, off => if off < end_ + e.duration then (i, end_ + e.duration) else entryIndex t (i + 1) (end_ + e.duration) off

/-- Offset of an instant in a port's cycle. -/
def cycleOffset (q : Port) (now : Nat) : Nat :=
  let c := cycleOf q.gateList
  if c == 0 then 0 else (now + c * (q.gateBase / c + 1) - q.gateBase) % c

/-- Time until a class's gate next closes, over at most two cycles: none for a gate open all through (R325). -/
def nextClose (l : List GateEntry) (tc : Nat) : Nat → Nat → Nat → Option Nat
  | 0, _, _ => none
  | n + 1, i, left =>
    let j := (i + 1) % max l.length 1
    let e := (l[j]?).getD ⟨15, 0⟩
    if !bit e.gates tc then some left else nextClose l tc n j (left + e.duration)

/-- Guard band in 0.1 ns: the largest-frame time at the rate and GUARD_MARGIN (R305, R325). -/
def guardBand (s : State) (rate : Nat) : Nat := (if rate == 0 then 0 else 416 * 800 / rate) + cfg s 0x3300 2

/-- A class may start a frame now (R325, R331). -/
def gateAllows (s : State) (p tc : Nat) : Bool :=
  let q := portOf s p
  if q.stepClosed && tc != 0 then false
  else
    let off := cycleOffset q s.time.now
    let (i, end_) := entryIndex q.gateList 0 0 off
    bit q.gates tc && (match nextClose q.gateList tc q.gateList.length i (end_ - off) with
      | some t => Nat.blt (guardBand s q.rate) (10 * t)
      | none => true)

/-- A new entry begins; at a cycle start the gates shut by a step of time open again (R331). -/
def execGateEntryStart (port : Nat) (s : State) : Res :=
  onPort port (fun _ => true) s fun s =>
    let q := portOf s port
    let (i, _) := entryIndex q.gateList 0 0 (cycleOffset q s.time.now)
    let e := (q.gateList[i]?).getD ⟨15, 0⟩
    setPort port (fun q => { q with gates := e.gates, stepClosed := q.stepClosed && i != 0 }) s

/-- Gate entries from their bytes. -/
def gateEntries (d : List Byte) : List GateEntry :=
  (List.range (d.length / 8)).map fun i => ⟨field d (8 * i + 4) 4 % 16, field d (8 * i) 4⟩

/-- TC1's windows of a list, runs of like entries joined. -/
def tc1Windows : List GateEntry → List (Bool × Nat)
  | [] => []
  | e :: t =>
    match tc1Windows t with
    | (b, n) :: r => if b == bit e.gates 1 then (b, n + e.duration) :: r else (bit e.gates 1, e.duration) :: (b, n) :: r
    | [] => [(bit e.gates 1, e.duration)]

/-- A commit of the selected port's admin list: checked at once, in effect from its first cycle start at or after GATE_ADMIN_BASE and
10 µs from now (log 62, DEDUCED) (R326). -/
def execGateCommit (s : State) : Res := .next <|
  onWrite s 0x3302 2 2 (fun _ => true) fun w _ s =>
    let p := selOf s w.num (dkey 0x3100 0)
    let q := portOf s p
    let l := gateEntries (cfgBytes s (dkey 0x3301 0 (p + 1)) 0 0)
    let base := cfgPort s p 0x3302 1
    let c := cycleOf l
    if l.isEmpty || 256 < l.length || !(l.all fun e => Nat.ble 64 e.duration) || c < 1000 || 10000000 < c then (rInvalid, s)
    else if (s.coll.slots.any fun x => x.2.state == .resident) && !(base == q.gateBase && tc1Windows l == tc1Windows q.gateList) then (rBusy, s)
    else
      let least := max base (s.time.now + 10 * us)
      let at_ := base + ceilDiv (least - base) c * c
      (rDone, setPort p (fun q => { q with gatePending := some (l, base, at_) }) s)

/-- GATE_CHANGEOVER: at its first cycle start a pending gate list takes effect and GATE_BASE changes (R326). -/
def execGateChangeover (port : Nat) (s : State) : Res :=
  let now := match (portOf s port).gatePending with
    | some (_, _, t) => Nat.ble t s.time.now
    | none => false
  onPort port (fun _ => now) s fun s =>
    setPort port (fun q => match q.gatePending with
      | some (l, base, _) =>
        { q with gateList := l, gateBase := base, gatePending := none, gates := ((l.head?).getD ⟨15, 0⟩).gates, stepClosed := false }
      | none => q) s

/-! ## Transmission selection (R320 to R322) -/

/-- Rate of a shaper in Mb/s, none where a class is unshaped. -/
def shaperRate (s : State) (p tc : Nat) : Option Nat :=
  if tc == 0 then some ((portOf s p).rate * 10 * cfgPort s p 0x3201 3)
  else if tc == 1 then none
  else
    let r := cfgPort s p 0x3201 (tc + 2)
    if r == 0 then none else some r

/-- SHAPER_REFILL: every 1,024 ns each shaper adds its rate times 1,024 ns in bytes, up to its burst (R321). -/
def execShaperRefill (port : Nat) (s : State) : Res :=
  onPort port (fun q => s.time.now % 1024 == 0 && q.refillAt != some s.time.now) s fun s =>
    let burst : Int := cfgPort s port 0x3201 6
    let s := setPort port (fun q => { q with refillAt := some s.time.now }) s
    [0, 2, 3].foldl (fun s tc =>
      match shaperRate s port tc with
      | some r => setPort port (fun q => { q with buckets := tmodD q.buckets tc 0 fun b => min (min b burst + (r * 1024 / 8000 : Nat)) burst,
                                                  shapers := tset q.shapers tc r }) s
      | none => setPort port (fun q => { q with shapers := tdel q.shapers tc }) s) s

/-- The priority is paused: a pause works from 100 ns after it came. -/
def pausedNow (s : State) (p prio : Nat) : Bool :=
  match tget (portOf s p).paused prio with
  | some x => due s x.since 100 && Nat.blt s.time.now x.until_
  | none => false

/-- A class is shaped: TC0 always, TC2 and TC3 by what their shapers took up at the last refill (R321, R322). -/
def shaped (q : Port) (tc : Nat) : Bool := tc == 0 || (tget q.shapers tc).isSome

def shaperOpen (s : State) (p tc : Nat) : Bool :=
  let q := portOf s p
  !shaped q tc || decide (0 ≤ tgetD q.buckets tc 0)

/-- The head of a priority's queue, if it may start. -/
def headOf (s : State) (p prio : Nat) : Option Queued :=
  match (portOf s p).egress.find? fun q => q.prio == prio with
  | some q => if !pausedNow s p prio && gateAllows s p (prio / 2) && shaperOpen s p (prio / 2) then some q else none
  | none => none

/-- The frame a class would start: its two priorities take turns (R320). -/
def classHead (s : State) (p tc : Nat) : Option Queued :=
  let last := tgetD (portOf s p).lastPrio tc (2 * tc + 1)
  let first := 4 * tc + 1 - last
  match headOf s p first with
  | some q => some q
  | none => headOf s p last

/-- Weights in force: those the round under way began with (R322). -/
def weightsOf (s : State) (p : Nat) (q : Port) : Nat × Nat := q.weights.getD (cfgPort s p 0x3201 1, cfgPort s p 0x3201 2)

/-- The turn passes to a class, which gains its quantum; a round begins with TC2. -/
def giveTurn (s : State) (p o : Nat) (q : Port) : Port :=
  let q := if o == 2 then { q with weights := some (cfgPort s p 0x3201 1, cfgPort s p 0x3201 2) } else q
  let w := weightsOf s p q
  let n := 4158 * (if o == 2 then w.1 else w.2)
  if o == 2 then { q with deficit2 := q.deficit2 + n, lastBulk := o } else { q with deficit3 := q.deficit3 + n, lastBulk := o }

def deficitOf (q : Port) (tc : Nat) : Nat := if tc == 2 then q.deficit2 else q.deficit3
def setDeficit (tc n : Nat) (q : Port) : Port := if tc == 2 then { q with deficit2 := n } else { q with deficit3 := n }

/-- Deficit round robin between TC2 and TC3: the class under way goes on while its deficit covers its frame, then the other's turn adds its
quantum. `fuel` bounds the turns a frame larger than a quantum takes. -/
def bulkTurn (s : State) (p : Nat) : Nat → Port → Option (Queued × Port)
  | 0, _ => none
  | n + 1, q =>
    match classHead s p q.lastBulk with
    | some x =>
      if x.size ≤ deficitOf q q.lastBulk then some (x, setDeficit q.lastBulk (deficitOf q q.lastBulk - x.size) q)
      else
        bulkTurn s p n (giveTurn s p (5 - q.lastBulk) q)
    | none => bulkTurn s p n (giveTurn s p (5 - q.lastBulk) (setDeficit q.lastBulk 0 q))

/-- What a port starts next: a frame that waits in an egress queue, with the port after the choice, or a PTP message. -/
inductive Pick where
  | frame (x : Queued) (q : Port)
  | ptp (kind : Nat)

/-- A PTP frame may start: it travels at priority 0 and obeys the TC0 gate, not the TC0 shaper (R320). -/
def ptpMay (s : State) (p : Nat) : Bool := !pausedNow s p 0 && gateAllows s p 0

/-- What the port starts next, in the order of R320; a PTP frame goes before the other frames of its priority (log 65, DESIGN CHOICE). -/
def pick (s : State) (p : Nat) : Option Pick :=
  let q := portOf s p
  match classHead s p 1 with
  | some x => some (.frame x q)
  | none =>
    match if ptpMay s p then q.ptpOut.head? else none with
    | some kind => some (.ptp kind)
    | none =>
      match classHead s p 0 with
      | some x => some (.frame x q)
      | none => (bulkTurn s p 6 q).map fun (x, q) => .frame x q

/-- ns that `n` bytes take at a rate. -/
def txTime (rate n : Nat) : Nat := if rate == 0 then 0 else ceilDiv (8 * n) rate

/-- The frame as it goes onto the link: TTL and, on a source route, the left count of its dimension (R293, R295). -/
def onLink (q : Queued) : Packet :=
  let tree := Hdr.rmode q.pkt.hdr == 2 && Hdr.ver q.pkt.hdr != 1
  let p := { q.pkt with hdr := setFld q.pkt.hdr 307 303 (if tree then 30 else Hdr.ttl q.pkt.hdr - 1) }
  if tree || !sourceRouted p then p else tookHop p (q.port % 6)

/-- Start a frame. -/
def startFrame (p : Nat) (x : Queued) (q : Port) (s : State) : State :=
  let tc := x.prio / 2
  let q := { q with hwm := (portOf (noteHwm p tc s) p).hwm, egress := q.egress.erase x, lastPrio := tset q.lastPrio tc x.prio, busyUntil := s.time.now + txTime q.rate x.size,
                    buckets := if shaped q tc then tmodD q.buckets tc 0 (· - (x.size : Int)) else q.buckets }
  let s := noteHwm p tc { s with fab := { s.fab with ports := tset s.fab.ports p q } }
  (countLink p x.size 0 s).emit (.frame p x.prio (frameBytes (cfg s 0x3000 1) q.farMac (macOf p) (onLink x)))

/-- Start a PTP message, timestamped as it leaves: 0 Sync, 1 a Pdelay request (R327). -/
def startPtp (p kind : Nat) (s : State) : State :=
  (setPort p (fun q => { q with ptpOut := q.ptpOut.tail, busyUntil := s.time.now + txTime q.rate 64 }) s).emit
    (.link p 3 (if kind == 0 then [0, cfg s 0x3400 4, b2n (bit (cfg s 0x3400 5) p), s.time.now] else [1, cfg s 0x3400 4, s.time.now]))

/-- FRAME_TRANSMIT: at a frame boundary a port starts the first frame that gates, pauses, shapers and priorities allow (R320). -/
def execFrameTransmit (port : Nat) (s : State) : Res :=
  onPort port (fun q => q.isTrained && !q.stopped && Nat.ble q.busyUntil s.time.now) s fun s =>
    let q := portOf s port
    match q.pfcOut with
    | (prio, t) :: rest =>
      let s := setPort port (fun q => { q with pfcOut := rest, busyUntil := s.time.now + txTime q.rate 64 }) s
      (countPfc port prio (if t == 0 then 1 else 0) 1 s).emit (.link port 2 [cfgPort s port 0x3103 1, prio, t])
    | [] =>
      match pick s port with
      | some (.frame x q) => startFrame port x q s
      | some (.ptp kind) => startPtp port kind s
      | none => s

/-! ## Time across devices (R327 to R332) -/

/-- Device time steps: the islands take it from the distribution word, and every gate but TC0's shuts until the next cycle start. -/
def stepTime (t : Nat) (s : State) : State :=
  { s with
    time := { s.time with now := t % m64 },
    fab := { s.fab with ports := (List.range 24).foldl (fun x p => tmodD x p {} fun q => { q with stepClosed := true }) s.fab.ports } }

/-- Serves time on a port: every live port but the upstream one (R328). -/
def serves (s : State) (p : Nat) : Bool := portLive s p && s.time.upstream != some p

/-- A PTP message is due at a port: it waits for its turn at priority 0 (R320). -/
def queuePtp (p kind : Nat) (s : State) : State := setPort p (fun q => { q with ptpOut := q.ptpOut ++ [kind] }) s

/-- SYNC_TIMER: A port sends a PTP Sync message, 128 times per second (R327). -/
def execSyncTimer (port : Nat) (s : State) : Res :=
  let dueNow := match (portOf s port).lastSyncTx with
    | some t => due s t 7812500
    | none => true
  onPort port (fun _ => serves s port && dueNow) s fun s =>
    queuePtp port 0 (setPort port (fun q => { q with lastSyncTx := some s.time.now }) s)

/-- PDELAY_TIMER: A port sends a PTP Pdelay request, 16 times per second (R327). -/
def execPdelayTimer (port : Nat) (s : State) : Res :=
  let dueNow := match (portOf s port).lastPdelayTx with
    | some t => due s t 62500000
    | none => true
  onPort port (fun _ => portLive s port && dueNow) s fun s =>
    queuePtp port 1 (setPort port (fun q => { q with lastPdelayTx := some s.time.now }) s)

def trusted (a : Align) : Bool := a == .aligned || a == .holdover

/-- The upstream port: of the live ports whose neighbour is aligned, the one fewest hops from the system manager, the lowest among
equals (R328). -/
def chooseUpstream (s : State) : Option Nat :=
  if isManager s then none
  else leastBy (fun p => tgetD s.time.hops p 0) ((List.range 24).filter fun p => portLive s p && trusted (tgetD s.time.neighbour p .free))

/-- The upstream port is chosen again; a change makes an aligned device hold over (R328, R330). -/
def rechoose (s : State) : State :=
  let u := chooseUpstream s
  if isManager s then { s with time := { s.time with state := .aligned, upstream := none } }
  else if u == s.time.upstream then s
  else
    let st := match s.time.state, u with
      | .free, some _ => Align.acquiring
      | .acquiring, none => .free
      | .aligned, _ => .holdover
      | x, _ => x
    { s with time := { s.time with upstream := u, state := st, within := 0, lastSync := s.time.now,
                                   holdSince := if s.time.state == .aligned then s.time.now else s.time.holdSince } }

/-- A Sync from the upstream neighbour gives an offset in ps: the servo steps beyond 1 µs, and the states follow (R330). -/
def takeSync (p : Nat) (offset : Int) (s : State) : State :=
  let near := decide (offset.natAbs ≤ 1000)
  let w := if near then s.time.within + 1 else 0
  let s := { s with time := { s.time with offset := offset, lastSync := s.time.now, within := w } }
  let good := 16 ≤ w && trusted (tgetD s.time.neighbour p .free)
  if 1000000 < offset.natAbs then
    stepTime (((s.time.now : Int) - offset / 1000).toNat) { s with time := { s.time with state := .acquiring, within := 0 } }
  else
    match s.time.state with
    | .acquiring => if good then { s with time := { s.time with state := .aligned } } else s
    | .holdover =>
      if good then { s with time := { s.time with state := .aligned } }
      else if 5000 < offset.natAbs then { s with time := { s.time with state := .acquiring } } else s
    | _ => s

/-- Headroom a cable needs, by the mean link delay in ns; the estimate of its length is delay ÷ 5 (R317). -/
def judgeXoff (p delay : Nat) (s : State) : State :=
  let q := portOf s p
  let l := delay / 5
  let h := 8316 + q.rate / 8 * (2 * (250 + 5 * l) + 200)
  if q.warned || Nat.ble (cfgPort s p 0x3103 3 + h) 262144 then s
  else record 2 0x3014 0xF (fpCode (p / 6)) [p, l] (setPort p (fun q => { q with warned := true }) s)

/-- A PTP message: kind 0 a Sync with the measured offset in ps, kind 1 a Pdelay answer with the mean link delay in ns; both tell the
neighbour's TIME_STATE and its hops from the system manager (R330). -/
def execPtpMessage (port kind : Nat) (offset : Int) (delay state hops : Nat) (s : State) : Res :=
  onPort port (fun q => q.isTrained && q.heldOut == 0) s fun s =>
    let a : Align := if state == 2 then .aligned else if state == 3 then .holdover else if state == 1 then .acquiring else .free
    let s := { s with time := { s.time with neighbour := tset s.time.neighbour port a, hops := tset s.time.hops port hops } }
    let s := rechoose s
    if kind == 1 then judgeXoff port delay { s with time := { s.time with linkDelay := tset s.time.linkDelay port delay } }
    else if s.time.upstream == some port then takeSync port (offset - signed32 (cfgPort s port 0x3101 3)) s
    else s

/-- Three Sync intervals pass with no Sync (log 65, DESIGN CHOICE) (R330). -/
def execSyncLoss (s : State) : Res := .next <|
  when_ (running s && !isManager s && s.time.state == .aligned && due s s.time.lastSync 23437500) s
    { s with time := { s.time with state := .holdover, holdSince := s.time.now, within := 0 } }

/-- HOLDOVER_LIMIT: HOLDOVER lasts HOLDOVER_LIMIT, and the device moves to ACQUIRING; one without an upstream port is FREE (R330; log 130,
DEDUCED). -/
def execHoldoverLimit (s : State) : Res := .next <|
  when_ (running s && !isManager s && s.time.state == .holdover && due s s.time.holdSince (cfg s 0x3400 6 * ms)) s
    { s with time := { s.time with state := if s.time.upstream.isNone then .free else .acquiring, within := 0 } }

/-- PPS_SECOND: device time crosses a whole second and PPS_OUT rises (R331). -/
def execPpsSecond (s : State) : Res := .next <|
  when_ (running s && s.time.now % sec == 0 && s.time.ppsAt != some s.time.now && cfg s 0x3400 7 == 1) s
    (({ s with time := { s.time with ppsOut := true, ppsOutSince := s.time.now, ppsAt := some s.time.now } }).emit (.pin 0 true))

/-- The pending TIME_SET, once 100 ms have passed since its write. -/
def setDue (s : State) : Option Nat :=
  match s.time.setPending with
  | some (t, w) => if due s w (100 * ms) then some t else none
  | none => none

/-- A rising edge of PPS_IN: it is timestamped, wakes the device, and on a system manager with PPS_REF sets or steers device time (R331). -/
def execPpsIn (s : State) : Res := .next <|
  let s := raiseWake 4 0 s
  when_ (running s) s <|
    let s := { s with time := { s.time with ppsIn := s.time.now } }
    if !isManager s || cfg s 0x3400 8 == 0 then s
    else
      match setDue s with
      | some t => stepTime (t * sec) { s with time := { s.time with setPending := none } }
      | none => { s with time := { s.time with now := (s.time.now + sec / 2) / sec * sec } }

/-- TIME_SET: A write of TIME_SET schedules a step of system time to a TAI second count (R332). -/
def execTimeSet (s : State) : Res := .next <|
  onWrite s 0x3400 10 10 (fun _ => true) fun _ c s =>
    if !isManager s then (rInvalid, s) else (rDone, { s with time := { s.time with setPending := some (ofLe c.data, s.time.now) } })

/-- TIME_SET_STEP: at its instant the pending TIME_SET steps device time and gates follow the step rule (R332). -/
def execTimeSetStep (s : State) : Res := .next <|
  match setDue s with
  | some t =>
    when_ (running s && isManager s && cfg s 0x3400 8 == 0 && s.time.now % sec == 0) s
      (stepTime (t * sec) { s with time := { s.time with setPending := none } })
  | none => s

/-! ## Latency observation (R333 to R335) -/

/-- A sample record. -/
def queueSample (s : State) (p prio : Nat) : List Byte :=
  let l := (portOf s p).egress.filter fun q => q.prio == prio
  let depth := ceilDiv (l.foldl (fun a q => a + q.size) 0) 256
  let delay := match l.head? with
    | some q => min (s.time.now - q.at_) 2097151
    | none => 0
  leBytes 8 (pack [(40, bits s.time.now 33 10), (35, p), (32, prio), (21, min depth 1024), (0, delay)])

/-- Write bytes to a sample ring in device memory, by its key; answers whether all were written. -/
def ringWrite (key addr : Nat) (d : List Byte) (s : State) : Bool × State :=
  let r := tgetD s.xl.regions (keyIndex key) 0
  match localSpan (firstEngine s) (Region.part r) (Region.pasid r) key addr d.length .write (· == 1) true s with
  | (.ok ps, s) => let (n, s) := storePieces ps d s; (n == d.length, s)
  | (_, s) => (false, s)

/-- One record into the ring of a port die; after every 64 the total follows the ring. -/
def addSample (die p prio : Nat) (ok : Bool) (s : State) : Bool × State :=
  if !ok then (false, s)
  else
    let ring := cfgBytes s (dkey 0x3501 (die + 1)) 13 0
    let size := 2 ^ field ring 12 1
    let n := tgetD s.fab.ringTotal die 0
    let (good, s) := ringWrite (field ring 0 4) (field ring 4 8 + 8 * (n % size)) (queueSample s p prio) s
    if !good then (false, s)
    else
      let s := { s with fab := { s.fab with ringTotal := tset s.fab.ringTotal die (n + 1) } }
      if (n + 1) % 64 == 0 then ringWrite (field ring 0 4) (field ring 4 8 + 8 * size) (leBytes 8 (n + 1)) s else (true, s)

/-- SAMPLE_MASK of a port. -/
def sampleMask (s : State) (p : Nat) : Nat := field (cfgBytes s (dkey 0x3500 0) 24 0) p 1

/-- Clear SAMPLE_MASK for the ports of a die. -/
def clearMask (die : Nat) (s : State) : State :=
  setDict (dkey 0x3500 0) (splice (cfgBytes s (dkey 0x3500 0) 24 0) (6 * die) (List.replicate 6 0)) s

/-- A port die samples its enabled queues, at instants that are multiples of 1,024 ns (R333). -/
def execQueueSample (die : Nat) (s : State) : Res :=
  need (Nat.blt die 4) .noSuchDie <|
    when_ (running s && dieUp s (fpCode die) && s.time.now % 1024 == 0 && tget s.fab.sampledAt die != some s.time.now) s <|
      let s := { s with fab := { s.fab with sampledAt := tset s.fab.sampledAt die s.time.now } }
      let qs := (List.range 6).flatMap fun i => (maskBits 8 (sampleMask s (6 * die + i))).map fun prio => (6 * die + i, prio)
      let (ok, s) := qs.foldl (fun (acc : Bool × State) x => addSample die x.1 x.2 acc.1 acc.2) (true, s)
      if ok then s else record 3 0x3016 0xF (fpCode die) [die] (clearMask die s)

/-- A read of the selected port's high-water marks returns and resets them (R335). -/
def execHwm (s : State) : Res := .next <|
  onRead s 0x3510 0 0 fun w c s =>
    let p := selOf s w.num (dkey 0x3100 0)
    let d := (List.range 4).flatMap fun tc => let x := tgetD (portOf s p).hwm tc (0, 0); leBytes 4 x.1 ++ leBytes 4 x.2
    (rDone, readArray c 8 d, setPort p (fun q => { q with hwm := [] }) s)

/-! ## Wake patterns (R336, R337) -/

/-- A detector reads 24 slots, the first in bit 23 (R336). -/
def execWakePattern (port slots : Nat) (s : State) : Res :=
  need (Nat.blt port 24) .noSuchPort <|
    when_ (wakeReceivers s) s <|
      if bits slots 23 16 == 0xAC && bits slots 15 0 == cfg s 0x3600 1 then
        raiseWake 1 port { bump (dkey 0x3600 3) (2 * port) 1 s with fab := { s.fab with wakePort := port } }
      else bump (dkey 0x3600 3) (2 * port + 1) 1 s

/-- The named port sends a wake code three times and starts a full bring-up (R337). -/
def execWakeSend (s : State) : Res := .next <|
  onWrite s 0x3600 2 2 (fun _ => true) fun _ c s =>
    let p := field c.data 0 1
    if 23 < p then (rRange, s)
    else
      let o : Out := .link p 4 [field c.data 1 2]
      (rDone, (bringDown p s).emits [o, o, o])

end Sys2Proof.Machine
end

