-- ==== Sys2Proof/Machine/Manager.lean ====
section
/-! DEFINITION. The system manager, its standby and its witnesses: election, heartbeats, the journal and failover. -/

namespace Sys2Proof.Machine

/-! ## Messages (R451, R475) -/

/-- The session over which this device answers its manager. -/
def managerSession (s : State) : Option Nat :=
  (s.far.sessions.find? fun x => x.2.path == .fabric && x.2.epoch != 0 && x.2.epoch == s.mgr.epoch).map (·.1)

/-- A NOTICE that the device sends within its manager's session: the device counter rises, and at its end the session closes in
place of sending. -/
def answerNotice (code dest : Nat) (args : List Nat) (s : State) : State :=
  match managerSession s with
  | some n =>
    match tget s.far.sessions n with
    | some x =>
      if x.devCounter == m64 - 1 then closeSession n s
      else (onSession n (fun x => { x with devCounter := x.devCounter + 1 }) s).emit (.notice code dest args)
    | none => s
  | none => s.emit (.notice code dest args)

/-- A manager message with its condition: where it is the record the server runs, that record needs a Platform session and ends with
the message, which does nothing where its condition fails; else it reached the device directly (log 28, DESIGN CHOICE). -/
def byNotice (code : Nat) (ok : Bool) (s : State) (act : State → State) : State :=
  match current s with
  | some (r, c) =>
    if c.code != code then when_ ok s (act s)
    else if !running s then s
    else if (senderOf s r).priv == 3 then finish rDone [] (when_ ok s (act s))
    else finish rDenied [] s
  | none => when_ ok s (act s)

/-! ## Roles (R446, R449, R450) -/

/-- The device is configured as system manager: MGR_ROLE as of the last reset, else the MGR_EN strap. -/
def configuredManager (s : State) : Bool :=
  let r := cfgForce s 0x3700 1
  r == 1 || (r == 0 && s.elec.mgrEnS)

/-- STANDBY, on the system manager. -/
def standbyOf (s : State) : Option Nat :=
  let c := cfg s 0x3701 1
  if c == 0xFFFF then none else some c

/-- The records of an ARRAY of `n`-byte records. -/
def recordsOf (n : Nat) (d : List Byte) : List (List Byte) := (List.range (d.length / n)).map fun i => slice d (n * i) n

def subManagers (s : State) : List Nat := (recordsOf 8 (cfgBytes s (dkey 0x3701 2) 0 0)).map fun r => field r 0 2

/-- Coordinates of the distinct devices among the six neighbours, other than this one. -/
def neighbourDevices (s : State) (c : Nat) : List Nat :=
  ((List.range 6).map (neighbourOf s c)).eraseDups.filter fun d => d != c

/-- The witnesses of R451. -/
def chooseWitnesses (s : State) : List Nat :=
  let notStandby := fun d => standbyOf s != some d
  let subs := (subManagers s).filter notStandby
  if 3 ≤ subs.length then subs
  else match coord s with
    | some c => (neighbourDevices s c).filter notStandby
    | none => []

/-- Sessions of a lower manager epoch close (log 80, DEDUCED). -/
def closeOldSessions (epoch : Nat) (s : State) : State :=
  (s.far.sessions.filter fun x => x.2.epoch != 0 && Nat.blt x.2.epoch epoch).foldl (fun s x => closeSession x.1 s) s

/-- The device learns of a manager epoch: a higher one ends the old sessions and the role of an old manager (R450, R453). -/
def learnEpoch (epoch id : Nat) (s : State) : State :=
  if epoch ≤ s.mgr.epoch then s
  else
    let was := isManager s
    let role := if s.mgr.role == 1 || s.mgr.role == 4 then 0 else s.mgr.role
    let s := closeOldSessions epoch { s with mgr := { s.mgr with epoch := epoch, id := id, role := role } }
    if was then announceAll s else s

/-- The device acts as system manager from now on. -/
def becomeManager (s : State) : State :=
  let s := { s with mgr := { s.mgr with role := 1, id := deviceId, since := s.time.now, lastBeat := s.time.now, acks := [], query := none } }
  rechoose (announceAll { s with mgr := { s.mgr with witnesses := chooseWitnesses s } })

/-- MGR_LOSS × HEARTBEAT_PERIOD. -/
def lossSpan (s : State) : Nat := cfg s 0x3702 2 * cfg s 0x3702 1 * ms

/-- An ANNOUNCE with COORD_VALID has been heard. -/
def heardCoord (s : State) : Bool :=
  (List.range 24).any fun p => match (portOf s p).heard with
    | some h => Hdr.coordValid h
    | none => false

/-- A time has passed since the first port trained. -/
def sinceTrained (s : State) (dur : Nat) : Bool :=
  match s.fab.firstTrained with
  | some t => due s t dur
  | none => false

/-- MANAGER_ELECTION_TIMER: 300 ms after its first port trains, a configured system manager without an ANNOUNCE becomes system manager (R446). -/
def execManagerElectionTimer (s : State) : Res := .next <|
  when_ (running s && configuredManager s && s.mgr.role == 0 && sinceTrained s (300 * ms) && !heardCoord s) s (becomeManager s)

/-- NO_MANAGER_TIMER: 10 s after its first port trains without coordinates, a device records that there is no system manager (R447). -/
def execNoManagerTimer (s : State) : Res := .next <|
  when_ (running s && !s.fab.noManagerSaid && (coord s).isNone && s.mgr.role != 1 && sinceTrained s (10 * sec)) s <|
    record 2 0x3020 0xF hubCode [] { s with fab := { s.fab with noManagerSaid := true } }

/-! ## Heartbeats (R451, R452) -/

/-- Where HEARTBEAT goes: the standby, the witnesses and the sub-managers, each once. -/
def beatTargets (s : State) : List Nat :=
  ((match standbyOf s with
    | some c => [c]
    | none => []) ++ chooseWitnesses s ++ subManagers s).eraseDups

/-- HEARTBEAT_TIMER: every HEARTBEAT_PERIOD the system manager sends HEARTBEAT to the standby and witnesses (R451). -/
def execHeartbeatTimer (s : State) : Res := .next <|
  when_ (running s && s.mgr.role == 1 && due s s.mgr.lastBeat (cfg s 0x3702 1 * ms)) s <|
    let s := { s with mgr := { s.mgr with lastBeat := s.time.now, witnesses := chooseWitnesses s } }
    s.emits ((beatTargets s).map fun d => .notice 0x30 d [s.mgr.epoch, s.mgr.id])

/-- A HEARTBEAT from the system manager at `src`, with its epoch and id, the role it names the receiver for (0 none, 2 standby,
3 sub-manager) and its witnesses (log 28, DESIGN CHOICE). One of an older epoch is not the manager's (R451). -/
def execHeartbeat (src epoch id role : Nat) (witnesses : List Nat) (s : State) : Res := .next <|
  byNotice 0x30 (running s && s.mgr.epoch ≤ epoch && s.mgr.role != 1) s fun s =>
    let s := learnEpoch epoch id s
    let role := if role == 2 || role == 3 then role else 0
    answerNotice 0x31 src []
      { s with mgr := { s.mgr with id := id, role := if s.mgr.role == 4 then 4 else role, witnesses := witnesses, heard := s.time.now, query := none } }

/-- Witnesses that have acknowledged within a span. -/
def acknowledged (s : State) (span : Nat) : Nat :=
  (s.mgr.witnesses.filter fun w => match tget s.mgr.acks w with
    | some t => !due s t span
    | none => false).length

/-- More than half the witnesses acknowledge. -/
def majority (s : State) : Bool := Nat.blt s.mgr.witnesses.length (2 * acknowledged s (lossSpan s))

/-- A stopped manager resumes once more than half of its witnesses acknowledge again (R452). -/
def execHeartbeatAck (src : Nat) (s : State) : Res := .next <|
  byNotice 0x31 (running s && (s.mgr.role == 1 || s.mgr.role == 4)) s fun s =>
    let s := { s with mgr := { s.mgr with acks := tset s.mgr.acks src s.time.now, subHeard := tset s.mgr.subHeard src s.time.now,
                                          subLost := s.mgr.subLost.filter (· != src) } }
    if majority s then
      let t := { s with mgr := { s.mgr with role := 1, since := s.time.now } }
      if isManager s then t else announceAll t
    else s

/-- MANAGER_STOP: A system manager acknowledged by no more than half its witnesses for MGR_LOSS periods stops acting (R452). -/
def execManagerStop (s : State) : Res := .next <|
  when_ (running s && s.mgr.role == 1 && !s.mgr.witnesses.isEmpty && due s s.mgr.since (lossSpan s) && !majority s) s
    (announceAll { s with mgr := { s.mgr with role := 4 } })

/-- A sub-manager that misses heartbeats is lost; the fabric manager serves its box directly (R449). -/
def execSubmanagerLoss (c : Nat) (s : State) : Res := .next <|
  when_ (running s && s.mgr.role == 1 && (subManagers s).contains c && !s.mgr.subLost.contains c
      && due s (tgetD s.mgr.subHeard c s.mgr.since) (lossSpan s)) s <|
    record 2 0x3021 0xF hubCode [c] { s with mgr := { s.mgr with subLost := insertNew s.mgr.subLost c } }

/-! ## Failover (R452, R453) -/

/-- MANAGER_LOSS: the standby has had no HEARTBEAT for MGR_LOSS periods and sends LOSS_QUERY (R452). -/
def execManagerLoss (s : State) : Res := .next <|
  when_ (running s && s.mgr.role == 2 && s.mgr.query.isNone && due s s.mgr.heard (lossSpan s)) s <|
    { s with mgr := { s.mgr with query := some s.time.now } }.emits (s.mgr.witnesses.map fun w => .notice 0x33 w [])

/-- A witness answers whether it has heard a HEARTBEAT within the span: 1 heard, 0 not (R452). -/
def execLossQuery (src : Nat) (s : State) : Res := .next <|
  byNotice 0x33 (running s) s fun s =>
    answerNotice 0x33 src [b2n (s.mgr.role == 1 || !due s s.mgr.heard (lossSpan s))] s

/-- Send a journal record to the standby. -/
def sendJournal (j : Journal) (s : State) : State :=
  match standbyOf s with
  | some d => s.emit (.notice 0x32 d [j.seq, j.target, j.key])
  | none => s

/-- Steps 3 to 6 of a takeover: the epoch rises, every device hears of it, and journal records whose completion has not been seen are
issued again to their targets. -/
def takeOver (s : State) : State :=
  let epoch := (s.mgr.epoch + 1) % m32
  let s := closeOldSessions epoch { s with mgr := { s.mgr with epoch := epoch } }
  let s := (becomeManager s).emit (.notice 0x34 0xFFFF [epoch, deviceId])
  let s := s.emits (s.mgr.journal.map fun j => .notice 0x32 j.target [j.seq, j.target, j.key])
  record 3 0x3023 0xF hubCode [epoch, deviceId] s

/-- The answers of the witnesses (true: heard) are in, or the manager hands its role over. An unsynchronised standby, or fewer than
three witnesses, decides nothing; without a majority the standby waits on (R452). -/
def execLossQueryDecided (answers : List Bool) (handed : Bool) (s : State) : Res := .next <|
  let lost := (answers.filter fun h => !h).length
  let w := s.mgr.witnesses.length
  let takes := s.mgr.standbySync && (handed || (3 ≤ w && Nat.blt w (2 * lost)))
  when_ (running s && s.mgr.role == 2 && (handed || s.mgr.query.isSome) && answers.length ≤ w) s <|
    if takes then takeOver s else { s with mgr := { s.mgr with query := none, heard := s.time.now } }

/-- TAKEOVER: A device receives TAKEOVER and closes sessions of the old manager epoch (R452). -/
def execTakeover (epoch id : Nat) (s : State) : Res := .next <|
  byNotice 0x34 (running s && Nat.blt s.mgr.epoch epoch) s fun s => rechoose (learnEpoch epoch id s)

/-- FAILOVER: the last journal records go out, the standby takes over, and this device becomes standby (R453). -/
def execFailover (s : State) : Res := .next <|
  onWrite s 0x3702 3 3 (fun _ => true) fun _ _ s =>
    match standbyOf s with
    | some d =>
      if s.mgr.role == 1 && s.mgr.standbySync then
        let s := (s.mgr.journal.filter fun j => !j.acked).foldl (fun s j => sendJournal j s) s
        let s := s.emit (.notice 0x33 d [1])
        (rDone, rechoose (announceAll { s with mgr := { s.mgr with role := 2, heard := s.time.now, query := none } }))
      else (rInvalid, s)
    | none => (rInvalid, s)

/-! ## The journal (R451) -/

/-- A JOURNAL record: at the system manager one of its own changes sent to the standby, or the standby's acknowledgement of it; at
the standby one received and acknowledged. The completion of a change removes it (`ack` at the standby) (R451). -/
def execJournal (seq target key : Nat) (data : List Byte) (ack : Bool) (s : State) : Res := .next <|
  let j : Journal := { seq := seq, target := target, key := key, data := data, sentAt := s.time.now }
  byNotice 0x32 (running s && (s.mgr.role == 1 || s.mgr.role == 2)) s fun s =>
    if s.mgr.role == 1 then
      if ack then { s with mgr := { s.mgr with journal := s.mgr.journal.map fun x => if x.seq == seq then { x with acked := true } else x } }
      else sendJournal j { s with mgr := { s.mgr with journal := s.mgr.journal ++ [j], journalSeq := max s.mgr.journalSeq seq } }
    else if ack then { s with mgr := { s.mgr with journal := s.mgr.journal.filter fun x => x.seq != seq } }
    else
      answerNotice 0x32 target [seq, 1]
        { s with mgr := { s.mgr with journal := (s.mgr.journal.filter fun x => x.seq != seq) ++ [{ j with acked := true }],
                                     journalSeq := max s.mgr.journalSeq seq } }

/-- An acknowledgement is late at the system manager; at the standby, its manager has marked it unsynchronised (log 28, DESIGN CHOICE) (R451). -/
def execJournalAckTimeout (seq : Nat) (s : State) : Res := .next <|
  if running s && s.mgr.role == 2 then { s with mgr := { s.mgr with standbySync := false } } else when_ (running s && s.mgr.role == 1 && s.mgr.journal.any fun j => j.seq == seq && !j.acked && due s j.sentAt (1 * ms)) s <|
    record 2 0x3022 0xF hubCode [seq]
      { s with mgr := { s.mgr with standbySync := false, journal := s.mgr.journal.filter fun j => j.seq != seq } }

/-- The copy of the manager's whole state to the standby has ended (R451). -/
def execStandbySynchronised (s : State) : Res := .next <|
  when_ (running s && (s.mgr.role == 1 || s.mgr.role == 2)) s { s with mgr := { s.mgr with standbySync := true } }

end Sys2Proof.Machine
end

