-- ==== Sys2Proof/Machine/Mesh.lean ====
section
/-! DEFINITION. The die-to-die mesh and its routes, dies that fail, the distribution of device time to the islands. -/

namespace Sys2Proof.Machine

/-! ## Links out of service (R24) -/

/-- A die has a mesh link in service. -/
def hasLink (s : State) (die : Nat) : Bool := meshDies.any fun b => linkJoins s s.mesh.out die b

/-! ## Failed dies (R24, R539) -/

/-- A failed die is recorded as handled, with a mask of the endpoints to be fenced. -/
def handled (die eps : Nat) (s : State) : State := record 3 0x2129 0xF die [die, eps] s

/-- An engine die's queues, counters and connection ends are lost; the fabric manager is asked to fence its endpoints. -/
def loseEngine (die : Nat) (s : State) : State :=
  let eps := below 8 fun e => ownerDie s e == die
  let gone := (s.q.wqs.filter fun x => dieOfWq x.1 == die).map (·.1)
  let ends := (s.conn.ends.filter fun x => dieOfEnd x.1 == die).map (·.1)
  let s := dropMembers gone s
  let s := { s with
    q := { s.q with wqs := tkeep s.q.wqs fun k _ => dieOfWq k != die, cqs := tkeep s.q.cqs fun k _ => dieOfCq k != die,
                    ctrs := tkeep s.q.ctrs fun k _ => dieOfCq k != die, turns := tdel s.q.turns die },
             conn := { s.conn with ends := tkeep s.conn.ends fun k _ => dieOfEnd k != die,
                                   arrivals := tkeep s.conn.arrivals fun k _ => !ends.contains (k / m24),
                                   cached := s.conn.cached.filter fun h => !ends.contains h },
                      ar := { s.ar with jobs := s.ar.jobs.filter fun j => j.die != die },
                             xl := { s.xl with invals := tkeep s.xl.invals fun _ i => !gone.contains i.wq } }
  let s := s.emit (.notice 0x21 0xFFFF (die :: eps))
  handled die (eps.foldl (fun m e => m + 2 ^ e) 0) (settleWaits s)

/-- A port die's ports are not live; tree traffic of its stripes is dropped and counted. -/
def losePorts (die : Nat) (s : State) : State :=
  let q := die - 0x10
  let n := (tgetD s.fab.treeIn q []).length
  let s := (List.range 6).foldl (fun s k => bringDown (6 * q + k) s) s
  let s := if n == 0 then s else countDrops n s
  let s := { s with
    fab := { s.fab with treeIn := tdel s.fab.treeIn q, waiting := tdel s.fab.waiting q },
    conn := { s.conn with ends := tkeep s.conn.ends fun h _ => dieOfEnd h != die },
    ar := { s.ar with edges := tkeep s.ar.edges fun k _ => k / 2 ^ 14 != q, slots := s.ar.slots.filter fun x => x.die != q } }
  handled die 0 s
where countDrops (n : Nat) (s : State) : State := bump (dkey 0x3030 (die - 0x10 + 1)) dropTree n s

/-- An attach die fails: a host-domain reset of its link, and its four ports stay isolated. -/
def loseAttach (die : Nat) (s : State) : State :=
  let link := die - 0x20
  let s := hostReset link 1 s
  handled die 0 ((List.range 4).foldl (fun s i => isolate (4 * link + i) false s) s)

/-- What the mesh carries over a die, to it or from it, and what waits there for a fill, is lost with it (R24; log 97, DESIGN CHOICE). -/
def loseTraffic (die : Nat) (s : State) : State :=
  { s with
    mesh := { s.mesh with carry := s.mesh.carry.filter (fun c => !c.route.contains die),
                          held := s.mesh.held.filter fun c => c.src != die && c.dst != die },
    fab := { s.fab with waiting := tmap s.fab.waiting fun _ l => l.filter fun q => !q.via.contains die },
    conn := { s.conn with waitFill := s.conn.waitFill.filter fun c => c.dst != die } }

/-- A die is marked failed. -/
def failDie (die : Nat) (s : State) : State :=
  if s.mesh.failed.contains die then s
  else
    let s := rebuildPattern (record 3 0x2002 0xF die [die] { s with mesh := { s.mesh with failed := insertNew s.mesh.failed die } })
    let s := loseTraffic die s
    if die < 8 then loseEngine die s
    else if die < 0x14 then losePorts die s
    else if die < 0x22 then loseAttach die s
    else if die == hubCode then handled die 0 { s with elec := { s.elec with alert := true } }
    else
      let l := 2 * (die - 0x50)
      handled die 0 { s with mesh := { s.mesh with out := insertNew (insertNew s.mesh.out l) (l + 1), switching := true } }

/-- A link goes out of service; a die left with none fails. -/
def linkOut (link : Nat) (s : State) : State :=
  let (a, b) := (meshLinks[link]?).getD (0, 0)
  let s := { s with mesh := { s.mesh with out := insertNew s.mesh.out link, switching := true } }
  let s := rebuildPattern (record 3 0x2001 0xF (bgCode (link / 2)) [link / 2, link] s)
  [a, b].foldl (fun s d => if hasLink s d then s else failDie d s) s

/-- A mesh link works on this grade and is in service. -/
def linkServes (s : State) (link : Nat) : Bool :=
  let (a, b) := (meshLinks[link]?).getD (0, 0)
  populated s a && populated s b && !s.mesh.out.contains link

/-- MESH_LINK_OUT_OF_SERVICE: A mesh link loses lanes beyond its repair lanes or stops training; the device takes it out of service, writes an event record and recomputes every mesh route (R24). -/
def execMeshLinkOutOfService (link : Nat) (s : State) : Res :=
  need (Nat.blt link 18) .noSuchMeshLink <| when_ (hubUp s && linkServes s link) s (linkOut link s)

/-- The packets on the old routes have been taken and the frames have reached their port dies; what waited sets out on the recomputed routes
(R24). -/
def execMeshRouteSwitch (s : State) : Res := .next <|
  when_ (hubUp s && s.mesh.switching && s.mesh.carry.isEmpty) s <|
    let t := landFrames (fun _ => true) { s with mesh := { s.mesh with usedOut := s.mesh.out, switching := false, held := [] } }
    s.mesh.held.foldl (fun s c => embark c s) t

/-! ## The distribution word (R27, R28) -/

/-- The master's word of device time t, 1,024 ns or more after the last; time has come to t (R27). -/
def execDistributionWord (t : Nat) (s : State) : Res := .next <|
  when_ (serving s && s.time.now ≤ t && s.time.lastWord + 1024 ≤ t && t < m64) s <|
    { s with time := { s.time with now := t, lastWord := t } }.emit (.distribution t)

/-- The word reaches an island whose copy is `off` ps behind its compensated value: within 2 ns the island is no longer suspect; beyond, its
copy steps to that value (R27, R28). -/
def execDistributionWordArrival (island : Nat) (off : Int) (s : State) : Res :=
  need (Nat.blt island 208) .noSuchIsland <|
    when_ (serving s && populated s (dieOfIsland island)) s <|
      let x := tgetD s.time.islands island {}
      let set := fun (y : Island) (s : State) => { s with time := { s.time with islands := tset s.time.islands island y } }
      let value : Int := (1000 * s.time.lastWord + x.delay : Nat)
      if off.natAbs ≤ 2000 then set { x with suspect := false, copy := value - off } s
      else
        let steps := (x.steps.filter fun t => !due s t sec) ++ [s.time.now]
        let worn := Nat.blt 16 steps.length
        let s' := set { x with copy := value, suspect := true, steps := steps, degraded := x.degraded || worn } s
        let s' := record 3 0x2003 0xF (dieOfIsland island) [island, (off % (m64 : Int)).toNat] s'
        if worn && !x.degraded then rebuildPattern s' else s'

end Sys2Proof.Machine
end

