-- ==== Sys2Proof/Machine/Security.lean ====
section
/-! DEFINITION. Keys, fused slots, firmware images, anti-rollback, measurement, attestation and debug authorisation. -/

namespace Sys2Proof.Machine

/-! ## Small parts -/

/-- Count in SEC_COUNTS: 0 tag failures, 1 images refused, 2 enrollments refused, 3 debug failures, 4 attestation reports, 5 recovery
entries (R476). -/
def countSec (i : Nat) (s : State) : State := bump (dkey 0x9050 0) i 1 s

/-- A slot of class 0 vendor or 1 owner; the vendor slots are written at manufacture (R460). -/
def keySlot (s : State) (cls slot : Nat) : KeySlot :=
  tgetD s.sec.slots (4 * cls + slot) (if cls == 0 then { state := 1, digest := Config.vendorKey slot } else {})

def slotActive (s : State) (cls slot : Nat) : Bool := slot < 4 && (keySlot s cls slot).state == 1

/-- DEVICE_ID as the signed messages carry it (log 29, DESIGN CHOICE). -/
def idBytes : List Byte := leBytes 8 deviceId

def byteOf (n : Nat) : Byte := BitVec.ofNat 8 n

/-- The sideband and the in-band host mailbox, the paths of R457 and R461. -/
def trustedPath (p : FPath) : Bool :=
  match p with
  | .sideband => true
  | .mailbox _ => true
  | .segment => false
  | .accelMailbox _ => false
  | .fabric => false

/-! ## Staged records (R418) -/

/-- Run the record under way where it is a WRITE piece of a staged record: `len` reads the record's length from its first piece, `piece`
sees what is held after each piece, `act` the whole record. -/
def onStaged (s : State) (i n : Nat) (len : List Byte → Option Nat) (piece : List Byte → State → State)
    (act : Sender → List Byte → State → Nat × State) : State :=
  match current s with
  | some (r, c) =>
    if serving s && c.code == cWrite && c.index == i && c.sub == n then
      match entryAt i n with
      | some e =>
        let w := senderOf s r
        let key := dkey i n
        let held := (tget s.far.sessions w.num).bind fun x => x.staged
        if shutOut s i n || !reach w e n false then (finish rDenied [] s)
        else
          let take := fun (total : Nat) (d : List Byte) =>
            if total == d.length then
              let s := onSession w.num (fun x => { x with staged := none }) (piece d s)
              let (res, t) := act w d s
              finish res [] t
            else
              finish rDone [] (onSession w.num (fun x => { x with staged := some { key := key, total := total, data := d, last := s.time.now } }) (piece d s))
          match held with
          | some g =>
            if g.key != key then (finish rBusy [] s)
            else if c.offset == g.data.length && c.length == c.data.length && c.data.length != 0 && Nat.ble (g.data.length + c.data.length) g.total then
              (take g.total (g.data ++ c.data))
            else (finish rLength [] (dropStaged w.num s))
          | none =>
            match len c.data with
            | some total =>
              if c.offset == 0 && c.length == c.data.length && Nat.ble c.data.length total then (take total c.data)
              else (finish rLength [] s)
            | none => (finish rLength [] s)
      | none => (finish rNoEntry [] s)
    else s
  | none => s

/-! ## Privilege keys (R457) -/

/-- The 15 privilege keys in KEY_EPOCH order. -/
def privilegeKeys (s : State) : List (BitVec 256) :=
  [privKey s 3 0xFF, privKey s 2 0xFF, privKey s 4 0xFF] ++ (List.range 12).map fun p => privKey s 1 p

/-- A read of KEY_EXPORT: on the sideband or the host mailbox, in a Platform session, or in session 0 while PROVISIONED is 0 (R457). -/
def execKeyExport (s : State) : Res := .next <|
  match current s with
  | some (r, c) =>
    if serving s && c.code == cRead && c.index == 0x9030 && c.sub == 2 then
      let w := senderOf s r
      if !shutOut s 0x9030 2 && trustedPath w.path && (w.priv == 3 || (w.num == 0 && !s.sec.provisioned)) then
        (finish rDone (readArray c 32 ((privilegeKeys s).flatMap digestBytes)) s)
      else (finish rDenied [] s)
    else s
  | none => s

/-- PROVISIONED is a stored entry: its change is committed as one (R424, R457). -/
def execProvisionDone (s : State) : Res := .next <|
  onWrite s 0x9030 4 4 (fun _ => true) fun _ _ s => (rDone, markStored { s with sec := { s.sec with provisioned := true } })

/-- Elements of an ARRAY of `k` elements of `n` bytes that a write touches: the whole at offset 0, else those from the offset (R417). -/
def touched (c : Cmd) (n k : Nat) : Option (List Nat) :=
  if c.offset == 0 then if arrayCount c.data == k then some (List.range k) else none
  else if c.offset + c.length ≤ n * k then some ((List.range (c.length / n)).map fun i => c.offset / n + i)
  else none

/-- A write to an element increments it, whatever the value written; the entry is stored (R457). -/
def execKeyEpoch (s : State) : Res := .next <|
  onWrite s 0x9030 1 1 (fun _ => true) fun _ c s =>
    match touched c 4 15 with
    | some es =>
      (rDone, markStored { s with sec := { s.sec with epochs := es.foldl (fun t i => tmodD t i 0 fun x => (x + 1) % m32) s.sec.epochs } })
    | none => (rLength, s)

/-! ## Owner and vendor slots (R460 to R463) -/

def burnSlot (cls slot : Nat) (k : KeySlot) (s : State) : State :=
  { s with sec := { s.sec with slots := tset s.sec.slots (4 * cls + slot) k } }

/-- An enrollment into an empty slot set clears PROVISIONED (R457). -/
def enroll (slot : Nat) (d : BitVec 256) (s : State) : State :=
  let first := (List.range 4).all fun i => (keySlot s 1 i).state == 0
  let s := burnSlot 1 slot { state := 1, digest := d } (if first && s.sec.provisioned then markStored s else s)
  { s with sec := { s.sec with ownerEver := true, provisioned := s.sec.provisioned && !first } }

/-- OWNER_ENROLL: an owner slot is enrolled after its signature and path are checked (R461). -/
def execOwnerEnroll (s : State) : Res := .next <|
  onStaged s 0x9000 2 (fun d => if d.length < 34 then none else some (if field d 33 1 == 0xFF then 34 else 2454)) (fun _ s => s) fun w d s =>
    let slot := field d 0 1
    let auth := field d 33 1
    let digest := BitVec.ofNat 256 (field d 1 32)
    let bad := fun (s : State) => (rInvalid, countSec 2 s)
    if 3 < slot || (keySlot s 1 slot).state != 0 then bad s
    else if auth == 0xFF then
      if s.sec.ownerEver || !trustedPath w.path then bad s else (rDone, enroll slot digest s)
    else if slotActive s 1 auth &&
        Config.mldsaVerify (keySlot s 1 auth).digest (ascii "KZ-ENROLL" ++ idBytes ++ [byteOf slot] ++ digestBytes digest) (d.drop 34) then
      (rDone, enroll slot digest s)
    else bad s

/-- Slots whose signature firmware may carry: owner slots only under R463. -/
def maySign (s : State) (cls slot : Nat) : Bool := slotActive s cls slot && (cls == 1 || !s.sec.ownerExclusive)

/-- SLOT_REVOKE: A key slot is revoked after its signature is checked (R462). -/
def execSlotRevoke (s : State) : Res := .next <|
  onStaged s 0x9000 3 (fun _ => some 2423) (fun _ s => s) fun _ d s =>
    let cls := field d 0 1
    let slot := field d 1 1
    let by_ := field d 2 1
    let left := (List.range 8).any fun i => i != 4 * cls + slot && maySign s (i / 4) (i % 4)
    if cls < 2 && slot < 4 && by_ != slot && slotActive s cls by_ && left &&
        Config.mldsaVerify (keySlot s cls by_).digest (ascii "KZ-REVOKE" ++ idBytes ++ [byteOf cls, byteOf slot]) (d.drop 3) then
      (rDone, burnSlot cls slot { (keySlot s cls slot) with state := 2 } s)
    else (rInvalid, s)

/-- A fuse cannot be undone: a write of 0 leaves it as it is (log 29, DESIGN CHOICE) (R463). -/
def execOwnerExclusive (s : State) : Res := .next <|
  onWrite s 0x9000 4 4 (fun _ => true) fun _ c s =>
    if ofLe c.data == 0 then (rDone, s)
    else if (List.range 4).all fun i => !slotActive s 1 i then (rInvalid, s)
    else (rDone, markStored { s with sec := { s.sec with ownerExclusive := true } })

/-! ## Images (R464 to R467) -/

abbrev Head := BitVec 1024

def imageHead (d : List Byte) : Head := BitVec.ofNat 1024 (field d 0 128)
def Head.kind (h : Head) : Nat := fld h 983 976
def Head.cls (h : Head) : Nat := fld h 975 968
def Head.slot (h : Head) : Nat := fld h 967 960
def Head.svn (h : Head) : Nat := fld h 959 944
def Head.version (h : Head) : Nat := fld h 943 912
def Head.bodyLength (h : Head) : Nat := fld h 911 880
def Head.bodyDigest (h : Head) : BitVec 256 := BitVec.ofNat 256 (fld h 767 512)
def Head.bindId (h : Head) : Nat := fld h 511 448

/-- Check 1 of R465: the head is valid and of the kind expected, and the image has the length it names. -/
def headOk (h : Head) (kind len : Nat) : Bool :=
  fld h 1023 992 == 0x57465A4B && fld h 991 984 == 1 && Head.bodyLength h ≤ 33554432 && len == 4096 + Head.bodyLength h
    && Head.svn h ≤ 63 && Head.kind h == kind

/-- Check 2: the key is that of an active slot, under R463 an owner's. -/
def signerOk (s : State) (h : Head) (d : List Byte) : Bool :=
  Head.cls h < 2 && slotActive s (Head.cls h) (Head.slot h) &&
    Config.sha3 (slice d 128 1312) == (keySlot s (Head.cls h) (Head.slot h)).digest &&
    (Head.kind h == 6 || !s.sec.ownerOnly || Head.cls h == 1)

/-- The checks of R465 at a value of the security counter (log 79, DEDUCED). -/
def verifyAt (s : State) (kind counter : Nat) (d : List Byte) : Bool :=
  let h := imageHead d
  headOk h kind d.length && signerOk s h d &&
    Config.mldsaVerify (keySlot s (Head.cls h) (Head.slot h)).digest (slice d 0 1440) (slice d 1440 2420) &&
    Config.sha3 (d.drop 4096) == Head.bodyDigest h && (kind == 6 || Nat.ble counter (Head.svn h)) &&
    (Head.bindId h == 0 || Head.bindId h == deviceId)

def svnFused (s : State) (kind : Nat) : Nat := tgetD s.sec.svn kind 0

def verifyImage (s : State) (kind : Nat) (d : List Byte) : Bool := verifyAt s kind (svnFused s kind) d

/-- A bank; one never written holds what it held at manufacture. -/
def bankOf (s : State) (kind bank : Nat) : ImageBank :=
  tgetD s.sec.banks (2 * kind + bank) { data := Config.flashImage (2 * kind + bank) }

def setBank (kind bank : Nat) (f : ImageBank → ImageBank) (s : State) : State :=
  { s with sec := { s.sec with banks := tset s.sec.banks (2 * kind + bank) (f (bankOf s kind bank)) } }

def kindOk (k : Nat) : Bool := 1 ≤ k && k ≤ 5

/-- The bank that is not running for a kind; bank A when neither runs (R466, R471). -/
def targetBank (s : State) (kind : Nat) : Nat := if (bankOf s kind 0).state == 4 then 1 else 0

/-- A bank takes an image and is being verified. -/
def fillBank (kind : Nat) (d : List Byte) (s : State) : State :=
  let h := imageHead d
  setBank kind (targetBank s kind) (fun b => { b with
    state := 1, data := d, version := Head.version h, svn := Head.svn h, signerClass := Head.cls h, signerSlot := Head.slot h }) s

def verifying (s : State) (kind : Nat) : Bool := (bankOf s kind 0).state == 1 || (bankOf s kind 1).state == 1

/-- IMAGE_WRITE from device memory: the image is copied into the bank not running and verified there. -/
def imageFromMemory (s : State) : State :=
  onWrite s 0x9010 2 2 (fun _ => true) fun _ c s =>
    let kind := field c.data 0 1
    if !kindOk kind then (rInvalid, s)
    else if verifying s kind then (rBusy, s)
    else
      let (d, s) := deviceBytes (field c.data 1 4) (field c.data 5 8) (field c.data 13 4) s
      (rDone, fillBank kind (d.getD []) s)

/-- A staged image's pieces stand in the bank as they come; 5 is a bank that holds part of an image. -/
def stagePiece (d : List Byte) (s : State) : State :=
  let kind := field d 0 1
  if kindOk kind && !verifying s kind then setBank kind (targetBank s kind) (fun b => { b with state := 5, data := d.drop 8 }) s else s

/-- IMAGE_WRITE in recovery (R471). -/
def imageStaged (s : State) : State :=
  onStaged s 0x9010 2 (fun d => if d.length < 8 then none else some (8 + field d 4 4)) stagePiece fun _ d s =>
    let kind := field d 0 1
    let img := d.drop 8
    if !kindOk kind then (rInvalid, s)
    else if verifying s kind then (rBusy, s)
    else if img.length != 4096 + Head.bodyLength (imageHead img) || 33558528 < img.length then (rInvalid, spoilBank s)
    else (rDone, fillBank kind img s)

/-- IMAGE_WRITE: A firmware image is copied into the non-running bank and verified, or in recovery received in staged pieces (R466). -/
def execImageWrite (s : State) : Res := .next <| if s.sec.recovery then imageStaged s else imageFromMemory s

/-- Verification of a bank ends (R465). -/
def execImageVerified (kind bank : Nat) (s : State) : Res := .next <|
  let b := bankOf s kind bank
  when_ (serving s && kindOk kind && bank < 2 && b.state == 1) s <|
    if verifyImage s kind b.data then setBank kind bank (fun b => { b with state := 2 }) s
    else countSec 1 (setBank kind bank (fun b => { b with state := 3 }) s)

/-- A bank is preferred from the next warm reset on; the other of its kind no longer is (R466). -/
def execImageActivate (s : State) : Res := .next <|
  onWrite s 0x9010 3 3 (fun _ => true) fun _ c s =>
    let kind := field c.data 0 1
    let bank := field c.data 1 1
    if !kindOk kind || 1 < bank then (rInvalid, s)
    else (rDone, setBank kind (1 - bank) (fun b => { b with preferred := false }) (setBank kind bank (fun b => { b with preferred := true }) s))

/-- The bank of a kind that runs. -/
def runningBank (s : State) (kind : Nat) : Option ImageBank := ([0, 1].map (bankOf s kind)).find? fun b => b.state == 4

/-- ROLLBACK_COMMIT: the security counter of a kind is raised to the running image's SVN (R467). -/
def execRollbackCommit (s : State) : Res := .next <|
  onWrite s 0x9010 5 5 (fun _ => true) fun _ c s =>
    let kind := ofLe c.data
    match runningBank s kind with
    | some b =>
      if kindOk kind && ([0, 1].all fun i => verifyAt s kind (max b.svn (svnFused s kind)) (bankOf s kind i).data) then
        (rDone, { s with sec := { s.sec with svn := tset s.sec.svn kind (max b.svn (svnFused s kind)) } })
      else (rInvalid, s)
    | none => (rInvalid, s)

/-- Verification of a loaded user kernel ends (R257, R266, R472). -/
def execKernelVerified (kernel : Nat) (s : State) : Res := .next <|
  match tget s.ar.images kernel with
  | some (key, addr, len) =>
    if running s && tgetD s.ar.kernels kernel .empty == .verifying then
      let (d, s) := deviceBytes key addr len s
      let img := d.getD []
      -- a user kernel has at most 64 KiB of code (R262)
      if verifyImage s 6 img && Nat.ble (img.length - 4096) 65536 then
        (extendMeasure 6 (Config.sha3 (slice img 0 1440))
          { s with ar := { s.ar with kernels := tset s.ar.kernels kernel .resident, code := tset s.ar.code kernel (img.drop 4096) } })
      else (countSec 1 { s with ar := { s.ar with kernels := tset s.ar.kernels kernel .refused } })
    else s
  | none => s

/-! ## Measurement and attestation (R472, R473) -/

/-- MEASURE_EXTEND: fabric firmware extends a measurement register 8 to 15 (R472). -/
def execMeasureExtend (s : State) : Res := .next <|
  onWrite s 0x9020 2 2 (fun _ => true) fun _ c s =>
    let m := field c.data 0 1
    if m < 8 || 15 < m then (rInvalid, s) else (rDone, extendMeasure m (BitVec.ofNat 256 (field c.data 1 32)) s)

/-- The head of a report (R473). -/
def reportHead (s : State) (nonce mask count : Nat) : Nat :=
  pack [(768, nonce), (704, deviceId), (640, s.time.now), (576, count), (560, mask), (544, s.grade), (536, 0xB0), (528, s.sec.debug),
        (488, (List.range 5).foldl (fun a i => a + svnFused s (i + 1) * 2 ^ (8 * i)) 0),
        (480, b2n s.sec.ownerExclusive + 2 * b2n (suspectAt s (firstIsland hubCode + 20)) + 4 * b2n s.sec.recovery),
        (224, (ownerDigest s).toNat), (0, 0x52415A4B)]

/-- The report of a nonce and mask: head, selected registers, signature. -/
def reportOf (s : State) (nonce mask count : Nat) : List Byte :=
  let m := leBytes 128 (reportHead s nonce mask count) ++ (maskBits 16 mask).flatMap fun i => digestBytes (tgetD s.sec.measure i 0)
  m ++ Config.mldsaSign m

/-- ATTEST_REQ: an attestation request produces a signed report in ATTEST_REPORT (R473). -/
def execAttestReq (s : State) : Res := .next <|
  onWrite s 0x9020 3 3 (fun _ => true) fun w c s =>
    if !s.sec.randomOk || s.sec.reportCount == m64 - 1 then (rNoResource, s)
    else
      let n := s.sec.reportCount + 1
      let rep := reportOf s (field c.data 0 32) (field c.data 32 2) n
      (rDone, countSec 4 (onSession w.num (fun x => { x with report := rep }) { s with sec := { s.sec with reportCount := n } }))

/-! ## Debug (R474) -/

/-- A fresh nonce replaces any the session still has open (R474). -/
def execDebugChallenge (s : State) : Res := .next <|
  onRead s 0x9040 1 1 fun w c s =>
    let (n, s) := drawBytes 32 s
    (rDone, readSpan c n, onSession w.num (fun x => { x with nonce := some (n, s.time.now) }) s)

/-- DEBUG_CHALLENGE_EXPIRY: A debug nonce reaches 60 s and is retired (R474). -/
def execDebugChallengeExpiry (session : Nat) (s : State) : Res := .next <|
  let late := match (tget s.far.sessions session).bind fun x => x.nonce with
    | some (_, t) => due s t (60 * sec)
    | none => false
  when_ (serving s && late) s (onSession session (fun x => { x with nonce := none }) s)

/-- Scope 1 needs an active owner slot, scope 2 an active vendor slot; any failure retires the nonce (R474). -/
def execDebugResponse (s : State) : Res := .next <|
  onStaged s 0x9040 2 (fun _ => some 2422) (fun _ s => s) fun w d s =>
    let scope := field d 0 1
    let slot := field d 1 1
    let cls := if scope == 1 then 1 else 0
    let nonce := (tget s.far.sessions w.num).bind fun x => x.nonce
    let s := onSession w.num (fun x => { x with nonce := none }) s
    if scope == 2 && s.sec.ownerExclusive then (rDenied, countSec 3 s)
    else
      match nonce with
      | some (n, t) =>
        if (scope == 1 || scope == 2) && !due s t (60 * sec) && slotActive s cls slot &&
            Config.mldsaVerify (keySlot s cls slot).digest (ascii "KZ-DEBUG" ++ idBytes ++ [byteOf scope] ++ n) (d.drop 2) then
          (rDone, extendMeasure 0 (Config.sha3 (ascii "KZ-DEBUG" ++ [byteOf scope])) { s with sec := { s.sec with debug := max s.sec.debug scope } })
        else (rInvalid, countSec 3 s)
      | none => (rInvalid, countSec 3 s)

/-- The random source's health test fails (R459). -/
def execRandomSourceFailure (s : State) : Res := .next <|
  when_ (serving s && s.sec.randomOk) s (record 4 0x9003 0xF hubCode [] { s with sec := { s.sec with randomOk := false } })

end Sys2Proof.Machine
end

