-- ==== Sys2Proof/Machine/Meter.lean ====
section
/-! DEFINITION. The metering die: the counter feed, attribution, signed records, storage and read-out, power loss, the seal. -/

namespace Sys2Proof.Machine

/-! ## The hub's side of the feed (R479) -/

/-- Count in METER_COUNTS: 0 frames accepted, 1 CRC failures, 2 gaps, 3 restarts, 4 feed losses, 5 power losses, 6 overflow intervals,
7 requests discarded (R493). -/
def countMeter (i : Nat) (s : State) : State := bump (dkey 0xA020 0) i 1 s

def PState.code (x : PState) : Nat :=
  match x with
  | .off => 0
  | .up => 1
  | .resetting => 2

/-- The feed frame the hub sends now. -/
def feedFrame (s : State) : Feed :=
  { epoch := s.mtr.feedEpoch, number := s.mtr.feedNumber, time := s.time.now, suspect := suspectAt s (firstIsland hubCode + 18),
    states := (List.range 12).map fun p => (partOf s p).state.code,
    fabric := (List.range 12).map fun p => tgetD s.mtr.fabricBytes p 0 % m64,
    host := (List.range 12).map fun p => tgetD s.mtr.hostBytes p 0 % m64, crcOk := true }

/-- Every millisecond, in every power state, while the management cores run (R479, R526). -/
def execFeedFrame (s : State) : Res := .next <|
  when_ (hubUp s && s.pow.boot == 0 && s.pow.warm == 0 && s.time.now % ms == 0) s <|
    { s with mtr := { s.mtr with feedNumber := s.mtr.feedNumber + 1 } }.emit (.feed (feedFrame s))

/-- A new feed epoch at a reset of the hub: the counts start at 0. -/
def newFeed (s : State) : State :=
  let (e, s) := draw s
  { s with mtr := { s.mtr with feedEpoch := e % m64, feedNumber := 0, fabricBytes := [], hostBytes := [] } }

/-! ## Measuring (R477, R480, R482) -/

def setMtr (f : MtrSt → MtrSt) (s : State) : State := { s with mtr := f s.mtr }

def onMetered (f : Metered → Metered) (s : State) : State := setMtr (fun x => { x with m := f x.m }) s

/-- Flags of the open interval: bits of FLAGS (R483). -/
def setMFlag (i : Nat) (s : State) : State := onMetered (fun m => { m with flags := if bit m.flags i then m.flags else m.flags + 2 ^ i }) s

/-- MTR's sensing and clock move on; the entries of absent rails read zero (R478). -/
def sense (x : Sensed) (s : State) : State :=
  let rail := fun i => if railPopulated s i then nth x.rails i else 0
  let add : Tab Nat := (List.range 18).foldl (fun (t : Tab Nat) i => tmodD t i 0 (· + rail i)) s.mtr.m.rails
  let e := ((List.range 18).map rail).foldl (· + ·) 0
  setMtr (fun y => { y with
    clock := y.clock + x.dt, power := x.mean,
    m := { y.m with energy := y.m.energy + e, rails := add, elapsed := y.m.elapsed + x.dt, peak := max y.m.peak x.mean } }) s

def mpart (t : Tab MPart) (p : Nat) : MPart := tgetD t p {}

/-- Attribute one frame to the partitions: the time since the last accepted one to those Up in both, the bytes over the baseline. -/
def creditFrame (up : Nat → Bool) (dt : Nat) (fabric host : Nat → Nat) (s : State) : State :=
  let s := onMetered (fun m => { m with
    parts := (List.range 12).foldl (fun (t : Tab MPart) p => tmodD t p {} fun x =>
      { active := (x.active + if up p then dt else 0) % m64, fabric := (x.fabric + fabric p) % m64, host := (x.host + host p) % m64 }) m.parts }) s
  if (List.range 12).any up then s else onMetered (fun m => { m with unattributed := m.unattributed + dt }) s

/-! ## Records (R483 to R487) -/

/-- mJ of package energy since manufacture. -/
def milli (e : Nat) : Nat := e / 1000 % m64

/-- ENERGY_SHARE of partition p, in J: E mJ, its active time a of A and bytes b of B (R485). -/
def energyShare (e a aa b bb : Nat) : Nat :=
  if aa == 0 then 0
  else if bb == 0 then e * a / (aa * 1000)
  else e * (a * bb + b * aa) / (2 * aa * bb * 1000)

/-- The partition blocks of a record: cumulative values and share. -/
def recordParts (m : Metered) : List (MPart × Nat) :=
  let d := fun p (g : MPart → Nat) => (g (mpart m.parts p) + (m64 - g (mpart m.startParts p) % m64)) % m64
  let a := fun p => d p (·.active)
  let b := fun p => d p (·.fabric) + d p (·.host)
  let total := fun (g : Nat → Nat) => ((List.range 12).map g).foldl (· + ·) 0
  let e := milli m.energy - milli m.startEnergy
  (List.range 12).map fun p => (mpart m.parts p, energyShare e (a p) (total a) (b p) (total b))

/-- The body of a record (R483, R484). -/
def recordBody (r : MRecord) : List Byte :=
  leBytes 128 (pack [(992, 0x4D525A4B), (984, 1), (976, r.event), (960, r.flags), (896, r.seq), (832, Config.fused 2), (768, deviceId),
      (704, r.start), (640, r.stop), (576, r.elapsed), (512, r.energy), (480, r.peak), (448, r.audit), (192, r.prev.toNat), (160, r.fw),
      (128, r.cal), (96, r.unattributed)]) ++
    r.parts.flatMap fun x => leBytes 32 (pack [(192, x.1.active), (128, x.1.fabric), (64, x.1.host), (32, x.2)])

def recordBytes (r : MRecord) : List Byte := recordBody r ++ r.sig

/-- Every slot holds an uncollected record. -/
def slotsFull (s : State) : Bool := 4096 ≤ s.mtr.records.length && s.mtr.records.all fun r => !r.collected

/-- Store a record over the oldest collected one where no slot is free. -/
def storeRecord (l : List MRecord) (r : MRecord) : List MRecord :=
  if l.length < 4096 then l ++ [r]
  else match l.find? fun x => x.collected with
    | some x => (l.filter fun y => y.seq != x.seq) ++ [r]
    | none => l

/-- Device time of MTR's last accepted frame, 0 during feed loss. -/
def lastTime (s : State) : Nat :=
  match s.mtr.last with
  | some f => if s.mtr.feedLoss then 0 else f.time
  | none => 0

/-- Close the open interval with an event and begin the next; with no slot free it goes on instead, with OVERFLOW (R487). -/
def closeInterval (event : Nat) (s : State) : State :=
  if slotsFull s then
    if bit s.mtr.m.flags 5 then s else countMeter 6 (setMFlag 5 s)
  else
    let m := s.mtr.m
    let flags := m.flags - (if bit m.flags 4 then 16 else 0) - (if bit m.flags 7 then 128 else 0)
      + (if s.mtr.sealOpen then 16 else 0) + (if s.mtr.audit == m32 - 1 then 128 else 0)
    let prev := match s.mtr.records.getLast? with
      | some r => Config.sha3 (recordBytes r)
      | none => 0
    let r : MRecord :=
      { event := event, flags := flags, seq := s.mtr.nextSeq, start := m.start, stop := lastTime s, elapsed := m.elapsed, energy := milli m.energy,
        peak := m.peak, audit := s.mtr.audit, prev := prev, fw := s.mtr.fw, cal := s.mtr.cal, unattributed := m.unattributed / ms,
        parts := recordParts m, sig := [] }
    let r := { r with sig := Config.meterSign (recordBody r) }
    setMtr (fun x => { x with
      records := storeRecord x.records r, nextSeq := x.nextSeq + 1,
      m := { m with start := lastTime s, elapsed := 0, startEnergy := m.energy, startParts := m.parts, flags := 0, peak := 0, unattributed := 0 } }) s

/-- The next boundary of the open interval (R482); past one that found no slot free, the next after the last accepted frame (R487). -/
def boundary (s : State) : Nat :=
  let from_ := if bit s.mtr.m.flags 5 then max s.mtr.m.start (lastTime s) else s.mtr.m.start
  (from_ / (s.mtr.interval * sec) + 1) * (s.mtr.interval * sec)

/-- Device time and MTR's clock have moved more than 1 ms apart within the interval (R480). -/
def clockApart (s : State) (t : Nat) : Bool :=
  let m := s.mtr.m
  m.start != 0 && (Nat.blt (m.start + m.elapsed + ms) t || Nat.blt (t + ms) (m.start + m.elapsed))

/-- A frame whose CRC holds (R480): attribution, its flags, and the end of an interval whose boundary it has reached. -/
def acceptFrame (f : Feed) (s : State) : State :=
  let dt := s.mtr.clock - s.mtr.lastFrameAt
  let due := boundary s
  let s := countMeter 0 s
  let s := match s.mtr.last with
    | none => creditFrame (fun _ => false) dt (fun _ => 0) (fun _ => 0) s
    | some l =>
      if l.epoch != f.epoch then
        creditFrame (fun _ => false) dt (nth f.fabric) (nth f.host) (countMeter 3 (setMFlag 1 s))
      else if s.mtr.feedLoss then creditFrame (fun _ => false) dt (fun _ => 0) (fun _ => 0) s
      else
        let up := fun p => nth l.states p == 1 && nth f.states p == 1
        let gap := f.number != l.number + 1
        let s := if gap then countMeter 2 s else s
        let s := if gap && !(List.range 12).any up then setMFlag 0 s else s
        let gain := fun (a b : List Nat) p => (nth a p + (m64 - nth b p % m64)) % m64
        creditFrame up dt (gain f.fabric l.fabric) (gain f.host l.host) s
  let s := setMtr (fun x => { x with last := some f, lastFrameAt := x.clock, feedLoss := false }) s
  let s := if f.suspect || clockApart s f.time then setMFlag 6 s else s
  if due ≤ f.time then closeInterval 0 s else s

/-- A feed frame reaches MTR, with what MTR has sensed since its last event (R480). -/
def execFeedFrameAccepted (f : Feed) (x : Sensed) (s : State) : Res := .next <|
  when_ s.mtr.powered s <|
    let s := sense x s
    if f.crcOk then acceptFrame f s else countMeter 1 s

/-- FEED_LOSS: no feed frame arrives for 100 ms and MTR enters feed loss (R480). -/
def execFeedLoss (x : Sensed) (s : State) : Res := .next <|
  when_ (s.mtr.powered && !s.mtr.feedLoss && 100 * ms ≤ s.mtr.clock + x.dt - s.mtr.lastFrameAt) s <|
    countMeter 4 (setMFlag 2 (setMtr (fun y => { y with feedLoss := true }) (sense x s)))

/-- ELAPSED reaches METER_INTERVAL, or its next multiple where no slot was free before (R482, R487). -/
def elapsedDue (s : State) (dt : Nat) : Bool :=
  let i := s.mtr.interval * sec
  let e := s.mtr.m.elapsed
  if bit s.mtr.m.flags 5 then Nat.blt (e / i) ((e + dt) / i) else Nat.ble i (e + dt)

/-- FEED_LOSS_INTERVAL_END: during feed loss an interval ends when ELAPSED reaches METER_INTERVAL (R482). -/
def execFeedLossIntervalEnd (x : Sensed) (s : State) : Res := .next <|
  when_ (s.mtr.powered && s.mtr.feedLoss && elapsedDue s x.dt) s <|
    setMFlag 2 (closeInterval 0 (sense x s))

/-! ## Snapshots and power (R489) -/

def takeSnapshot (s : State) : State := setMtr (fun y => { y with snapshot := y.m, snapshotAt := y.clock }) s

/-- METER_SNAPSHOT: every 60 s MTR writes a snapshot of its cumulative values to embedded flash (R489). -/
def execMeterSnapshot (x : Sensed) (s : State) : Res := .next <|
  when_ (s.mtr.powered && 60 * sec ≤ s.mtr.clock + x.dt - s.mtr.snapshotAt) s (takeSnapshot (sense x s))

/-- VMTR_BROWN_OUT: VMTR falls below its brown-out level and MTR writes a snapshot from hold-up energy (R489). -/
def execVmtrBrownOut (x : Sensed) (s : State) : Res := .next <|
  when_ s.mtr.powered s <|
    setMtr (fun y => { y with powered := false, pending := [], sealOpen := false }) (takeSnapshot (sense x s))

/-- VMTR returns: MTR goes on from its snapshot and closes the interval that was open, with POWER_LOSS (R489). -/
def execMeterPowerUp (s : State) : Res := .next <|
  when_ (!s.mtr.powered) s <|
    let s := setMtr (fun y => { y with powered := true, m := y.snapshot, last := none, feedLoss := false, lastFrameAt := y.clock }) s
    closeInterval 3 (countMeter 5 (setMFlag 3 s))

/-! ## Read-out (R488, R490) -/

/-- METER_STATE: 0 absent, 1 running, 2 feed loss, 3 seal open, 4 overflow; the greatest that holds (log 30, DESIGN CHOICE). -/
def meterState (s : State) : Nat :=
  if s.mtr.absent then 0
  else if bit s.mtr.m.flags 5 then 4
  else if s.mtr.sealOpen then 3
  else if s.mtr.feedLoss then 2
  else 1

/-- MTR has answered: partitions that waited for it come Up. -/
def meterAnswered (s : State) : State :=
  let s := if s.mtr.bootWait then partitionsUp s else s
  setMtr (fun y => { y with absent := false, statusAsked := none, bootWait := false }) s

/-- The hub sends STATUS; a running MTR answers. A READ of METER_STATE that the server runs is answered with it (R488). -/
def execStatus (s : State) : Res := .next <|
  if !serving s then s
  else
    let s := if s.mtr.powered then meterAnswered s
      else setMtr (fun y => { y with statusAsked := some (y.statusAsked.getD s.time.now) }) s
    match current s with
    | some (_, c) =>
      if c.code == cRead && c.index == 0xA000 && c.sub == 4 then
        onRead s 0xA000 4 4 fun _ c s => (rDone, readSpan c [byteOf (meterState s)], s)
      else s
    | none => s

/-- STATUS has been unanswered for 1 s: at a reset the partitions come Up without it; in running it is asked again (R490). -/
def execMeterStatusTimeout (s : State) : Res := .next <|
  let late := match s.mtr.statusAsked with
    | some t => due s t sec
    | none => false
  when_ (serving s && late) s <|
    if s.mtr.bootWait then
      setMtr (fun y => { y with absent := true, statusAsked := some s.time.now, bootWait := false }) (record 4 0xA001 0xF mtrCode [] (partitionsUp s))
    else setMtr (fun y => { y with statusAsked := some s.time.now }) (record 3 0xA002 0xF mtrCode [] s)

def recordOf (s : State) (seq : Nat) : Option MRecord := s.mtr.records.find? fun r => r.seq == seq

/-- A READ of RECORD: the record RECORD_SEL names, which is then collected; a SEQ not held reads zeros and ends with NO_ENTRY (R488). -/
def execReadRecord (s : State) : Res := .next <|
  onRead s 0xA010 1 1 fun w c s =>
    let n := selOf s w.num (dkey 0xA010 0)
    match recordOf s n with
    | some r =>
      (rDone, readSpan c (recordBytes r),
        setMtr (fun y => { y with records := y.records.map fun x => if x.seq == n then { x with collected := true } else x }) s)
    | none => (rNoEntry, readSpan c (List.replicate 2932 0), s)

/-! ## The seal (R491, R492) -/

/-- SEAL_OPENED: SEAL_OPEN is high and stable for 100 ms; MTR closes the interval, increments AUDIT and writes an EVENT 1 record (R492). -/
def execSealOpened (x : Sensed) (s : State) : Res := .next <|
  when_ (s.mtr.powered && !s.mtr.sealOpen) s <|
    let s := setMtr (fun y => { y with sealOpen := true, audit := min (y.audit + 1) (m32 - 1) }) (sense x s)
    closeInterval 1 s

/-- Apply one pending change. -/
def applySeal (c : Nat × Nat) (y : MtrSt) : MtrSt :=
  if c.1 == 1 then { y with interval := c.2 } else if c.1 == 2 then { y with cal := c.2 } else { y with fw := c.2 }

/-- SEAL_CLOSED: SEAL_OPEN is low and stable for 100 ms; MTR applies pending changes and writes an EVENT 2 record (R492). -/
def execSealClosed (x : Sensed) (s : State) : Res := .next <|
  when_ (s.mtr.powered && s.mtr.sealOpen) s <|
    let s := setMtr (fun y => { (y.pending.foldl (fun y c => applySeal c y) y) with sealOpen := false, pending := [] }) (sense x s)
    closeInterval 2 s

/-- A SEAL_CMD of one action: INVALID unless the seal is open, when a running MTR discards it (R488), or where the action's own check fails (log 81, DEDUCED). -/
def sealCmd (action : Nat) (s : State) (ok : List Byte → State → Bool × State) : State :=
  onWrite s 0xA030 0 0 (fun d => field d 0 1 == action) fun _ c s =>
    if !(s.mtr.powered && s.mtr.sealOpen) then (rInvalid, if s.mtr.powered then countMeter 7 s else s)
    else
      let (good, s) := ok c.data s
      if good then (rDone, setMtr (fun y => { y with pending := y.pending ++ [(action, field c.data 1 4)] }) s) else (rInvalid, s)

/-- SEAL_CMD_INTERVAL: SEAL_CMD action 1 stages a new metering interval while the seal is open (R492). -/
def execSealCmdInterval (s : State) : Res := .next <|
  sealCmd 1 s fun d s => (60 ≤ field d 1 4 && field d 1 4 ≤ 3600, s)

/-- The bytes of an image or calibration set in device memory. -/
def sealData (d : List Byte) (s : State) : Option (List Byte) × State := deviceBytes (field d 5 4) (field d 9 8) (field d 17 4) s

/-- SEAL_CMD_CALIBRATION: SEAL_CMD action 2 stages a calibration set while the seal is open (R492). -/
def execSealCmdCalibration (s : State) : Res := .next <|
  sealCmd 2 s fun d s =>
    let (b, s) := sealData d s
    (b.isSome, s)

/-- SEAL_CMD_FIRMWARE: SEAL_CMD action 3 verifies and stages MTR firmware while the seal is open (R492). -/
def execSealCmdFirmware (s : State) : Res := .next <|
  sealCmd 3 s fun d s =>
    let (b, s) := sealData d s
    (match b with
     | some img => Config.meterFwOk img
     | none => false, s)

end Sys2Proof.Machine
end

