-- ==== Sys2Proof/Machine/Observe.lean ====
section
/-! DEFINITION. Programmable counters, bandwidth windows, histograms, the read side of the sample FIFOs, the event recorder. -/

namespace Sys2Proof.Machine

/-! ## Records of an ARRAY that a write replaces (R417) -/

/-- The elements a WRITE of an ARRAY of `k` elements of `n` bytes gives, each with its number; none where its count or span does not
fit. -/
def elementsOf (c : Cmd) (n k : Nat) : Option (List (Nat × List Byte)) :=
  match touched c n k with
  | some es =>
    let d := if c.offset == 0 then c.data.drop 4 else c.data
    some ((List.range es.length).map fun j => (nth es j, slice d (n * j) n))
  | none => none

/-- Sub d + 1 stands for an engine die; an absent die's is refused with INVALID (R516). -/
def presentDie (s : State) (sub : Nat) : Bool := 1 ≤ sub && sub ≤ engineDies s

/-! ## Programmable counters (R496 to R499) -/

def pctrOf (s : State) (die i : Nat) : Pctr := tgetD s.obs.pctr (64 * die + i) {}

def setPctr (die i : Nat) (f : Pctr → Pctr) (s : State) : State :=
  { s with obs := { s.obs with pctr := tmodD s.obs.pctr (64 * die + i) {} f } }

/-- A sender may configure a counter of an owner: a Tenant its partition's, Platform those of 0xFF (R497). -/
def ownerReach (w : Sender) (owner : Nat) : Bool :=
  if owner == 0xFF then w.priv == 3 else if w.priv == 1 then w.part == owner else true

/-- A source of kind G (R496). -/
def globalSource (src : Nat) : Bool := 0x40 ≤ src

/-- A configuration record taken by a counter: an owner's counter filters on its owner. -/
def takePctr (d : List Byte) (p : Pctr) : Pctr :=
  { p with source := field d 0 1, part := if p.owner == 0xFF then field d 1 1 else p.owner, queue := field d 2 4, layer := field d 6 2,
           operator := field d 8 2, enable := field d 10 1 == 1 }

/-- A write of an ARRAY of a die's objects: the die present, the span within it, each object reached and each element good. -/
def writeObjects (c : Cmd) (n k : Nat) (s : State) (ok : Nat → List Byte → Nat) (put : Nat → List Byte → State → State) : Nat × State :=
  if !presentDie s c.sub then (rInvalid, s)
  else
    match elementsOf c n k with
    | none => (rLength, s)
    | some es =>
      match es.find? fun x => ok x.1 x.2 != rDone with
      | some x => (ok x.1 x.2, s)
      | none => (rDone, es.foldl (fun s x => put x.1 x.2 s) s)

/-- PCTR_CFG: A write of a programmable counter's configuration, with the owner enforced (R497). -/
def execPctrCfg (s : State) : Res := .next <|
  onWrite s 0x8010 1 8 (fun _ => true) fun w c s =>
    let die := c.sub - 1
    writeObjects c 11 64 s
      (fun i d =>
        let o := (pctrOf s die i).owner
        if !ownerReach w o then rDenied
        else if 1 < field d 10 1 then rRange
        else if o != 0xFF && globalSource (field d 0 1) then rInvalid
        else rDone)
      fun i d s => setPctr die i (takePctr d) s

/-- PCTR_VALUE: A write that replaces a programmable counter's value (R498). -/
def execPctrValue (s : State) : Res := .next <|
  onWrite s 0x8011 1 8 (fun _ => true) fun w c s =>
    let die := c.sub - 1
    writeObjects c 8 64 s (fun i _ => if ownerReach w (pctrOf s die i).owner then rDone else rDenied)
      fun i d s => setPctr die i (fun p => { p with value := ofLe d }) s

/-- A change of owner disables the counter and sets it to 0 (R497). -/
def execPctrOwner (s : State) : Res := .next <|
  onWrite s 0x8013 1 8 (fun _ => true) fun _ c s =>
    let die := c.sub - 1
    writeObjects c 1 64 s (fun _ d => if ofLe d < 12 || ofLe d == 0xFF then rDone else rRange)
      fun i d s => setPctr die i (fun p => if p.owner == ofLe d then p else { p with owner := ofLe d, enable := false, value := 0 }) s

/-- A sender sees a count of an owner: a Tenant its partition's, and those of 0xFF only Platform (R494, R499, log 31, DESIGN CHOICE). -/
def ownerSees (w : Sender) (owner : Nat) : Bool := ownerReach w owner

/-- All counters of a die at one time. -/
def snapBytes (w : Sender) (die : Nat) (s : State) : List Byte :=
  leBytes 8 s.time.now ++ [byteOf (b2n (suspectAt s (firstIsland die)))] ++
  (List.range 64).flatMap (fun i =>
    let p := pctrOf s die i
    leBytes 8 (if ownerSees w p.owner then p.value else 0)) ++
  (List.range 6).flatMap fun i => leBytes 8 (if w.priv == 3 then countAt s (dkey 0x8014 (die + 1)) i else 0)

/-- PCTR_SNAP: A read that latches every counter of a die at one device time (R499). -/
def execPctrSnap (s : State) : Res := .next <|
  onRead s 0x8012 1 8 fun w c s =>
    (rDone, readSpan c (if presentDie s c.sub then snapBytes w (c.sub - 1) s else List.replicate 569 0), s)

/-! ## Bandwidth windows (R501) -/

/-- A new length takes effect at its first multiple after the write (R501). -/
def execBwWindow (s : State) : Res := .next <|
  onWrite s 0x8020 1 1 (fun _ => true) fun _ c s =>
    let n := ofLe c.data
    if n % 1024 != 0 then (rRange, s)
    else
      let s := setDict (dkey 0x8020 1) c.data s
      (rDone, { s with obs := { s.obs with bwPending := some ((s.time.now / n + 1) * n) } })

def BwLink.close (b : BwLink) : BwLink :=
  { b with lastSent := b.sent, lastReceived := b.received, peakSent := max b.peakSent b.sent, peakReceived := max b.peakReceived b.received,
           sent := 0, received := 0 }

def BwPart.close (b : BwPart) : BwPart := { last := (b.sent, b.placed, b.host) }

/-- Every window closes: each link's last window and peaks follow. -/
def closeWindows (s : State) : State :=
  { s with obs := { s.obs with
      bw := tmap s.obs.bw fun _ b => b.close, partBw := tmap s.obs.partBw fun _ b => b.close,
                               bwStart := s.time.now / s.obs.bwLen * s.obs.bwLen } }

/-- A new length in force: the open window is discarded. -/
def newWindows (t : Nat) (s : State) : State :=
  { s with obs := { s.obs with
      bw := tmap s.obs.bw fun _ b => { b with sent := 0, received := 0 },
                               partBw := tmap s.obs.partBw fun _ b => { b with sent := 0, placed := 0, host := 0 },
                               bwLen := cfg s 0x8020 1, bwStart := t, bwPending := none } }

/-- BW_WINDOW_END: A bandwidth window closes; each link's bytes and peaks are updated (R501). -/
def execBwWindowEnd (s : State) : Res := .next <|
  when_ (running s) s <|
    match s.obs.bwPending with
    | some t =>
      if t ≤ s.time.now then newWindows t s
      else if due s s.obs.bwStart s.obs.bwLen then closeWindows s else s
    | none => if due s s.obs.bwStart s.obs.bwLen then closeWindows s else s

def bwRecord (b : BwLink) : List Byte := leBytes 8 b.lastSent ++ leBytes 8 b.lastReceived ++ leBytes 8 b.peakSent ++ leBytes 8 b.peakReceived

/-- A read returns and resets the peaks (R501). -/
def execPortBw (s : State) : Res := .next <|
  onRead s 0x8021 0 0 fun _ c s =>
    (rDone, readArray c 32 ((List.range 42).flatMap fun l => bwRecord (tgetD s.obs.bw l {})),
      { s with obs := { s.obs with bw := tmap s.obs.bw fun _ b => { b with peakSent := 0, peakReceived := 0 } } })

/-! ## Histograms (R502) -/

def histOf (s : State) (die i : Nat) : Hist := tgetD s.obs.hist (4 * die + i) {}

/-- What a histogram samples: none while it is off. -/
def histValue (s : State) (die : Nat) (h : Hist) : Option Nat :=
  if h.kind == 1 then some (wqOf s h.object).posted
  else if h.kind == 2 then some (sub32 (cqOf s h.object).written (cqOf s h.object).head)
  else if h.kind == 3 then
    some ((s.q.wqs.filter fun x => dieOfWq x.1 == die).foldl (fun n x => n + x.2.inFlight) 0)
  else if h.kind == 4 then some (ceilDiv (egressBytes s (h.object / 8) (h.object % 8)) 256)
  else none

/-- The bin a value falls in. -/
def binOf (v : Nat) : Nat := if v == 0 then 0 else min 15 (Nat.log2 v + 1)

def sampleHist (die i : Nat) (s : State) : State :=
  match histValue s die (histOf s die i) with
  | some v =>
    { s with obs := { s.obs with hist := tmodD s.obs.hist (4 * die + i) {} fun h => { h with bins := tmodD h.bins (binOf v) 0 fun x => sat64 x 1 } } }
  | none => s

/-- HISTOGRAM_SAMPLE: every 1,024 ns each histogram samples its object and adds 1 to a bin (R502). -/
def execHistogramSample (s : State) : Res := .next <|
  when_ (running s && s.time.now % 1024 == 0) s <|
    (List.range (engineDies s)).foldl (fun s d => (List.range 4).foldl (fun s i => sampleHist d i s) s) s

/-- A histogram of an owner accepts a kind and object. -/
def histOk (s : State) (die owner kind obj : Nat) : Bool :=
  if kind == 0 then true
  else if kind == 1 then Nat.blt obj (2 ^ 20) && dieOfWq obj == die && (owner == 0xFF || ownsWq s owner obj)
  else if kind == 2 then Nat.blt obj (2 ^ 18) && dieOfCq obj == die && (owner == 0xFF || ownsCq s owner obj)
  else if kind == 3 then owner == 0xFF
  else kind == 4 && owner == 0xFF && Nat.blt obj 192

/-- Owned histograms belong to Tenants; the owner is Platform's to set. A write clears the bins (R502). -/
def execHistCfg (s : State) : Res := .next <|
  onWrite s 0x8030 1 8 (fun _ => true) fun w c s =>
    let die := c.sub - 1
    writeObjects c 6 4 s
      (fun i d =>
        let o := (histOf s die i).owner
        let n := field d 0 1
        if (w.priv == 1 && o != w.part) || (o != n && w.priv != 3) then rDenied
        else if 11 < n && n != 0xFF then rRange
        else if histOk s die n (field d 1 1) (field d 2 4) then rDone
        else rInvalid)
      fun i d s => { s with obs := { s.obs with hist := tset s.obs.hist (4 * die + i) { owner := field d 0 1, kind := field d 1 1, object := field d 2 4 } } }

/-! ## Sample FIFOs (R503, R506, R507) -/

/-- A write of SFIFO_CFG: a Tenant only of its own partition's FIFO, whose filter follows the owner; the owner is Platform's to set. -/
def writeSfifoCfg (w : Sender) (c : Cmd) (s : State) : Nat × State :=
  let die := c.sub - 1
  let d := c.data
  let f := tgetD s.obs.sfifo die {}
  let owner := field d 0 1
  if !presentDie s c.sub then (rInvalid, s)
  else if (w.priv == 1 && f.owner != w.part) || (owner != f.owner && w.priv != 3) then (rDenied, s)
  else if (11 < owner && owner != 0xFF) || 1 < field d 1 1 || field d 2 4 < 1 || 1048576 < field d 2 4 then (rRange, s)
  else
    (rDone, setSfifo die (fun f => { f with
      owner := owner, enable := field d 1 1 == 1, period := field d 2 4, part := if owner == 0xFF then field d 6 1 else owner,
      queue := field d 7 4, opcodes := field d 11 8, layer := field d 19 2, passed := 0 }) s)

/-- One read word: up to seven write words and the status word. -/
def readWord (f : Sfifo) : List Byte × Sfifo :=
  let ws := f.words.take 7
  let left := f.words.drop 7
  let body := slice (ws.flatMap fun w => leBytes 8 w.toNat) 0 56
  (body ++ leBytes 8 (pack [(32, left.length), (8, f.epoch % 16), (0, 8 * ws.length)]), { f with words := left, readPtr := movePtr f.readPtr ws.length })

/-- Up to `n` read words, ending after the first that is not full. -/
def readWords : Nat → Sfifo → List Byte × Sfifo
  | 0, f => ([], f)
  | n + 1, f =>
    let (b, g) := readWord f
    if f.words.length < 7 then (b, g)
    else
      let (r, h) := readWords n g
      (b ++ r, h)

/-- SFIFO_DATA: A read of SFIFO_DATA pops read words from the sample FIFO (R507). -/
def execSfifoData (s : State) : Res := .next <|
  onRead s 0x8041 1 8 fun w c s =>
    let die := c.sub - 1
    let f := tgetD s.obs.sfifo die {}
    if w.priv == 1 && f.owner != w.part then (rDenied, [], s)
    else if c.length % 64 != 0 || c.length < 64 || 1024 < c.length || c.offset != 0 then (rLength, [], s)
    else if !presentDie s c.sub then (rDone, List.replicate 64 0, s)
    else
      let s := comparePointers die s
      let (d, g) := readWords (c.length / 64) (tgetD s.obs.sfifo die {})
      (rDone, d, setSfifo die (fun _ => g) s)

/-! ## The event recorder (R510 to R516) -/

/-- The 64 bytes of a record. -/
def eventBytes (r : EventRec) : List Byte :=
  let detail := ofLe (slice (r.detail.flatMap (leBytes 8)) 0 40)
  leBytes 64 (pack [(504, 0xA5), (176, detail), (160, r.code), (152, r.die), (144, r.island), (140, r.part), (139, b2n r.suspect),
    (136, r.severity), (64, r.seq), (0, r.time % m64)])

/-- Insert a record in SEQ order. -/
def insertSeq (r : EventRec) : List EventRec → List EventRec
  | [] => [r]
  | x :: t => if r.seq < x.seq then r :: x :: t else x :: insertSeq r t

/-- The records a sender's read may return, in SEQ order. -/
def eventsFor (s : State) (w : Sender) : List EventRec :=
  let sel := selOf s w.num (dkey 0x8201 0)
  let least := selOf s w.num (dkey 0x8202 0)
  (s.obs.events.filter fun r => Nat.ble sel r.seq && Nat.ble least r.severity && (w.priv != 1 || r.part == w.part)).foldr insertSeq []

/-- Records that lie whole within what a READ returns. -/
def recordsRead (c : Cmd) : Nat := min 20 (if c.offset == 0 then (c.length - 4) / 64 else (c.offset + c.length) / 64)

/-- EVENT_RECORDS: A read of EVENT_RECORDS returns records and moves EVENT_SEL past them (R516). -/
def execEventRecords (s : State) : Res := .next <|
  onRead s 0x8203 0 0 fun w c s =>
    let l := (eventsFor s w).take 20
    let s' := match (l.take (recordsRead c)).getLast? with
      | some r => onSession w.num (fun x => { x with sels := tset x.sels (dkey 0x8201 0) (r.seq + 1) }) s
      | none => s
    (rDone, readArray c 64 (l.flatMap eventBytes), s')

/-- A copy to flash begins with every record up to now; one that comes during another waits (R513). -/
def startCopy (s : State) : State :=
  match s.obs.copying with
  | none => { s with obs := { s.obs with copying := some s.obs.events } }
  | some _ => { s with obs := { s.obs with copyWaits := true } }

/-- A clear: records up to a SEQ and the lost counts go, then its own record and a copy (R514). -/
def execEventClear (s : State) : Res := .next <|
  onWrite s 0x8204 0 0 (fun _ => true) fun w c s =>
    let top := ofLe c.data
    let gone := (s.obs.events.filter fun r => Nat.ble r.seq top).length
    let lost := fun i => min (tgetD s.obs.lost i 0) (m32 - 1)
    let s := { s with obs := { s.obs with events := s.obs.events.filter fun r => !Nat.ble r.seq top, lost := [] } }
    let s := record 2 0x8002 0xF hubCode [top, gone + w.num % m32 * m32, lost 0 + lost 1 * m32, lost 2 + lost 3 * m32, lost 4] s
    (rDone, startCopy (bump (dkey 0x8210 0) 10 1 s))

/-- The newer of two copies whose tags check. -/
def newerCopy (s : State) : Option RecCopy :=
  let a := s.obs.copyA
  let b := s.obs.copyB
  if a.good && (!b.good || Nat.ble b.number a.number) then some a else if b.good then some b else none

/-- A copy completes in the place of the older (R513). -/
def execRecorderCopyDone (s : State) : Res := .next <|
    match s.obs.copying with
    | none => s
    | some l =>
      let a := s.obs.copyA
      let b := s.obs.copyB
      let again := s.obs.copyWaits
      let c : RecCopy := { number := max a.number b.number + 1, records := l, lost := s.obs.lost, good := true }
      let overA := !a.good || (b.good && Nat.blt a.number b.number)
      let s := { s with obs := { s.obs with copyA := if overA then c else a, copyB := if overA then b else c, copying := none, copyWaits := false } }
      bump (dkey 0x8210 0) 9 1 (if again then startCopy s else s)

/-- EVENT_STATE. -/
def eventState (s : State) : List Byte :=
  let seqs := s.obs.events.map (·.seq)
  let low := seqs.foldl min (seqs.headD 0)
  let high := seqs.foldl max 0
  let copied := match newerCopy s with
    | some c => (c.records.map (·.seq)).foldl max 0
    | none => 0
  leBytes 8 low ++ leBytes 8 high ++ leBytes 2 seqs.length ++ leBytes 8 copied

end Sys2Proof.Machine
end

