-- ==== Sys2Proof/Machine/Stored.lean ====
section
/-! DEFINITION. Stored entries: the persistence class of a key, the image of a flash bank, a commit, the load at a cold boot. -/

namespace Sys2Proof.Machine

/-- Persistence class of a dictionary key: 0 volatile, 1 warm-kept, 2 stored, 3 sealed (R422). -/
def classOf (key : Nat) : Nat :=
  match entryAt (key / 256 % 65536) (key % 256) with
  | some e => e.cls
  | none => 0

/-- Keep the values whose class is at least a given one. -/
def keepFrom {α : Type} (cls : Nat) (t : Tab α) : Tab α := tkeep t fun k _ => Nat.ble cls (classOf k)

/-- What a commit writes: the stored entries, KEY_EPOCH and PROVISIONED among them. -/
def storedImage (s : State) : Tab (List Byte) :=
  tset (tset (keepFrom 2 s.dict) (dkey 0x9030 1) ((List.range 15).flatMap fun i => leBytes 4 (tgetD s.sec.epochs i 0)))
    (dkey 0x9030 3) [byteOf (b2n s.sec.provisioned)]

/-- The bank that holds the newer image whose check holds (R424). -/
def newerBank (s : State) : Option Bank :=
  let a := s.far.bankA
  let b := s.far.bankB
  if a.good && (!b.good || Nat.ble b.count a.count) then some a else if b.good then some b else none

/-- The commit count of the newer image, 0 where there is none. -/
def commitCount (s : State) : Nat :=
  match newerBank s with
  | some b => b.count
  | none => 0

/-- Write the bank that does not hold the newer image. -/
def writeBank (s : State) : State :=
  let b : Bank := { count := commitCount s + 1, entries := storedImage s, good := true }
  let overA := !s.far.bankA.good || (s.far.bankB.good && Nat.blt s.far.bankA.count s.far.bankB.count)
  { s with far := { s.far with bankA := if overA then b else s.far.bankA, bankB := if overA then s.far.bankB else b } }

/-- Load the newer bank; with none, every stored entry takes its default and that is recorded (R424). -/
def loadStored (s : State) : State :=
  let take := fun (t : Tab (List Byte)) (s : State) =>
    { s with dict := (tkeep t fun k _ => k / 256 != 0x9030).foldl (fun (d : Tab (List Byte)) (e : Nat × List Byte) => tset d e.1 e.2)
               (tkeep s.dict fun k _ => classOf k != 2),
             sec := { s.sec with
               epochs := (List.range 15).map fun i => (i, field (tgetD t (dkey 0x9030 1) []) (4 * i) 4),
                                 provisioned := ofLe (tgetD t (dkey 0x9030 3) []) == 1 } }
  match newerBank s with
  | some b => take b.entries s
  | none => record 3 0x9001 0xF hubCode [] (take [] s)

/-- Results of a held response whose commit was refused: the writes end with NO_RESOURCE (R475). -/
def refuseWrites (r : Response) : Response :=
  { r with answers := r.answers.map fun a => if a.cmd.code == cWrite && a.result == rDone && classOf (dkey a.cmd.index a.cmd.sub) == 2 then
      { a with result := rNoResource } else a }

/-- Send the responses that the commit held back, and close the management connections where one of them asked for it (R275, R424). -/
def releaseHeld (f : Response → Response) (s : State) : State :=
  let held := s.far.held
  let close := s.far.closeMgmt
  let s := { s with far := { s.far with commitDue := false, held := [], closeMgmt := false, lastCommit := some s.time.now } }
  let s := held.foldl (fun s x => respond x.1 (f x.2) s) s
  if close then closeManagement s else s

/-- A due commit: at the end of the count it is refused (R475). -/
def commitStored (s : State) : State :=
  if commitCount s == m32 - 1 then record 4 0x9005 0xF hubCode [] (releaseHeld refuseWrites s)
  else bump (dkey 0x9100 3) 5 1 (releaseHeld id (writeBank s))

/-- A commit may run: one is due, a second after the last, with the hub serving or in step 3 of a warm reset (R424, R528). -/
def commitReady (s : State) : Bool :=
  s.far.commitDue && (serving s || (hubUp s && s.pow.warm == 3)) && (match s.far.lastCommit with
    | some t => due s t sec
    | none => true)

/-- STORED_COMMIT: A due commit of stored entries is written to the other flash bank and the held response is sent (R424). -/
def execStoredCommit (s : State) : Res := .next <| (when_ (commitReady s) s (commitStored s))

end Sys2Proof.Machine
end

