-- ==== Sys2Proof/Machine/Power.lean ====
section
/-! DEFINITION. Power states and wake, resets and boot, the watchdogs, and the darning of clusters, arrays, cores, SRAM and mesh wires. -/

namespace Sys2Proof.Machine

def setPow (f : PowSt → PowSt) (s : State) : State := { s with pow := f s.pow }

/-! ## What resets and Sleep lose (R189, R422, R423, R530) -/

/-- A port as it leaves a reset: down, with its lanes and gate list. -/
def freshPort (p : Port) : Port :=
  { cores := p.cores, wornNoStock := p.wornNoStock, failed := p.failed, gateList := p.gateList, gateBase := p.gateBase,
    gates := (p.gateList.head?.map fun e => e.gates).getD 15 }

/-- An Edrad link as it leaves a reset: down, of a new reset epoch. -/
def freshEdrad (e : Edrad) : Edrad := { epoch := (e.epoch + 1) % m32, card := e.card }

/-- An accelerator port as it leaves a reset: in reset, its owner and binding as in force. -/
def freshAccel (a : Accel) : Accel := { owner := a.owner, bound := a.bound, bifurcated := a.bifurcated }

/-- Everything volatile returns to its default; what the always-on island, the flash, the fuses, the metering die and the stored darning
state hold stays. -/
def lose (s : State) : State :=
  { s with
    time := { now := s.time.now, lastWord := s.time.lastWord, islands := tmap s.time.islands fun _ x => { delay := x.delay } },
    mesh := { s.mesh with usedOut := s.mesh.out, switching := false, carry := [], held := [] },
    q := {}, conn := { fills := s.conn.fills + 1, holdoff := none }, xl := {}, coll := {}, ar := {},
    fab := { ports := tmap s.fab.ports fun _ p => freshPort p, fenced := s.fab.fenced, stock := s.fab.stock, failedCores := s.fab.failedCores },
    link := { edrad := [(0, freshEdrad (edradOf s 0)), (1, freshEdrad (edradOf s 1))], accel := tmap s.link.accel fun _ a => freshAccel a,
              boundParts := s.link.boundParts },
    mem := { s.mem with scrubAt := [], refreshed := [], selfRefresh := false },
    part := { s.part with collUsed := [], parts := tmap s.part.parts fun _ x => { x with state := .off, slices := [], resets := [] } },
    far := { bankA := s.far.bankA, bankB := s.far.bankB, lastCommit := s.far.lastCommit, patternGen := s.far.patternGen,
             generation := s.far.generation },
    mgr := { epoch := s.mgr.epoch, id := s.mgr.id },
    sec := { s.sec with measure := [], debug := 0, randomOk := true, recovery := false },
    obs := { events := s.obs.events, nextRec := s.obs.nextRec, coldBoots := s.obs.coldBoots, lost := s.obs.lost, copyA := s.obs.copyA,
             copyB := s.obs.copyB, copying := s.obs.copying, copyWaits := s.obs.copyWaits, bwLen := cfg s 0x8020 1,
             bwStart := s.time.now / cfg s 0x8020 1 * cfg s 0x8020 1 },
    elec := { s.elec with eighths := [], hot := [], powerHot := false },
    dict := keepFrom 1 s.dict, counts := keepFrom 1 s.counts }

/-- Memory of a die that loses a channel for good: seven slots are left, its contents are lost (R391). -/
def dropChannel (die slot : Nat) (s : State) : State :=
  let old := (List.range 8).filter fun k => k != slot
  let chans := (List.range 7).foldl (fun (t : Tab Chan) k => tset t (8 * die + k) (chanOf s die (nth old k)))
    (tkeep s.mem.chans fun k _ => k / 8 != die)
  rebuildPattern { s with mem := { s.mem with
    seven := insertNew s.mem.seven die, dropped := tset s.mem.dropped die slot, chans := chans, bytes := tkeep s.mem.bytes fun a _ => memDie s a != die } }

/-- Dies whose dead channel a reset leaves out: those that still interleave over eight. -/
def dropChannels (s : State) : State :=
  (List.range (engineDies s)).foldl (fun s d =>
    match (List.range 8).find? fun k => (chanOf s d k).dead with
    | some k => if s.mem.seven.contains d then s else dropChannel d k s
    | none => s) s

/-- A darn under way ends before its die's memory is used (R389). -/
def endDarns (s : State) : State :=
  (List.range (engineDies s)).foldl (fun s d => (List.range 8).foldl (fun s k =>
    if (chanOf s d k).darn.isSome then darnChannel d k s else s) s) s

/-- Every frame of a failed engine die is withdrawn at the next warm reset (R539). -/
def withdrawDies (s : State) : State :=
  let gone := s.mesh.failed.filter fun d => d < 8 && !s.mesh.withdrawnDies.contains d
  if gone.isEmpty then s else rebuildPattern { s with mesh := { s.mesh with withdrawnDies := s.mesh.withdrawnDies ++ gone } }

/-- Pending SRAM repairs are applied (R537). -/
def applySram (s : State) : State :=
  let n := s.pow.sramPending.foldl (fun a x => a + x.2) 0
  if n == 0 then s
  else
    let applied := s.pow.sramPending.foldl (fun (t : Tab Nat) (x : Nat × Nat) => tmodD t x.1 0 (· + x.2)) s.pow.sramApplied
    rebuildPattern (record 1 0x2126 0xF hubCode [n] (setPow (fun p => { p with sramPending := [], sramApplied := applied, sramEntered := [], sramCe := [] }) s))

/-! ## Boot (R443, R446, R468 to R472) -/

/-- Extend by an image's measurement. -/
def measureImage (m : Nat) (d : List Byte) (s : State) : State := extendMeasure m (Config.sha3 (slice d 0 1440)) s

/-- The preferred bank of a kind first, then the other. -/
def bankOrder (s : State) (kind : Nat) : List Nat := if (bankOf s kind 1).preferred then [1, 0] else [0, 1]

/-- Banks of HUB_FW that BOOTSEL allows, in order (R468). -/
def hubOrder (s : State) : List Nat :=
  if s.elec.bootselS == 1 then [0] else if s.elec.bootselS == 2 then [1] else bankOrder s 1

/-- A bank of a kind runs; the other no longer does. -/
def runBank (kind bank : Nat) (s : State) : State :=
  setBank kind bank (fun b => { b with state := 4 })
    (setBank kind (1 - bank) (fun b => if b.state == 4 then { b with state := 2 } else b) s)

/-- Try the banks of a kind in order: each that fails is refused, the first that passes is measured and runs. -/
def startKind (kind : Nat) : List Nat → State → Bool × State
  | [], s => (false, s)
  | b :: t, s =>
    let d := (bankOf s kind b).data
    let h := imageHead d
    if verifyImage s kind d then
      (true, measureImage (kind - 1) d (runBank kind b (setBank kind b (fun x => { x with
        version := Head.version h, svn := Head.svn h, signerClass := Head.cls h, signerSlot := Head.slot h }) s)))
    else startKind kind t (countSec 1 (setBank kind b (fun x => { x with state := 3 }) s))

/-- APP_FW, ENGINE_MC, PORT_MC and ATTACH_MC in turn: 0, or the first kind with no bank that passes. -/
def startKinds : List Nat → State → Nat × State
  | [], s => (0, s)
  | k :: t, s =>
    match startKind k (bankOrder s k) s with
    | (true, s) => startKinds t s
    | (false, s) => (k, s)

/-- Recovery: only the management cores run (R470). -/
def enterRecovery (kind : Nat) (s : State) : State :=
  let s := setPow (fun p => { p with boot := 0, warm := 0, state := .active }) { s with sec := { s.sec with recovery := true } }
  record 4 0x9004 0xF hubCode [kind] (countSec 5 s)

/-- Register 5 (R472). -/
def measureStraps (s : State) : State :=
  let w := pack [(0, b2n s.elec.genselS), (8, b2n s.elec.mgrEnS), (16, s.elec.bootselS), (24, s.far.generation), (32, b2n s.sec.ownerExclusive)]
  extendMeasure 5 (Config.strapRecord w) (extendMeasure 5 (ownerDigest s) s)

/-- The generation a reset selects: 2 current, 1 generation 1. -/
def selectedGen (s : State) : Nat :=
  let g := cfg s 0x1200 1
  if g == 1 then 2 else if g == 2 then 1 else if s.elec.genselS then 1 else 2

/-- Settings that a warm or cold reset puts into force: generation, configured role, OWNER_EXCLUSIVE, partitions and binding, windows. -/
def takeEffect (s : State) : State :=
  let g := selectedGen s
  let s := if g == s.far.generation then s else rebuildPattern { s with far := { s.far with generation := g } }
  let role := match tget s.dict (dkey 0x3700 1) with
    | some v => [(dkey 0x3700 1, v)]
    | none => []
  let s := { s with inForce := role, obs := { s.obs with bwLen := cfg s 0x8020 1 } }
  applyPartitions s

/-- The reset has ended: the hub asks MTR before partitions come Up (R490), connections wait 5 ms (R116). -/
def endBoot (s : State) : State :=
  let s := setPow (fun p => { p with boot := 0, warm := 0, state := .active, idleSince := s.time.now }) s
  let s := { s with conn := { s.conn with holdoff := some (s.time.now + 5 * ms) } }
  setMtr (fun y => { y with absent := true, statusAsked := some s.time.now, bootWait := true }) s

/-- The recorder after the power of the always-on island was lost: the newer copy whose tag checks is loaded (R458, R513). -/
def loadRecorder (s : State) : State :=
  let bad := fun (n : Nat) (c : RecCopy) (s : State) => if c.number != 0 && !c.good then record 3 0x9002 0xF hubCode [n] s else s
  let s := bad 1 s.obs.copyB (bad 0 s.obs.copyA s)
  match newerCopy s with
  | some c =>
    let seqs := c.records.map (·.seq)
    record 1 0x8003 0xF hubCode [seqs.headD 0, seqs.foldl max 0] { s with obs := { s.obs with events := c.records ++ s.obs.events } }
  | none => record 3 0x8004 0xF hubCode [] s

/-- The records the first step of a cold boot writes (R511, R513, R540). -/
def bootRecords (s : State) : State :=
  let s := if s.obs.bootsSpent then record 2 0x8005 0xF hubCode [s.obs.nextRec] s else s
  let s := if s.elec.vaonLost then loadRecorder { s with elec := { s.elec with vaonLost := false } } else s
  record 1 0x2110 0xF hubCode [1, s.pow.lastReset.2.1] s

/-- The fused operating point of a VCORE rail, 550 to 850 mV (R549). -/
def operatingMv (r : Nat) : Nat := 550 + Config.fused (5 + r) % 301

/-- The VCORE rails of populated dies are set over AVSBus (R549; log 125, DESIGN CHOICE). -/
def setVcore (mv : Nat → Nat) (s : State) : State :=
  ((List.range 11).filter (railPopulated s)).foldl (fun s r =>
    ({ s with elec := { s.elec with vcore := tset s.elec.vcore r (mv r) } }).emit (.avs r (mv r))) s

/-- Step 5 of R469: stored entries at a cold boot, the other firmware, and what comes into force. -/
def bootStep5 (s : State) : State :=
  match startKinds [2, 3, 4, 5] s with
  | (0, s) => measureStraps (takeEffect (setVcore operatingMv s))
  | (k, s) => enterRecovery k s

/-- One step of the cold boot completes (R469). -/
def coldStep (s : State) : State :=
  let next := fun (n : Nat) (s : State) => setPow (fun p => { p with boot := n }) s
  match s.pow.boot with
  | 1 => next 2 (bootRecords s)
  | 2 => next 3 s
  | 3 => if s.elec.bootselS == 3 || s.elec.bootselS == 4 then enterRecovery 0 s else next 4 s
  | 4 =>
    match startKind 1 (hubOrder s) s with
    | (true, s) => next 5 s
    | (false, s) => enterRecovery 1 s
  | 5 =>
    let s := newFeed (loadStored s)
    let t := bootStep5 { s with far := { s.far with generation := selectedGen s } }
    if t.sec.recovery then t else next 6 t
  | 6 => endBoot s
  | _ => s

/-- COLD_BOOT_STEP: A step of the cold boot completes: ROM, HUB_FW, stored entries, images, Farnen server (R469). -/
def execColdBootStep (s : State) : Res := .next <| when_ (hubUp s && s.pow.boot != 0) s (coldStep s)

/-! ## Cold reset (R528, R546, R551) -/

/-- A cold reset covers everything but the metering die; time starts again, memory is to be zeroed, and a die with a dead channel is left
with seven (R391, log 32, DESIGN CHOICE). -/
def coldLose (s : State) : State :=
  let t := lose (dropChannels s)
  { t with
    time := { islands := measuredIslands }, mesh := { repairs := s.mesh.repairs, withdrawnDies := s.mesh.withdrawnDies },
    fab := { t.fab with
      fenced := [], ports := tmap t.fab.ports fun _ p => { p with gateList := [⟨15, 1000000⟩], gateBase := 0, gates := 15 } },
    mem := { t.mem with
      zeroing := true, bytes := [], hub := [], bad := [], remaps := s.mem.wearList.foldl (fun (r : Tab Remap) b => tset r b .pool) [],
      poolFull := [], blockCorr := [], limit := [], chans := tmap t.mem.chans fun _ c => { c with corr := [], pinCorr := [] } },
    far := { t.far with lastCommit := none, patternGen := 1 }, mgr := {}, sec := { t.sec with reportCount := 0, ownerOnly := s.sec.ownerExclusive },
    obs := { t.obs with lost := [], copying := none, copyWaits := false, bwLen := 1048576, bwStart := 0 },
    pow := { clustersOut := s.pow.clustersOut, arraysOut := s.pow.arraysOut, clusterSpare := s.pow.clusterSpare, clusterDarn := s.pow.clusterDarn,
             coreSpare := s.pow.coreSpare, sramPending := s.pow.sramPending, sramApplied := s.pow.sramApplied, sramUsed := s.pow.sramUsed,
             sramEntered := s.pow.sramEntered, lastReset := s.pow.lastReset },
    elec := { t.elec with vcore := [], thermtrip := false, pwrdn := false, pwrdnRdy := false, held := false, waitPg := false,
                          tempsAt := none, throttleAt := none, limitAt := none },
    dict := keepFrom 2 t.dict, counts := keepFrom 2 t.counts }

/-- The cold boot starts: the boot count rises, or its records number on (R511), and the reset is counted. -/
def startCold (s : State) : State :=
  let spent := s.obs.coldBoots == 0xFFFF
  let top := match newerCopy s with
    | some c => (c.records.map fun r => r.seq % 2 ^ 48).foldl max 0 + 1
    | none => 0
  let cause := if s.elec.vaonLost then 4 else 1
  let s := { s with obs := { s.obs with
    coldBoots := if spent then 0xFFFF else s.obs.coldBoots + 1, nextRec := if spent then top else 0, bootsSpent := spent } }
  let s := bump (dkey 0x2002 3) 0 1 s
  setPow (fun p => { p with boot := 1, lastReset := (1, cause, s.time.now) })
    { s with elec := { s.elec with waitPg := false } }

def missingRails (s : State) : List Nat := s.elec.pgLost.filter (railPopulated s)

/-- COLD_RESET_N falls, or rises with the straps as driven: it waits for missing power-goods or starts the cold boot (R528). -/
def execColdResetN (rise gensel mgrEn : Bool) (bootsel : Nat) (s : State) : Res := .next <|
    if !rise then
      -- PWRDN_RDY falls, THERMTRIP_N is released (R553, R562)
      let t : State := { coldLose s with elec := { (coldLose s).elec with coldN := false } }
      let t := if s.elec.pwrdnRdy then t.emit (.pin 1 false) else t
      if s.elec.thermtrip then t.emit (.pin 2 true) else t
    else if s.elec.coldN then s
    else
      let b := bootsel % 8
      let s := { s with elec := { s.elec with
        coldN := true, gensel := gensel, mgrEn := mgrEn, bootsel := b, genselS := gensel, mgrEnS := mgrEn, bootselS := b } }
      let rails := missingRails s
      if rails.isEmpty then startCold s
      else
        record 3 0x2205 0xF hubCode [rails.foldl (fun m r => m + 2 ^ r) 0] { s with elec := { s.elec with waitPg := true, alert := true } }

/-! ## Warm reset and orderly power-down (R528, R529, R531, R553) -/

/-- RESET_NOTICE to the cards of Active links. -/
def noticeCards (s : State) : State :=
  [0, 1].foldl (fun s l => if (edradOf s l).state == .active then cardLost l (sendMessage l 6 [2] s) else s) s

/-- Fabric ports stop. -/
def stopPorts (s : State) : State := (List.range 24).foldl (fun s p => setPort p (fun q => { q with stopped := true }) (bringDown p s)) s

/-- Step 1 of a warm reset begins: the reset is counted with its cause. -/
def startWarm (cause : Nat) (s : State) : State :=
  if s.pow.warm != 0 || s.pow.boot != 0 then s
  else
    let s := bump (dkey 0x2002 3) 1 1 (if cause == 3 then bump (dkey 0x2002 3) 5 1 s else s)
    let s := setPow (fun p => { p with warm := 1, cause := cause, state := .active, lastReset := (2, cause, s.time.now) }) s
    stopPorts (noticeCards s)

/-- An orderly power-down runs steps 1 to 3 of a warm reset. -/
def startPowerDown (s : State) : State :=
  if s.pow.warm != 0 || s.pow.boot != 0 then s
  else
    let s := setPow (fun p => { p with warm := 1, state := .active }) { s with elec := { s.elec with pwrdn := true } }
    stopPorts (noticeCards s)

/-- Steps 3 to 5 of R409 begin for every partition that is Up, without zeroing. -/
def drainParts (s : State) : State := (List.range 12).foldl (fun s p => if partUp s p then startReset p 0 0 false false s else s) s

/-- Every partition reset of the drain has flushed. -/
def partsDrained (s : State) : Bool := s.part.parts.all fun x => x.2.resets.all fun r => r.2.step == 5 && r.2.flushes == 0

/-- Step 4 of a warm reset: what it resets, the darns and repairs it completes. -/
def warmLose (s : State) : State :=
  let s := applySram (withdrawDies (dropChannels (endDarns s)))
  let t := newFeed (lose s)
  { t with sec := { t.sec with ownerOnly := t.sec.ownerExclusive } }

/-- Steps 3 to 5 of the boot after a warm reset (R469). -/
def warmBoot (s : State) : State :=
  match startKind 1 (hubOrder s) s with
  | (true, s) => bootStep5 s
  | (false, s) => enterRecovery 1 s

/-- The power-down is complete: every die but the always-on island and MTR is held, PWRDN_RDY rises. -/
def powerDownDone (s : State) : State :=
  let s := record 1 0x2209 0xF hubCode [] s
  (setPow (fun p => { p with warm := 0 }) { s with elec := { s.elec with held := true, pwrdnRdy := true } }).emit (.pin 1 true)

/-- One step of the warm reset completes, where it can. -/
def warmStep (s : State) : State :=
  let next := fun (n : Nat) (s : State) => setPow (fun p => { p with warm := n }) s
  match s.pow.warm with
  | 1 => next 2 (drainParts s)
  | 2 => if partsDrained s then next 3 (startCopy s) else s
  | 3 => if s.obs.copying.isSome || s.far.commitDue then s else if s.elec.pwrdn then powerDownDone s else next 4 (warmLose s)
  | 4 => if s.elec.warmN then next 5 s else s
  | 5 =>
    let t := warmBoot s
    if t.sec.recovery then t else next 6 t
  | 6 => endBoot (record 1 0x2110 0xF hubCode [2, s.pow.cause] s)
  | _ => s

/-- WARM_RESET_STEP: A step of the warm reset completes and the next begins (R528). -/
def execWarmResetStep (s : State) : Res := .next <| when_ (hubUp s && s.pow.warm != 0) s (warmStep s)

/-- Active or Idle: a reset starts at once. -/
def awake (s : State) : Bool := s.pow.state == .active || s.pow.state == .idle

/-- Exit from Standby or Sleep for a reset or power-down, source 6 of WAKE_REPORT (R529, R553). -/
def wakeFor (s : State) : State :=
  match s.pow.state with
  | .standby => startWake 6 0 false s
  | .sleep => if s.pow.stuck then s else startWake 6 0 false s
  | _ => s

/-- WARM_RESET_N falls (R529). -/
def execWarmResetN (s : State) : Res := .next <|
  when_ s.elec.warmN s <|
    let s := { s with elec := { s.elec with warmN := false } }
    if !hubUp s || s.pow.boot != 0 || s.pow.warm != 0 then s
    else if awake s then startWarm 1 s
    else wakeFor (setPow (fun p => { p with warmAfter := true }) s)

/-- WARM_RESET_N rises: a reset held at step 4 goes on (R528). -/
def execWarmResetNRise (s : State) : Res := .next <|
  when_ (!s.elec.warmN) s <|
    let s := { s with elec := { s.elec with warmN := true } }
    if hubUp s && s.pow.warm == 4 then warmStep s else s

/-- WARM_RESET: writing 1 to WARM_RESET starts a warm reset (R528). -/
def execWarmReset (s : State) : Res := .next <|
  onWrite s 0x2002 1 1 (fun _ => true) fun _ c s => if ofLe c.data == 1 then (rDone, startWarm 2 s) else (rInvalid, s)

/-- PWRDN_REQ_N falls (R553). -/
def execPwrdnReqN (s : State) : Res := .next <|
  when_ (hubUp s && s.pow.boot == 0 && s.pow.warm == 0 && !s.elec.pwrdn) s <|
    if awake s then startPowerDown s else wakeFor (setPow (fun p => { p with pwrdnAfter := true }) s)

/-- A management core's watchdog expires: the core restarts; a second expiry within 10 s starts a warm reset (R531). -/
def execMcWatchdog (core : Nat) (s : State) : Res :=
  need (Nat.blt core 4) .noSuchCore <|
    when_ (serving s) s <|
      let again := match s.pow.watchdogAt with
        | some t => !due s t (10 * sec)
        | none => false
      let s := record 3 0x2111 0xF hubCode [core] (setPow (fun p => { p with watchdogAt := some s.time.now }) s)
      if again then startWarm 3 s else s

/-! ## Idle (R518) -/

/-- An engine die has a packet to process: one the mesh carries to it, or one that waits for a connection to be filled (R518). -/
def packetsHere (s : State) : Bool := (s.mesh.carry.any fun c => c.frame.isNone && Nat.blt c.dst 8) || !s.conn.waitFill.isEmpty

/-- No operation, run or kernel is under way, and no engine die processes a packet (R518). -/
def deviceIdle (s : State) : Bool :=
  !packetsHere s && (s.q.wqs.all fun x => x.2.ops.isEmpty) && (s.coll.slots.all fun x => x.2.run.isNone) && s.ar.jobs.isEmpty

def enterIdle (s : State) : State := record 1 0x2101 0xF hubCode [1] (setPow (fun p => { p with state := .idle }) s)

/-- POWER_CMD writes of one value. -/
def powerCmd (v : Nat) (s : State) (act : State → Nat × State) : State :=
  onWrite s 0x2000 2 2 (fun d => ofLe d == v) fun _ _ s => act s

/-- POWER_CMD_IDLE: POWER_CMD 1 puts an idle device into Idle at once (R518). -/
def execPowerCmdIdle (s : State) : Res := .next <|
  powerCmd 1 s fun s => if awake s && deviceIdle s then (rDone, enterIdle s) else (rBusy, s)

/-- IDLE_AFTER: the device has been idle that long (R518). -/
def execIdleAfter (s : State) : Res := .next <|
  when_ (running s && s.pow.state == .active && cfg s 0x2000 3 != 0 && deviceIdle s && due s s.pow.idleSince (cfg s 0x2000 3 * us)) s (enterIdle s)

/-- An access or event takes the device out of Idle (R518). -/
def execIdleExit (s : State) : Res := .next <| when_ (s.pow.state == .idle) s (leaveIdle s)

/-! ## Entering Standby and Sleep (R519 to R521) -/

/-- A channel, cluster, core or lane darn is in progress; a lane's until its port has retrained. -/
def darnInProgress (s : State) : Bool :=
  (s.mem.chans.any fun c => c.2.darn.isSome) || (s.fab.ports.any fun p => p.2.bring == .retrain && p.2.trigger == 2) || !s.pow.clusterDarn.isEmpty || s.pow.coreDarn.isSome

/-- POWER_CMD 2 or 3 is refused with BUSY (R519, R556). -/
def entryBusy (s : State) : Bool :=
  s.mgr.role != 0 || (s.coll.slots.any fun x => x.2.run.isSome) || (s.part.parts.any fun x => x.2.state == .resetting) || darnInProgress s
    || !awake s || s.elec.clocksOut.contains 3

/-- Accept an entry: its first step begins. -/
def startEntry (target : Nat) (s : State) : State :=
  setPow (fun p => { p with
    state := .entering, target := target, step := 1, stepAt := s.time.now, entryStart := s.time.now, latch := none }) s

/-- POWER_CMD_STANDBY: POWER_CMD 2 starts Standby entry (R520). -/
def execPowerCmdStandby (s : State) : Res := .next <| powerCmd 2 s fun s => if entryBusy s then (rBusy, s) else (rDone, startEntry 2 s)

/-- POWER_CMD_SLEEP: POWER_CMD 3 starts Sleep entry (R520). -/
def execPowerCmdSleep (s : State) : Res := .next <| powerCmd 3 s fun s => if entryBusy s then (rBusy, s) else (rDone, startEntry 3 s)

def inFlightOps (s : State) : Nat := s.q.wqs.foldl (fun n x => n + x.2.ops.length) 0

/-- SLEEP_REQ on each Active link (R357, R520 step 4). -/
def askSleep (s : State) : State :=
  [0, 1].foldl (fun s l => if (edradOf s l).state == .active then setEdrad l (fun e => { e with sleeping := true }) (sendMessage l 8 [] s) else s) s

/-- Every link asked to sleep is in electrical idle. -/
def linksAsleep (s : State) : Bool := [0, 1].all fun l => !(edradOf s l).sleeping || (edradOf s l).state == .idle

/-- Step 5: accelerator links go into L1, but those that refuse it; for Sleep they are disabled and reset. -/
def quietAccels (sleep : Bool) (refused : List Nat) (s : State) : State :=
  (List.range 8).foldl (fun s e =>
    let a := accelOf s e
    if sleep then setAccel e (fun a => { a with up := false, upB := false, inReset := true, downAt := none, lowPower := true }) s
    else if (a.up || a.upB) && !refused.contains e then setAccel e (fun a => { a with lowPower := true }) s
    else s) s

/-- Step 6: fabric ports go to electrical idle; in Standby a trained port keeps the settings a fast retrain needs. -/
def quietPorts (sleep : Bool) (s : State) : State :=
  (List.range 24).foldl (fun s p =>
    let s := if !sleep && (portOf s p).isTrained then stopPort p .retrain s else bringDown p s
    setPort p (fun q => { q with stopped := true }) s) s

/-- WAKE_AT has passed and its source is armed: it acts as a latched event (R522). -/
def timerPast (s : State) : Bool := cfg s 0x2001 2 != 0 && wakeArmed s 3 && cfg s 0x2001 2 ≤ s.time.now

/-- The always-on island keeps device time (R517; log 124, DEDUCED). -/
def aonTime (s : State) : State := { s with time := { s.time with aon := some (s.time.now, 0) } }

/-- Sleep has only the always-on rail. -/
def sleepLose (s : State) : State :=
  let t := lose s
  aonTime { t with mem := { t.mem with zeroing := true }, mtr := { t.mtr with bootWait := false } }

/-- Step 9: the state is reached, and what was latched during entry begins the exit at once. -/
def reachState (s : State) : State :=
  let st := if s.pow.target == 3 then PowerState.sleep else .standby
  let s := if s.pow.target == 3 then sleepLose s else aonTime s
  let s := record 1 0x2101 0xF hubCode [s.pow.target] (setPow (fun p => { p with state := st, step := 0, stepAt := s.time.now }) s)
  if s.pow.warmAfter || s.pow.pwrdnAfter then startWake 6 0 true s
  else
    match s.pow.latch with
    | some (src, port) => startWake src port true s
    | none => if timerPast s then startWake 4 0 true s else s

/-- Step k of an entry is complete, where it can be; `refused` names the accelerator ports that refuse L1. -/
def entryStep (refused : List Nat) (s : State) : State :=
  let sleep := s.pow.target == 3
  let next := fun (s : State) => setPow (fun p => { p with step := p.step + 1, stepAt := s.time.now }) s
  match s.pow.step with
  | 1 => next (if sleep then drainParts s else s)
  | 2 => if (if sleep then partsDrained s else inFlightOps s == 0) then next s else s
  | 3 => next (askSleep (if sleep then noticeCards s else s))
  | 4 => if linksAsleep s || due s s.pow.stepAt ms then next s else s
  | 5 => next (quietAccels sleep refused s)
  | 6 => next (quietPorts sleep s)
  | 7 => next (if sleep then s else { s with mem := { s.mem with selfRefresh := true } })
  | 8 => next (setVcore (fun _ => if sleep then 0 else 550) s)
  | 9 => reachState s
  | _ => s

/-- ENTRY_STEP_DONE: A step of Standby or Sleep entry completes and the next begins (R520). -/
def execEntryStepDone (refused : List Nat) (s : State) : Res := .next <|
  when_ (hubUp s && s.pow.state == .entering) s (entryStep refused s)

/-- The drain of a Standby entry has not ended within ENTRY_DRAIN: the entry is abandoned, and a reset that waited for it starts (R520). -/
def execEntryDrain (s : State) : Res := .next <|
  when_ (running s && s.pow.state == .entering && s.pow.target == 2 && s.pow.step == 2 && inFlightOps s != 0
      && due s s.pow.stepAt (cfg s 0x2000 4 * ms)) s <|
    let s := record 2 0x2102 0xF hubCode [inFlightOps s]
      (setPow (fun p => { p with state := .active, step := 0, target := 0, latch := none, idleSince := s.time.now }) s)
    if s.pow.warmAfter then startWarm 1 (setPow (fun p => { p with warmAfter := false }) s)
    else if s.pow.pwrdnAfter then startPowerDown (setPow (fun p => { p with pwrdnAfter := false }) s)
    else s

/-! ## Waking (R522 to R526) -/

/-- The always-on island matches its address; a device asleep or entering keeps it for the report (R522). -/
def execI3cAddressMatch (addr : Nat) (s : State) : Res := .next <|
    let note := s.pow.state == .standby || s.pow.state == .sleep || (s.pow.state == .entering && s.pow.latch.isNone)
    raiseWake 0 0 (if note && alwaysOn s then setPow (fun p => { p with report := { p.report with i3c := addr % 128 } }) s else s)

/-- Device time reaches WAKE_AT; the timer fires once for each value written (R522). -/
def execWakeAt (s : State) : Res := .next <|
  when_ (alwaysOn s && cfg s 0x2001 2 != 0 && cfg s 0x2001 2 ≤ s.time.now && !s.pow.timerDone) s <|
    raiseWake 3 0 (setPow (fun p => { p with timerDone := true }) s)

/-- The state being left: 2 Standby, 3 Sleep. -/
def leftSleep (s : State) : Bool := s.pow.target == 3

/-- Bound of a wake stage (R523). -/
def stageBound (s : State) : Nat :=
  let i := s.pow.stage
  if leftSleep s then if i == 1 then 20 * ms else if i == 2 then 2 * ms else if i == 3 then 170 * ms else 200 * ms
  else if i == 1 then 500 * us else if i == 2 then 100 * us else if i == 3 then 200 * us else 1 * ms

/-- The end of an exit: report, record, Active (R525). -/
def wakeDone (s : State) : State :=
  let r : WakeReport := { s.pow.report with
    source := s.pow.source, left := s.pow.target, discarded := leftSleep s, portLink := s.pow.wakePort,
    i3c := if s.pow.source == 1 then s.pow.report.i3c else 0, entryStart := s.pow.entryStart, exitStart := s.pow.exitStart, activeAt := s.time.now }
  let s := record 1 0x2103 0xF hubCode [r.source, r.left, b2n r.latched] s
  setPow (fun p => { p with state := .active, stage := 0, report := r, latch := none, idleSince := s.time.now }) s

/-- The logic stage after Standby: ports and links retrain, accelerator links leave L1, an upstream port is chosen again. -/
def resumeStandby (s : State) : State :=
  let s := (List.range 24).foldl (fun s p => setPort p (fun q => { q with stopped := false, stepAt := s.time.now }) s) s
  let s := [0, 1].foldl (fun s l => if (edradOf s l).state == .idle then startFast l (setEdrad l (fun e => { e with state := .training }) s) else s) s
  let s := (List.range 8).foldl (fun s e => setAccel e (fun a => { a with lowPower := false }) s) s
  rechoose { s with time := { s.time with state := .free, upstream := none } }

/-- The logic stage after Sleep: firmware starts again, epoch tables are filled, partitions come Up with slice 0. -/
def resumeSleep (s : State) : State :=
  let (ok, s) := startKind 1 (hubOrder s) s
  if !ok then enterRecovery 1 s
  else
    match startKinds [2, 3, 4, 5] s with
    | (0, s) =>
      let s := measureStraps { setVcore operatingMv s with conn := { s.conn with holdoff := some (s.time.now + 5 * ms) } }
      let s := { s with link := { s.link with accel := tmap s.link.accel fun _ a => { a with lowPower := false } },
                        fab := { s.fab with ports := tmap s.fab.ports fun _ p => { p with stopped := false } } }
      partitionsUp s
    | (k, s) => enterRecovery k s

/-- A wake stage is ready and the next starts; a reset or power-down that caused the exit takes over after the memory stage. -/
def stageReady (s : State) : State :=
  let next := fun (s : State) => setPow (fun p => { p with stage := p.stage + 1, stageAt := s.time.now }) s
  match s.pow.stage with
  | 1 =>
    -- Standby returns to the operating point, Sleep starts again at 0.75 V
    if (missingRails s).isEmpty then next (setVcore (fun r => if leftSleep s then 750 else operatingMv r) s) else s
  | 2 => next { s with time := { s.time with aon := none } }
  | 3 =>
    if s.mem.zeroing && leftSleep s then s
    else
      let s := { s with mem := { s.mem with selfRefresh := false } }
      if s.pow.warmAfter then
        let s := bump (dkey 0x2002 3) 1 1 (wakeDone s)
        setPow (fun p => { p with warm := 4, cause := 1, warmAfter := false, lastReset := (2, 1, s.time.now) }) (warmLose s)
      else if s.pow.pwrdnAfter then startPowerDown (setPow (fun p => { p with pwrdnAfter := false }) (wakeDone s))
      else next s
  | 4 =>
    let t := if leftSleep s then resumeSleep s else resumeStandby s
    if t.sec.recovery then t else wakeDone t
  | _ => s

/-- WAKE_STAGE_READY: A wake stage shows its ready signal and the next stage starts (R523). -/
def execWakeStageReady (s : State) : Res := .next <| when_ (hubUp s && s.pow.state == .leaving) s (stageReady s)

/-- A stage overruns: the wake restarts once; then only the always-on rail stays on until a cold reset (R524; log 90, DEDUCED). -/
def execWakeStageOverrun (s : State) : Res := .next <|
  when_ (hubUp s && s.pow.state == .leaving && due s s.pow.stageAt (stageBound s)) s <|
    if s.pow.attempts == 0 then
      record 2 0x2104 0xF hubCode [s.pow.stage, 1] (setPow (fun p => { p with attempts := 1, stage := 1, stageAt := s.time.now }) s)
    else
      let s := record 4 0x2104 0xF hubCode [s.pow.stage, 2] (sleepLose s)
      setPow (fun p => { p with state := .sleep, stage := 0, stuck := true }) { s with elec := { s.elec with alert := true } }

/-! ## Darning of clusters, arrays and cores (R532 to R536) -/

/-- Count in DARN_COUNTS: 0 cluster darns, 1 clusters withdrawn, 2 core darns, 3 arrays withdrawn, 4 SRAM entries, 5 mesh wire darns,
6 self-tests failed. -/
def countDarn (i : Nat) (s : State) : State := bump (dkey 0x2003 7) i 1 s

/-- The die's spare cluster is still in stock. -/
def clusterStock (s : State) (die : Nat) : Bool := (tget s.pow.clusterSpare die).isNone

/-- Cluster 4 is the spare at manufacture; it serves once it has taken a place. -/
def clusterServes (s : State) (die c : Nat) : Bool := !s.pow.clustersOut.contains (8 * die + c) && (c < 4 || !clusterStock s die)

/-- Dispatch to a worn cluster stops: the spare is promised to it where one is left, else it is withdrawn (R534). -/
def wearCluster (die c : Nat) (s : State) : State :=
  if s.pow.clustersOut.contains (8 * die + c) then s
  else
    let s := setPow (fun p => { p with clustersOut := insertNew p.clustersOut (8 * die + c) }) s
    if clusterStock s die then
      setPow (fun p => { p with clusterSpare := tset p.clusterSpare die c, clusterDarn := insertNew p.clusterDarn (8 * die + c) }) s
    else rebuildPattern (record 2 0x2121 0xF die [die, c] (countDarn 1 s))

/-- The WRITE of CLUSTER_DARN, and the quiescence that ends a darn: the spare has come in. -/
def clusterDarned (die c : Nat) (s : State) : State :=
  rebuildPattern (record 1 0x2120 0xF die [die, c, 4] (countDarn 0
    (setPow (fun p => { p with clusterDarn := p.clusterDarn.filter (· != 8 * die + c) }) s)))

/-- The record that the server runs is a WRITE of CLUSTER_DARN. -/
def clusterAsked (s : State) : Bool :=
  match current s with
  | some (_, x) => x.code == cWrite && x.index == 0x2003 && x.sub == 4
  | none => false

/-- The WRITE of CLUSTER_DARN (R534). -/
def askCluster (s : State) : State :=
  onWrite s 0x2003 4 4 (fun _ => true) fun _ x s =>
    let d := field x.data 0 1
    let k := field x.data 1 1
    if 7 < d || 4 < k then (rRange, s)
    else if !dieUp s d then (rInvalid, s)
    else if !clusterStock s d then (rNoResource, s)
    else (rDone, wearCluster d k s)

/-- CLUSTER_DARN: a WRITE of the entry that the server runs asks for a darn; otherwise the cluster named is quiescent and its darn ends (R534). -/
def execClusterDarn (die c : Nat) (s : State) : Res :=
  need (Nat.blt die 8) .noSuchDie <|
    if clusterAsked s then askCluster s
    else when_ (running s && dieUp s die && s.pow.clusterDarn.contains (8 * die + c)) s (clusterDarned die c s)

/-- Ask fabric firmware to park a core (R535). -/
def askPark (core : Nat) (s : State) : State := setPow (fun p => { p with coreDarn := some (core, s.time.now) }) s

/-- CORE_DARN: A core darn asks fabric firmware to park the core (R535). -/
def execCoreDarn (s : State) : Res := .next <|
  onWrite s 0x2003 5 5 (fun _ => true) fun _ c s =>
    let core := ofLe c.data
    if s.pow.coreSpare.isSome || s.pow.coreDarn.isSome then (rNoResource, s) else (rDone, askPark core s)

/-- Fabric firmware has parked the core: the spare takes its place (R535). -/
def execCoreParked (s : State) : Res := .next <|
    match s.pow.coreDarn with
    | some (core, _) =>
      when_ (running s) s <|
        rebuildPattern (record 1 0x2122 0xF hubCode [core] (countDarn 2
          (setPow (fun p => { p with coreSpare := some core, coreDarn := none }) s)))
    | none => s

/-- Not parked within 100 ms: recorded, and asked again 1 s later (R535). -/
def execCoreParkTimeout (s : State) : Res := .next <|
    match s.pow.coreDarn with
    | some (core, t) =>
      when_ (running s && due s t (100 * ms)) s <|
        record 2 0x2123 0xF hubCode [core] (setPow (fun p => { p with coreDarn := some (core, s.time.now + sec) }) s)
    | none => s

/-- A worn core: a record under policy 0, a darn under policy 1. -/
def wearCore (core : Nat) (s : State) : State :=
  if cfg s 0x2003 1 == 0 then record 2 0x212B 0xF hubCode [core] s
  else if s.pow.coreSpare.isSome || s.pow.coreDarn.isSome then s else askPark core s

/-- A worn matrix array is withdrawn. -/
def wearArray (die a : Nat) (s : State) : State :=
  if s.pow.arraysOut.contains (8 * die + a) then s
  else rebuildPattern (record 2 0x2124 0xF die [die, a] (countDarn 3 (setPow (fun p => { p with arraysOut := insertNew p.arraysOut (8 * die + a) }) s)))

/-- A worn cluster, by policy. -/
def clusterWorn (die c : Nat) (s : State) : State :=
  if cfg s 0x2003 1 == 0 then record 2 0x212A 0xF die [die, c] s else wearCluster die c s

/-- Corrected errors of a unit, keyed 32 × die + unit, since the hour began; answers whether they pass CLUSTER_WEAR_CE. -/
def countUnit (key n : Nat) (s : State) : Bool × State :=
  let (c, t) := tgetD s.pow.unitCe key (0, s.time.now)
  let x := if due s t (3600 * sec) then (n, s.time.now) else (c + n, t)
  (Nat.blt (cfg s 0x2003 2) x.1, setPow (fun p => { p with unitCe := tset p.unitCe key x }) s)

/-- A self-test of a unit ends, or its corrected errors come in: kind 0 cluster, 1 matrix array (of an engine die), 2 application core (of
the hub). A failed test, or too many errors of a cluster or core in an hour, makes the unit worn (R533). -/
def execSelftest (die kind unit errors : Nat) (passed : Bool) (s : State) : Res :=
  need (if kind == 2 then Nat.blt unit 17 else Nat.blt die 8) (if kind == 2 then .noSuchCore else .noSuchDie) <|
    when_ (running s && kind ≤ 2 && (kind == 2 || (dieUp s die && Nat.blt unit (if kind == 0 then 5 else 2)))) s <|
      let (many, s) := if kind == 1 then (false, s) else countUnit (32 * (if kind == 2 then hubCode else die) + unit) errors s
      let s := if passed then s else countDarn 6 s
      if passed && !many then s
      else if kind == 0 then clusterWorn die unit s else if kind == 1 then wearArray die unit s else wearCore unit s

/-! ## SRAM (R537) and mesh wires (R538) -/

/-- Enter a row or column for repair at the next warm reset, while the array has spares. -/
def enterSram (die array line : Nat) (s : State) : State :=
  let used := tgetD s.pow.sramUsed (65536 * die + array) 0
  if s.pow.sramEntered.contains (die, array, line) then s
  else if Config.sramSpares (65536 * die + array) ≤ used then record 2 0x2127 0xF die [die, array] s
  else
    record 1 0x2125 0xF die [die, array, line] (countDarn 4 (setPow (fun p => { p with
      sramUsed := tset p.sramUsed (65536 * die + array) (used + 1), sramPending := tmodD p.sramPending die 0 (· + 1),
      sramEntered := p.sramEntered ++ [(die, array, line)] }) s))

/-- An operation of this device meets an error that cannot be corrected: what of it has not ended ends with MEDIA_ERROR (R65, R537). -/
def endByMedia (wq idx : Nat) (s : State) : State :=
  match findOp s wq idx with
  | some o =>
    if o.result.isSome then s
    else if o.tiles.isEmpty then decideOp wq idx { status := stMediaError } s
    else
      let s := o.tiles.foldl (fun s t =>
        if t.ended then s
        else if t.st == .holding then endHeldTile wq o t stMediaError t.loc (fun _ _ => 0) s
        else withdrawTile (setTile wq idx t.off (fun t => { t with st := .failed stMediaError t.off 0 }) s) wq o t.off t.len stMediaError 0) s
      if o.wqe.opcode == opGet then decideGet wq idx s else s
  | none => s

/-- A row or column is corrected, or meets an error it cannot correct, in an operation of this device where one is named; the eighth
correction within 24 hours makes it worn (R537). -/
def execSramCorrection (die array line : Nat) (e : SramError) (s : State) : Res :=
  need (dieCodes.contains die) .noSuchDie <|
    when_ (running s && dieUp s die) s <|
      match e with
      | .uncorrectable x =>
        let s := enterSram die array line s
        match x with
        | some (wq, idx) => endByMedia wq idx s
        | none => s
      | .corrected =>
        let mine := fun (x : Nat × Nat × Nat × Nat × Nat) => x.1 == die && x.2.1 == array && x.2.2.1 == line
        let old := (s.pow.sramCe.find? mine).getD (die, array, line, 0, s.time.now)
        let n := if due s old.2.2.2.2 (86400 * sec) then 1 else old.2.2.2.1 + 1
        let at_ := if due s old.2.2.2.2 (86400 * sec) then s.time.now else old.2.2.2.2
        let rest := s.pow.sramCe.filter fun x => !mine x
        if n < 8 then setPow (fun p => { p with sramCe := rest ++ [(die, array, line, n, at_)] }) s
        else
          let s := setPow (fun p => { p with sramCe := rest }) s
          if cfg s 0x2003 1 == 0 then record 2 0x212C 0xF die [die, array, line] s else enterSram die array line s

/-- A mesh lane is worn or fails: a repair lane of its module takes it, or the link goes out of service (R24, R538). -/
def execMeshWireDarn (link modul dir lane : Nat) (s : State) : Res :=
  need (Nat.blt link 18) .noSuchMeshLink <|
    when_ (hubUp s && linkServes s link && modul < 4 && dir < 2) s <|
      let key := 8 * link + 2 * modul + dir
      if tgetD s.mesh.repairs key 0 < 4 then
        let s := { s with mesh := { s.mesh with repairs := tmodD s.mesh.repairs key 0 (· + 1) } }
        rebuildPattern (record 1 0x2128 0xF (bgCode (link / 2)) [link / 2, modul, lane] (countDarn 5 s))
      else linkOut link s

end Sys2Proof.Machine
end

