-- ==== Sys2Proof/Machine/Elec.lean ====
section
/-! DEFINITION. Rails and their power-goods, reference clocks, temperatures, throttling, the power limit, regulator faults. -/

namespace Sys2Proof.Machine

def setElec (f : ElecSt → ElecSt) (s : State) : State := { s with elec := f s.elec }

/-- Count in ELEC_COUNTS: 0 throttle entries, 1 ns throttled, 2 power-limit entries, 3 power-good glitches, 4 clock losses, 5 regulator
faults (R565). -/
def countElec (i n : Nat) (s : State) : State := bump (dkey 0x2203 0) i n s

/-! ## Power-goods (R549, R551, R554) -/

/-- Rails in the order of R548: VCORE_ENG 0 to 7, VCORE_PORT, VCORE_ATT, VCORE_HUB, VAON, VSD_075, VSD_120, VDD1, VDD2, VDDQ, VIO. -/
def vaon : Nat := 11

/-- A rail should be up now: in Sleep only VAON, from the steps that switch the others off, the memory rails first, to the stage that brings
them back (R520, R523, R554). -/
def railWatched (s : State) (r : Nat) : Bool :=
  let asleep := s.pow.target == 3 && (match s.pow.state with
    | .sleep => true
    | .entering => Nat.ble 8 s.pow.step || (s.pow.step == 7 && Nat.ble 14 r && Nat.ble r 16)
    | .leaving => Nat.ble s.pow.stage 1
    | .active => false
    | .idle => false
    | .standby => false)
  railPopulated s r && poweredOn s && (r == vaon || !asleep)

/-- The power-good of a watched rail is lost: an engine die fails; VAON stops everything but MTR, the recorder with it; any other rail
holds every die but the always-on island and MTR in reset. -/
def railLost (r : Nat) (s : State) : State :=
  if r < 8 then failDie r (record 3 0x2204 0xF r [r] s)
  else if r == vaon then
    let s := { s with obs := { s.obs with events := [] } }
    setElec (fun e => { e with held := true, vaonLost := true }) (record 4 0x2204 0xF hubCode [r] s)
  else setElec (fun e => { e with held := true, alert := true }) (record 4 0x2204 0xF hubCode [r] s)

/-- A power-good falls for `ns`; below 2 µs it is a glitch (R554). -/
def execPowerGoodLost (rail ns : Nat) (s : State) : Res :=
  need (Nat.blt rail 18) .noSuchRail <|
    if ns < 2000 then when_ (railWatched s rail) s (countElec 3 1 s)
    else
      let t := setElec (fun e => { e with pgLost := insertNew e.pgLost rail }) s
      if railWatched s rail then railLost rail t else t

/-- A power-good asserts; the last one that a device waits for starts its cold boot (R551). -/
def execPowerGoodAsserted (rail : Nat) (s : State) : Res :=
  need (Nat.blt rail 18) .noSuchRail <|
    let t := setElec (fun e => { e with pgLost := e.pgLost.filter (· != rail) }) s
    if t.elec.waitPg && (missingRails t).isEmpty then startCold t else t

/-! ## Reference clocks (R555, R556) -/

/-- Fabric ports and Edrad links lose lock. -/
def fabClockLost (s : State) : State :=
  let s := (List.range 24).foldl (fun s p => bringDown p s) s
  [0, 1].foldl (fun s l => if (edradOf s l).state == .active then startOutage l s else s) s

/-- An accelerator link drops: R367 applies. -/
def dropAccel (e : Nat) (second : Bool) (s : State) : State :=
  let x := accelOf s e
  if if second then x.upB else x.up then
    let s := setAccel e (fun x => { x with up := if second then x.up else false, upB := if second then false else x.upB,
                                           downAt := if x.downAt.isNone then some s.time.now else x.downAt, lossMs := cfg s 0x6005 1 }) s
    reportPort e second s
  else s

/-- Accelerator links in common-clock mode, as 2 × port + link, drop. -/
def pcieClockLost (common : List Nat) (s : State) : State :=
  (common.filter fun k => k < 16).foldl (fun s k => dropAccel (k / 2) (k % 2 == 1) s) s

/-- The time base keeps its last frequency; system alignment is held over (log 34, DESIGN CHOICE). -/
def sysClockLost (s : State) : State :=
  match s.time.state with
  | .aligned => { s with time := { s.time with state := .holdover, holdSince := s.time.now, within := 0 } }
  | .holdover => s
  | .acquiring => s
  | .free => s

/-- A clock is lost or off by more than twice its tolerance, `ppm` as measured: 0 FAB, 1 PCIE, 2 SYS, 3 AON (R556). -/
def execRefclkLoss (clk : Nat) (ppm : Int) (common : List Nat) (s : State) : Res :=
  need (Nat.blt clk 4) .noSuchRail <|
    when_ (hubUp s && !s.elec.clocksOut.contains clk) s <|
      let s := setElec (fun e => { e with clocksOut := insertNew e.clocksOut clk, ppm := tset e.ppm clk ppm }) s
      let s := record 3 0x2206 0xF hubCode [clk] (countElec 4 1 s)
      if clk == 0 then fabClockLost s else if clk == 1 then pcieClockLost common s else if clk == 2 then sysClockLost s else s

/-- REFCLK_RESTORED: A lost reference clock returns (R556). -/
def execRefclkRestored (clk : Nat) (ppm : Int) (s : State) : Res :=
  need (Nat.blt clk 4) .noSuchRail <|
    when_ (hubUp s && s.elec.clocksOut.contains clk) s <|
      record 1 0x2207 0xF hubCode [clk]
        (setElec (fun e => { e with clocksOut := e.clocksOut.filter (· != clk), ppm := tset e.ppm clk ppm }) s)

/-! ## Temperatures (R392, R559, R560, R562) -/

/-- Where a die's reading stands in TEMPS. -/
def tempIndex (code : Nat) : Nat := dieCodes.idxOf code

/-- The last reading of a die, 0.1 °C. -/
def tempOf (s : State) (code : Nat) : Int := tgetD s.elec.temps (tempIndex code) 0

/-- Bandwidth limit of a package at a reading t, from the limit in force: half above 95 °C, a quarter above 100 °C, each until the reading
has fallen 5 °C below. -/
def memLimit (old : Nat) (t : Int) : Nat :=
  if 1000 < t || (old == 4 && 950 < t) then 4
  else if 950 < t || (old != 0 && 900 < t) then 2
  else 0

/-- A package's reading sets its limit; `dt` ns have passed since the last one. -/
def readPackage (dt k : Nat) (t : Int) (s : State) : State :=
  let old := tgetD s.mem.limit k 0
  let new := memLimit old t
  let s := if old == 0 then s else countMem (2 * k + 1) 6 dt (countMem (2 * k) 6 dt s)
  let s := { s with mem := { s.mem with limit := if new == 0 then tdel s.mem.limit k else tset s.mem.limit k new } }
  if old < new then record 2 0x2015 0xF (2 * k) [2 * k, new] s else s

/-- Clock of an engine die, or of the hub as 8, in eighths. -/
def eighthsOf (s : State) (k : Nat) : Nat := tgetD s.elec.eighths k 8

/-- Die code of a throttled domain: engine dies, then the hub. -/
def domainCode (k : Nat) : Nat := if k < 8 then k else hubCode

def throttleTj (s : State) : Int := 10 * (cfg s 0x2200 1 : Int)

/-- A die's reading reaches THROTTLE_TJ: throttling starts. -/
def readDie (k : Nat) (s : State) : State :=
  let t := tempOf s (domainCode k)
  if throttleTj s ≤ t && !s.elec.hot.contains k then
    record 2 0x2200 0xF (domainCode k) [domainCode k, (t % (m64 : Int)).toNat]
      (countElec 0 1 (setElec (fun e => { e with hot := insertNew e.hot k }) s))
  else s

/-- Throttled domains of the grade that are in service: engine dies, then the hub. -/
def domains (s : State) : List Nat := below 9 fun k => dieUp s (domainCode k)

/-- The first die whose reading is 115 °C or more. -/
def tripped (s : State) : Option Nat := dieCodes.find? fun d => populated s d && decide (1150 ≤ tempOf s d)

/-- Thermal trip: every clock but the always-on island's stops, THERMTRIP_N is asserted. -/
def trip (die : Nat) (s : State) : State :=
  let t := tempOf s die
  (setElec (fun e => { e with thermtrip := true }) (record 4 0x2203 0xF die [die, (t % (m64 : Int)).toNat] s)).emit (.pin 2 false)

/-- The sensors are read: hottest reading per die in Pattern Table order, then per memory package, in 0.1 °C (R559). -/
def execTemperatureRead (temps : List Int) (s : State) : Res := .next <|
    let last := s.elec.tempsAt.getD 0
    let asleep := match s.pow.state with
      | .standby => true
      | .sleep => true
      | .active => false
      | .idle => false
      | .entering => false
      | .leaving => false
    when_ (hubUp s && !asleep && (s.elec.tempsAt.isNone || due s last (10 * us))) s <|
      let dt := if s.elec.tempsAt.isNone then 0 else s.time.now - last
      let readings : Tab Int := (List.range 29).map fun i => (i, (temps[i]?).getD 0)
      let s := setElec (fun e => { e with temps := readings, tempsAt := some s.time.now }) s
      let s := (List.range (engineDies s / 2)).foldl (fun s k => readPackage dt k (tgetD s.elec.temps (25 + k) 0) s) s
      let s := (domains s).foldl (fun s k => readDie k s) s
      match tripped s with
      | some d => trip d s
      | none => s

/-! ## Throttling (R560, R561) -/

/-- Power throttles an engine die; the hub only its own temperature. -/
def powerThrottled (s : State) (k : Nat) : Bool := s.elec.powerHot && Nat.blt k 8

/-- One domain steps: down an eighth to no less than a quarter while hot or past the power limit; up an eighth once 3 °C below. -/
def stepDomain (k : Nat) (s : State) : State :=
  let e := eighthsOf s k
  let t := tempOf s (domainCode k)
  let hot := s.elec.hot.contains k
  let set := fun (n : Nat) (s : State) =>
    setElec (fun x => { x with eighths := if n == 8 then tdel x.eighths k else tset x.eighths k n }) s
  if throttleTj s ≤ t || powerThrottled s k then set (max 2 (e - 1)) s
  else if hot && throttleTj s - 30 < t then s
  else
    let s := set (min 8 (e + 1)) s
    if hot && 7 ≤ e then
      record 1 0x2201 0xF (domainCode k) [domainCode k] (setElec (fun x => { x with hot := x.hot.filter (· != k) }) s)
    else s

/-- THROTTLE_STEP: every 100 µs a hot die lowers, or a cooled die raises, its cluster and array clocks by one eighth (R560). -/
def execThrottleStep (s : State) : Res := .next <|
    let last := s.elec.throttleAt.getD 0
    when_ (serving s && (s.elec.throttleAt.isNone || due s last (100 * us))) s <|
      let dt := if s.elec.throttleAt.isNone || s.elec.eighths.isEmpty then 0 else s.time.now - last
      let s := setElec (fun e => { e with throttleAt := some s.time.now }) (countElec 1 dt s)
      (domains s).foldl (fun s k => stepDomain k s) s

/-- Package power over the last 1 ms, in 0.1 W, and the rails as read: mV and current in 10 mA (R561). -/
def execPowerLimitCheck (power : Nat) (rails : List (Nat × Nat)) (s : State) : Res := .next <|
    when_ (serving s && (s.elec.limitAt.isNone || due s (s.elec.limitAt.getD 0) (100 * us))) s <|
      let limit := 10 * cfg s 0x2200 2
      let read : Tab (Nat × Nat) := (List.range 18).map fun r => (r, (rails[r]?).getD (0, 0))
      let s := setElec (fun e => { e with limitAt := some s.time.now, railMv := read }) s
      if limit < power then
        if s.elec.powerHot then s
        else record 2 0x2202 0xF hubCode [power] (countElec 2 1 (setElec (fun e => { e with powerHot := true }) s))
      else if power < limit then setElec (fun e => { e with powerHot := false }) s
      else s

/-- The regulator stage reports a fault of a rail with its status word (R548). -/
def execRegulatorFault (rail status : Nat) (s : State) : Res :=
  need (Nat.blt rail 18) .noSuchRail <|
    when_ (serving s) s (record 3 0x2208 0xF hubCode [rail, status] (countElec 5 1 s))

end Sys2Proof.Machine
end

