-- ==== Sys2Proof/Machine/Pattern.lean ====
section
/-! DEFINITION. The image of the Pattern Table. -/

namespace Sys2Proof.Machine

/-! ## Unit states (R440, R441) -/

/-- The islands of a die that are marked degraded. -/
def degradedOn (s : State) (code : Nat) : Bool :=
  (List.range (islandsOf code)).any fun i => (tgetD s.time.islands (firstIsland code + i) {}).degraded

/-- DIE state: 0 absent, 1 in service, 2 degraded, 3 failed. A die with a degraded island is degraded (log 33, DESIGN CHOICE). -/
def dieState (s : State) (code : Nat) : Nat :=
  if !populated s code then 0
  else if s.mesh.failed.contains code then 3
  else if degradedOn s code then 2
  else 1

/-- Clock of an island kind in MHz, 0 where the manual fixes none (R15, R25). -/
def islandMhz (code kind : Nat) : Nat :=
  if code < 8 then (if kind < 2 then 1600 else if 6 ≤ kind && kind < 13 then 2000 else 0)
  else if code == hubCode then (if kind < 17 then 3000 else 0)
  else 0

/-- An island is a spare not in service: the spare cluster or core while it is in stock. -/
def spareIsland (s : State) (code kind : Nat) : Bool :=
  (Nat.blt code 8 && kind == 10 && clusterStock s code && !s.pow.clustersOut.contains (8 * code + 4))
    || (code == hubCode && kind == 16 && s.pow.coreSpare.isNone)

/-- An island's unit is out of service: a withdrawn or darned cluster, array or core. -/
def islandOut (s : State) (code kind : Nat) : Bool :=
  (Nat.blt code 8 && ((Nat.ble 6 kind && Nat.blt kind 11 && s.pow.clustersOut.contains (8 * code + (kind - 6)))
    || (Nat.ble 11 kind && Nat.blt kind 13 && s.pow.arraysOut.contains (8 * code + (kind - 11)))))
    || (code == hubCode && s.pow.coreSpare == some kind)

/-- ISLAND state: 0 in service, 1 degraded, 2 spare, 3 failed. -/
def islandState (s : State) (code kind : Nat) : Nat :=
  if s.mesh.failed.contains code || islandOut s code kind then 3
  else if spareIsland s code kind then 2
  else if (tgetD s.time.islands (firstIsland code + kind) {}).degraded then 1
  else 0

/-! ## Entries (R440) -/

/-- The head of an entry. -/
def entryHead (ty len : Nat) : List Byte := leBytes 2 ty ++ leBytes 2 len

/-- MAC_BASE, most significant byte first (R278, R427, log 33, DESIGN CHOICE). -/
def macBase : List Byte := beBytes 6 (Config.fused 1)

def identityEntry (s : State) : List Byte :=
  entryHead 1 32 ++ leBytes 2 (Config.fused 0) ++ leBytes 2 s.grade ++ [0xB0, byteOf s.far.generation] ++ leBytes 2 0 ++
    leBytes 8 deviceId ++ macBase ++ leBytes 6 0

def dieEntry (s : State) (code : Nat) : List Byte :=
  entryHead 2 12 ++ [byteOf code, byteOf (dieState s code), byteOf (islandsOf code), 0] ++ leBytes 2 (firstIsland code) ++ leBytes 2 0

def islandEntry (s : State) (code kind : Nat) : List Byte :=
  entryHead 3 12 ++ leBytes 2 (firstIsland code + kind) ++ [byteOf code, byteOf kind] ++ leBytes 2 (islandMhz code kind) ++
    [byteOf (islandState s code kind), 0]

def meshEntry (s : State) (link : Nat) : List Byte :=
  let (a, b) := (meshLinks[link]?).getD (0, 0)
  let st := if !(populated s a && populated s b) then 0 else if s.mesh.out.contains link then 3 else 1
  let lanes := (List.range 8).foldl (fun n k => n + tgetD s.mesh.repairs (8 * link + k) 0) 0
  entryHead 4 12 ++ [byteOf (link / 2), byteOf a, byteOf b, byteOf st, byteOf lanes] ++ leBytes 3 0

def portEntry (s : State) (p : Nat) : List Byte :=
  let q := portOf s p
  let st := if q.failed then 2 else if q.wornNoStock then 1 else 0
  entryHead 5 16 ++ [byteOf p, byteOf (fpCode (p / 6)), byteOf (p % 6), byteOf st] ++ (coresOf s p).map byteOf ++ leBytes 4 0

/-- Memory slots of a die in service. -/
def slotsInService (s : State) (d : Nat) : Nat :=
  if s.mem.seven.contains d then 7 else 8 - ((List.range 8).filter fun k => (chanOf s d k).dead).length

def engineEntry (s : State) (d : Nat) : List Byte :=
  let clusters := (below 5 (clusterServes s d)).foldl (fun m c => m + 2 ^ c) 0
  let arrays := (below 2 fun a => !s.pow.arraysOut.contains (8 * d + a)).foldl (fun m c => m + 2 ^ c) 0
  entryHead 6 16 ++ [byteOf d, byteOf clusters, byteOf arrays, byteOf (dieState s d), byteOf (slotsInService s d)] ++ leBytes 7 0

/-- The slot that channel `c` of a die's eight stands for, none once the die has dropped it (R391). -/
def slotOfChannel (s : State) (d c : Nat) : Option Nat :=
  if s.mem.seven.contains d then
    match tget s.mem.dropped d with
    | some x => if c == x then none else if x < c then some (c - 1) else some c
    | none => some c
  else some c

/-- Serving die, slot and state of channel `c` of an engine die. -/
def ownChannel (s : State) (d c : Nat) : Nat × Nat × Nat :=
  match slotOfChannel s d c with
  | none => (d, 0xFF, 4)
  | some k =>
    let x := chanOf s d k
    if x.onSpare then (d, 0xFF, if x.worn then 3 else 4)
    else if x.dead then (d, k, 4)
    else if x.worn then (d, k, 3)
    else (d, k, 0)

/-- Serving die, slot and state of channel 16 of a package. -/
def spareChannel (s : State) (k : Nat) : Nat × Nat × Nat :=
  let used := [2 * k, 2 * k + 1].findSome? fun d => ((List.range 8).find? fun c => (chanOf s d c).onSpare).map fun c => (d, c, 2)
  used.getD (0xFF, 0xFF, 1)

def channelEntry (s : State) (k c : Nat) : List Byte :=
  let (d, slot, st) := if c == 16 then spareChannel s k else ownChannel s (2 * k + c / 8) (c % 8)
  entryHead 7 12 ++ [byteOf k, byteOf c, byteOf d, byteOf slot, byteOf st] ++ leBytes 3 0

/-- First number and count of a kind of object on a die: 1 work queues, 2 completion queues, 3 counters, 4 connection ends. -/
def objectRange (d kind : Nat) : Nat × Nat :=
  if kind == 1 then (2 ^ 17 * d, 2 ^ 17) else if kind == 4 then (2 ^ 17 * d, 2 ^ 16) else (2 ^ 15 * d, 2 ^ 15)

def rangeEntry (d kind : Nat) : List Byte :=
  let (first, count) := objectRange d kind
  entryHead 8 16 ++ [byteOf kind, byteOf d] ++ leBytes 2 0 ++ leBytes 4 first ++ leBytes 4 count

/-- The nine register blocks: block, BAR, offset, size (R360). -/
def registerBlocks (s : State) : List (Nat × Nat × Nat × Nat) :=
  [(1, 0, 0, 0x40000), (2, 0, 0x40000, 128), (3, 0, 0x40080, 128), (4, 0, 0x41000, 4096), (5, 0, 0x50000, 32768), (6, 0, 0x58000, 256),
   (7, 2, 0, 512 * 2 ^ 20), (8, 2, 0x20000000, 64 * 2 ^ 18), (9, 4, 0, frameSize * deviceFrames s)]

def blockEntry (b : Nat × Nat × Nat × Nat) : List Byte :=
  entryHead 9 20 ++ [byteOf b.1, byteOf b.2.1] ++ leBytes 2 0 ++ leBytes 4 b.2.2.1 ++ leBytes 8 b.2.2.2

def spareEntry (cls unit total used : Nat) : List Byte :=
  entryHead 10 16 ++ [byteOf cls, byteOf unit] ++ leBytes 2 0 ++ leBytes 4 total ++ leBytes 4 used

/-- Spare status of every unit: class, unit, total, in use (R440, R532). -/
def spareEntries (s : State) : List Byte :=
  let ds := List.range (engineDies s)
  ((List.range 4).flatMap fun q => spareEntry 1 (fpCode q) 2 (2 - (stockOf s q).length)) ++
  ((List.range (engineDies s / 2)).flatMap fun k => spareEntry 2 k 1 (b2n (s.mem.spareUsed.contains k))) ++
  (ds.flatMap fun d => spareEntry 3 d 1 (b2n (!clusterStock s d))) ++
  spareEntry 4 hubCode 1 (b2n s.pow.coreSpare.isSome) ++
  (ds.flatMap fun d => spareEntry 5 d 65536 (remapsOf s d))

def withdrawnEntries (s : State) : List Byte :=
  ((List.range (engineDies s)).filter fun d => Nat.blt (firstWithdrawn s d) 19074).flatMap fun d =>
    entryHead 11 12 ++ [byteOf d] ++ leBytes 3 0 ++ leBytes 4 (firstWithdrawn s d)

/-- Dies whose islands are listed. -/
def presentDies (s : State) : List Nat := dieCodes.filter (populated s)

/-- Everything after the header, in the order of R440. -/
def patternBody (s : State) : List Byte :=
  let ds := List.range (engineDies s)
  identityEntry s ++ dieCodes.flatMap (dieEntry s) ++
  ((presentDies s).flatMap fun c => (List.range (islandsOf c)).flatMap (islandEntry s c)) ++
  (List.range 18).flatMap (meshEntry s) ++ (List.range 24).flatMap (portEntry s) ++ ds.flatMap (engineEntry s) ++
  ((List.range (engineDies s / 2)).flatMap fun k => (List.range 17).flatMap (channelEntry s k)) ++
  (ds.flatMap fun d => [1, 2, 3, 4].flatMap (rangeEntry d)) ++ (registerBlocks s).flatMap blockEntry ++
  spareEntries s ++ withdrawnEntries s ++ entryHead 0xFFFF 4

/-- The header of R439. -/
def patternHead (s : State) (body : List Byte) : List Byte :=
  leBytes 64 (pack [(256, (Config.sha3 body).toNat), (96, s.far.patternGen), (64, 64 + body.length), (32, 1), (0, 0x54505A4B)])

/-- The image, without the zero bytes that follow LENGTH. -/
def patternImage (s : State) : List Byte := patternHead s (patternBody s) ++ patternBody s

end Sys2Proof.Machine
end

