-- ==== Sys2Proof/Machine/Values.lean ====
section
/-! DEFINITION. What a READ of each entry returns: settings as written, counts, and the values the units show. -/

namespace Sys2Proof.Machine

def u8s (l : List Nat) : List Byte := l.map byteOf
def u64s (l : List Nat) : List Byte := l.flatMap (leBytes 8)
/-- A signed value in two's complement of `n` bytes. -/
def signedBytes (n : Nat) (v : Int) : List Byte := leBytes n (v % ((2 ^ (8 * n) : Nat) : Int)).toNat
/-- A fixed-length value, padded with zero bytes. -/
def padded (n : Nat) (d : List Byte) : List Byte := d.take n ++ leBytes (n - d.length) 0

/-! ## Selectors and settings (R338, R421) -/

/-- Entries that apply to the port PORT_SEL selects. -/
def perPort (i n : Nat) : Bool :=
  i == 0x3101 || i == 0x3102 || i == 0x3103 || i == 0x3201 || i == 0x3301 || i == 0x3302 || i == 0x3510 || (i == 0x3300 && n == 1)

def portSel (s : State) (w : Sender) : Nat := selOf s w.num (dkey 0x3100 0)

/-- The key a setting is held under. -/
def settingKey (s : State) (w : Sender) (i n : Nat) : Nat := if perPort i n then dkey i n (portSel s w + 1) else dkey i n

/-- Entries held separately for each session (R421, R493, R516). -/
def perSession (i n : Nat) : Bool :=
  n == 0 && (i == 0x3100 || i == 0x5100 || i == 0x5110 || i == 0x3010 || i == 0x5400 || i == 0x5510 || i == 0x8201 || i == 0x8202 || i == 0xA010)

/-! ## Counts (R495) -/

/-- Elements of each counts array. -/
def countLen (i n : Nat) : Option Nat :=
  if i == 0x4110 || i == 0x4210 || i == 0x5410 then some 8
  else if i == 0xA020 then some 8
  else if i == 0x5520 || i == 0x7030 then some 5
  else if i == 0x5521 || i == 0x2402 then some 7
  else if i == 0x3030 then some 14
  else if i == 0x3101 && n == 4 then some 9
  else if i == 0x3103 && n == 6 then some 48
  else if i == 0x3600 && n == 3 then some 48
  else if i == 0x6003 || i == 0x8210 then some 11
  else if i == 0x6006 || i == 0x8014 || i == 0x9050 || i == 0x2203 then some 6
  else if i == 0x9100 && n == 3 then some 7
  else if i == 0x8100 then some 47
  else if i == 0x2002 && n == 3 then some 6
  else if i == 0x2003 && n == 7 then some 7
  else none

def countValue (s : State) (w : Sender) (i n : Nat) : Option (List Byte) :=
  if n == 0 && hasSubs i then none
  else (countLen i n).map fun k => u64s ((List.range k).map (countAt s (settingKey s w i n)))

/-! ## Collectives and arithmetic (R227, R266) -/

def GState.code (x : GState) : Nat :=
  match x with
  | .free => 0
  | .forming => 1
  | .ready => 2

def LoadState.code (x : LoadState) : Nat :=
  match x with
  | .empty => 0
  | .verifying => 1
  | .resident => 2
  | .refused => 3

def slotCode (s : State) (n : Nat) : Nat :=
  match tget s.coll.slots n with
  | some x => x.state.code
  | none => 0

def collValue (s : State) (w : Sender) (i n : Nat) : Option (List Byte) :=
  let g := groupOf s (groupSel s w)
  if i == 0x5101 then
    if n == 1 then some [byteOf g.state.code]
    else if n == 2 then some [byteOf g.flags]
    else if n == 3 then some (leBytes 4 g.timeout)
    else if n == 4 then some (leBytes 4 g.retired)
    else if n == 5 then some (leBytes 4 g.accElems)
    else if n == 6 then some (leBytes 8 g.seed)
    else none
  else if i == 0x5102 then some (u16Bytes g.members)
  else if i == 0x5111 then some (u16Bytes (tgetD s.coll.perms (selOf s w.num (dkey 0x5110 0)) {}).ranks)
  else if i == 0x5301 && 1 ≤ n then some [byteOf (slotCode s (n - 1))]
  else if i == 0x5401 then some (u16Bytes (tgetD s.coll.fencedLists (selOf s w.num (dkey 0x5400 0)) []))
  else if i == 0x5501 && 1 ≤ n then some [byteOf (tgetD s.ar.kernels (0x0F + n) .empty).code]
  else if i == 0x5511 then some (leBytes 64 (tgetD s.ar.binds (selOf s w.num (dkey 0x5510 0)) 0).toNat)
  else none

/-! ## Fabric, ports, time (R304, R338) -/

/-- State of a port as NEIGHBOURS shows it. -/
def neighbourState (s : State) (p : Nat) : Nat :=
  let q := portOf s p
  if !powered s p then 2
  else if q.heldOut != 0 then q.heldOut
  else if q.fenced then 7
  else if portLive s p then 1
  else 0

def neighbourRecord (s : State) (p : Nat) : List Byte :=
  let h := ((portOf s p).heard).getD 0
  byteOf (neighbourState s p) :: leBytes 8 (Hdr.deviceId h) ++ [byteOf (Hdr.port h)] ++ leBytes 2 (Hdr.coord h)

def rateCode (r : Nat) : Nat := if r == 800 then 1 else if r == 400 then 2 else if r == 200 then 3 else 0

def Align.code (a : Align) : Nat :=
  match a with
  | .free => 0
  | .acquiring => 1
  | .aligned => 2
  | .holdover => 3

def gateBytes (l : List GateEntry) : List Byte := l.flatMap fun e => leBytes 4 e.duration ++ leBytes 4 (e.gates % 16)

def fabricValue (s : State) (w : Sender) (i n : Nat) : Option (List Byte) :=
  let p := portSel s w
  if i == 0x3002 then some ((List.range 24).flatMap (neighbourRecord s))
  else if i == 0x3011 then some (leBytes 16 (tgetD s.fab.trees (selOf s w.num (dkey 0x3010 0)) 0).toNat)
  else if i == 0x3021 then some (u16Bytes s.fab.fenced)
  else if i == 0x3101 && n == 2 then some [byteOf (if (portOf s p).isTrained then rateCode (portOf s p).rate else 0)]
  else if i == 0x3102 && n == 4 then
    some (u8s ((List.range 6).flatMap (fun k => coresOf s (6 * (p / 6) + k)) ++ tgetD s.fab.failedCores (p / 6) []))
  else if i == 0x3300 && n == 1 then some (leBytes 8 (portOf s p).gateBase)
  else if i == 0x3302 && n == 3 then some (gateBytes (portOf s p).gateList)
  else if i == 0x3302 && n == 4 then some [byteOf (b2n (portOf s p).gatePending.isSome)]
  else if i == 0x3301 then some (gateBytes (gateEntries (cfgBytes s (dkey 0x3301 0 (p + 1)) 0 0)))
  else if i == 0x3500 then some (cfgBytes s (dkey 0x3500 0) 24 0)
  else if i == 0x3510 then some ((List.range 4).flatMap fun tc => let x := tgetD (portOf s p).hwm tc (0, 0); leBytes 4 x.1 ++ leBytes 4 x.2)
  else if i == 0x3400 then
    if n == 1 then some [byteOf (if isManager s then 2 else s.time.state.code)]
    else if n == 2 then some (signedBytes 4 s.time.offset)
    else if n == 3 then some [byteOf (s.time.upstream.getD 0xFF)]
    else if n == 9 then some (leBytes 8 s.time.ppsIn)
    else if n == 11 then some [byteOf (b2n s.time.setPending.isSome)]
    else none
  else none

/-! ## Links and memory (R373, R395) -/

def LState.code (x : LState) : Nat :=
  match x with
  | .down => 0
  | .training => 1
  | .active => 2
  | .outage => 3
  | .idle => 4

/-- PORT_STATE: link up, speed, width and FLIT mode of each link, then isolated. -/
def portStateBytes (a : Accel) : List Byte :=
  let one := fun (up : Bool) (speed width : Nat) (flit : Bool) => if up then [1, byteOf speed, byteOf width, byteOf (b2n flit)] else [0, 0, 0, 0]
  one a.up a.speed a.width a.flit ++ one a.upB a.linkB.1 a.linkB.2.1 a.linkB.2.2 ++ [byteOf (b2n a.isolated)]

def linkValue (s : State) (i n : Nat) : Option (List Byte) :=
  if i == 0x6001 && 9 ≤ n then
    let a := accelOf s (n - 9)
    some [byteOf (a.bound + 4 * b2n a.bifurcated)]
  else if i == 0x6002 && (n == 3 || n == 4) then some [byteOf (edradOf s (n - 3)).state.code]
  else if i == 0x6004 && 9 ≤ n then some (portStateBytes (accelOf s (n - 9)))
  else if i == 0x2400 && n == 1 then some (leBytes 4 (deviceFrames s))
  else if i == 0x2400 && n == 2 then
    some ((List.range (engineDies s)).flatMap fun d => leBytes 4 (if firstWithdrawn s d == 19074 then 0xFFFFFFFF else firstWithdrawn s d))
  else none

/-! ## Partitions, identity, manager, sessions (R414, R454) -/

/-- Slices of a partition, slice 0 counted while it is Up (R404). -/
def slicesInUse (s : State) (p : Nat) : Nat := if partUp s p then 1 + (partOf s p).slices.length else 0

/-- Path codes of SESSIONS: the order of R427 (log 33, DESIGN CHOICE). -/
def FPath.code (p : FPath) : Nat :=
  match p with
  | .segment => 0
  | .mailbox _ => 1
  | .accelMailbox _ => 2
  | .fabric => 3
  | .sideband => 4

def sessionRecord (x : Nat × Session) : List Byte :=
  leBytes 4 x.1 ++ [byteOf x.2.priv, byteOf x.2.part, byteOf (FPath.code x.2.path)] ++ leBytes 8 x.2.counter

def identityValue (s : State) (i n : Nat) : Option (List Byte) :=
  if i == 0x1000 then
    if n == 1 then some (leBytes 2 (Config.fused 0))
    else if n == 2 then some (leBytes 8 deviceId)
    else if n == 3 then some (leBytes 2 s.grade)
    else if n == 4 then some [0xB0]
    else if n == 5 then some macBase
    else none
  else if i == 0x1001 && n == 1 then some (leBytes 2 0x0100)
  else if i == 0x1100 then some (padded 262144 (patternImage s))
  else if i == 0x1200 && n == 2 then some [byteOf s.far.generation]
  else if i == 0x1200 && n == 3 then some [byteOf (b2n s.elec.genselS)]
  else if i == 0x3700 then
    if n == 2 then some [byteOf s.mgr.role]
    else if n == 3 then some (leBytes 4 s.mgr.epoch)
    else if n == 4 then some (leBytes 8 s.mgr.id)
    else none
  else if i == 0x3701 && n == 3 then some (u16Bytes s.mgr.witnesses)
  else if i == 0x3701 && n == 4 then some [byteOf (b2n s.mgr.standbySync)]
  else if i == 0x7000 && n == 2 then some (u8s ((List.range 12).map fun p => (partOf s p).state.code))
  else if i == 0x7021 && 1 ≤ n then some (leBytes 2 (slicesInUse s (n - 1)))
  else if i == 0x9100 && n == 2 then some (s.far.sessions.flatMap sessionRecord)
  else none

/-! ## Keys, images, attestation (R476) -/

def slotRecord (s : State) (cls slot : Nat) : List Byte :=
  let k := keySlot s cls slot
  [byteOf cls, byteOf slot, byteOf k.state] ++ digestBytes k.digest

/-- A bank in IMAGE_STATE; one that takes the pieces of an image shows as empty. -/
def bankRecord (s : State) (kind bank : Nat) : List Byte :=
  let b := bankOf s kind bank
  [byteOf (if b.state == 5 then 0 else b.state), byteOf (b2n b.preferred)] ++ leBytes 4 b.version ++
    [byteOf b.svn, byteOf (4 * b.signerClass + b.signerSlot)]

def securityValue (s : State) (w : Sender) (i n : Nat) : Option (List Byte) :=
  if i == 0x9000 && n == 1 then some ([0, 1].flatMap fun c => (List.range 4).flatMap (slotRecord s c))
  else if i == 0x9000 && n == 4 then some [byteOf (b2n s.sec.ownerExclusive)]
  else if i == 0x9010 && n == 1 then some ([1, 2, 3, 4, 5].flatMap fun k => [0, 1].flatMap (bankRecord s k))
  else if i == 0x9010 && n == 4 then some (u8s ([1, 2, 3, 4, 5].map (svnFused s)))
  else if i == 0x9020 then
    if n == 1 then some ((List.range 16).flatMap fun m => digestBytes (tgetD s.sec.measure m 0))
    else if n == 4 then some (padded 4096 (((tget s.far.sessions w.num).map (·.report)).getD []))
    else if n == 5 then some (leBytes 8 s.sec.reportCount)
    else if n == 6 then some (padded 1312 identityPublic)
    else if n == 7 then some (padded 2496 Config.identityCert)
    else none
  else if i == 0x9030 then
    if n == 1 then some ((List.range 15).flatMap fun k => leBytes 4 (tgetD s.sec.epochs k 0))
    else if n == 2 then some ((privilegeKeys s).flatMap digestBytes)
    else if n == 3 then some [byteOf (b2n s.sec.provisioned)]
    else none
  else if i == 0x9040 && n == 3 then some [byteOf s.sec.debug]
  else none

/-! ## Metering (R493) -/

def liveBytes (s : State) : List Byte :=
  leBytes 8 (milli s.mtr.m.energy) ++ leBytes 4 s.mtr.power ++
    (List.range 12).flatMap fun p => let x := mpart s.mtr.m.parts p; leBytes 8 x.active ++ leBytes 8 x.fabric ++ leBytes 8 x.host

def recordRange (s : State) : List Byte :=
  let seqs := s.mtr.records.map (·.seq)
  leBytes 8 (seqs.foldl min (seqs.headD 0)) ++ leBytes 8 (seqs.foldl max 0) ++
    leBytes 4 (s.mtr.records.filter fun r => !r.collected).length

def meterValue (s : State) (w : Sender) (i n : Nat) : Option (List Byte) :=
  if i == 0xA000 then
    if n == 1 then some (leBytes 8 (Config.fused 2))
    else if n == 2 then some (padded 3780 Config.meterCert)
    else if n == 3 then some (leBytes 4 s.mtr.audit)
    else if n == 4 then some [byteOf (meterState s)]
    else none
  else if i == 0xA001 then
    if n == 1 then some (leBytes 4 s.mtr.interval)
    else if n == 2 then some (leBytes 4 s.mtr.cal)
    else if n == 3 then some (leBytes 4 s.mtr.fw)
    else none
  else if i == 0xA002 && n == 1 then some (liveBytes s)
  else if i == 0xA002 && n == 2 then some (u64s ((List.range 18).map fun r => milli (tgetD s.mtr.m.rails r 0)))
  else if i == 0xA010 && n == 1 then
    some (padded 2932 (match recordOf s (selOf s w.num (dkey 0xA010 0)) with
      | some r => recordBytes r
      | none => []))
  else if i == 0xA010 && n == 2 then some (recordRange s)
  else none

/-! ## Counters, sampling, events (R516) -/

def pctrRecord (s : State) (w : Sender) (die k : Nat) : List Byte :=
  let p := pctrOf s die k
  if ownerSees w p.owner then
    [byteOf p.source, byteOf p.part] ++ leBytes 4 p.queue ++ leBytes 2 p.layer ++ leBytes 2 p.operator ++ [byteOf (b2n p.enable)]
  else leBytes 11 0

def histRecord (s : State) (w : Sender) (die k : Nat) : List Byte :=
  let h := histOf s die k
  if ownerSees w h.owner then [byteOf h.owner, byteOf h.kind] ++ leBytes 4 h.object else leBytes 6 0

def histBins (s : State) (w : Sender) (die k : Nat) : List Byte :=
  let h := histOf s die k
  u64s ((List.range 16).map fun b => if ownerSees w h.owner then tgetD h.bins b 0 else 0)

def sfifoCfgBytes (f : Sfifo) : List Byte :=
  [byteOf f.owner, byteOf (b2n f.enable)] ++ leBytes 4 f.period ++ [byteOf f.part] ++ leBytes 4 f.queue ++ leBytes 8 f.opcodes ++ leBytes 2 f.layer

def sfifoStateBytes (f : Sfifo) : List Byte :=
  leBytes 2 f.words.length ++ leBytes 4 f.lost ++ [byteOf (f.epoch % 16)] ++ leBytes 4 f.resets ++ leBytes 8 f.written

/-- A die's part of an entry with one subindex per engine die: zeros for an absent die. -/
def ofDie (s : State) (n size : Nat) (v : Nat → List Byte) : Option (List Byte) :=
  if n == 0 then none else some (if presentDie s n then v (n - 1) else leBytes size 0)

def observeValue (s : State) (w : Sender) (i n : Nat) : Option (List Byte) :=
  if i == 0x8010 then ofDie s n 704 fun d => (List.range 64).flatMap (pctrRecord s w d)
  else if i == 0x8011 then ofDie s n 512 fun d => u64s ((List.range 64).map fun k => let p := pctrOf s d k; if ownerSees w p.owner then p.value else 0)
  else if i == 0x8012 then ofDie s n 569 fun d => snapBytes w d s
  else if i == 0x8013 then ofDie s n 64 fun d => u8s ((List.range 64).map fun k => (pctrOf s d k).owner)
  else if i == 0x8021 then some ((List.range 42).flatMap fun l => bwRecord (tgetD s.obs.bw l {}))
  else if i == 0x8022 && 1 ≤ n then
    let b := tgetD s.obs.partBw (n - 1) {}
    some (leBytes 8 b.last.1 ++ leBytes 8 b.last.2.1 ++ leBytes 8 b.last.2.2)
  else if i == 0x8030 then ofDie s n 24 fun d => (List.range 4).flatMap (histRecord s w d)
  else if i == 0x8031 then ofDie s n 512 fun d => (List.range 4).flatMap (histBins s w d)
  else if i == 0x8040 then ofDie s n 21 fun d => sfifoCfgBytes (tgetD s.obs.sfifo d {})
  else if i == 0x8041 then some (leBytes 1024 0)
  else if i == 0x8042 then ofDie s n 19 fun d => sfifoStateBytes (tgetD s.obs.sfifo d {})
  else if i == 0x8200 && n == 1 then some (eventState s)
  else if i == 0x8200 && n == 2 then some (u64s ((List.range 5).map fun k => tgetD s.obs.lost k 0))
  else if i == 0x8203 then some (((eventsFor s w).take 20).flatMap eventBytes)
  else none

/-! ## Power and electrical (R541, R565) -/

def PowerState.code (x : PowerState) : Nat :=
  match x with
  | .active => 0
  | .idle => 1
  | .standby => 2
  | .sleep => 3
  | .entering => 4
  | .leaving => 5

def wakeReport (r : WakeReport) : List Byte :=
  [byteOf r.source, byteOf r.left, byteOf (b2n r.latched), byteOf (b2n r.discarded), byteOf r.portLink, byteOf r.i3c] ++
    leBytes 8 r.entryStart ++ leBytes 8 r.exitStart ++ leBytes 8 r.activeAt

/-- SRAM repairs of a die: pending, applied, spare rows and columns left of what manufacture gave (R537, log 6, DESIGN CHOICE). -/
def sramRecord (s : State) (code : Nat) : List Byte :=
  let used := tgetD s.pow.sramPending code 0 + tgetD s.pow.sramApplied code 0
  leBytes 2 (tgetD s.pow.sramPending code 0) ++ leBytes 2 (tgetD s.pow.sramApplied code 0) ++
    leBytes 4 (Config.sramRowsLeft code used) ++ leBytes 4 (Config.sramColumnsLeft code used)

def railRecord (s : State) (r : Nat) : List Byte :=
  let (mv, i) := tgetD s.elec.railMv r (0, 0)
  leBytes 2 mv ++ leBytes 4 i ++ [byteOf (b2n (!s.elec.pgLost.contains r))]

def powerValue (s : State) (i n : Nat) : Option (List Byte) :=
  if i == 0x2000 && n == 1 then some [byteOf s.pow.state.code]
  else if i == 0x2001 && n == 1 then some [byteOf (cfg s 0x2001 1 / 2 * 2 + 1)]
  else if i == 0x2001 && n == 3 then some (wakeReport s.pow.report)
  else if i == 0x2002 && n == 2 then some ([byteOf s.pow.lastReset.1, byteOf s.pow.lastReset.2.1] ++ leBytes 8 s.pow.lastReset.2.2)
  else if i == 0x2003 && n == 6 then some (dieCodes.flatMap (sramRecord s))
  else if i == 0x2200 && n == 3 then
    some ((List.range (25 + engineDies s / 2)).flatMap fun k => signedBytes 2 (tgetD s.elec.temps k 0))
  else if i == 0x2200 && n == 4 then some (u8s ((List.range (engineDies s)).map (eighthsOf s) ++ [eighthsOf s 8]))
  else if i == 0x2201 && n == 1 then some ((List.range 18).flatMap (railRecord s))
  else if i == 0x2202 then
    some ((List.range 4).flatMap fun k => byteOf (b2n (!s.elec.clocksOut.contains k)) :: signedBytes 2 (tgetD s.elec.ppm k 0))
  else none

/-! ## Every entry -/

/-- The value of an entry as a sender sees it; an ARRAY's elements alone. What no unit shows is a setting, a session's own selector among
them, or the highest subindex of an index (R415). -/
def valueOf (s : State) (w : Sender) (e : Entry) (n : Nat) : List Byte :=
  let i := e.index
  let tries := [countValue s w i n, collValue s w i n, fabricValue s w i n, linkValue s i n, identityValue s i n, securityValue s w i n,
    meterValue s w i n, observeValue s w i n, powerValue s i n]
  if perSession i n then leBytes e.size (selOf s w.num (dkey i n) e.dflt)
  else if n == 0 && hasSubs i then leBytes 1 e.dflt
  else
    match tries.findSome? id with
    | some v => v
    | none => cfgBytes s (settingKey s w i n) (if e.ty == 14 then 0 else e.size) e.dflt

end Sys2Proof.Machine
end

