-- ==== Sys2Proof/Machine/Farnen.lean ====
section
/-! DEFINITION. The Farnen protocol: frames and their paths, sessions, and the commands that no entry's own row gives. -/

namespace Sys2Proof.Machine

/-- Count in FARNEN_COUNTS: 0 requests run, 1 dropped by R433, 2 resent, 3 dropped by R431, 4 DENIED, 5 commits, 6 GOs ignored (R454). -/
def countFarnen (i : Nat) (s : State) : State := bump (dkey 0x9100 3) i 1 s

/-! ## Paths (R402, R427, R434, R470) -/

/-- A mailbox takes requests: its partition is Up; numbers 16 and 17 stand for function 0 of a link to which no partition is bound
(log 33, DESIGN CHOICE). -/
def mailboxOpen (s : State) (p : Nat) : Bool :=
  if p < 12 then partUp s p else (p == 16 || p == 17) && (boundParts s (p - 16)).isEmpty

/-- The server answers on a path: in recovery on the sideband and the management segment, as BOOTSEL restricts it (R468). -/
def pathOpen (s : State) (p : FPath) : Bool :=
  match p with
  | .segment => !(s.sec.recovery && s.elec.bootselS == 3)
  | .mailbox n => !s.sec.recovery && mailboxOpen s n
  | .accelMailbox n => !s.sec.recovery && Nat.blt n 12 && partUp s n
  | .fabric => !s.sec.recovery
  | .sideband => !(s.sec.recovery && s.elec.bootselS == 4)

/-! ## Taking a frame (R428, R431, R433) -/

/-- The length a frame's own records give it (R428, R429). -/
def frameLength (f : FarnenFrame) : Nat := 40 + f.cmds.foldl (fun a c => a + 12 + (c.data.length + 3) / 4 * 4) 0

/-- MAGIC, VERSION and LENGTH are right. -/
def frameForm (f : FarnenFrame) : Bool :=
  f.magic == 0x4E46 && f.version == 1 && f.length == frameLength f && Nat.ble 52 f.length && Nat.ble f.length 1400
    && Nat.ble 1 f.cmds.length && Nat.ble f.cmds.length 32

/-- Queue an accepted request; past 64 waiting it is dropped and counted, and its counter stays unused (R431). -/
def admitRequest (path : FPath) (f : FarnenFrame) (s : State) : Bool × State :=
  if 64 ≤ s.far.queue.length then (false, countFarnen 3 s)
  else
    let s := onSession f.session (fun x => { x with counter := f.counter, lastFrame := s.time.now }) s
    let r : Request := { path := path, session := f.session, counter := f.counter, transaction := f.transaction, notice := f.type == 3, cmds := f.cmds,
                         key := (tget s.far.sessions f.session).map (·.key) }
    (f.type != 3, startNext { s with far := { s.far with queue := s.far.queue ++ [r] } })

/-- The server takes a frame: it is dropped and counted, answered again with the kept response, or queued. Answers whether a response is
to come. -/
def takeFrame (path : FPath) (f : FarnenFrame) (s : State) : Bool × State :=
  let drop := fun (s : State) => (false, countFarnen 1 s)
  if !frameForm f then drop s
  else if f.type != 1 && f.type != 3 then (false, s)
  else if f.session == 0 then admitRequest path f s
  else
    match tget s.far.sessions f.session with
    | none => drop s
    | some x =>
      if Config.cmac x.key (frameBody f) != f.tag then drop (countSec 0 s)
      else
        match x.kept with
        | some r =>
          if r.counter == f.counter && r.transaction == f.transaction then
            (false, respond path r (countFarnen 2 (onSession f.session (fun x => { x with lastFrame := s.time.now }) s)))
          else if f.counter ≤ x.counter then drop s else admitRequest path f s
        | none => if f.counter ≤ x.counter then drop s else admitRequest path f s

/-- A frame on the management segment or a management connection (R433). -/
def execFarnenFrame (path : FPath) (f : FarnenFrame) (s : State) : Res := .next <|
  when_ (serving s && pathOpen s path) s (takeFrame path f (leaveIdle s)).2

/-- A write of a mailbox's control word, with the request frame that stands in the mailbox: GO submits it, unless a request runs (R434). -/
def execMailboxGo (part : Nat) (accel : Bool) (vector : Nat) (irqEn go : Bool) (f : FarnenFrame) (s : State) : Res := .next <|
  let path : FPath := if accel then .accelMailbox part else .mailbox part
  when_ (serving s && pathOpen s path) s <|
    let s := leaveIdle s
    let put := fun (g : Mailbox → Mailbox) (s : State) => { s with far := { s.far with mailboxes := tmodD s.far.mailboxes part {} g } }
    let s := put (fun m => { m with vector := vector % 4096, irqEn := irqEn }) s
    if !go then s
    else if (tgetD s.far.mailboxes part {}).running then countFarnen 6 s
    else
      let (waits, s) := takeFrame path f (put (fun m => { m with done := false }) s)
      put (fun m => { m with running := waits }) s

/-- A private write on the sideband: it discards a response not yet read (R436). -/
def execSidebandRequest (i3c : Bool) (f : FarnenFrame) (s : State) : Res := .next <|
  when_ (serving s && pathOpen s .sideband) s <|
    (takeFrame .sideband f (leaveIdle { s with far := { s.far with sideband := none, sideI3c := i3c } })).2

/-- A private read on the sideband returns the response that waits, or length 0 (R436). -/
def execSidebandRead (s : State) : Res := .next <|
  when_ (serving s && pathOpen s .sideband) s <|
    let s := leaveIdle s
    ({ s with far := { s.far with sideband := none } }).emit
      (.sideband (match s.far.sideband with
        | some r => leBytes 2 (respLength r) ++ respBytes r
        | none => leBytes 2 0))

/-! ## Sessions (R432, R459, R475) -/

/-- Run the record under way where it carries a code. -/
def onCode (s : State) (code : Nat) (act : Request → Sender → Cmd → State → State) : State :=
    match current s with
    | some (r, c) => if serving s && c.code == code then act r (senderOf s r) c s else s
    | none => s

/-- The mailbox of a partition's own function. -/
def ownMailbox (p : FPath) (part : Nat) : Bool := p == .mailbox part || p == .accelMailbox part

/-- What OPEN meets before a session is opened. -/
def openCheck (s : State) (w : Sender) (c : Cmd) : Nat :=
  let priv := field c.data 0 1
  let part := field c.data 1 1
  let epoch := field c.data 2 4
  if w.num != 0 then rDenied
  else if c.data.length != 22 || c.length != 22 then rLength
  else if priv < 1 || 4 < priv || (priv == 1 && 11 < part) then rRange
  else if priv == 1 && !ownMailbox w.path part then rDenied
  else if epoch != 0 && epoch < s.mgr.epoch then rStaleManager
  else if 64 ≤ s.far.sessions.length || !s.sec.randomOk then rNoResource
  else rDone

/-- Open a session: its number and a device nonce go back; a higher manager epoch is learned (R450). -/
def openSession (w : Sender) (c : Cmd) (s : State) : State :=
  let priv := field c.data 0 1
  let part := if priv == 1 then field c.data 1 1 else 0xFF
  let epoch := field c.data 2 4
  let s := learnEpoch epoch s.mgr.id s
  let (nonce, s) := drawBytes 16 s
  let n := s.far.nextSession
  let x : Session :=
    { priv := priv, part := part, path := w.path, epoch := epoch,
      key := sessionKey (privKey s priv part) n (slice c.data 6 16) nonce epoch, lastFrame := s.time.now }
  let next := if n == m32 - 1 then 1 else n + 1
  finish rDone (leBytes 4 n ++ nonce) { s with far := { s.far with sessions := tset s.far.sessions n x, nextSession := next } }

/-- OPEN: A Farnen OPEN creates an authenticated session and returns its number and nonce (R432). -/
def execOpen (s : State) : Res := .next <|
  onCode s cOpen fun _ w c s =>
    let k := openCheck s w c
    if k == rDone then openSession w c s else finish k [] s

/-- CLOSE_SESSION: A Farnen CLOSE ends its session (R432). -/
def execCloseSession (s : State) : Res := .next <|
  onCode s cClose fun _ w _ s => if w.num == 0 then finish rDenied [] s else finish rDone [] (closeSession w.num s)

/-- Codes of the commands, the manager's among them. -/
def knownCode (c : Nat) : Bool := (Nat.ble 1 c && Nat.ble c 4) || c == 0x10 || c == 0x11 || (Nat.ble 0x30 c && Nat.ble c 0x34)

/-- A reserved CODE; in recovery the manager's codes are not accepted either (R470). -/
def execBadCommand (s : State) : Res := .next <|
    match current s with
    | some (_, c) =>
      if !serving s then s
      else if !knownCode c.code then finish rBadCommand [] s
      else if s.sec.recovery && Nat.ble 0x30 c.code then finish rDenied [] s
      else s
    | none => s

/-- SESSION_IDLE: A session has received no frame for SESSION_IDLE and is closed (R432). -/
def execSessionIdle (session : Nat) (s : State) : Res := .next <|
    match tget s.far.sessions session with
    | some x => when_ (serving s && due s x.lastFrame (cfg s 0x9100 1 * sec)) s (closeSession session s)
    | none => s

/-- STAGED_RECORD_TIMEOUT: 10 s pass without a further piece of a staged record, and the held pieces are discarded (R418). -/
def execStagedRecordTimeout (session : Nat) (s : State) : Res := .next <|
    match (tget s.far.sessions session).bind fun x => x.staged with
    | some g => when_ (serving s && due s g.last (10 * sec)) s (dropStaged session s)
    | none => s

/-! ## READ, DESCRIBE, NEXT (R416, R417, R429) -/

/-- Entries whose reads have a row of their own (log 83, DEDUCED). -/
def readHasRow (i n : Nat) : Bool :=
  (i == 0x9030 && n == 2) || (i == 0xA000 && n == 4) || (i == 0xA010 && n == 1) || (i == 0x8012 && n != 0) || i == 0x8021 ||
  (i == 0x8041 && n != 0) || i == 0x8203 || (i == 0x9040 && n == 1) || i == 0x3510

/-- A Tenant reaches a die's sample FIFO only while its partition owns it. -/
def fifoDenied (s : State) (w : Sender) (i n : Nat) : Bool :=
  (i == 0x8040 || i == 0x8042) && 1 ≤ n && w.priv == 1 && (tgetD s.obs.sfifo (n - 1) {}).owner != w.part

/-- Result and data of a READ of an entry. -/
def readEntry (s : State) (w : Sender) (e : Entry) (c : Cmd) : Nat × List Byte :=
  if shutOut s e.index c.sub || !reach w e c.sub true || fifoDenied s w e.index c.sub then (rDenied, [])
  else if e.access == 2 then (rAccess, [])
  else
    let v := valueOf s w e c.sub
    if Nat.blt v.length c.offset then (rLength, [])
    else (rDone, if e.ty == 14 then readArray c e.size v else readSpan c v)

/-- READ: A Farnen READ returns bytes of an entry's value (R429). -/
def execRead (s : State) : Res := .next <|
  onCode s cRead fun _ w c s =>
    if readHasRow c.index c.sub then s
    else
      match entryAt c.index c.sub with
      | some e =>
        let (res, d) := readEntry s w e c
        finish res d s
      | none => finish rNoEntry [] s

/-- The 8 bytes of DESCRIBE. -/
def describeBytes (s : State) (w : Sender) (e : Entry) (n : Nat) : List Byte :=
  let size := if e.ty == 14 then 4 + (valueOf s w e n).length else e.size
  [byteOf e.ty, byteOf e.access, byteOf e.cls, byteOf e.priv] ++ leBytes 4 size

/-- DESCRIBE: A Farnen DESCRIBE returns an entry's type, access, class, privilege and size (R429). -/
def execDescribe (s : State) : Res := .next <|
  onCode s cDescribe fun _ w c s =>
    match entryAt c.index c.sub with
    | some e => finish rDone (describeBytes s w e c.sub) s
    | none => finish rNoEntry [] s

/-- Every Index:Sub of a row, and the sub 0x00 of its index (R415). -/
def subsOf (e : Entry) : List (Nat × Nat) :=
  (e.index, 0) :: (List.range (e.last + 1 - e.first)).map fun k => (e.index, e.first + k)

/-- A sender may reach an entry for a read or a write. -/
def mayReach (s : State) (w : Sender) (i n : Nat) : Bool :=
  match entryAt i n with
  | some e => !shutOut s i n && (reach w e n true || reach w e n false)
  | none => false

/-- The next entry after a key that a sender may reach. -/
def nextEntry (s : State) (w : Sender) (key : Nat) : Option (Nat × Nat) :=
  (entries.flatMap subsOf).foldl (fun best x =>
    let k := dkey x.1 x.2
    let sooner := match best with
      | some b => Nat.blt k (dkey b.1 b.2)
      | none => true
    if Nat.blt key k && sooner && mayReach s w x.1 x.2 then some x else best) none

/-- NEXT: A Farnen NEXT returns the next reachable entry and its description (R429). -/
def execNext (s : State) : Res := .next <|
  onCode s cNext fun _ w c s =>
    match nextEntry s w (dkey c.index c.sub) with
    | some (i, n) =>
      match entryAt i n with
      | some e => finish rDone (leBytes 2 i ++ leBytes 1 n ++ describeBytes s w e n) s
      | none => finish rDone (leBytes 2 0xFFFF ++ leBytes 1 0xFF) s
    | none => finish rDone (leBytes 2 0xFFFF ++ leBytes 1 0xFF) s

/-! ## WRITE (R417, R424) -/

/-- Entries whose writes have rows of their own, for every value. -/
def writeHasRow (i n : Nat) : Bool :=
  i == 0x5200 || i == 0x5201 || i == 0x5111 || (i == 0x2401 && n == 5) || (i == 0x6002 && n == 5) || (i == 0x3001 && n == 2) || i == 0x3011 ||
  (i == 0x3702 && n == 3) || ((i == 0x8010 || i == 0x8011 || i == 0x8013 || i == 0x8030) && n != 0) || (i == 0x8020 && n == 1) || i == 0x8204 ||
  (i == 0x3101 && n == 1) || (i == 0x3102 && n == 3) || (i == 0x3302 && n == 2) || (i == 0x3400 && n == 10) || (i == 0x3600 && n == 2) ||
  (i == 0x2002 && n == 1) || (i == 0x2003 && (n == 4 || n == 5)) || i == 0x5300 || i == 0x5302 || (i == 0x9030 && (n == 1 || n == 4)) ||
  (i == 0x9000 && (n == 2 || n == 3 || n == 4)) || (i == 0x9010 && (n == 2 || n == 3 || n == 5)) || (i == 0x9020 && (n == 2 || n == 3)) ||
  (i == 0x9040 && n == 2) || i == 0x5500 || i == 0x5502 || i == 0x5511

/-- Entries with a row for each action: the action a value names has one. -/
def actionHasRow (i n : Nat) (d : List Byte) : Bool :=
  let one := fun (v low high : Nat) => Nat.ble low v && Nat.ble v high
  if i == 0x5103 then one (ofLe d) 1 2
  else if i == 0x7010 then one (field d 1 1) 1 2
  else if i == 0x7020 then one (field d 5 1) 1 3
  else if i == 0x3020 then one (field d 3 1) 0 1
  else if i == 0xA030 then one (field d 0 1) 1 3
  else if i == 0x2000 && n == 2 then one (ofLe d) 1 3
  else false

/-- Entries of which only the named actions are in range. -/
def actionEntry (i n : Nat) : Bool :=
  i == 0x5103 || i == 0x7010 || i == 0x7020 || i == 0x3020 || i == 0xA030 || (i == 0x2000 && n == 2)

/-- Bits of a setting that are not reserved (R11). -/
def settingMask (i n : Nat) : Nat :=
  if i == 0x3001 && (n == 1 || n == 4) then 0x0FFF
  else if i == 0x700C then 1
  else if i == 0x6001 then 7
  else m64 - 1

/-- A record of SUBMGR_LIST: the box and its sub-manager. -/
structure Box where
  coord : Nat
  low : Nat × Nat × Nat
  high : Nat × Nat × Nat

def boxOf (r : List Byte) : Box :=
  { coord := field r 0 2, low := (field r 2 1, field r 4 1, field r 6 1), high := (field r 3 1, field r 5 1, field r 7 1) }

/-- A box holds its own sub-manager. -/
def Box.holds (b : Box) : Bool :=
  let inside := fun (d low high : Nat) => Nat.ble low (coordOf b.coord d) && Nat.ble (coordOf b.coord d) high
  inside 0 b.low.1 b.high.1 && inside 1 b.low.2.1 b.high.2.1 && inside 2 b.low.2.2 b.high.2.2

def Box.meets (a b : Box) : Bool :=
  let overlap := fun (la ha lb hb : Nat) => Nat.ble la hb && Nat.ble lb ha
  overlap a.low.1 a.high.1 b.low.1 b.high.1 && overlap a.low.2.1 a.high.2.1 b.low.2.1 b.high.2.1 && overlap a.low.2.2 a.high.2.2 b.low.2.2 b.high.2.2

/-- No two boxes of a list meet. -/
def apart : List Box → Bool
  | [] => true
  | b :: t => t.all (fun x => !b.meets x) && apart t

def submgrOk (d : List Byte) : Bool :=
  let bs := (recordsOf 8 d).map boxOf
  bs.all Box.holds && apart bs

/-- Records of ranges are multiples of their units; other checks across a value's fields or of one setting against another (R304, R338,
R373, R414, R156). -/
def valueCheck (s : State) (w : Sender) (i n : Nat) (d : List Byte) : Nat :=
  let v := ofLe d
  let multiple := fun (u : Nat) => field d 0 4 % u == 0 && field d 4 4 % u == 0
  let ok :=
    if i == 0x7005 then multiple 4096
    else if i == 0x7007 then multiple 1024
    else if i == 0x7008 || i == 0x7009 then multiple 256
    else if i == 0x700A then Nat.ble (field d 0 4) 65536 && Nat.ble 1 (field d 8 2) && Nat.ble (field d 8 2) 16384
    else if i == 0x6001 then v % 4 != 3
    else if i == 0x3001 && n == 1 then Nat.blt (v % 16) 12
    else if i == 0x3103 && n == 4 then Nat.ble (v + 4096) (cfgPort s (portSel s w) 0x3103 3)
    else if i == 0x4100 && n == 2 then Nat.ble (cfg s 0x4100 1) v
    else if i == 0x5101 && n == 5 then v % 512 == 0
    else if i == 0x3501 then Nat.ble 12 (field d 12 1) && Nat.ble (field d 12 1) 24
    else true
  if ok then rDone else rRange

/-- Write a setting. -/
def storeSetting (w : Sender) (e : Entry) (n : Nat) (d : List Byte) (s : State) : State :=
  let v := if e.ty ≤ 5 then leBytes e.size (ofLe d % (settingMask e.index n + 1)) else d
  let s := setDict (settingKey s w e.index n) v s
  if e.cls == 2 then markStored s else s

/-- A field of the selected group, writable only while the group is Free: the state in which a group is taken as quiescent (R12, R227;
log 126, DESIGN CHOICE). -/
def writeGroup (w : Sender) (s : State) (act : Group → Option Group) : Nat × State :=
  let g := groupSel s w
  let gr := groupOf s g
  if gr.state != .free then (rBusy, s)
  else
    match act gr with
    | some x => (rDone, { s with coll := { s.coll with groups := tset s.coll.groups g x } })
    | none => (rLength, s)

def groupField (w : Sender) (c : Cmd) (s : State) : Nat × State :=
  let v := ofLe c.data
  if c.index == 0x5102 then writeGroup w s fun gr => (writeArray c (u16Bytes gr.members)).map fun d => { gr with members := u16s d }
  else if c.sub == 2 then writeGroup w s fun gr => some { gr with flags := v % 4 }
  else if c.sub == 3 then writeGroup w s fun gr => some { gr with timeout := v }
  else if c.sub == 5 then writeGroup w s fun gr => some { gr with accElems := v }
  else writeGroup w s fun gr => some { gr with seed := v }

/-- The arrays that settings hold: at most `high` elements, at least `low`. -/
def arrayField (w : Sender) (e : Entry) (c : Cmd) (low high : Nat) (ok : List Byte → Bool) (s : State) : Nat × State :=
  match writeArray c (valueOf s w e c.sub) with
  | none => (rLength, s)
  | some d =>
    let k := d.length / e.size
    if k < low || high < k then (rRange, s)
    else if !ok d then (rInvalid, s)
    else (rDone, storeSetting w e c.sub d s)

/-- Every port of a port die has a zero SAMPLE_MASK. -/
def unsampled (s : State) (die : Nat) : Bool := (List.range 6).all fun k => sampleMask s (6 * die + k) == 0

/-- A WRITE that passed the checks of every write. -/
def writeEntry (w : Sender) (e : Entry) (c : Cmd) (s : State) : Nat × State :=
  let i := c.index
  let n := c.sub
  let k := if e.ty == 14 then rDone else valueCheck s w i n c.data
  if actionEntry i n then (rRange, s)
  else if k != rDone then (k, s)
  else if perSession i n then (rDone, onSession w.num (fun x => { x with sels := tset x.sels (dkey i n) (ofLe c.data) }) s)
  else if i == 0x5101 || i == 0x5102 then groupField w c s
  else if i == 0x8040 then writeSfifoCfg w c s
  else if i == 0x3701 && n == 2 then arrayField w e c 0 16 submgrOk s
  else if i == 0x3301 then arrayField w e c 1 256 (fun _ => true) s
  else if i == 0x3500 then arrayField w e c 24 24 (fun _ => true) s
  else if i == 0x3501 && !unsampled s (n - 1) then (rBusy, s)
  else if i == 0x3001 && (n == 1 || n == 4) && !fabricQuiet s then (rBusy, s)
  else if i == 0x3000 && !((List.range 24).all fun p => (portOf s p).bring == .down) then (rBusy, s)
  else
    let s := storeSetting w e n c.data s
    let s := if i == 0x3001 then announceAll (judgePorts s) else s
    let s := if i == 0x2001 && n == 2 then setPow (fun p => { p with timerDone := false }) s else s
    (rDone, s)

/-- WRITE: A Farnen WRITE changes an entry that has no row of its own, including staged pieces (R417). -/
def execWrite (s : State) : Res := .next <|
  onCode s cWrite fun _ w c s =>
    if writeHasRow c.index c.sub || actionHasRow c.index c.sub c.data then s
    else
      match entryAt c.index c.sub with
      | some e =>
        let k := writeCheck s w e c
        if k != rDone then finish k [] s
        else
          let (res, t) := writeEntry w e c s
          finish res [] t
      | none => finish rNoEntry [] s

end Sys2Proof.Machine
end

