-- ==== Sys2Proof/Machine/Dispatch.lean ====
section
/-! DEFINITION. The one place that says which meaning each command has. -/

namespace Sys2Proof.Machine

def exec (i : Instr) (s : State) : Host.Outcome State Fault Refusal :=
  match i with
  | .meshLinkOutOfService link => Sys2Proof.Machine.execMeshLinkOutOfService link s
  | .meshRouteSwitch => Sys2Proof.Machine.execMeshRouteSwitch s
  | .distributionWord t => Sys2Proof.Machine.execDistributionWord t s
  | .distributionWordArrival island off => Sys2Proof.Machine.execDistributionWordArrival island off s
  | .wqDoorbell via wq tail pushed => Sys2Proof.Machine.execWqDoorbell via wq tail pushed s
  | .pushAreaWrite via wq slot w whole => Sys2Proof.Machine.execPushAreaWrite via wq slot w whole s
  | .ringFetchReturn wq first entries refused => Sys2Proof.Machine.execRingFetchReturn wq first entries refused s
  | .entryRefetch wq w => Sys2Proof.Machine.execEntryRefetch wq w s
  | .fenceRelease wq => Sys2Proof.Machine.execFenceRelease wq s
  | .nop wq => Sys2Proof.Machine.execNop wq s
  | .put wq => Sys2Proof.Machine.execPut wq s
  | .get wq => Sys2Proof.Machine.execGet wq s
  | .putNotify wq => Sys2Proof.Machine.execPutNotify wq s
  | .putAcc wq => Sys2Proof.Machine.execPutAcc wq s
  | .putAccRound wq => Sys2Proof.Machine.execPutAccRound wq s
  | .notify wq => Sys2Proof.Machine.execNotify wq s
  | .atomicFadd wq => Sys2Proof.Machine.execAtomicFadd wq s
  | .atomicCswap wq => Sys2Proof.Machine.execAtomicCswap wq s
  | .copyIn wq => Sys2Proof.Machine.execCopyIn wq s
  | .copyOut wq => Sys2Proof.Machine.execCopyOut wq s
  | .wait wq => Sys2Proof.Machine.execWait wq s
  | .waitConditionMet wq => Sys2Proof.Machine.execWaitConditionMet wq s
  | .waitTimeout wq => Sys2Proof.Machine.execWaitTimeout wq s
  | .tableUpdate wq ext => Sys2Proof.Machine.execTableUpdate wq ext s
  | .invalidate wq => Sys2Proof.Machine.execInvalidate wq s
  | .invalidateDrained inv => Sys2Proof.Machine.execInvalidateDrained inv s
  | .invalTimeout inv => Sys2Proof.Machine.execInvalTimeout inv s
  | .invalidateSquashDone inv => Sys2Proof.Machine.execInvalidateSquashDone inv s
  | .collStep wq => Sys2Proof.Machine.execCollStep wq s
  | .walkComplete wq idx off => Sys2Proof.Machine.execWalkComplete wq idx off s
  | .operationCompletion wq idx ext => Sys2Proof.Machine.execOperationCompletion wq idx ext s
  | .drainComplete wq => Sys2Proof.Machine.execDrainComplete wq s
  | .pauseEffective wq => Sys2Proof.Machine.execPauseEffective wq s
  | .cqDoorbell via cq head arm => Sys2Proof.Machine.execCqDoorbell via cq head arm s
  | .cqWriteFault cq => Sys2Proof.Machine.execCqWriteFault cq s
  | .mirrorWriteDropped ctr => Sys2Proof.Machine.execMirrorWriteDropped ctr s
  | .createWq part obj desc => Sys2Proof.Machine.execCreateWq part obj desc s
  | .modifyWq part obj desc => Sys2Proof.Machine.execModifyWq part obj desc s
  | .pauseWq part obj => Sys2Proof.Machine.execPauseWq part obj s
  | .resumeWq part obj => Sys2Proof.Machine.execResumeWq part obj s
  | .resetWq part obj => Sys2Proof.Machine.execResetWq part obj s
  | .destroyWq part obj => Sys2Proof.Machine.execDestroyWq part obj s
  | .createCq part obj desc => Sys2Proof.Machine.execCreateCq part obj desc s
  | .destroyCq part obj => Sys2Proof.Machine.execDestroyCq part obj s
  | .createCounter part obj desc => Sys2Proof.Machine.execCreateCounter part obj desc s
  | .setCounter part obj desc => Sys2Proof.Machine.execSetCounter part obj desc s
  | .destroyCounter part obj => Sys2Proof.Machine.execDestroyCounter part obj s
  | .readWq part obj => Sys2Proof.Machine.execReadWq part obj s
  | .queueCommandReserved part code obj => Sys2Proof.Machine.execQueueCommandReserved part code obj s
  | .connect part obj desc => Sys2Proof.Machine.execConnect part obj desc s
  | .close part obj => Sys2Proof.Machine.execClose part obj s
  | .reestablish part obj => Sys2Proof.Machine.execReestablish part obj s
  | .modifyConn part obj desc => Sys2Proof.Machine.execModifyConn part obj desc s
  | .readConn part obj => Sys2Proof.Machine.execReadConn part obj s
  | .connCommandReserved part code obj => Sys2Proof.Machine.execConnCommandReserved part code obj s
  | .connectReq r => Sys2Proof.Machine.execConnectReq r s
  | .connectAck h peerHandle epoch psn => Sys2Proof.Machine.execConnectAck h peerHandle epoch psn s
  | .connectNak h noResource => Sys2Proof.Machine.execConnectNak h noResource s
  | .connectTimeout h => Sys2Proof.Machine.execConnectTimeout h s
  | .closeReq h fromEp fromHandle epoch => Sys2Proof.Machine.execCloseReq h fromEp fromHandle epoch s
  | .closeAck h => Sys2Proof.Machine.execCloseAck h s
  | .closeTimeout h => Sys2Proof.Machine.execCloseTimeout h s
  | .resetPacket h epoch => Sys2Proof.Machine.execResetPacket h epoch s
  | .orphanTimeout h => Sys2Proof.Machine.execOrphanTimeout h s
  | .epochHoldoffEnd => Sys2Proof.Machine.execEpochHoldoffEnd s
  | .connectionFill h bad => Sys2Proof.Machine.execConnectionFill h bad s
  | .sendPacket h ext => Sys2Proof.Machine.execSendPacket h ext s
  | .dataPacket p ext => Sys2Proof.Machine.execDataPacket p ext s
  | .requestPacket p => Sys2Proof.Machine.execRequestPacket p s
  | .responsePacket p => Sys2Proof.Machine.execResponsePacket p s
  | .ackPacket p ext => Sys2Proof.Machine.execAckPacket p ext s
  | .nackPacket p ext => Sys2Proof.Machine.execNackPacket p ext s
  | .holdPacket p => Sys2Proof.Machine.execHoldPacket p s
  | .withdraw p => Sys2Proof.Machine.execWithdraw p s
  | .reservedKindDrop p => Sys2Proof.Machine.execReservedKindDrop p s
  | .operationFullyArrived h opnum ext => Sys2Proof.Machine.execOperationFullyArrived h opnum ext s
  | .notificationApply h opnum => Sys2Proof.Machine.execNotificationApply h opnum s
  | .flushingReadReturn f => Sys2Proof.Machine.execFlushingReadReturn f s
  | .doneBatchTimer h => Sys2Proof.Machine.execDoneBatchTimer h s
  | .ackDelay h => Sys2Proof.Machine.execAckDelay h s
  | .retransmitTimer h edge ext => Sys2Proof.Machine.execRetransmitTimer h edge ext s
  | .holdLimit h => Sys2Proof.Machine.execHoldLimit h s
  | .bellowsUpdate h => Sys2Proof.Machine.execBellowsUpdate h s
  | .sendHalfIdle h => Sys2Proof.Machine.execSendHalfIdle h s
  | .sourceReadError h psn => Sys2Proof.Machine.execSourceReadError h psn s
  | .groupCmdCreate => Sys2Proof.Machine.execGroupCmdCreate s
  | .groupCmdDelete => Sys2Proof.Machine.execGroupCmdDelete s
  | .groupJoin => Sys2Proof.Machine.execGroupJoin s
  | .groupLeave => Sys2Proof.Machine.execGroupLeave s
  | .joinArrival g rank j => Sys2Proof.Machine.execJoinArrival g rank j s
  | .memberTable g table => Sys2Proof.Machine.execMemberTable g table s
  | .groupReady g edges => Sys2Proof.Machine.execGroupReady g edges s
  | .permTable => Sys2Proof.Machine.execPermTable s
  | .ready g dev seq sig => Sys2Proof.Machine.execReady g dev seq sig s
  | .start g seq t src => Sys2Proof.Machine.execStart g seq t src s
  | .abort g seq fenced => Sys2Proof.Machine.execAbort g seq fenced s
  | .coordinatorTimeout g seq => Sys2Proof.Machine.execCoordinatorTimeout g seq s
  | .collStepTimeout wq idx => Sys2Proof.Machine.execCollStepTimeout wq idx s
  | .sequenceRetired g => Sys2Proof.Machine.execSequenceRetired g s
  | .streamTileRelease wq idx => Sys2Proof.Machine.execStreamTileRelease wq idx s
  | .streamTileTimeout wq idx => Sys2Proof.Machine.execStreamTileTimeout wq idx s
  | .schedLoad => Sys2Proof.Machine.execSchedLoad s
  | .scheduleVerified slot ext => Sys2Proof.Machine.execScheduleVerified slot ext s
  | .schedUnload => Sys2Proof.Machine.execSchedUnload s
  | .chanterStep slot die idx => Sys2Proof.Machine.execChanterStep slot die idx s
  | .send slot die idx ext => Sys2Proof.Machine.execSend slot die idx ext s
  | .sendAcc slot die idx ext => Sys2Proof.Machine.execSendAcc slot die idx ext s
  | .treeAcc slot die idx => Sys2Proof.Machine.execTreeAcc slot die idx s
  | .mcast slot die idx => Sys2Proof.Machine.execMcast slot die idx s
  | .localAcc slot die idx ext => Sys2Proof.Machine.execLocalAcc slot die idx ext s
  | .round slot die idx => Sys2Proof.Machine.execRound slot die idx s
  | .waitCount slot die idx => Sys2Proof.Machine.execWaitCount slot die idx s
  | .runCounterReached slot rank => Sys2Proof.Machine.execRunCounterReached slot rank s
  | .transform slot die idx => Sys2Proof.Machine.execTransform slot die idx s
  | .copy slot die idx ext => Sys2Proof.Machine.execCopy slot die idx ext s
  | .runTimeout slot => Sys2Proof.Machine.execRunTimeout slot s
  | .memberComplete slot rank => Sys2Proof.Machine.execMemberComplete slot rank s
  | .storeAdmission die arriving ext => Sys2Proof.Machine.execStoreAdmission die arriving ext s
  | .admitLinger n => Sys2Proof.Machine.execAdmitLinger n s
  | .treeEdgeAck hdr payload crc ext => Sys2Proof.Machine.execTreeEdgeAck hdr payload crc ext s
  | .mcastReplicate die arriving ext => Sys2Proof.Machine.execMcastReplicate die arriving ext s
  | .kernelLoad => Sys2Proof.Machine.execKernelLoad s
  | .kernelUnload => Sys2Proof.Machine.execKernelUnload s
  | .kernelBind => Sys2Proof.Machine.execKernelBind s
  | .kernelBudgetExceeded slot die job => Sys2Proof.Machine.execKernelBudgetExceeded slot die job s
  | .kernelFault slot die job => Sys2Proof.Machine.execKernelFault slot die job s
  | .kernelDone slot die idx input params state => Sys2Proof.Machine.execKernelDone slot die idx input params state s
  | .announceTimer port => Sys2Proof.Machine.execAnnounceTimer port s
  | .announce port hdr mac => Sys2Proof.Machine.execAnnounce port hdr mac s
  | .coord => Sys2Proof.Machine.execCoord s
  | .fabricFrameArrival port f => Sys2Proof.Machine.execFabricFrameArrival port f s
  | .frameEnqueue die n => Sys2Proof.Machine.execFrameEnqueue die n s
  | .frameTransmit port => Sys2Proof.Machine.execFrameTransmit port s
  | .treeEntryFill die tree => Sys2Proof.Machine.execTreeEntryFill die tree s
  | .treeEntry => Sys2Proof.Machine.execTreeEntry s
  | .fenceCmdFence => Sys2Proof.Machine.execFenceCmdFence s
  | .fenceCmdUnfence => Sys2Proof.Machine.execFenceCmdUnfence s
  | .fenceNotice ep device fence => Sys2Proof.Machine.execFenceNotice ep device fence s
  | .signalDetected port => Sys2Proof.Machine.execSignalDetected port s
  | .autonegComplete port rate => Sys2Proof.Machine.execAutonegComplete port rate s
  | .linkTrainingComplete port => Sys2Proof.Machine.execLinkTrainingComplete port s
  | .portTrained port => Sys2Proof.Machine.execPortTrained port s
  | .bringupTimeout port => Sys2Proof.Machine.execBringupTimeout port s
  | .rate => Sys2Proof.Machine.execRate s
  | .uncorrectableBurst port => Sys2Proof.Machine.execUncorrectableBurst port s
  | .alignmentLoss port => Sys2Proof.Machine.execAlignmentLoss port s
  | .fastRetrainDone port => Sys2Proof.Machine.execFastRetrainDone port s
  | .fastRetrainFail port => Sys2Proof.Machine.execFastRetrainFail port s
  | .laneWearWindow port corrected uncorrectable errors ratios => Sys2Proof.Machine.execLaneWearWindow port corrected uncorrectable errors ratios s
  | .laneDarn => Sys2Proof.Machine.execLaneDarn s
  | .pfcFrame port pause mask times => Sys2Proof.Machine.execPfcFrame port pause mask times s
  | .pauseExpiry port prio => Sys2Proof.Machine.execPauseExpiry port prio s
  | .pfcRefresh port prio => Sys2Proof.Machine.execPfcRefresh port prio s
  | .pauseWatchdog port prio => Sys2Proof.Machine.execPauseWatchdog port prio s
  | .shaperRefill port => Sys2Proof.Machine.execShaperRefill port s
  | .gateEntryStart port => Sys2Proof.Machine.execGateEntryStart port s
  | .gateCommit => Sys2Proof.Machine.execGateCommit s
  | .gateChangeover port => Sys2Proof.Machine.execGateChangeover port s
  | .syncTimer port => Sys2Proof.Machine.execSyncTimer port s
  | .pdelayTimer port => Sys2Proof.Machine.execPdelayTimer port s
  | .ptpMessage port kind offset delay state hops => Sys2Proof.Machine.execPtpMessage port kind offset delay state hops s
  | .syncLoss => Sys2Proof.Machine.execSyncLoss s
  | .holdoverLimit => Sys2Proof.Machine.execHoldoverLimit s
  | .ppsSecond => Sys2Proof.Machine.execPpsSecond s
  | .ppsIn => Sys2Proof.Machine.execPpsIn s
  | .timeSet => Sys2Proof.Machine.execTimeSet s
  | .timeSetStep => Sys2Proof.Machine.execTimeSetStep s
  | .queueSample die => Sys2Proof.Machine.execQueueSample die s
  | .hwm => Sys2Proof.Machine.execHwm s
  | .wakePattern port slots => Sys2Proof.Machine.execWakePattern port slots s
  | .wakeSend => Sys2Proof.Machine.execWakeSend s
  | .flit link f => Sys2Proof.Machine.execFlit link f s
  | .edradSignalDetect link => Sys2Proof.Machine.execEdradSignalDetect link s
  | .edradTrainingStepDone link => Sys2Proof.Machine.execEdradTrainingStepDone link s
  | .edradTrainingTimeout link => Sys2Proof.Machine.execEdradTrainingTimeout link s
  | .edradLinkLoss link => Sys2Proof.Machine.execEdradLinkLoss link s
  | .credit link ph pd nh nd => Sys2Proof.Machine.execCredit link ph pd nh nd s
  | .linkParams link epoch lastSeq credits => Sys2Proof.Machine.execLinkParams link epoch lastSeq credits s
  | .portStatus link dev up speed width errors => Sys2Proof.Machine.execPortStatus link dev up speed width errors s
  | .settings link isPort n bus base limit command acs pasidEn relaxed msix => Sys2Proof.Machine.execSettings link isPort n bus base limit command acs pasidEn relaxed msix s
  | .hostReset link cause => Sys2Proof.Machine.execHostReset link cause s
  | .resetNotice link => Sys2Proof.Machine.execResetNotice link s
  | .wake link fromDevice => Sys2Proof.Machine.execWake link fromDevice s
  | .sleepReq link => Sys2Proof.Machine.execSleepReq link s
  | .sleepAck link => Sys2Proof.Machine.execSleepAck link s
  | .hostLossTimer link => Sys2Proof.Machine.execHostLossTimer link s
  | .hostDomainReset => Sys2Proof.Machine.execHostDomainReset s
  | .edradWakeBurst link => Sys2Proof.Machine.execEdradWakeBurst link s
  | .slotControlPower link => Sys2Proof.Machine.execSlotControlPower link s
  | .functionLevelReset p => Sys2Proof.Machine.execFunctionLevelReset p s
  | .bar4Access p a o => Sys2Proof.Machine.execBar4Access p a o s
  | .acceleratorRequest e a => Sys2Proof.Machine.execAcceleratorRequest e a s
  | .acceleratorLinkDown e second => Sys2Proof.Machine.execAcceleratorLinkDown e second s
  | .accelLossTimer e => Sys2Proof.Machine.execAccelLossTimer e s
  | .acceleratorLinkUp e second speed width flit => Sys2Proof.Machine.execAcceleratorLinkUp e second speed width flit s
  | .hostReadRefused wq idx off => Sys2Proof.Machine.execHostReadRefused wq idx off s
  | .memoryReadError a correctable pin => Sys2Proof.Machine.execMemoryReadError a correctable pin s
  | .scrub die result pin => Sys2Proof.Machine.execScrub die result pin s
  | .remapCopyDone b bad => Sys2Proof.Machine.execRemapCopyDone b bad s
  | .channelFail die slot => Sys2Proof.Machine.execChannelFail die slot s
  | .chanDarn => Sys2Proof.Machine.execChanDarn s
  | .darnSegmentDone die slot bad => Sys2Proof.Machine.execDarnSegmentDone die slot bad s
  | .refresh die slot bank => Sys2Proof.Machine.execRefresh die slot bank s
  | .memoryZeroed => Sys2Proof.Machine.execMemoryZeroed s
  | .partCmdReset => Sys2Proof.Machine.execPartCmdReset s
  | .partCmdResetZero => Sys2Proof.Machine.execPartCmdResetZero s
  | .partitionDrained p key => Sys2Proof.Machine.execPartitionDrained p key s
  | .resetDrain p key left => Sys2Proof.Machine.execResetDrain p key left s
  | .partitionResetDone p key => Sys2Proof.Machine.execPartitionResetDone p key s
  | .sliceCmdCreate => Sys2Proof.Machine.execSliceCmdCreate s
  | .sliceCmdReset => Sys2Proof.Machine.execSliceCmdReset s
  | .sliceCmdDestroy => Sys2Proof.Machine.execSliceCmdDestroy s
  | .farnenFrame path f => Sys2Proof.Machine.execFarnenFrame path f s
  | .read => Sys2Proof.Machine.execRead s
  | .write => Sys2Proof.Machine.execWrite s
  | .describe => Sys2Proof.Machine.execDescribe s
  | .next => Sys2Proof.Machine.execNext s
  | .open_ => Sys2Proof.Machine.execOpen s
  | .closeSession => Sys2Proof.Machine.execCloseSession s
  | .badCommand => Sys2Proof.Machine.execBadCommand s
  | .sessionIdle session => Sys2Proof.Machine.execSessionIdle session s
  | .stagedRecordTimeout session => Sys2Proof.Machine.execStagedRecordTimeout session s
  | .storedCommit => Sys2Proof.Machine.execStoredCommit s
  | .mailboxGo part accel vector irqEn go f => Sys2Proof.Machine.execMailboxGo part accel vector irqEn go f s
  | .sidebandRequest i3c f => Sys2Proof.Machine.execSidebandRequest i3c f s
  | .sidebandRead => Sys2Proof.Machine.execSidebandRead s
  | .managerElectionTimer => Sys2Proof.Machine.execManagerElectionTimer s
  | .noManagerTimer => Sys2Proof.Machine.execNoManagerTimer s
  | .heartbeatTimer => Sys2Proof.Machine.execHeartbeatTimer s
  | .heartbeat src epoch id role witnesses => Sys2Proof.Machine.execHeartbeat src epoch id role witnesses s
  | .heartbeatAck src => Sys2Proof.Machine.execHeartbeatAck src s
  | .managerStop => Sys2Proof.Machine.execManagerStop s
  | .managerLoss => Sys2Proof.Machine.execManagerLoss s
  | .lossQuery src => Sys2Proof.Machine.execLossQuery src s
  | .lossQueryDecided answers handed => Sys2Proof.Machine.execLossQueryDecided answers handed s
  | .takeover epoch id => Sys2Proof.Machine.execTakeover epoch id s
  | .journal seq target key data ack => Sys2Proof.Machine.execJournal seq target key data ack s
  | .journalAckTimeout seq => Sys2Proof.Machine.execJournalAckTimeout seq s
  | .submanagerLoss c => Sys2Proof.Machine.execSubmanagerLoss c s
  | .failover => Sys2Proof.Machine.execFailover s
  | .keyExport => Sys2Proof.Machine.execKeyExport s
  | .provisionDone => Sys2Proof.Machine.execProvisionDone s
  | .keyEpoch => Sys2Proof.Machine.execKeyEpoch s
  | .ownerEnroll => Sys2Proof.Machine.execOwnerEnroll s
  | .slotRevoke => Sys2Proof.Machine.execSlotRevoke s
  | .ownerExclusive => Sys2Proof.Machine.execOwnerExclusive s
  | .imageWrite => Sys2Proof.Machine.execImageWrite s
  | .imageVerified kind bank => Sys2Proof.Machine.execImageVerified kind bank s
  | .imageActivate => Sys2Proof.Machine.execImageActivate s
  | .rollbackCommit => Sys2Proof.Machine.execRollbackCommit s
  | .measureExtend => Sys2Proof.Machine.execMeasureExtend s
  | .attestReq => Sys2Proof.Machine.execAttestReq s
  | .debugChallenge => Sys2Proof.Machine.execDebugChallenge s
  | .debugChallengeExpiry session => Sys2Proof.Machine.execDebugChallengeExpiry session s
  | .debugResponse => Sys2Proof.Machine.execDebugResponse s
  | .randomSourceFailure => Sys2Proof.Machine.execRandomSourceFailure s
  | .feedFrame => Sys2Proof.Machine.execFeedFrame s
  | .feedFrameAccepted f x => Sys2Proof.Machine.execFeedFrameAccepted f x s
  | .feedLoss x => Sys2Proof.Machine.execFeedLoss x s
  | .feedLossIntervalEnd x => Sys2Proof.Machine.execFeedLossIntervalEnd x s
  | .meterSnapshot x => Sys2Proof.Machine.execMeterSnapshot x s
  | .vmtrBrownOut x => Sys2Proof.Machine.execVmtrBrownOut x s
  | .meterPowerUp => Sys2Proof.Machine.execMeterPowerUp s
  | .status => Sys2Proof.Machine.execStatus s
  | .readRecord => Sys2Proof.Machine.execReadRecord s
  | .meterStatusTimeout => Sys2Proof.Machine.execMeterStatusTimeout s
  | .sealOpened x => Sys2Proof.Machine.execSealOpened x s
  | .sealClosed x => Sys2Proof.Machine.execSealClosed x s
  | .sealCmdInterval => Sys2Proof.Machine.execSealCmdInterval s
  | .sealCmdCalibration => Sys2Proof.Machine.execSealCmdCalibration s
  | .sealCmdFirmware => Sys2Proof.Machine.execSealCmdFirmware s
  | .pctrCfg => Sys2Proof.Machine.execPctrCfg s
  | .pctrValue => Sys2Proof.Machine.execPctrValue s
  | .pctrOwner => Sys2Proof.Machine.execPctrOwner s
  | .pctrSnap => Sys2Proof.Machine.execPctrSnap s
  | .bwWindowEnd => Sys2Proof.Machine.execBwWindowEnd s
  | .bwWindow => Sys2Proof.Machine.execBwWindow s
  | .portBw => Sys2Proof.Machine.execPortBw s
  | .histogramSample => Sys2Proof.Machine.execHistogramSample s
  | .histCfg => Sys2Proof.Machine.execHistCfg s
  | .sfifoData => Sys2Proof.Machine.execSfifoData s
  | .eventRecords => Sys2Proof.Machine.execEventRecords s
  | .eventClear => Sys2Proof.Machine.execEventClear s
  | .recorderCopyDone => Sys2Proof.Machine.execRecorderCopyDone s
  | .powerCmdIdle => Sys2Proof.Machine.execPowerCmdIdle s
  | .powerCmdStandby => Sys2Proof.Machine.execPowerCmdStandby s
  | .powerCmdSleep => Sys2Proof.Machine.execPowerCmdSleep s
  | .idleAfter => Sys2Proof.Machine.execIdleAfter s
  | .idleExit => Sys2Proof.Machine.execIdleExit s
  | .entryStepDone refused => Sys2Proof.Machine.execEntryStepDone refused s
  | .entryDrain => Sys2Proof.Machine.execEntryDrain s
  | .i3cAddressMatch addr => Sys2Proof.Machine.execI3cAddressMatch addr s
  | .wakeAt => Sys2Proof.Machine.execWakeAt s
  | .wakeStageReady => Sys2Proof.Machine.execWakeStageReady s
  | .wakeStageOverrun => Sys2Proof.Machine.execWakeStageOverrun s
  | .coldResetN rise gensel mgrEn bootsel => Sys2Proof.Machine.execColdResetN rise gensel mgrEn bootsel s
  | .coldBootStep => Sys2Proof.Machine.execColdBootStep s
  | .warmResetN => Sys2Proof.Machine.execWarmResetN s
  | .warmReset => Sys2Proof.Machine.execWarmReset s
  | .warmResetStep => Sys2Proof.Machine.execWarmResetStep s
  | .mcWatchdog core => Sys2Proof.Machine.execMcWatchdog core s
  | .clusterDarn die c => Sys2Proof.Machine.execClusterDarn die c s
  | .coreDarn => Sys2Proof.Machine.execCoreDarn s
  | .coreParked => Sys2Proof.Machine.execCoreParked s
  | .coreParkTimeout => Sys2Proof.Machine.execCoreParkTimeout s
  | .selftest die kind unit errors passed => Sys2Proof.Machine.execSelftest die kind unit errors passed s
  | .sramCorrection die array line e => Sys2Proof.Machine.execSramCorrection die array line e s
  | .meshWireDarn link modul dir lane => Sys2Proof.Machine.execMeshWireDarn link modul dir lane s
  | .powerGoodLost rail ns => Sys2Proof.Machine.execPowerGoodLost rail ns s
  | .pwrdnReqN => Sys2Proof.Machine.execPwrdnReqN s
  | .refclkLoss clk ppm common => Sys2Proof.Machine.execRefclkLoss clk ppm common s
  | .refclkRestored clk ppm => Sys2Proof.Machine.execRefclkRestored clk ppm s
  | .temperatureRead temps => Sys2Proof.Machine.execTemperatureRead temps s
  | .throttleStep => Sys2Proof.Machine.execThrottleStep s
  | .powerLimitCheck power rails => Sys2Proof.Machine.execPowerLimitCheck power rails s
  | .regulatorFault rail status => Sys2Proof.Machine.execRegulatorFault rail status s
  | .kernelVerified kernel => Sys2Proof.Machine.execKernelVerified kernel s
  | .standbySynchronised => Sys2Proof.Machine.execStandbySynchronised s
  | .powerGoodAsserted rail => Sys2Proof.Machine.execPowerGoodAsserted rail s
  | .warmResetNRise => Sys2Proof.Machine.execWarmResetNRise s
  | .hostRequest link id => Sys2Proof.Machine.execHostRequest link id s

end Sys2Proof.Machine
end

