-- ==== Sys2Proof/Machine/Tick.lean ====
section
/-! DEFINITION. What an empty queue does: device time goes on by one nanosecond, and what a tick lets go on goes on. The queue of waiting commands. -/

namespace Sys2Proof.Machine

/-- Whole steps of 1/32,768 s in `n` ns, in ns (R517; log 124, DEDUCED). -/
def aonSteps (n : Nat) : Nat := n * 32768 / 1000000000 * 1000000000 / 32768

/-- Device time goes on by 1 ns, modulo 2^64 (R14, R27; log 1, DESIGN CHOICE); by steps of REFCLK_AON in Standby and Sleep (R517). -/
def tickTime (s : State) : State :=
  match s.time.aon with
  | none => { s with time := { s.time with now := (s.time.now + 1) % m64 } }
  | some (b, n) => { s with time := { s.time with now := (b + aonSteps (n + 1)) % m64, aon := some (b, n + 1) } }

/-- PPS_OUT falls 100 ms after it rose (R331). -/
def fallPps (s : State) : State :=
  if s.time.ppsOut && due s s.time.ppsOutSince (100 * ms) then
    ({ s with time := { s.time with ppsOut := false } }).emit (.pin 0 false)
  else s

/-- A step with no command waiting. -/
def idle (s : State) : State := serveBars (fallPps (tickTime s))

/-- Put a command at the front of the queue. -/
def putFirst (c : Instr) (s : State) : State := { s with pending := c :: s.pending }

end Sys2Proof.Machine
end

