-- ==== Sys2Proof/WellFormed.lean ====
section
/-! DEFINITION. Which commands name only objects that the manual gives the device. -/

namespace Sys2Proof

/-- A code of a die of the part (R15): engine dies, port dies, attach dies, the hub, the metering die, the bridges. -/
def dieNumbered (code : Nat) : Bool :=
  [0, 1, 2, 3, 4, 5, 6, 7, 0x10, 0x11, 0x12, 0x13, 0x20, 0x21, 0x30, 0x40, 0x50, 0x51, 0x52, 0x53, 0x54, 0x55, 0x56, 0x57, 0x58].contains code

/-- A command names no object that the manual says does not exist: ports to 23 (R31), partitions to 11 (R3), dies of the part (R15),
Edrad links 0 and 1 (R3), mesh links to 17 (R20), rails to 17 and clocks to 3 (R548, R555), accelerator ports to 7 (R18), cores (R25),
islands to 207 (R25). Every other operand may take any value. -/
def Instr.wf (i : Instr) : Bool :=
  match i with
  | .meshLinkOutOfService link => Nat.blt link 18
  | .meshRouteSwitch => true
  | .distributionWord _ => true
  | .distributionWordArrival island _ => Nat.blt island 208
  | .wqDoorbell _ _ _ _ => true
  | .pushAreaWrite _ _ _ _ _ => true
  | .ringFetchReturn _ _ _ _ => true
  | .entryRefetch _ _ => true
  | .fenceRelease _ => true
  | .nop _ => true
  | .put _ => true
  | .get _ => true
  | .putNotify _ => true
  | .putAcc _ => true
  | .putAccRound _ => true
  | .notify _ => true
  | .atomicFadd _ => true
  | .atomicCswap _ => true
  | .copyIn _ => true
  | .copyOut _ => true
  | .wait _ => true
  | .waitConditionMet _ => true
  | .waitTimeout _ => true
  | .tableUpdate _ _ => true
  | .invalidate _ => true
  | .invalidateDrained _ => true
  | .invalTimeout _ => true
  | .invalidateSquashDone _ => true
  | .collStep _ => true
  | .walkComplete _ _ _ => true
  | .operationCompletion _ _ _ => true
  | .drainComplete _ => true
  | .pauseEffective _ => true
  | .cqDoorbell _ _ _ _ => true
  | .cqWriteFault _ => true
  | .mirrorWriteDropped _ => true
  | .createWq part _ _ => Nat.blt part 12
  | .modifyWq part _ _ => Nat.blt part 12
  | .pauseWq part _ => Nat.blt part 12
  | .resumeWq part _ => Nat.blt part 12
  | .resetWq part _ => Nat.blt part 12
  | .destroyWq part _ => Nat.blt part 12
  | .createCq part _ _ => Nat.blt part 12
  | .destroyCq part _ => Nat.blt part 12
  | .createCounter part _ _ => Nat.blt part 12
  | .setCounter part _ _ => Nat.blt part 12
  | .destroyCounter part _ => Nat.blt part 12
  | .readWq part _ => Nat.blt part 12
  | .queueCommandReserved part _ _ => Nat.blt part 12
  | .connect part _ _ => Nat.blt part 12
  | .close part _ => Nat.blt part 12
  | .reestablish part _ => Nat.blt part 12
  | .modifyConn part _ _ => Nat.blt part 12
  | .readConn part _ => Nat.blt part 12
  | .connCommandReserved part _ _ => Nat.blt part 12
  | .connectReq _ => true
  | .connectAck _ _ _ _ => true
  | .connectNak _ _ => true
  | .connectTimeout _ => true
  | .closeReq _ _ _ _ => true
  | .closeAck _ => true
  | .closeTimeout _ => true
  | .resetPacket _ _ => true
  | .orphanTimeout _ => true
  | .epochHoldoffEnd => true
  | .connectionFill _ _ => true
  | .sendPacket _ _ => true
  | .dataPacket _ _ => true
  | .requestPacket _ => true
  | .responsePacket _ => true
  | .ackPacket _ _ => true
  | .nackPacket _ _ => true
  | .holdPacket _ => true
  | .withdraw _ => true
  | .reservedKindDrop _ => true
  | .operationFullyArrived _ _ _ => true
  | .notificationApply _ _ => true
  | .flushingReadReturn _ => true
  | .doneBatchTimer _ => true
  | .ackDelay _ => true
  | .retransmitTimer _ _ _ => true
  | .holdLimit _ => true
  | .bellowsUpdate _ => true
  | .sendHalfIdle _ => true
  | .sourceReadError _ _ => true
  | .groupCmdCreate => true
  | .groupCmdDelete => true
  | .groupJoin => true
  | .groupLeave => true
  | .joinArrival _ _ _ => true
  | .memberTable _ _ => true
  | .groupReady _ _ => true
  | .permTable => true
  | .ready _ _ _ _ => true
  | .start _ _ _ _ => true
  | .abort _ _ _ => true
  | .coordinatorTimeout _ _ => true
  | .collStepTimeout _ _ => true
  | .sequenceRetired _ => true
  | .streamTileRelease _ _ => true
  | .streamTileTimeout _ _ => true
  | .schedLoad => true
  | .scheduleVerified _ _ => true
  | .schedUnload => true
  | .chanterStep _ _ _ => true
  | .send _ _ _ _ => true
  | .sendAcc _ _ _ _ => true
  | .treeAcc _ _ _ => true
  | .mcast _ _ _ => true
  | .localAcc _ _ _ _ => true
  | .round _ _ _ => true
  | .waitCount _ _ _ => true
  | .runCounterReached _ _ => true
  | .transform _ _ _ => true
  | .copy _ _ _ _ => true
  | .runTimeout _ => true
  | .memberComplete _ _ => true
  | .storeAdmission die _ _ => Nat.blt die 4
  | .admitLinger _ => true
  | .treeEdgeAck _ _ _ _ => true
  | .mcastReplicate die _ _ => Nat.blt die 4
  | .kernelLoad => true
  | .kernelUnload => true
  | .kernelBind => true
  | .kernelBudgetExceeded _ _ _ => true
  | .kernelFault _ _ _ => true
  | .kernelDone _ _ _ _ _ _ => true
  | .announceTimer port => Nat.blt port 24
  | .announce port _ _ => Nat.blt port 24
  | .coord => true
  | .fabricFrameArrival port _ => Nat.blt port 24
  | .frameEnqueue die _ => Nat.blt die 4
  | .frameTransmit port => Nat.blt port 24
  | .treeEntryFill die _ => Nat.blt die 4
  | .treeEntry => true
  | .fenceCmdFence => true
  | .fenceCmdUnfence => true
  | .fenceNotice _ _ _ => true
  | .signalDetected port => Nat.blt port 24
  | .autonegComplete port _ => Nat.blt port 24
  | .linkTrainingComplete port => Nat.blt port 24
  | .portTrained port => Nat.blt port 24
  | .bringupTimeout port => Nat.blt port 24
  | .rate => true
  | .uncorrectableBurst port => Nat.blt port 24
  | .alignmentLoss port => Nat.blt port 24
  | .fastRetrainDone port => Nat.blt port 24
  | .fastRetrainFail port => Nat.blt port 24
  | .laneWearWindow port _ _ _ _ => Nat.blt port 24
  | .laneDarn => true
  | .pfcFrame port _ _ _ => Nat.blt port 24
  | .pauseExpiry port _ => Nat.blt port 24
  | .pfcRefresh port _ => Nat.blt port 24
  | .pauseWatchdog port _ => Nat.blt port 24
  | .shaperRefill port => Nat.blt port 24
  | .gateEntryStart port => Nat.blt port 24
  | .gateCommit => true
  | .gateChangeover port => Nat.blt port 24
  | .syncTimer port => Nat.blt port 24
  | .pdelayTimer port => Nat.blt port 24
  | .ptpMessage port _ _ _ _ _ => Nat.blt port 24
  | .syncLoss => true
  | .holdoverLimit => true
  | .ppsSecond => true
  | .ppsIn => true
  | .timeSet => true
  | .timeSetStep => true
  | .queueSample die => Nat.blt die 4
  | .hwm => true
  | .wakePattern port _ => Nat.blt port 24
  | .wakeSend => true
  | .flit link _ => Nat.blt link 2
  | .edradSignalDetect link => Nat.blt link 2
  | .edradTrainingStepDone link => Nat.blt link 2
  | .edradTrainingTimeout link => Nat.blt link 2
  | .edradLinkLoss link => Nat.blt link 2
  | .credit link _ _ _ _ => Nat.blt link 2
  | .linkParams link _ _ _ => Nat.blt link 2
  | .portStatus link _ _ _ _ _ => Nat.blt link 2
  | .settings link _ _ _ _ _ _ _ _ _ _ => Nat.blt link 2
  | .hostReset link _ => Nat.blt link 2
  | .resetNotice link => Nat.blt link 2
  | .wake link _ => Nat.blt link 2
  | .sleepReq link => Nat.blt link 2
  | .sleepAck link => Nat.blt link 2
  | .hostLossTimer link => Nat.blt link 2
  | .hostDomainReset => true
  | .edradWakeBurst link => Nat.blt link 2
  | .slotControlPower link => Nat.blt link 2
  | .functionLevelReset p => Nat.blt p 12
  | .bar4Access p _ _ => Nat.blt p 12
  | .acceleratorRequest e _ => Nat.blt e 8
  | .acceleratorLinkDown e _ => Nat.blt e 8
  | .accelLossTimer e => Nat.blt e 8
  | .acceleratorLinkUp e _ _ _ _ => Nat.blt e 8
  | .hostReadRefused _ _ _ => true
  | .memoryReadError _ _ _ => true
  | .scrub die _ _ => Nat.blt die 8
  | .remapCopyDone _ _ => true
  | .channelFail die _ => Nat.blt die 8
  | .chanDarn => true
  | .darnSegmentDone die _ _ => Nat.blt die 8
  | .refresh die _ _ => Nat.blt die 8
  | .memoryZeroed => true
  | .partCmdReset => true
  | .partCmdResetZero => true
  | .partitionDrained p _ => Nat.blt p 12
  | .resetDrain p _ _ => Nat.blt p 12
  | .partitionResetDone p _ => Nat.blt p 12
  | .sliceCmdCreate => true
  | .sliceCmdReset => true
  | .sliceCmdDestroy => true
  | .farnenFrame _ _ => true
  | .read => true
  | .write => true
  | .describe => true
  | .next => true
  | .open_ => true
  | .closeSession => true
  | .badCommand => true
  | .sessionIdle _ => true
  | .stagedRecordTimeout _ => true
  | .storedCommit => true
  | .mailboxGo _ _ _ _ _ _ => true
  | .sidebandRequest _ _ => true
  | .sidebandRead => true
  | .managerElectionTimer => true
  | .noManagerTimer => true
  | .heartbeatTimer => true
  | .heartbeat _ _ _ _ _ => true
  | .heartbeatAck _ => true
  | .managerStop => true
  | .managerLoss => true
  | .lossQuery _ => true
  | .lossQueryDecided _ _ => true
  | .takeover _ _ => true
  | .journal _ _ _ _ _ => true
  | .journalAckTimeout _ => true
  | .submanagerLoss _ => true
  | .failover => true
  | .keyExport => true
  | .provisionDone => true
  | .keyEpoch => true
  | .ownerEnroll => true
  | .slotRevoke => true
  | .ownerExclusive => true
  | .imageWrite => true
  | .imageVerified _ _ => true
  | .imageActivate => true
  | .rollbackCommit => true
  | .measureExtend => true
  | .attestReq => true
  | .debugChallenge => true
  | .debugChallengeExpiry _ => true
  | .debugResponse => true
  | .randomSourceFailure => true
  | .feedFrame => true
  | .feedFrameAccepted _ _ => true
  | .feedLoss _ => true
  | .feedLossIntervalEnd _ => true
  | .meterSnapshot _ => true
  | .vmtrBrownOut _ => true
  | .meterPowerUp => true
  | .status => true
  | .readRecord => true
  | .meterStatusTimeout => true
  | .sealOpened _ => true
  | .sealClosed _ => true
  | .sealCmdInterval => true
  | .sealCmdCalibration => true
  | .sealCmdFirmware => true
  | .pctrCfg => true
  | .pctrValue => true
  | .pctrOwner => true
  | .pctrSnap => true
  | .bwWindowEnd => true
  | .bwWindow => true
  | .portBw => true
  | .histogramSample => true
  | .histCfg => true
  | .sfifoData => true
  | .eventRecords => true
  | .eventClear => true
  | .recorderCopyDone => true
  | .powerCmdIdle => true
  | .powerCmdStandby => true
  | .powerCmdSleep => true
  | .idleAfter => true
  | .idleExit => true
  | .entryStepDone _ => true
  | .entryDrain => true
  | .i3cAddressMatch _ => true
  | .wakeAt => true
  | .wakeStageReady => true
  | .wakeStageOverrun => true
  | .coldResetN _ _ _ _ => true
  | .coldBootStep => true
  | .warmResetN => true
  | .warmReset => true
  | .warmResetStep => true
  | .mcWatchdog core => Nat.blt core 4
  | .clusterDarn die _ => Nat.blt die 8
  | .coreDarn => true
  | .coreParked => true
  | .coreParkTimeout => true
  | .selftest die kind unit _ _ => if kind == 2 then Nat.blt unit 17 else Nat.blt die 8
  | .sramCorrection die _ _ _ => Sys2Proof.dieNumbered die
  | .meshWireDarn link _ _ _ => Nat.blt link 18
  | .powerGoodLost rail _ => Nat.blt rail 18
  | .pwrdnReqN => true
  | .refclkLoss clk _ _ => Nat.blt clk 4
  | .refclkRestored clk _ => Nat.blt clk 4
  | .temperatureRead _ => true
  | .throttleStep => true
  | .powerLimitCheck _ _ => true
  | .regulatorFault rail _ => Nat.blt rail 18
  | .kernelVerified _ => true
  | .standbySynchronised => true
  | .powerGoodAsserted rail => Nat.blt rail 18
  | .warmResetNRise => true
  | .hostRequest link _ => Nat.blt link 2

end Sys2Proof
end

