-- ==== Sys2Proof/Safety.lean ====
section
/-! DEFINITION. The terms that claims use: the areas of the state and what a step leaves alone, when a run is safe, when the
dictionary server runs a record, when the queue engine takes a WQE. -/

namespace Sys2Proof.Machine

/-! ## Frames -/

/-- The areas of the state: its fields, but for the queue of commands. -/
inductive Area where
  | grade | time | mesh | q | conn | xl | coll | ar | fab | link | mem | part | far | mgr | sec | mtr | obs | pow | elec
  | dict | inForce | counts | out | free
  deriving DecidableEq, Repr

/-- Two states agree in an area. -/
def sameIn (a : Area) (s t : State) : Prop :=
  match a with
  | .grade => t.grade = s.grade
  | .time => t.time = s.time
  | .mesh => t.mesh = s.mesh
  | .q => t.q = s.q
  | .conn => t.conn = s.conn
  | .xl => t.xl = s.xl
  | .coll => t.coll = s.coll
  | .ar => t.ar = s.ar
  | .fab => t.fab = s.fab
  | .link => t.link = s.link
  | .mem => t.mem = s.mem
  | .part => t.part = s.part
  | .far => t.far = s.far
  | .mgr => t.mgr = s.mgr
  | .sec => t.sec = s.sec
  | .mtr => t.mtr = s.mtr
  | .obs => t.obs = s.obs
  | .pow => t.pow = s.pow
  | .elec => t.elec = s.elec
  | .dict => t.dict = s.dict
  | .inForce => t.inForce = s.inForce
  | .counts => t.counts = s.counts
  | .out => t.out = s.out
  | .free => t.free = s.free

/-- From `s` to `t` nothing changes but the areas listed. -/
def onlyChanges (l : List Area) (s t : State) : Prop := ∀ a, l.contains a = false → sameIn a s t

/-- Every byte of device memory and of hub memory reads as before. -/
def memorySame (s t : State) : Prop :=
  (∀ a, getByte t.mem.bytes a = getByte s.mem.bytes a) ∧ ∀ a, getByte t.mem.hub a = getByte s.mem.hub a

/-! ## Safe runs -/

/-- The memories keep the canonical form. -/
def memoryCanonical (s : State) : Prop := Memory.wf s.mem.bytes = true ∧ Memory.wf s.mem.hub = true

/-- Every waiting command names only objects that exist: no step of the queue faults. -/
def safeQueue (s : State) : Prop := ∀ c ∈ s.pending, c.wf = true

/-! ## The dictionary server -/

/-- The record the server runs is a WRITE of an entry, and passes the checks every write passes (R417, R419, R420). -/
def writesEntry (s : State) (r : Request) (c : Cmd) (i n : Nat) : Bool :=
  (current s == some (r, c)) && serving s && c.code == cWrite && c.index == i && c.sub == n &&
  (match entryAt i n with
   | some e => writeCheck s (senderOf s r) e c == rDone
   | none => false)

/-- The record the server runs is a READ of an entry that its sender may read (R420, R429). -/
def readsEntry (s : State) (r : Request) (c : Cmd) (i n : Nat) : Bool :=
  (current s == some (r, c)) && serving s && c.code == cRead && c.index == i && c.sub == n &&
  (match entryAt i n with
   | some e => !shutOut s i n && reach (senderOf s r) e n true && (e.ty == 14 || !Nat.blt e.size c.offset)
   | none => false)

/-- The record the server runs is the WRITE that completes staged record `d` of `total` bytes: whole in one piece, or the last after the
pieces that its session holds (R418). -/
def completesStaged (s : State) (r : Request) (c : Cmd) (i n total : Nat) (d : List Byte) : Bool :=
  (current s == some (r, c)) && serving s && c.code == cWrite && c.index == i && c.sub == n && !shutOut s i n &&
  (match entryAt i n with
   | some e => reach (senderOf s r) e n false
   | none => false) && c.length == c.data.length && d.length == total &&
  (match (tget s.far.sessions r.session).bind fun x => x.staged with
   | some g => g.key == dkey i n && g.total == total && c.offset == g.data.length && c.data.length != 0 && d == g.data ++ c.data
   | none => c.offset == 0 && d == c.data)

/-- The record the server runs has a command code. -/
def runsCode (s : State) (r : Request) (c : Cmd) (code : Nat) : Bool := (current s == some (r, c)) && serving s && c.code == code

/-! ## The control windows -/

/-- A partition's queue control window takes a command (R76, R410). -/
def queueWindowOpen (s : State) (p : Nat) : Bool :=
  Nat.blt p 12 && running s && (partOf s p).state == .up && !windowPending s p

/-- The descriptor area holds what was written. -/
def descWritten (p : Nat) (d : BitVec 512) (s : State) : State := setWindow p (fun w => { w with desc := d }) s

/-- The command word with a result. -/
def queueAnswer (p code obj res : Nat) (s : State) : State := setWindow p (fun w => { w with word := controlWord res code obj }) s

/-- A command names a work queue of the partition that exists. -/
def ownLiveWq (s : State) (p obj : Nat) : Bool := wqValid s obj && ownsWq s p obj && wqLive (wqOf s obj)

/-- A partition's connection control window takes a command (R76, R117). -/
def connWindowOpen (s : State) (p : Nat) : Bool :=
  Nat.blt p 12 && running s && (partOf s p).state == .up && fld (tgetD s.conn.windows p {}).word 63 56 != resPending

/-- The descriptor area of the connection control window holds what was written. -/
def connWritten (p : Nat) (d : BitVec 512) (s : State) : State := setConnWindow p (fun w => { w with desc := d }) s

/-- A command names an initiator end of the partition that is not Free (R117). -/
def ownEnd (s : State) (p h : Nat) (e : End) : Bool := tget s.conn.ends h == some e && e.live && e.initiator && e.part == p

/-- A setup packet of a kind, whose check holds, comes to the hub: what the hub then has (R120, R146). -/
def hears (kind : Nat) (good : Packet → Bool) (s t : State) : Prop := ∃ u, takeSetup kind good s = some (true, u) ∧ t = leaveIdle u

/-- A packet of a kind suits the receive half its header names (R114, R116, R118, R124, R128): the end is Open or gives its operations their
time, it is in the cache, its epoch, the opcode and the direction fit. -/
def suitsEnd (s : State) (p : Packet) (kind : Nat) (e : End) : Bool :=
  let h := handleOf p.hdr
  running s && Hdr.kind p.hdr == kind &&
  !(s.conn.holdoff.isSome && (kind == kData || kind == kRequest || kind == kResponse)) && opcodeFits kind (Hdr.opcode p.hdr) &&
  tget s.conn.ends h == some e && Hdr.epoch p.hdr == e.epoch && e.takes && directionFits e kind && inCache s h

/-- It suits an end of a connection whose endpoint is not fenced (R300). -/
def reachesEnd (s : State) (p : Packet) (kind : Nat) (e : End) : Bool :=
  suitsEnd s p kind e && !isEdge (handleOf p.hdr) && !(s.fab.fenced.contains e.localEp && !e.mgmt)

/-- It suits a half of a tree edge (R255). -/
def reachesEdge (s : State) (p : Packet) (kind : Nat) (e : End) : Bool := suitsEnd s p kind e && isEdge (handleOf p.hdr)

/-- The trailer of a packet checks (R145). -/
def trailerChecks (p : Packet) : Bool := trailer p.hdr p.route p.payload == p.crc

/-- A sequenced packet is new at an end: within reach, not accepted before (R128). -/
def newAt (e : End) (psn : Nat) : Bool :=
  let d := sub32 psn e.recvThrough
  0 < d && Nat.ble d 256 && !flag e.bitmap (d - 1)

/-- What every packet that has come to an end does first: the device leaves Idle, the packet is counted. -/
def received (t : State) (h : Nat) : State := bumpFixed (dieOfEnd h) 5 1 (leaveIdle t)

/-- A packet of a kind comes to an end that takes it: the next of its mesh route, unhurt; `t` is the machine with it off the mesh. -/
def comes (s t : State) (p : Packet) (kind : Nat) (e : End) : Prop :=
  reaches p s = some t ∧ reachesEnd s p kind e = true ∧ trailerChecks p = true

/-- A sequenced packet that its end has not accepted and that is not too old (R128, R131). -/
def isNew (s : State) (p : Packet) (e : End) : Bool := newAt e (Hdr.psn p.hdr) && !tooOld s p.hdr

/-- The receive half of an end has accepted a PSN (R129). -/
def hasAccepted (psn : Nat) (e e' : End) : Prop :=
  e'.recvThrough = (acceptPsn psn e).recvThrough ∧ e'.bitmap = (acceptPsn psn e).bitmap

/-! ## Trees -/

/-- A packet that carries a tree's data or a withdrawal, of an opcode, comes in on an edge at its port die, whose entry is in the cache:
the next of its route, unhurt; `t` is the machine with it off the mesh (R253, R255, R296, R298). -/
def comesOnEdge (s t : State) (p : Packet) (die op tree : Nat) (tr : BitVec 128) (e : End) : Prop :=
  reaches p s = some t ∧ (reachesEdge s p kData e = true ∨ reachesEdge s p kWithdraw e = true) ∧ Hdr.edgeDie p.hdr = die ∧
  Hdr.opcode p.hdr = op ∧ (tget s.ar.edges (edgeKey (Hdr.edgeDie p.hdr) (Hdr.edge p.hdr))).map (·.tree) = some tree ∧
  tget s.fab.trees tree = some tr ∧ treeCached s die tree = true

/-- The first packet of the members that waits at a port die can enter its tree: the entry is in the cache, its source can be read. -/
def memberEnters (s : State) (die op : Nat) (i : TreeItem) (tr : BitVec 128) : Prop :=
  firstWaiting s die op = some i ∧ tget s.fab.trees i.tree = some tr ∧ treeCached s die i.tree = true ∧ sourceFault s i.desc = none ∧
  pathState s false i.desc.src = .go

/-- That packet, its payload read now. -/
def memberPacket (s : State) (i : TreeItem) (tr : BitVec 128) (ext : List Byte) : Packet :=
  mkPacket s { peerEp := Tree.root tr } i.desc 0 (payloadOf s i.desc ext)

/-- The machine once it has been read and counted and no longer waits. -/
def memberRead (s : State) (die : Nat) (i : TreeItem) (ext : List Byte) : State :=
  let t := noteReads i.desc.src (dropWaiting die i s)
  if i.desc.kind == kData then
    countSent (dieOfWq i.desc.wq) (Desc.part (wqOf s i.desc.wq).desc) i.desc true (payloadOf s i.desc ext).length t
  else t

/-! ## The queue engine -/

/-- The queue engine may issue WQE `w` of queue `wq` now, and every check of R81 passes. -/
def takesWqe (s : State) (wq : Nat) (w : Wqe) : Bool :=
  (nextWqe s wq == some w) && issuing s && issuable s wq && hasTurn s wq && checkWqe s wq w == stOk

/-! ## Routes -/

/-- Hops that a minimal route from a device to another still takes (R269). -/
def hopsLeft (s : State) (from_ dst : Nat) : Nat :=
  let hops := fun (d : Nat) => min (forward s from_ dst d) (dimSize s d - forward s from_ dst d)
  hops 0 + hops 1 + hops 2

/-! ## Compiled schedules -/

/-- A step of a slot's run has been issued and its operation is not carried out; its launch, join and operation are there (R218). -/
def stepFires (s : State) (slot die idx op : Nat) (c : StepCtx) (l : Launch) (j : Join) (o : Op) : Prop :=
  stepCtx s slot die idx = some c ∧ launchOf (groupOf s c.x.group) c.m.rank c.r.seq = some l ∧
  tget (groupOf s c.x.group).joins c.m.rank = some j ∧ findOp s c.m.wq c.m.idx = some o ∧ running s = true ∧
  c.r.fired.contains (stepKey die idx) = true ∧ Step.op c.st = op

/-- The step's operation has been carried out. -/
def stepDone (slot die idx : Nat) (s : State) : State :=
  setRun slot (fun r => { r with fired := r.fired.filter (· != stepKey die idx) }) s

end Sys2Proof.Machine
end

