-- ==== Sys2Proof/Certificates/Slice0/Obligations.lean ====
section
/-! DEFINITION. The statements for the provers. -/

open Sys2Proof Sys2Proof.Machine

/-- A step takes the command at the front of the queue and runs it on the state with the queue's rest. -/
def Obligations.StepRunsTheFrontCommand : Prop :=
  ∀ (s : State) (c : Instr) (rest : List Instr),
    step { s with pending := c :: rest } = exec c { s with pending := rest }

/-- With no command waiting, device time goes on: by 1 ns modulo 2^64 (the model's choice, log 1), or, while the always-on island keeps it in
Standby and Sleep, by whole steps of 1/32,768 s. PPS_OUT falls once it has been high for 100 ms, BAR4 accesses that wait are tried again
(the model's choice, log 74), and nothing else changes. -/
def Obligations.EmptyQueueLetsTimePass : Prop :=
  ∀ s : State, s.pending = [] →
    ∃ t, step s = .next t ∧ t.pending = [] ∧
      (s.time.aon = none → t.time.now = (s.time.now + 1) % 2 ^ 64 ∧ t.time.aon = none) ∧
      (∀ b n, s.time.aon = some (b, n) →
        t.time.now = (b + (n + 1) * 32768 / 1000000000 * 1000000000 / 32768) % 2 ^ 64 ∧ t.time.aon = some (b, n + 1)) ∧
      (t.time.ppsOut = true ↔ s.time.ppsOut = true ∧ t.time.now < s.time.ppsOutSince + 100000000) ∧
      t.time.islands = s.time.islands ∧ t.time.state = s.time.state ∧ t.time.setPending = s.time.setPending ∧
      (s.link.barWait = [] → onlyChanges [.time, .out] s t) ∧
      onlyChanges [.time, .out, .link, .mem, .obs, .mtr, .counts, .elec] s t

/-- No command touches the queue of waiting commands: its effect is on everything but the queue. -/
def Obligations.CommandsLeaveTheQueue : Prop :=
  ∀ (c : Instr) (s t : State), exec c s = .next t → t.pending = s.pending

/-- A command answers a next state exactly where it names only objects that exist: from every state, whatever its other operands. -/
def Obligations.WellFormedCommandsComplete : Prop :=
  ∀ (c : Instr) (s : State), (∃ t, exec c s = .next t) ↔ c.wf = true

/-- Every step keeps the canonical form of device memory and of hub memory: addresses in strictly rising order, no zero byte listed. -/
def Obligations.StepKeepsMemoryCanonical : Prop :=
  ∀ s t : State, memoryCanonical s → step s = .next t → memoryCanonical t

/-- After reset both memories are canonical and read zero at every address, no command waits, and no queue, completion queue, counter,
connection end, group, session or partition exists. -/
def Obligations.ResetIsEmptyAndCanonical : Prop :=
  memoryCanonical State.reset ∧ (∀ a, getByte State.reset.mem.bytes a = 0 ∧ getByte State.reset.mem.hub a = 0) ∧
  State.reset.pending = [] ∧ State.reset.q.wqs = [] ∧ State.reset.q.cqs = [] ∧ State.reset.q.ctrs = [] ∧
  State.reset.conn.ends = [] ∧ State.reset.coll.groups = [] ∧ State.reset.far.sessions = [] ∧
  (∀ p, (partOf State.reset p).state = .off) ∧ (∀ p, (portOf State.reset p).bring = .down) ∧
  State.reset.time.state = .free ∧ State.reset.time.now = 0

/-- A byte written to device memory is the byte read back, every other byte reads as before, and nothing but memory changes. -/
def Obligations.WrittenBytesReadBack : Prop :=
  ∀ (s : State) (a : Nat) (d : List Byte), memoryCanonical s →
    memoryCanonical (devWrite a d s) ∧
    (∀ x, getByte (devWrite a d s).mem.bytes x = if a ≤ x ∧ x < a + d.length then d.getD (x - a) 0 else getByte s.mem.bytes x) ∧
    onlyChanges [.mem] s (devWrite a d s)

/-- A mesh link goes out of service: it is recorded, routes wait to be switched and stay as they were, and a die left with no link is
marked failed. Where both dies keep a link nothing else changes but the record, its count and the Pattern Table's generation. The switch
waits for the packets on the old routes, puts the recomputed routes into use, and what waited for it sets out on them. -/
def Obligations.MeshLinkLeavesService : Prop :=
  (∀ (s : State) (link : Nat), link < 18 → hubUp s = true → linkServes s link = true →
    ∃ t, exec (.meshLinkOutOfService link) s = .next t ∧ t.mesh.out = insertNew s.mesh.out link ∧ t.mesh.switching = true ∧
      t.mesh.usedOut = s.mesh.usedOut ∧ t.mem = s.mem ∧
      (∀ d, d = ((meshLinks[link]?).getD (0, 0)).1 ∨ d = ((meshLinks[link]?).getD (0, 0)).2 → hasLink t d = false →
        d ∈ t.mesh.failed) ∧
      (hasLink t ((meshLinks[link]?).getD (0, 0)).1 = true → hasLink t ((meshLinks[link]?).getD (0, 0)).2 = true →
        t = rebuildPattern (record 3 0x2001 0xF (bgCode (link / 2)) [link / 2, link]
          { s with mesh := { s.mesh with out := insertNew s.mesh.out link, switching := true } }))) ∧
  (∀ s : State, hubUp s = true → s.mesh.switching = true →
    (s.mesh.carry ≠ [] → exec .meshRouteSwitch s = .next s) ∧
    (s.mesh.carry = [] → ∃ t, exec .meshRouteSwitch s = .next t ∧ t.mesh.usedOut = s.mesh.out ∧ t.mesh.switching = false ∧ t.mesh.held = [] ∧
      (∀ c ∈ s.mesh.held, c.frame = none → ∀ r, meshRoute t c.src c.dst = some r → r.all (dieUp t) = true →
        ∃ x ∈ t.mesh.carry, x.pkt = c.pkt ∧ x.src = c.src ∧ x.dst = c.dst ∧ x.route = r) ∧
      (s.mesh.held = [] → t.mesh.carry = []) ∧ onlyChanges [.mesh, .fab] s t))

/-- The master's word carries device time and goes out 1,024 ns or more after the last. An island within 2 ns of the word, its own delay
compensated, keeps its copy and is not time-suspect; one further off steps to it, is time-suspect, is named by an error record, and is degraded past 16 steps within a second. -/
def Obligations.DistributionWordCorrectsIslands : Prop :=
  (∀ (s : State) (t : Nat), serving s = true → s.time.now ≤ t → s.time.lastWord + 1024 ≤ t → t < 2 ^ 64 →
    exec (.distributionWord t) s =
      .next ({ s with time := { s.time with now := t, lastWord := t } }.emit (.distribution t))) ∧
  (∀ (s : State) (i : Nat) (off : Int), i < 208 → serving s = true → populated s (dieOfIsland i) = true →
    ∃ t, exec (.distributionWordArrival i off) s = .next t ∧
      ((tgetD t.time.islands i {}).suspect = true ↔ 2000 < off.natAbs) ∧
      (tgetD t.time.islands i {}).delay = (tgetD s.time.islands i {}).delay ∧
      (tgetD t.time.islands i {}).copy =
        ((1000 * s.time.lastWord + (tgetD s.time.islands i {}).delay : Nat) : Int) - (if off.natAbs ≤ 2000 then off else 0) ∧
      (∀ j, j ≠ i → tgetD t.time.islands j {} = tgetD s.time.islands j {}) ∧
      (off.natAbs ≤ 2000 → onlyChanges [.time] s t ∧ (tgetD t.time.islands i {}).steps = (tgetD s.time.islands i {}).steps) ∧
      (2000 < off.natAbs → (tgetD t.time.islands i {}).steps =
          ((tgetD s.time.islands i {}).steps.filter fun x => !due s x sec) ++ [s.time.now] ∧
        ((tgetD t.time.islands i {}).degraded = true ↔
          (tgetD s.time.islands i {}).degraded = true ∨ 16 < ((tgetD t.time.islands i {}).steps).length) ∧
        onlyChanges [.time, .obs, .counts, .far] s t))

/-- The commands of the queue control window that act on work queues, each in the case where it is accepted, and the answers of those
that are turned away: a reserved code, a queue that does not exist or is another partition's, a queue in the wrong state. -/
def Obligations.WorkQueueCommandsAct : Prop :=
  ∀ (s : State) (p obj : Nat) (d : BitVec 512), queueWindowOpen s p = true →
    -- CREATE_WQ
    ((wqValid s obj && ownsWq s p obj && !wqLive (wqOf s obj) && wqDescCheck s p obj (lowDesc d) == resDone) = true →
      exec (.createWq p obj d) s = .next (queueAnswer p 1 obj resDone
        (let s1 := descWritten p d s
         { s1 with q := { s1.q with wqs := tset s1.q.wqs obj { desc := lowDesc d, state := .idle } } }))) ∧
    -- MODIFY_WQ
    ((ownLiveWq s p obj && Desc.part (lowDesc d) == p && (wqOf s obj).state.settled && wqDescCheck s p obj (lowDesc d) == resDone) = true →
      exec (.modifyWq p obj d) s = .next (queueAnswer p 2 obj resDone
        (setWq obj (fun q => { q with desc := lowDesc d }) (descWritten p d s)))) ∧
    ((ownLiveWq s p obj && Desc.part (lowDesc d) == p && !(wqOf s obj).state.settled) = true →
      exec (.modifyWq p obj d) s = .next (queueAnswer p 2 obj resBusy (descWritten p d s))) ∧
    -- PAUSE_WQ
    (ownLiveWq s p obj = true →
      exec (.pauseWq p obj) s = .next (match (wqOf s obj).state with
        | .paused => queueAnswer p 3 obj resDone s
        | .draining => queueAnswer p 3 obj resInvalid s
        | .error => queueAnswer p 3 obj resInvalid s
        | _ => queueAnswer p 3 obj resPending (setWq obj (fun q => { q with pausing := true }) s))) ∧
    -- RESUME_WQ
    (ownLiveWq s p obj = true →
      exec (.resumeWq p obj) s = .next (if (wqOf s obj).state == .paused then
          queueAnswer p 4 obj resDone (setWq obj (fun q => { q with
            state := if q.producer % 2 ^ 32 = q.consumer % 2 ^ 32 then .idle else .running }) s)
        else queueAnswer p 4 obj resInvalid s)) ∧
    -- RESET_WQ
    (ownLiveWq s p obj = true → (wqOf s obj).state = .error →
      ∃ t, exec (.resetWq p obj) s = .next t ∧ (wqOf t obj).state = .idle ∧ (wqOf t obj).consumer = (wqOf s obj).producer ∧
        (wqOf t obj).producer = (wqOf s obj).producer ∧ (wqOf t obj).completed = (wqOf s obj).completed ∧
        (wqOf t obj).desc = (wqOf s obj).desc ∧ (wqOf t obj).fetched = [] ∧
        (∀ k, k ≠ obj → wqOf t k = wqOf s k) ∧ t.q.cqs = s.q.cqs ∧ t.q.ctrs = s.q.ctrs ∧ onlyChanges [.q] s t) ∧
    (ownLiveWq s p obj = true → (wqOf s obj).state ≠ .error →
      exec (.resetWq p obj) s = .next (queueAnswer p 5 obj resInvalid s)) ∧
    -- DESTROY_WQ
    (ownLiveWq s p obj = true →
      exec (.destroyWq p obj) s = .next (if (wqOf s obj).state.settled then queueAnswer p 6 obj resDone (freeWq obj s)
        else queueAnswer p 6 obj resBusy s)) ∧
    -- READ_WQ
    (ownLiveWq s p obj = true →
      exec (.readWq p obj) s = .next (queueAnswer p 0xD obj resDone (descWritten p (BitVec.ofNat 512
        ((wqOf s obj).completed * 2 ^ 192 + (wqOf s obj).producer * 2 ^ 64 + (wqOf s obj).consumer * 2 ^ 32
          + (wqOf s obj).state.code)) s))) ∧
    -- a queue that does not exist, or is not the partition's
    (ownLiveWq s p obj = false →
      exec (.modifyWq p obj d) s = .next (queueAnswer p 2 obj resInvalid (descWritten p d s)) ∧
      exec (.pauseWq p obj) s = .next (queueAnswer p 3 obj resInvalid s) ∧
      exec (.resumeWq p obj) s = .next (queueAnswer p 4 obj resInvalid s) ∧
      exec (.resetWq p obj) s = .next (queueAnswer p 5 obj resInvalid s) ∧
      exec (.destroyWq p obj) s = .next (queueAnswer p 6 obj resInvalid s) ∧
      exec (.readWq p obj) s = .next (queueAnswer p 0xD obj resInvalid s)) ∧
    -- a reserved code
    (∀ code, exec (.queueCommandReserved p code obj) s = .next (queueAnswer p (code % 16) (obj % 2 ^ 20) resInvalid s))

/-- The commands of the queue control window that act on completion queues and counters, where they are accepted and where they name
nothing; and what every command meets in a window that is PENDING, a partition that is Resetting, or one that is Off. -/
def Obligations.CompletionQueueAndCounterCommandsAct : Prop :=
  (∀ (s : State) (p obj : Nat) (d : BitVec 512), queueWindowOpen s p = true →
    ((cqValid s obj && ownsCq s p obj && !(cqOf s obj).exists_ && Desc.part (lowDesc d) == p && Desc.logSize (lowDesc d) != 15 && !Nat.blt 2047 (Desc.vector (lowDesc d))) = true →
      exec (.createCq p obj d) s = .next (queueAnswer p 8 obj resDone
        (let s1 := descWritten p d s
         { s1 with q := { s1.q with cqs := tset s1.q.cqs obj { desc := lowDesc d, exists_ := true } } }))) ∧
    ((cqValid s obj && ownsCq s p obj && (cqOf s obj).exists_) = true →
      exec (.createCq p obj d) s = .next (queueAnswer p 8 obj resInvalid (descWritten p d s)) ∧
      exec (.destroyCq p obj) s = .next (if boundTo s obj = [] then
          queueAnswer p 9 obj resDone { s with q := { s.q with cqs := tdel s.q.cqs obj } }
        else queueAnswer p 9 obj resBusy s)) ∧
    ((cqValid s obj && ownsCtr s p obj && (tget s.q.ctrs obj).isNone && Desc.part (lowDesc d) == p) = true →
      exec (.createCounter p obj d) s = .next (queueAnswer p 0xA obj resDone
        (let s1 := descWritten p d s
         let c : Counter := { value := 0, part := p, pasid := fld (lowDesc d) 231 212, mirrorAddr := fld (lowDesc d) 63 0, mirrorKey := fld (lowDesc d) 95 64 }
         { s1 with q := { s1.q with ctrs := tset s1.q.ctrs obj c } }))) ∧
    ((cqValid s obj && ownsCtr s p obj && (tget s.q.ctrs obj).isSome) = true →
      exec (.setCounter p obj d) s = .next (queueAnswer p 0xB obj resDone (setCounter obj (fld d 191 128) (descWritten p d s))) ∧
      exec (.destroyCounter p obj) s = .next (queueAnswer p 0xC obj resDone (destroyCounter obj s))) ∧
    ((cqValid s obj && ownsCtr s p obj && (tget s.q.ctrs obj).isSome) = false →
      exec (.setCounter p obj d) s = .next (queueAnswer p 0xB obj resInvalid (descWritten p d s)) ∧
      exec (.destroyCounter p obj) s = .next (queueAnswer p 0xC obj resInvalid s))) ∧
  (∀ (s : State) (p obj : Nat) (d : BitVec 512), p < 12 → running s = true →
    ((partOf s p).state = .up → windowPending s p = true →
      exec (.createWq p obj d) s = .next (descWritten p d s) ∧ exec (.destroyWq p obj) s = .next s ∧
      exec (.createCounter p obj d) s = .next (descWritten p d s) ∧ exec (.destroyCounter p obj) s = .next s) ∧
    ((partOf s p).state = .resetting →
      exec (.createWq p obj d) s = .next (queueAnswer p 1 obj resBusy (descWritten p d s)) ∧
      exec (.destroyCq p obj) s = .next (queueAnswer p 9 obj resBusy s)) ∧
    ((partOf s p).state = .off → exec (.createWq p obj d) s = .next s ∧ exec (.destroyCq p obj) s = .next s))

/-- A doorbell of a queue that the write reaches acts by the first case of R88 that applies; in each case nothing of another queue
changes but for waits that a queue entering Draining abandons. -/
def Obligations.DoorbellCasesInOrder : Prop :=
  ∀ (s : State) (v : Via) (wq tail pushed : Nat), running s = true → wqLive (wqOf s wq) = true →
    doorbellReach s v (Desc.part (wqOf s wq).desc) (Desc.pasid (wqOf s wq).desc) = .yes → tail < 2 ^ 32 → pushed < 8 →
    ∃ t, exec (.wqDoorbell v wq tail pushed) s = .next t ∧
      -- refused: PUSHED of 5 to 7 whatever d is, or past the ring
      ((5 ≤ pushed ∨ (0 < sub32 tail (wqOf s wq).producer ∧ sub32 tail (wqOf s wq).producer < 2 ^ 31 ∧
          Desc.size (wqOf s wq).desc < sub32 tail (wqOf s wq).consumer)) →
        (wqOf t wq).producer = (wqOf s wq).producer ∧
        ((wqOf s wq).state ≠ .draining → (wqOf s wq).state ≠ .error →
          (wqOf t wq).state = .draining ∧ (wqOf t wq).cause = stDoorbellInvalid) ∧
        ((wqOf s wq).state = .draining ∨ (wqOf s wq).state = .error →
          wqOf t wq = wqOf s wq ∧ t.q.refused = tmodD s.q.refused (dieOfWq wq) 0 (sat64 1))) ∧
      -- stale
      (pushed < 5 → (sub32 tail (wqOf s wq).producer = 0 ∨ 2 ^ 31 ≤ sub32 tail (wqOf s wq).producer) →
        wqOf t wq = { wqOf s wq with push := [] } ∧ t.q.stale = tmodD s.q.stale (dieOfWq wq) 0 (sat64 1) ∧
        (∀ k, k ≠ wq → wqOf t k = wqOf s k) ∧ onlyChanges [.q, .obs, .pow] s t) ∧
      -- accepted
      (pushed < 5 → 0 < sub32 tail (wqOf s wq).producer → sub32 tail (wqOf s wq).producer < 2 ^ 31 →
          sub32 tail (wqOf s wq).consumer ≤ Desc.size (wqOf s wq).desc →
        (wqOf t wq).producer = tail ∧ (wqOf t wq).consumer = (wqOf s wq).consumer ∧ (wqOf t wq).push = [] ∧
        (wqOf t wq).state = (if (wqOf s wq).state = .idle then .running else (wqOf s wq).state) ∧
        (∀ k, k ≠ wq → wqOf t k = wqOf s k) ∧ onlyChanges [.q, .obs, .pow] s t)

/-- A write into a push slot is held for the next doorbell. A completion queue's doorbell takes a HEAD that lies between the consumer
count and the entries written, counts any other, and with ARM raises the vector where the consumer count in force is below the entries
written, and arms the queue otherwise; a wait that is abandoned and stood without a free slot can end then. -/
def Obligations.PushAreaAndHeadWrites : Prop :=
  (∀ (s : State) (v : Via) (wq slot : Nat) (w : Wqe) (whole : Bool), running s = true → wqLive (wqOf s wq) = true →
    doorbellReach s v (Desc.part (wqOf s wq).desc) (Desc.pasid (wqOf s wq).desc) = .yes → slot < 4 →
    exec (.pushAreaWrite v wq slot w whole) s = .next (setWq wq (fun q => { q with push := tset q.push slot (w, whole) }) s)) ∧
  (∀ (s : State) (v : Via) (cq head : Nat) (arm : Bool), running s = true → (cqOf s cq).exists_ = true →
    doorbellReach s v (Desc.part (cqOf s cq).desc) (Desc.pasid (cqOf s cq).desc) = .yes → head < 2 ^ 32 →
    ∃ t, exec (.cqDoorbell v cq head arm) s = .next (settleWaits t) ∧
      (cqOf t cq).head = (if sub32 head (cqOf s cq).head ≤ sub32 (cqOf s cq).written (cqOf s cq).head then head else (cqOf s cq).head) ∧
      (cqOf t cq).written = (cqOf s cq).written ∧ (cqOf t cq).reserved = (cqOf s cq).reserved ∧
      (cqOf t cq).armed = ((cqOf s cq).armed || (arm && (cqOf t cq).head == (cqOf s cq).written)) ∧
      (∀ k, k ≠ cq → cqOf t k = cqOf s k) ∧ t.q.wqs = s.q.wqs ∧ t.q.ctrs = s.q.ctrs ∧ t.mem = s.mem ∧
      (sub32 (cqOf s cq).written (cqOf s cq).head < sub32 head (cqOf s cq).head →
        t.q.headIgnored = tmodD s.q.headIgnored (dieOfCq cq) 0 (sat64 1)) ∧
      (arm = false → onlyChanges [.q, .pow] s t))

/-- What happens to the entries of a queue before they issue: a fetch of four takes entries of the expected phase, and drains the queue where
it cannot be read; an entry of the wrong phase is fetched again every 250 ns, and past 4,000 attempts drains its queue once it is the next;
a fence is released once every earlier WQE has completed; a wait ends when its condition holds, or when its limit passes and a completion
slot is free. -/
def Obligations.QueuesFetchFenceAndWait : Prop :=
  (∀ (s : State) (wq first : Nat) (es : List Wqe) (ps : List Piece) (s1 : State), running s = true → wqLive (wqOf s wq) = true →
    (wqOf s wq).state ≠ .error → es.length = 4 → first % 4 = 0 →
    localSpan (dieOfWq wq) (Desc.part (wqOf s wq).desc) (Desc.pasid (wqOf s wq).desc) (Desc.ringKey (wqOf s wq).desc)
      (Desc.ringAddr (wqOf s wq).desc + 64 * (first % Desc.size (wqOf s wq).desc)) (64 * es.length) .read anyTarget true s = (.ok ps, s1) →
    (badOffset s1 ps 0 = none →
      exec (.ringFetchReturn wq first es false) s =
        .next (setWq wq (fun q => noteNext (noteReads ps s1) (takeEntries (stampAt (noteReads ps s1) (dieOfWq wq))
          (ps.all fun p => p.target == 0 || p.target == 2) first (wqesOf es.length (readPieces s1 ps (es.flatMap wqeBytes))) q))
          (noteReads ps s1))) ∧
    ((badOffset s1 ps 0).isSome = true → exec (.ringFetchReturn wq first es false) s = .next (toDraining wq stMediaError (noteBad ps s1))) ∧
    exec (.ringFetchReturn wq first es true) s = .next (toDraining wq stXlateLocal s1)) ∧
  (∀ (s : State) (wq c n at_ : Nat) (w : Wqe) (ps : List Piece) (s1 : State), running s = true →
    ((wqOf s wq).state = .running ∨ (wqOf s wq).state = .waiting) → tget (wqOf s wq).refetches c = some (n, at_) →
    sub32 c (wqOf s wq).consumer < (wqOf s wq).posted → tget (wqOf s wq).fetched c = none → due s at_ 250 = true →
    localSpan (dieOfWq wq) (Desc.part (wqOf s wq).desc) (Desc.pasid (wqOf s wq).desc) (Desc.ringKey (wqOf s wq).desc)
      (Desc.ringAddr (wqOf s wq).desc + 64 * (c % Desc.size (wqOf s wq).desc)) 64 .read anyTarget true
      (tally 0x08 1 { die := dieOfWq wq, part := Desc.part (wqOf s wq).desc, queue := wq } s) = (.ok ps, s1) →
    badOffset s1 ps 0 = none →
    ∃ t, exec (.entryRefetch wq ⟨c, w⟩) s = .next t ∧
      ((wqeOf (readPieces s1 ps (wqeBytes w))).phase = ownerPhase (Desc.logSize (wqOf s wq).desc) c →
        tget (wqOf t wq).fetched c = some (wqeOf (readPieces s1 ps (wqeBytes w))) ∧ tget (wqOf t wq).refetches c = none ∧
        (wqOf t wq).state = (wqOf s wq).state) ∧
      ((wqeOf (readPieces s1 ps (wqeBytes w))).phase ≠ ownerPhase (Desc.logSize (wqOf s wq).desc) c →
          (n < 4000 ∨ c ≠ (wqOf s wq).consumer) →
        tget (wqOf t wq).refetches c = some (n + 1, s.time.now) ∧ (wqOf t wq).fetched = (wqOf s wq).fetched ∧
        (wqOf t wq).state = (wqOf s wq).state) ∧
      ((wqeOf (readPieces s1 ps (wqeBytes w))).phase ≠ ownerPhase (Desc.logSize (wqOf s wq).desc) c → 4000 ≤ n →
          c = (wqOf s wq).consumer →
        (wqOf t wq).state = .draining ∧ (wqOf t wq).cause = stEntryNotReady)) ∧
  (∀ (s : State) (wq : Nat) (w : Wqe), running s = true → (wqOf s wq).state = .running → (wqOf s wq).next = some w → w.fence = true →
    (wqOf s wq).posted ≠ 0 → (wqOf s wq).ops = [] →
    exec (.fenceRelease wq) s = .next (setWq wq (fun q => noteNext s { q with fenceDone := true }) s)) ∧
  (∀ (s : State) (wq : Nat) (w : Wqe), running s = true → (wqOf s wq).state = .waiting → nextWqe s wq = some w →
    conditionHolds s w = true →
    ∃ t, exec (.waitConditionMet wq) s = .next t ∧ wqOf t wq = { wqOf s wq with state := .running, waitDone := true } ∧
      (∀ k, k ≠ wq → wqOf t k = wqOf s k) ∧ onlyChanges [.q, .obs] s t) ∧
  (∀ (s : State) (wq since : Nat) (w : Wqe), running s = true → (wqOf s wq).holds = true → nextWqe s wq = some w →
    (wqOf s wq).waitSince = some since → w.waitTimeout ≠ 0 → since + w.waitTimeout * 64000 ≤ s.time.now → conditionHolds s w = false →
    (slotFree s (wqOf s wq) = false → exec (.waitTimeout wq) s = .next s) ∧
    (slotFree s (wqOf s wq) = true →
      ∃ t, exec (.waitTimeout wq) s = .next (settleWaits t) ∧ (wqOf t wq).state = .draining ∧ (wqOf t wq).cause = stWaitTimeout ∧
        (wqOf t wq).consumer = add32 (wqOf s wq).consumer 1 ∧ (∀ k, k ≠ wq → wqOf t k = wqOf s k) ∧ onlyChanges [.q, .obs] s t ∧
        ∃ o ∈ (wqOf t wq).ops, o.idx = (wqOf s wq).consumer ∧ o.result = some { status := stWaitTimeout }))

/-- A pause takes effect once no WQE of the queue is in flight. A drained queue writes its FLUSHED entry, which reports the WQEs not
started, and enters Error. A completion queue that cannot be written is in error and named by a record; a mirror write that is dropped
is recorded, at most once a second, and the counter keeps its value. -/
def Obligations.QueuesPauseDrainAndFault : Prop :=
  (∀ (s : State) (wq : Nat), running s = true → (wqOf s wq).pausing = true →
    ((wqOf s wq).state = .idle ∨ (wqOf s wq).state = .running ∨ (wqOf s wq).state = .waiting) → (wqOf s wq).ops = [] →
    exec (.pauseEffective wq) s = .next (answerPause (Desc.part (wqOf s wq).desc) wq resDone
      (setWq wq (fun q => { q with pausing := false, state := .paused }) (countWaiting wq s)))) ∧
  (∀ (s : State) (wq : Nat), running s = true → (wqOf s wq).state = .draining → (wqOf s wq).ops = [] →
    ∃ t, exec (.drainComplete wq) s = .next (settleWaits t) ∧
      wqOf t wq = { wqOf s wq with state := .error, pausing := false } ∧ (∀ k, k ≠ wq → wqOf t k = wqOf s k) ∧
      ((wqOf s wq).pausing = false →
        t = (setWq wq (fun q => { q with state := .error, pausing := false })
          (postCqe (Desc.cq (wqOf s wq).desc)
            { phase := false, tsuspect := false, time := 0, cause := (wqOf s wq).cause, status := stFlushed, index := (wqOf s wq).consumer,
              wq := wq, offset := sub32 (wqOf s wq).producer (wqOf s wq).consumer } true s)))) ∧
  (∀ (s : State) (cq : Nat), running s = true → (cqOf s cq).exists_ = true →
    ∃ t, exec (.cqWriteFault cq) s = .next t ∧ (cqOf t cq).error = true ∧ (cqOf t cq).written = (cqOf s cq).written ∧
      (∀ k, k ≠ cq → cqOf t k = cqOf s k) ∧ t.q.wqs = s.q.wqs ∧
      ((cqOf s cq).error = false → t = record 3 0x4004 (Desc.part (cqOf s cq).desc) (dieOfCq cq) [cq]
        (setCq cq (fun c => { c with error := true }) s))) ∧
  (∀ (s : State) (n : Nat) (c : Counter), running s = true → tget s.q.ctrs n = some c → c.mirrorKey ≠ 0 →
    ∃ t, exec (.mirrorWriteDropped n) s = .next t ∧ (tgetD t.q.ctrs n {}).value = c.value ∧ t.mem = s.mem ∧
      ((∃ x, c.dropAt = some x ∧ s.time.now < x + 1000000000) → t = s) ∧
      ((∀ x, c.dropAt = some x → x + 1000000000 ≤ s.time.now) →
        t = record 3 0x4005 c.part (dieOfCq n) [n]
          { s with q := { s.q with ctrs := tset s.q.ctrs n { c with dropAt := some s.time.now } } }))

/-- A WQE that the queue engine takes, whose checks pass and that no wait holds, runs the operation of its opcode: NOP and WAIT end with
OK at once, as do the moves of length 0; the others go out over their connection, to the copy engines or to the tables. -/
def Obligations.QueueEngineRunsTheOpcode : Prop :=
  ∀ (s : State) (wq : Nat) (w : Wqe), takesWqe s wq w = true → holdsNow s wq w = false →
    (w.opcode = opNop → exec (.nop wq) s = .next (issueDone wq w (wqOf (takeTurn wq (leaveIdle s)) wq).consumer (takeTurn wq (leaveIdle s)))) ∧
    (w.opcode = opWait → exec (.wait wq) s = .next (issueDone wq w (wqOf (takeTurn wq (leaveIdle s)) wq).consumer (takeTurn wq (leaveIdle s)))) ∧
    (w.opcode = opPut → exec (.put wq) s = .next ((if w.length = 0 then issueDone else issueConn) wq w
      (wqOf (takeTurn wq (leaveIdle s)) wq).consumer (takeTurn wq (leaveIdle s)))) ∧
    (w.opcode = opGet → exec (.get wq) s = .next ((if w.length = 0 then issueDone else issueConn) wq w
      (wqOf (takeTurn wq (leaveIdle s)) wq).consumer (takeTurn wq (leaveIdle s)))) ∧
    (w.opcode = opPutAcc → isRound w = false → exec (.putAcc wq) s = .next ((if w.length = 0 then issueDone else issueConn) wq w
      (wqOf (takeTurn wq (leaveIdle s)) wq).consumer (takeTurn wq (leaveIdle s)))) ∧
    (isRound w = true → exec (.putAccRound wq) s = .next ((if w.length = 0 then issueDone else issueConn) wq w
      (wqOf (takeTurn wq (leaveIdle s)) wq).consumer (takeTurn wq (leaveIdle s)))) ∧
    (w.opcode = opPutNotify → exec (.putNotify wq) s = .next (issueConn wq w
      (wqOf (takeTurn wq (leaveIdle s)) wq).consumer (takeTurn wq (leaveIdle s)))) ∧
    (w.opcode = opNotify → exec (.notify wq) s = .next (issueConn wq w
      (wqOf (takeTurn wq (leaveIdle s)) wq).consumer (takeTurn wq (leaveIdle s)))) ∧
    (w.opcode = opFadd → exec (.atomicFadd wq) s = .next (issueConn wq w
      (wqOf (takeTurn wq (leaveIdle s)) wq).consumer (takeTurn wq (leaveIdle s)))) ∧
    (w.opcode = opCswap → exec (.atomicCswap wq) s = .next (issueConn wq w
      (wqOf (takeTurn wq (leaveIdle s)) wq).consumer (takeTurn wq (leaveIdle s)))) ∧
    (w.opcode = opCopyIn → exec (.copyIn wq) s = .next (issueCopy wq w
      (wqOf (takeTurn wq (leaveIdle s)) wq).consumer (takeTurn wq (leaveIdle s)))) ∧
    (w.opcode = opCopyOut → exec (.copyOut wq) s = .next (issueCopy wq w
      (wqOf (takeTurn wq (leaveIdle s)) wq).consumer (takeTurn wq (leaveIdle s)))) ∧
    (∀ ext, w.opcode = opTableUpdate → exec (.tableUpdate wq ext) s = .next (issueUpdate wq ext w
      (wqOf (takeTurn wq (leaveIdle s)) wq).consumer (takeTurn wq (leaveIdle s)))) ∧
    (w.opcode = opInvalidate → s.xl.invals.length < 64 → exec (.invalidate wq) s = .next (issueInval wq w
      (wqOf (takeTurn wq (leaveIdle s)) wq).consumer (takeTurn wq (leaveIdle s))))

/-- The commands of the connection control window: CONNECT makes a Connecting end of the partition on the die it names and asks the peer's
setup service with the epoch after the table's, or is refused (one of an absent die is INVALID: the model's choice, log 128); CLOSE,
REESTABLISH, MODIFY_CONN and READ_CONN act on an initiator end of the partition in the states they suit, and answer INVALID for any other
object. -/
def Obligations.ConnectionWindowCommandsAct : Prop :=
  ∀ (s : State) (p obj : Nat) (d : BitVec 512), connWindowOpen s p = true →
    -- CONNECT
    (∀ c h, ConnDesc.part (lowDesc d) = p → ConnDesc.spray (lowDesc d) ≠ 3 → dieOfEnd obj < 8 → dieUp s (dieOfEnd obj) = true →
      coord s = some c → partEndsOn s (dieOfEnd obj) p < (partOf s p).quotaEnds → freeHandle s (dieOfEnd obj) = some h →
      ∃ u, exec (.connect p obj d) s = .next (answerConn p resPending 1 h (askSetup
          { fromEp := c + ConnDesc.localE (lowDesc d), fromHandle := h, toEp := ConnDesc.peer (lowDesc d), target := none,
            epoch := (epochOf s h + 1) % 2 ^ 16, domain := (partOf s p).domain, pasid := ConnDesc.pasid (lowDesc d), part := p,
            spray := ConnDesc.spray (lowDesc d), mgmt := false, psn := (endOf u h).nextPsn, coll := none } u)) ∧
        tget s.conn.ends h = none ∧ dieOfEnd h = dieOfEnd obj ∧ inCache u h = true ∧
        (endOf u h).state = .connecting ∧ (endOf u h).initiator = true ∧ (endOf u h).part = p ∧
        (endOf u h).pasid = ConnDesc.pasid (lowDesc d) ∧ (endOf u h).localEp = c + ConnDesc.localE (lowDesc d) ∧
        (endOf u h).peerEp = ConnDesc.peer (lowDesc d) ∧ (endOf u h).spray = ConnDesc.spray (lowDesc d) ∧ (endOf u h).window = 256 ∧
        (endOf u h).tries = 1 ∧ (endOf u h).triedAt = s.time.now ∧ (endOf u h).tryFor = cfg s 0x4100 8 * us ∧
        (endOf u h).nextPsn < 2 ^ 32 ∧ (endOf u h).firstPsn = (endOf u h).nextPsn ∧
        (endOf u h).rate = (if ConnDesc.rate (lowDesc d) = 0 then cfg s 0x4101 1 else ConnDesc.rate (lowDesc d)) ∧
        (∀ k, k ≠ h → endOf u k = endOf s k) ∧ (tgetD u.conn.windows p {}).desc = d ∧ onlyChanges [.conn, .free, .mesh] s u) ∧
    ((ConnDesc.part (lowDesc d) ≠ p ∨ ConnDesc.spray (lowDesc d) = 3 ∨ dieUp s (dieOfEnd obj) = false ∨ 8 ≤ dieOfEnd obj) →
      exec (.connect p obj d) s = .next (answerConn p resInvalid 1 obj (connWritten p d s))) ∧
    (ConnDesc.part (lowDesc d) = p → ConnDesc.spray (lowDesc d) ≠ 3 → dieOfEnd obj < 8 → dieUp s (dieOfEnd obj) = true →
      (coord s = none → exec (.connect p obj d) s = .next (answerConn p resUnreachable 1 obj (connWritten p d s))) ∧
      (coord s ≠ none → ((partOf s p).quotaEnds ≤ partEndsOn s (dieOfEnd obj) p ∨ freeHandle s (dieOfEnd obj) = none) →
        exec (.connect p obj d) s = .next (answerConn p resNoResource 1 obj (connWritten p d s)))) ∧
    -- the others, on an end of the partition
    (∀ e, ownEnd s p obj e = true →
      ((e.state = .open_ ∨ e.state = .broken) →
        (opsOn s obj = [] → exec (.close p obj) s = .next (answerConn p resPending 2 obj (sendCloseReq obj (toClosing obj s)))) ∧
        (opsOn s obj ≠ [] → exec (.close p obj) s = .next (answerConn p resPending 2 obj (toClosing obj s))) ∧
        endOf (toClosing obj s) obj = { e with state := .closing, closeWait := true, tries := 0, triedAt := s.time.now,
                                               tryFor := cfg s 0x4100 9 * us, toSend := [] } ∧
        (∀ k, k ≠ obj → endOf (toClosing obj s) k = endOf s k) ∧ onlyChanges [.conn] s (toClosing obj s)) ∧
      ((e.state = .connecting ∨ e.state = .closing) →
        exec (.close p obj) s = .next (answerConn p resBusy 2 obj s) ∧
        exec (.reestablish p obj) s = .next (answerConn p resBusy 3 obj s)) ∧
      ((e.state = .broken ∨ (e.state = .open_ ∧ opsOn s obj = [])) →
        ∃ u, exec (.reestablish p obj) s = .next (answerConn p resPending 3 obj (askSetup
            { fromEp := e.localEp, fromHandle := obj, toEp := e.peerEp, target := if e.established then some e.peerHandle else none,
              epoch := (epochOf s obj + 1) % 2 ^ 16, domain := (partOf s p).domain, pasid := e.pasid, part := p, spray := e.spray,
              mgmt := e.mgmt, psn := (endOf u obj).nextPsn, coll := e.coll } u)) ∧
          (endOf u obj).state = .connecting ∧ (endOf u obj).epoch = e.epoch ∧ (endOf u obj).peerHandle = e.peerHandle ∧
          (endOf u obj).toSend = [] ∧ (endOf u obj).unacked = [] ∧ (endOf u obj).tries = 1 ∧ (endOf u obj).rate = e.rate ∧
          (∀ k, k ≠ obj → endOf u k = endOf s k) ∧ onlyChanges [.conn, .free] s u) ∧
      (e.state = .open_ → opsOn s obj ≠ [] → exec (.reestablish p obj) s = .next (answerConn p resBusy 3 obj s)) ∧
      (ConnDesc.spray (lowDesc d) ≠ 3 → exec (.modifyConn p obj d) s = .next (answerConn p resDone 4 obj
        (setEnd obj (fun e => { e with spray := ConnDesc.spray (lowDesc d), rateSet := some (ConnDesc.rate (lowDesc d)) }) (connWritten p d s)))) ∧
      (ConnDesc.spray (lowDesc d) = 3 → exec (.modifyConn p obj d) s = .next (answerConn p resInvalid 4 obj (connWritten p d s))) ∧
      exec (.readConn p obj) s = .next (answerConn p resDone 5 obj (connWritten p (readConnDesc e) s))) ∧
    -- on anything else
    ((∀ e, ownEnd s p obj e = false) →
      exec (.close p obj) s = .next (answerConn p resInvalid 2 obj s) ∧
      exec (.reestablish p obj) s = .next (answerConn p resInvalid 3 obj s) ∧
      exec (.modifyConn p obj d) s = .next (answerConn p resInvalid 4 obj (connWritten p d s)) ∧
      exec (.readConn p obj) s = .next (answerConn p resInvalid 5 obj s)) ∧
    (∀ code, exec (.connCommandReserved p code obj) s = .next (answerConn p resInvalid (code % 16) (obj % 2 ^ 20) s))

/-- What the answers and the silences of a peer do to an initiator end, and its requests to a target end (R118, R119): each answer is the next
setup packet that comes to the hub and says what the command says; one whose check fails is dropped. -/
def Obligations.ConnectionEndsChangeState : Prop :=
  ∀ (s : State) (h : Nat) (e : End), running s = true → tget s.conn.ends h = some e →
    -- Connecting
    (e.initiator = true → e.state = .connecting →
      (∀ ph ep psn u, ph < 2 ^ 20 → ep < 2 ^ 16 → psn < 2 ^ 32 → hears kConnectAck (ackSays h ph ep psn) s u →
        ∃ t, exec (.connectAck h ph ep psn) s = .next t ∧
        (endOf t h).state = .open_ ∧ (endOf t h).peerHandle = ph ∧ (endOf t h).epoch = ep ∧ epochOf t h = ep ∧
        (endOf t h).recvThrough = sub32 psn 1 ∧ (endOf t h).acked = sub32 e.nextPsn 1 ∧ (endOf t h).nextPsn = e.nextPsn ∧
        (endOf t h).unacked = [] ∧ (endOf t h).bitmap = 0 ∧ (∀ k, k ≠ h → endOf t k = endOf s k ∧ epochOf t k = epochOf s k) ∧
        (e.coll = none → (tget s.conn.busy e.part = some h →
            (tgetD t.conn.windows e.part {}).word = controlWord resDone (openCode s e.part) h) ∧
          onlyChanges [.conn] u t)) ∧
      (∀ nr u, e.coll = none → hears kConnectNak (nakSays h nr) s u → ∃ t, exec (.connectNak h nr) s = .next t ∧
          (tget s.conn.busy e.part = some h →
            (tgetD t.conn.windows e.part {}).word = controlWord (if nr then resNoResource else resRefused) (openCode s e.part) h) ∧
          t.conn.ends = tdel s.conn.ends h ∧ inCache t h = isEdge h ∧ onlyChanges [.conn, .mesh] u t) ∧
      (∀ ph ep psn u, takeSetup kConnectAck (ackSays h ph ep psn) s = some (false, u) → exec (.connectAck h ph ep psn) s = .next u) ∧
      (inCache s h = true → due s e.triedAt e.tryFor = true →
        (e.tries < 4 → exec (.connectTimeout h) s = .next (sendConnectReq h s)) ∧
        (4 ≤ e.tries → exec (.connectTimeout h) s = .next (connectFails h resUnreachable s)))) ∧
    -- Closing
    (e.initiator = true → e.state = .closing →
      (∀ u, hears kCloseAck (fun q => Hdr.handle q.hdr == h) s u → e.closeWait = false →
        exec (.closeAck h) s = .next (closeEnds h resDone u) ∧ tget (closeEnds h resDone u).conn.ends h = none) ∧
      (inCache s h = true → due s e.triedAt e.tryFor = true →
        (e.closeWait = true → exec (.closeTimeout h) s = .next (sendCloseReq h (endOpsWith h stTransportTimeout s))) ∧
        (e.closeWait = false → e.tries < 4 → exec (.closeTimeout h) s = .next (sendCloseReq h s)) ∧
        (e.closeWait = false → 4 ≤ e.tries → exec (.closeTimeout h) s = .next (closeEnds h resUnconfirmed s))) ∧
      (∀ u, hears kReset (resetSays h e.epoch) s u →
        exec (.resetPacket h e.epoch) s = .next (closeEnds h resDone (endOpsWith h stTargetReset u)))) ∧
    -- Open: RESET breaks an initiator end
    (∀ u, e.initiator = true → e.state = .open_ → hears kReset (resetSays h e.epoch) s u →
      exec (.resetPacket h e.epoch) s = .next (resetColl e (breakEnd h stTargetReset u)) ∧
      (opsOn s h = [] → s.coll.groups = [] →
        endOf (breakEnd h stTargetReset u) h =
          { e with state := .broken, cause := stTargetReset, toSend := [], unacked := [], hold := none, holdStart := none } ∧
        (∀ k, k ≠ h → endOf (breakEnd h stTargetReset u) k = endOf s k) ∧ onlyChanges [.conn, .counts] u (breakEnd h stTargetReset u))) ∧
    -- a target end
    (e.initiator = false → e.state = .open_ →
      (∀ ep fh u, hears kCloseReq (closeSays h ep fh e.epoch) s u →
        exec (.closeReq h ep fh e.epoch) s = .next (sendConn kCloseAck ep fh e.epoch e.mgmt [] (freeEnd h u)) ∧
        tget (freeEnd h u).conn.ends h = none ∧ epochOf (freeEnd h u) h = (epochOf s h + 1) % 2 ^ 16 ∧
        (∀ k, k ≠ h → epochOf (freeEnd h u) k = epochOf s k) ∧ (∀ a ∈ (freeEnd h u).conn.arrivals, a.1 / 2 ^ 24 ≠ h) ∧
        onlyChanges [.conn, .mesh] u (freeEnd h u)) ∧
      (∀ ep fh old u, old ≠ e.epoch → hears kCloseReq (closeSays h ep fh old) s u →
        exec (.closeReq h ep fh old) s = .next (sendConn kCloseAck ep fh old e.mgmt [] u)) ∧
      (inCache s h = true → hasOpenArrival s h = true → due s e.lastHeard e.orphanFor = true →
        exec (.orphanTimeout h) s = .next (record 1 0x4002 e.part (dieOfEnd h) [h] (freeEnd h (sendReset e s)))))

/-- The setup service: a request for another device changes nothing more; a repeated request gets the same acknowledgement; one that reaches
no partition is refused; one for an Open target end of the same peer moves it to the later epoch; any other that is accepted makes a target
end with a handle of its own, or, where the quota or the handles are used up, none. -/
def Obligations.SetupServiceAnswers : Prop :=
  ∀ (s u : State) (r : SetupReq), running s = true → hears kConnectReq (fun q => reqOf q == r) s u →
    ((coord s = none ∨ isOwn s r.toEp = false) → exec (.connectReq r) s = .next u) ∧
    (∀ c, coord s = some c → isOwn s r.toEp = true →
      (∀ h e, madeBy u r = some (h, e) → exec (.connectReq r) s = .next (ackReq r h e.epoch e.firstPsn u)) ∧
      (madeBy u r = none → r.target = none → r.mgmt = false → targetPartition u r = none →
        exec (.connectReq r) s = .next (nak r resRefused u)) ∧
      (∀ h e, madeBy u r = none → r.target = some h → tget s.conn.ends h = some e → e.initiator = false → e.state = .open_ →
        isEdge h = false → e.peerEp = r.fromEp → e.peerHandle = r.fromHandle →
        ∃ t, exec (.connectReq r) s = .next (ackReq r h (laterEpoch (r.epoch % 2 ^ 16) ((epochOf s h + 1) % 2 ^ 16)) (endOf t h).nextPsn t) ∧
          (endOf t h).state = .open_ ∧ (endOf t h).reqEpoch = r.epoch ∧
          (endOf t h).epoch = laterEpoch (r.epoch % 2 ^ 16) ((epochOf s h + 1) % 2 ^ 16) ∧ epochOf t h = (endOf t h).epoch ∧
          (endOf t h).recvThrough = sub32 r.psn 1 ∧ (endOf t h).bitmap = 0 ∧ (endOf t h).unacked = [] ∧ (endOf t h).doneQ = [] ∧
          (∀ a ∈ t.conn.arrivals, a.1 / 2 ^ 24 ≠ h) ∧ (∀ k, k ≠ h → endOf t k = endOf s k) ∧ onlyChanges [.conn, .free, .mesh] u t) ∧
      (∀ q, madeBy u r = none → r.target = none → r.mgmt = false → targetPartition u r = some q →
        (r.pasid = 0 ∨ (partOf u q).slices.contains r.pasid = true) → partUp u q = true → tget (partOf u q).resets (r.pasid + 1) = none →
        (∀ h, freeHandle u (targetDie u r.toEp) (some r.fromHandle) = some h →
          partEndsOn u (targetDie u r.toEp) q < (partOf u q).quotaEnds →
          h ≠ r.fromHandle ∧ ∃ t, exec (.connectReq r) s = .next (ackReq r h (endOf t h).epoch (endOf t h).nextPsn t) ∧
            (endOf t h).state = .open_ ∧ (endOf t h).initiator = false ∧ (endOf t h).part = q ∧ (endOf t h).pasid = r.pasid ∧
            (endOf t h).localEp = r.toEp ∧ (endOf t h).peerEp = r.fromEp ∧ (endOf t h).peerHandle = r.fromHandle ∧
            (endOf t h).epoch = laterEpoch (r.epoch % 2 ^ 16) ((epochOf s h + 1) % 2 ^ 16) ∧ inCache t h = true ∧
            (endOf t h).recvThrough = sub32 r.psn 1 ∧ (∀ k, k ≠ h → endOf t k = endOf s k) ∧ onlyChanges [.conn, .free, .mesh] u t) ∧
        ((freeHandle u (targetDie u r.toEp) (some r.fromHandle) = none ∨
            (partOf u q).quotaEnds ≤ partEndsOn u (targetDie u r.toEp) q) →
          exec (.connectReq r) s = .next (nak r resNoResource u))))

/-- The hold-off of a reset ends, a fill puts an end into the cache of its die and lets the packets that waited for it go on or, on an
uncorrectable error, breaks it with MEDIA_ERROR; a HOLD that has lasted its limit lets resends count again; an idle send half forgets its
base delay and base round trip, and a Bellows update keeps the rate between RATE_MIN and RATE_MAX and the window at most 65,536. -/
def Obligations.ConnectionTimersAct : Prop :=
  ∀ (s : State), running s = true →
    (∀ x, s.conn.holdoff = some x → x ≤ s.time.now →
      exec .epochHoldoffEnd s = .next { s with conn := { s.conn with holdoff := none } }) ∧
    ∀ (h : Nat) (e : End), tget s.conn.ends h = some e →
    (e.state ≠ .free → inCache s h = false →
      (∃ t, exec (.connectionFill h false) s = .next t ∧ inCache t h = true ∧ t.conn.ends = s.conn.ends ∧
        t.mesh.carry = (s.conn.waitFill.filter fun c => Hdr.handle c.pkt.hdr == h) ++ s.mesh.carry ∧ onlyChanges [.conn, .obs, .mesh] s t) ∧
      (e.state = .open_ → ∃ t, exec (.connectionFill h true) s = .next t ∧ (endOf t h).state = .broken ∧ (endOf t h).cause = stMediaError ∧
        ∀ k, k ≠ h → endOf t k = endOf s k)) ∧
    (e.state = .open_ → inCache s h = true →
      (∀ x, underHold s e = true → e.holdStart = some x → due s x e.holdLimit = true →
        exec (.holdLimit h) s = .next (setEnd h (fun e => { e with holdStart := none }) s)) ∧
      (due s e.lastSent (cfg s 0x4101 9 * us + 1) = true →
        exec (.sendHalfIdle h) s = .next (setEnd h (fun e => { e with delays := [], rtts := [] }) s)) ∧
      (e.pacedSent = true → underHold s e = false → due s e.lastUpdate (max e.srtt 4000) = true → e.window ≤ 65536 →
        cfg s 0x4101 2 ≤ e.rateSet.getD e.rate → cfg s 0x4101 2 ≤ rateLimit s e → e.rateSet.getD e.rate ≤ rateLimit s e →
        ∃ t, exec (.bellowsUpdate h) s = .next t ∧ cfg s 0x4101 2 ≤ (endOf t h).rate ∧ (endOf t h).rate ≤ rateLimit s e ∧
          (endOf t h).window ≤ 65536 ∧ (endOf t h).marked = 0 ∧ (endOf t h).total = 0 ∧ (endOf t h).lastUpdate = s.time.now ∧
          (endOf t h).rateSet = none ∧
          (0 < e.marked → (endOf t h).clean = 0 ∧ (endOf t h).rate ≤ e.rateSet.getD e.rate) ∧
          (∀ k, k ≠ h → endOf t k = endOf s k) ∧ onlyChanges [.conn] s t))

/-- A packet that comes to an end: a duplicate is counted and acknowledged at once and nothing else of the transport changes, a packet
beyond reach is dropped and answered with NACK, an aged or stale one is dropped, one of another epoch is dropped, one whose check fails
is answered with NACK, one for an end that is not in the cache waits for its fill, one of a reserved kind is dropped and counted, and a new
one is processed by its kind. -/
def Obligations.PacketsAreClassified : Prop :=
  ∀ (s t : State) (p : Packet) (e : End) (ext : List Byte), reaches p s = some t →
    let h := handleOf p.hdr
    let d := sub32 (Hdr.psn p.hdr) e.recvThrough
    let r := received t h
    -- new packets
    (isNew r p e = true → trailerChecks p = true →
      (reachesEnd s p kData e = true → exec (.dataPacket p ext) s = .next (takeData p ext h e p.hdr (touch h r))) ∧
      (reachesEnd s p kRequest e = true → exec (.requestPacket p) s = .next (takeRequest p h e p.hdr (touch h r))) ∧
      (reachesEnd s p kResponse e = true → exec (.responsePacket p) s = .next ((takeResponse p h e p.hdr (touch h r)).getD s)) ∧
      (reachesEnd s p kWithdraw e = true → exec (.withdraw p) s = .next (takeWithdraw p h e p.hdr (touch h r)))) ∧
    -- unsequenced packets
    (trailerChecks p = true →
      (reachesEnd s p kAck e = true → exec (.ackPacket p ext) s =
        .next (takeAck h (ackBody p.payload) ext (setEnd h (heard r) (touch h r)))) ∧
      (reachesEnd s p kHold e = true → exec (.holdPacket p) s = .next (takeHold h (setEnd h (heard r) (touch h r)))) ∧
      (reachesEnd s p kNack e = true → exec (.nackPacket p ext) s =
        .next (takeNack h e (field p.payload 0 4) (field p.payload 4 1) ext (setEnd h (heard r) (touch h r))))) ∧
    (trailerChecks p = false →
      (reachesEnd s p kAck e = true → exec (.ackPacket p ext) s = .next (checkFailed h (Hdr.psn p.hdr) true r)) ∧
      (reachesEnd s p kNack e = true → exec (.nackPacket p ext) s = .next (checkFailed h (Hdr.psn p.hdr) true r)) ∧
      (reachesEnd s p kHold e = true → exec (.holdPacket p) s = .next (checkFailed h (Hdr.psn p.hdr) true r))) ∧
    -- what is not new
    (reachesEnd s p kData e = true →
      ((d = 0 ∨ 2 ^ 32 - 65535 ≤ d ∨ (d ≤ 256 ∧ flag e.bitmap (d - 1) = true)) →
        ∃ v, exec (.dataPacket p ext) s = .next v ∧ v.conn.arrivals = s.conn.arrivals ∧ v.mem = s.mem ∧ v.q = s.q ∧
          (endOf v h).recvThrough = e.recvThrough ∧ (endOf v h).bitmap = e.bitmap ∧ (endOf v h).ackPending = 0 ∧
          ∀ k, k ≠ h → endOf v k = endOf s k) ∧
      (256 < d → d ≤ 65536 → exec (.dataPacket p ext) s = .next (sendNack h (Hdr.psn p.hdr) 1 (bumpConn (dieOfEnd h) e.part 2 1 r))) ∧
      (65536 < d → d < 2 ^ 32 - 65535 → exec (.dataPacket p ext) s = .next (bumpConn (dieOfEnd h) e.part 3 1 r)) ∧
      (newAt e (Hdr.psn p.hdr) = true → tooOld r p.hdr = true →
        exec (.dataPacket p ext) s = .next (bumpConn (dieOfEnd h) e.part 3 1 r)) ∧
      (isNew r p e = true → trailerChecks p = false → exec (.dataPacket p ext) s = .next (checkFailed h (Hdr.psn p.hdr) true r))) ∧
    -- what no end takes
    (running s = true → isEdge h = false → Hdr.kind p.hdr = kData →
      (s.conn.holdoff.isSome = true → exec (.dataPacket p ext) s = .next r) ∧
      (s.conn.holdoff = none → opcodeFits kData (Hdr.opcode p.hdr) = true → tget s.conn.ends h = some e →
        (Hdr.epoch p.hdr ≠ e.epoch → tget s.conn.resets h = none →
          exec (.dataPacket p ext) s = .next (bumpConn (dieOfEnd h) e.part 1 1 r)) ∧
        (Hdr.epoch p.hdr = e.epoch → (e.takes = false ∨ e.initiator = true) → exec (.dataPacket p ext) s = .next r) ∧
        (Hdr.epoch p.hdr = e.epoch → e.takes = true → e.initiator = false → s.fab.fenced.contains e.localEp = false → inCache s h = false →
          exec (.dataPacket p ext) s = .next (awaitFill p h t s)))) ∧
    (running s = true → (Hdr.kind p.hdr = 7 ∨ Hdr.kind p.hdr = 14 ∨ Hdr.kind p.hdr = 15) →
      ∃ v, exec (.reservedKindDrop p) s = .next v ∧
        tgetD v.conn.reservedKinds (dieOfEnd h) 0 = tgetD s.conn.reservedKinds (dieOfEnd h) 0 + 1 ∧
        v.conn.ends = s.conn.ends ∧ v.mesh = t.mesh ∧ onlyChanges [.conn, .mesh] s v)

/-- A packet is applied at most once: once a receive half has accepted a new PSN, that PSN is never new to it again while the distance
from delivered-through stays in the receive window's span. -/
def Obligations.AcceptedPsnIsNotNewAgain : Prop :=
  ∀ (e : End) (psn q : Nat), e.recvThrough < 2 ^ 32 → psn < 2 ^ 32 → q < 2 ^ 32 → newAt e psn = true →
    newAt (acceptPsn psn e) psn = false ∧
    (newAt e q = false → sub32 q e.recvThrough ≤ 256 → newAt (acceptPsn psn e) q = false) ∧
    (newAt e q = true → q ≠ psn → newAt (acceptPsn psn e) q = true) ∧
    flag (acceptPsn psn e).bitmap 0 = false ∧ (acceptPsn psn e).recvThrough < 2 ^ 32

/-- The send half: the packet at the head of what waits takes the next PSN and is kept until it is acknowledged, a source that cannot
be read is withdrawn, an overdue packet is resent under its own PSN or, resent RETRY_LIMIT times, makes the end give up; done records wait
for 16 or 500 ns; an acknowledgement leaves ACK_DELAY after the oldest packet it answers. An ACK ends the wait of exactly the packets it
covers, a HOLD stops new packets, a NACK REACH limits the window, and a NACK CHECK resends the packet it names. -/
def Obligations.SendHalvesSendAndResend : Prop :=
  (∀ (s : State) (h : Nat) (e : End), running s = true → tget s.conn.ends h = some e → inCache s h = true →
    (∀ d rest ext, e.toSend = d :: rest → sourceFault s d = none → maySend s h e d = true →
      ∃ t, exec (.sendPacket h ext) s = .next t ∧ (endOf t h).toSend = rest ∧ (endOf t h).nextPsn = add32 e.nextPsn 1 ∧
        (endOf t h).unacked = e.unacked ++ [{ psn := e.nextPsn, desc := d, sent := s.time.now, timer := rtoOf s e }] ∧
        (endOf t h).acked = e.acked ∧ (endOf t h).lastSent = s.time.now ∧
        (∀ k, k ≠ h → endOf t k = endOf s k) ∧ t.mem = s.mem) ∧
    (∀ d rest ext f, e.toSend = d :: rest → e.state ≠ .free → sourceFault s d = some f →
      exec (.sendPacket h ext) s = .next (faultSource h d true f s)) ∧
    (∀ (u : Unacked) a o, e.state = .open_ → e.unacked.find? (fun (x : Unacked) => x.psn == u.psn) = some u → badOffset s u.desc.src 0 = some (o, a) →
      exec (.sourceReadError h (some u.psn)) s = .next (faultSource h u.desc false (stMediaError, some a) s)) ∧
    (∀ d rest a o, e.state = .open_ → e.toSend = d :: rest → badOffset s d.src 0 = some (o, a) →
      exec (.sourceReadError h none) s = .next (faultSource h d true (stMediaError, some a) s)) ∧
    (e.state = .open_ → overdue s e ≠ [] → ∀ ext,
      ((∀ u ∈ overdue s e, u.resends < cfg s 0x4100 3) →
        exec (.retransmitTimer h (isEdge h) ext) s = .next (resendAll h (counting s e) false (overdue s e) ext s)) ∧
      (counting s e = true → (∃ u ∈ overdue s e, cfg s 0x4100 3 ≤ u.resends) → isEdge h = false →
        exec (.retransmitTimer h false ext) s = .next (if e.initiator then breakEnd h stTransportTimeout s else closeTarget h s))) ∧
    (e.state = .open_ → e.doneQ ≠ [] → due s e.doneSince 500 = true →
      ∃ t, exec (.doneBatchTimer h) s = .next t ∧ (endOf t h).doneQ = e.doneQ.drop 16 ∧
        (∃ d, (endOf t h).toSend = e.toSend ++ [d] ∧ d.kind = kResponse ∧ d.body = (e.doneQ.take 16).flatMap doneBytes) ∧
        (∀ k, k ≠ h → endOf t k = endOf s k) ∧ onlyChanges [.conn] s t) ∧
    (e.state = .open_ → e.ackPending ≠ 0 → due s e.ackSince e.ackFor = true →
      ∃ t, exec (.ackDelay h) s = .next t ∧ (endOf t h).ackPending = 0 ∧ (endOf t h).recvThrough = e.recvThrough ∧
        (endOf t h).bitmap = e.bitmap ∧ t.conn.arrivals = s.conn.arrivals ∧ t.mem = s.mem)) ∧
  (∀ (s t : State) (p : Packet) (e : End) (ext : List Byte), let h := handleOf p.hdr
    (comes s t p kAck e → ∃ v, exec (.ackPacket p ext) s = .next v ∧
      (endOf v h).unacked.map (·.psn) = (e.unacked.filter fun u => !(ackBody p.payload).covers u.psn).map (·.psn) ∧
      (endOf v h).nextPsn = e.nextPsn ∧ (∀ k, k ≠ h → endOf v k = endOf s k) ∧ v.conn.arrivals.length ≤ s.conn.arrivals.length) ∧
    (comes s t p kHold e → ∃ v, exec (.holdPacket p) s = .next v ∧
      (endOf v h).hold = some s.time.now ∧ (endOf v h).holdFor = cfg s 0x4100 2 ∧
      (underHold s e = false → (endOf v h).holdStart = some s.time.now ∧ (endOf v h).holdLimit = cfg s 0x4100 7 * us) ∧
      (underHold s e = true → (endOf v h).holdStart = e.holdStart ∧ (endOf v h).holdLimit = e.holdLimit) ∧
      (∀ k, k ≠ h → endOf v k = endOf s k) ∧ onlyChanges [.conn, .mesh, .obs, .counts, .pow] s v) ∧
    (comes s t p kNack e → field p.payload 4 1 = 1 → ∃ v, exec (.nackPacket p ext) s = .next v ∧
      (endOf v h).reach = (match e.reach with
        | some r => if after 32 (field p.payload 0 4) r then some (field p.payload 0 4) else some r
        | none => some (field p.payload 0 4)) ∧ (∀ k, k ≠ h → endOf v k = endOf s k) ∧
      onlyChanges [.conn, .mesh, .counts, .pow] s v) ∧
    (comes s t p kNack e → field p.payload 4 1 = 2 → ∀ u : Unacked, e.unacked.find? (fun x => x.psn == field p.payload 0 4) = some u →
      e.state = .open_ → underHold s e = false → sourceFault (received t h) u.desc = none → pathState (received t h) false u.desc.src = .go →
      ∃ v, exec (.nackPacket p ext) s = .next v ∧
        (endOf v h).unacked.map (fun x => (x.psn, x.sent, x.resends, x.backoff)) = e.unacked.map (fun x =>
          if x.psn = u.psn then (x.psn, s.time.now, x.resends + 1, x.backoff + 1) else (x.psn, x.sent, x.resends, x.backoff)) ∧
        (∀ k, k ≠ h → endOf v k = endOf s k) ∧ v.mem = s.mem))

/-- At a target a new DATA packet is placed and counted in its operation's record, a request waits in its record or is served, withdrawn bytes
count as refused. An operation that has fully arrived makes its flushes, then applies its notification in connection order, then gives
its done record: an atomic is performed, a notification adds its value to the counter it names, a refused operation's is not applied. At an
initiator the data of a GET is placed, and a done record decides its operation. -/
def Obligations.TargetsCompleteOperations : Prop :=
  (∀ (s : State) (h n : Nat) (e : End) (a : Arrival), running s = true → tget s.conn.ends h = some e → e.state = .open_ → e.initiator = false →
    inCache s h = true → tget s.conn.arrivals (arrKey h n) = some a →
    (fullyArrived s h n e a = true →
      (∀ ext, isAtomic a.opcode = true → exec (.operationFullyArrived h n ext) s = .next (performAtomic h n e a ext s)) ∧
      (∀ ext, isAtomic a.opcode = false → a.xpath = false → a.noteDue = false → collective a.opcode = false →
        exec (.operationFullyArrived h n ext) s = .next (finishArrival h n (doneOf n a)
          (setArrival (arrKey h n) (fun a => { a with complete := true, flush := some 0 }) s))) ∧
      (∀ ext, isAtomic a.opcode = false → a.xpath = false → a.noteDue = true → ∃ t, exec (.operationFullyArrived h n ext) s = .next t ∧
        tget t.conn.arrivals (arrKey h n) = some { a with complete := true, flush := some 0 } ∧ onlyChanges [.conn] s t) ∧
      (∀ ext, isAtomic a.opcode = false → a.xpath = true → a.noteDue = false → a.paths ≠ [] →
        exec (.operationFullyArrived h n ext) s = .next (sendFlushes a.paths
          (setArrival (arrKey h n) (fun b => { b with complete := true, flush := some a.paths.length }) s))) ∧
      (∀ ext, isAtomic a.opcode = false → a.xpath = true → a.noteDue = true → e.paths ≠ [] →
        exec (.operationFullyArrived h n ext) s = .next (sendFlushes e.paths (setEnd h (fun e => { e with paths := [] })
          (setArrival (arrKey h n) (fun b => { b with complete := true, flush := some e.paths.length }) s))))) ∧
    (a.complete = true → a.noteDue = true → a.flush = some 0 → inOrder e a.reqPsn = true → earlierDone s h n a.reqPsn = true →
      (a.low.isSome = true → exec (.notificationApply h n) s = .next (finishArrival h n (doneOf n a) s)) ∧
      (∀ s1, a.low = none → noteCheck (dieOfEnd h) e a.body s = (stOk, s1) → exec (.notificationApply h n) s = .next (finishArrival h n (doneOf n a)
        (tally 0x30 1 { die := dieOfEnd h, part := e.part } (addCounter (Req.rcounter a.body) (Req.low a.body) s1))))) ∧
    (∀ k, a.flush = some (k + 2) → exec (.flushingReadReturn (.arrival h n)) s = .next
      (setArrival (arrKey h n) (fun a => { a with flush := some (k + 1) }) s)) ∧
    (a.flush = some 1 → exec (.flushingReadReturn (.arrival h n)) s = .next (afterFlush h n
      (setArrival (arrKey h n) (fun a => { a with flush := some 0 }) s)))) ∧
  (∀ (s t : State) (p : Packet) (e : End) (ext : List Byte), let h := handleOf p.hdr
    let u := touch h (received t h)
    let n := Hdr.opnum p.hdr
    isNew u p e = true →
    -- the bytes of a PUT
    (∀ o s1 s2, comes s t p kData e → (Hdr.opcode p.hdr = opPut ∨ Hdr.opcode p.hdr = opPutNotify) → recordFree u h n = true →
      tileOutcome h e p.hdr (openArrival h p.hdr (frameXpath p.hdr) none u) = (o, s1) → o.status = 0 →
      pathState s1 true (packetPieces p.hdr o p.payload.length) = .go →
      storePieces (packetPieces p.hdr o p.payload.length) p.payload s1 = (p.payload.length, s2) →
      ∃ v, exec (.dataPacket p ext) s = .next v ∧ v.mem = s2.mem ∧ hasAccepted (Hdr.psn p.hdr) e (endOf v h) ∧
        (tgetD v.conn.arrivals (arrKey h n) {}).placed = (tgetD s.conn.arrivals (arrKey h n) {}).placed + p.payload.length ∧
        (∀ k, k ≠ h → endOf v k = endOf s k)) ∧
    -- a tile that fails its checks
    (∀ o s1, comes s t p kData e → (Hdr.opcode p.hdr = opPut ∨ Hdr.opcode p.hdr = opPutNotify) → recordFree u h n = true →
      tileOutcome h e p.hdr (openArrival h p.hdr (frameXpath p.hdr) none u) = (o, s1) → o.status ≠ 0 →
      ∃ v, exec (.dataPacket p ext) s = .next v ∧ v.mem = s1.mem ∧ hasAccepted (Hdr.psn p.hdr) e (endOf v h) ∧
        (tgetD v.conn.arrivals (arrKey h n) {}).refused = (tgetD s.conn.arrivals (arrKey h n) {}).refused + p.payload.length) ∧
    -- requests
    (comes s t p kRequest e → recordFree u h n = true → Hdr.opcode p.hdr ≠ opGet →
      (isAtomic (Hdr.opcode p.hdr) = true → atomicWaits h e (Hdr.opcode p.hdr) p.payload u = false) →
      ∃ v a, exec (.requestPacket p) s = .next v ∧ tget v.conn.arrivals (arrKey h n) = some a ∧ a.body = p.payload ∧
        a.noteDue = !isAtomic (Hdr.opcode p.hdr) ∧ a.reqPsn = Hdr.psn p.hdr ∧ hasAccepted (Hdr.psn p.hdr) e (endOf v h) ∧ v.mem = s.mem) ∧
    (∀ ps s1, comes s t p kRequest e → recordFree u h n = true → Hdr.opcode p.hdr = opGet →
      let x := tileSpanOf (Hdr.offset p.hdr) (Hdr.length p.hdr) (Hdr.tile p.hdr)
      remoteCheck h e (Req.rkey p.payload) (Req.raddr p.payload + x.1) x.2 Region.read true (openArrival h p.hdr false none u) = (.inr ps, s1) →
      pathState s1 false ps = .go →
      ∃ v, exec (.requestPacket p) s = .next v ∧ hasAccepted (Hdr.psn p.hdr) e (endOf v h) ∧
        (endOf v h).toSend = e.toSend ++ ((dataPackets x.1 x.2).map fun y =>
          { respDesc p.hdr kResponse y.1 y.2 with src := subPieces ps (y.1 - x.1) y.2 })) ∧
    -- withdrawn bytes
    (comes s t p kWithdraw e → e.initiator = false → Hdr.opcode p.hdr = opPut → recordFree u h n = true →
      ∃ v, exec (.withdraw p) s = .next v ∧ hasAccepted (Hdr.psn p.hdr) e (endOf v h) ∧ v.mem = s.mem ∧
        (tgetD v.conn.arrivals (arrKey h n) {}).refused = (tgetD s.conn.arrivals (arrKey h n) {}).refused + field p.payload 4 4) ∧
    -- at an initiator
    (∀ wq o x s1, comes s t p kResponse e → Hdr.opcode p.hdr = opGet → opByNum s h n = some (wq, o) → tileAt o (Hdr.offset p.hdr) = some x →
      x.st = .holding → (getOpen o = true ∨ arrivalsOn s (dieOfEnd h) < 65536) →
      pathState u true (subPieces x.loc (Hdr.offset p.hdr - x.off) p.payload.length) = .go →
      storePieces (subPieces x.loc (Hdr.offset p.hdr - x.off) p.payload.length) p.payload u = (p.payload.length, s1) →
      ∃ v, exec (.responsePacket p) s = .next v ∧ v.mem = s1.mem ∧ hasAccepted (Hdr.psn p.hdr) e (endOf v h) ∧
        (findOp s wq o.idx = some o → ∃ o' y, findOp v wq o.idx = some o' ∧ y ∈ o'.tiles ∧ y.off = x.off ∧
          (Hdr.offset p.hdr, p.payload.length) ∈ y.placed)) ∧
    (∀ wq o d, comes s t p kResponse e → Hdr.opcode p.hdr = 0 → donesOf p.payload = [d] → opByNum s h d.opnum = some (wq, o) →
      isAtomic o.wqe.opcode = false → findOp s wq o.idx = some o →
      ∃ v o', exec (.responsePacket p) s = .next v ∧ hasAccepted (Hdr.psn p.hdr) e (endOf v h) ∧ findOp v wq o.idx = some o' ∧
        o'.result = some (doneResult (d.status, d.off, d.addr))))

/-- The decision of an operation's outcome: OK where no part failed; otherwise the part with the lowest failed byte offset decides: its
status itself where that offset is 0, and PARTIAL with the offset and the status as cause above it. -/
def Obligations.LowestFailedOffsetDecides : Prop :=
  decide_ [] = ⟨stOk, 0, 0, 0⟩ ∧
  ∀ ps : List FailPart, ps ≠ [] →
    ∃ p ∈ ps, (∀ q ∈ ps, p.off ≤ q.off) ∧
      (p.off = 0 → (decide_ ps).status = p.status ∧ (decide_ ps).cause = 0 ∧ (decide_ ps).off = 0) ∧
      (0 < p.off → (decide_ ps).status = stPartial ∧ (decide_ ps).cause = p.status ∧ (decide_ ps).off = p.off) ∧
      (decide_ ps).addr = if hasAddr p.status then p.addr else 0

/-- The tiles of an operation cover it in ascending order with no gap and no overlap, every tile but the last of the same size. With
TILE 0 the size is the smallest power of two from 4 KiB to 4 MiB that makes at most four tiles, and 4 MiB past 16 MiB. -/
def Obligations.TilesCoverTheOperation : Prop :=
  (∀ size len : Nat, 0 < size →
    (∀ i x, (tilesOf size len)[i]? = some x → x.1 = i * size ∧ 0 < x.2 ∧ x.1 + x.2 ≤ len ∧
      (x.2 = size ∨ x.1 + x.2 = len)) ∧
    ((tilesOf size len).map Prod.snd).sum = len) ∧
  (∀ len : Nat, 0 < len →
    ∃ k, k ≤ 10 ∧ tileSize false 0 len = 2 ^ (12 + k) ∧
      (len ≤ 2 ^ 24 → (tilesOf (2 ^ (12 + k)) len).length ≤ 4 ∧ ∀ j, j < k → 4 < (tilesOf (2 ^ (12 + j)) len).length) ∧
      (2 ^ 24 < len → k = 10))

/-- Every piece a translation answers is of the partition and slice it was made for, and lies in what the partition has: an accelerator
port it owns, a host link it is bound to, or its own data range of device memory. -/
def Obligations.TranslationStaysInsideThePartition : Prop :=
  ∀ (s t : State) (die p pasid idx va len : Nat) (r : BitVec 256) (mayWalk : Bool) (ps : List Piece),
    xlate die p pasid idx r mayWalk va len s = (.ok ps, t) →
    ∀ x ∈ ps, x.part = p ∧ x.pasid = pasid ∧ x.region = idx ∧ va ≤ x.va ∧ x.va + x.len ≤ va + len ∧
      (x.target = 0 → (tgetD s.link.accel x.port {}).owner = some p) ∧
      (x.target = 2 → p ∈ tgetD s.link.boundParts x.port []) ∧
      (x.target = 1 → (dataRange s p).1 ≤ x.out ∧ x.out + x.len ≤ (dataRange s p).1 + (dataRange s p).2 ∧ withdrawn s x.out = false)

/-- The queue engine's later steps of a WQE: a walk that ends, one of the 64 of its translation unit, takes its tile on; a host read that is refused fails its tile with a
translation fault at the page of the first host piece; an invalidation whose tiles have drained, or whose limit has passed, goes on to
its third step, and ends with OK, under XPATH after a flushing read on every path it listed. -/
def Obligations.WalksAndInvalidationsGoOn : Prop :=
  (∀ (s : State) (wq idx off : Nat) (o : Op), running s = true → findOp s wq idx = some o → walkRuns s (wq, idx, off) = true →
    exec (.walkComplete wq idx off) s =
      .next (startTile wq idx off true { s with xl := { s.xl with walks := s.xl.walks.filter (· != (wq, idx, off)) } })) ∧
  (∀ (s : State) (wq idx off : Nat) (o : Op) (t : Tile) (p : Piece), running s = true → findOp s wq idx = some o → o.result = none →
    o.tiles.find? (fun t => t.off == off) = some t → t.st = .holding → o.wqe.opcode = opPut → t.loc.find? (fun p => p.target == 2) = some p →
    ∃ u, exec (.hostReadRefused wq idx off) s = .next u ∧
      findOp u wq idx = some { o with tiles := o.tiles.map fun x =>
        if x.off == off then { x with st := .failed stXlateLocal off (p.va / max p.page 1 * max p.page 1) } else x }) ∧
  (∀ (s : State) (n : Nat) (i : Inval), running s = true → tget s.xl.invals n = some i → i.step = 2 →
    ((∀ h ∈ i.held, stillHeld s h = false) →
      exec (.invalidateDrained n) s = .next { s with xl := { s.xl with invals := tset s.xl.invals n { i with step := 3 } } }) ∧
    (due s i.since (i.timeout * us) = true →
      ∃ t, exec (.invalTimeout n) s = .next t ∧ tget t.xl.invals n = some { i with step := 3 })) ∧
  (∀ (s : State) (n : Nat) (i : Inval) (o : Op), running s = true → tget s.xl.invals n = some i → i.step = 3 →
    findOp s i.wq i.idx = some o →
    (o.wqe.xpath = false ∨ i.paths = [] →
      ∃ t, exec (.invalidateSquashDone n) s = .next t ∧ t.xl.invals = tdel s.xl.invals n ∧
        (o.result = none → ∃ o', findOp t i.wq i.idx = some o' ∧ o'.result = some { status := stOk })) ∧
    (o.wqe.xpath = true → i.paths ≠ [] → ∃ t, exec (.invalidateSquashDone n) s = .next t ∧
      tget t.xl.invals n = some { i with step := 4 } ∧ findOp t i.wq i.idx = some { o with flush := some i.paths.length }))

/-- What an invalidation removes: after step 1 no look-aside entry in its scope is left, and no cached region descriptor of a region it
names; every other entry stays. -/
def Obligations.InvalidationEmptiesTheLookAside : Prop :=
  ∀ (s : State) (i : Inval),
    (∀ l ∈ (removeCached i s).xl.look, l ∈ s.xl.look ∧ (i.scope ≠ 3 → i.coversVa l.part l.pasid l.va l.span = false) ∧
      (i.scope = 3 → l.part = i.part → i.region ∉ l.regions)) ∧
    (∀ l ∈ s.xl.look, ((i.scope = 3 ∧ (l.part ≠ i.part ∨ i.region ∉ l.regions)) ∨ (i.scope ≠ 3 ∧ i.coversVa l.part l.pasid l.va l.span = false)) →
      l ∈ (removeCached i s).xl.look) ∧
    (∀ c ∈ (removeCached i s).xl.rcache, c ∈ s.xl.rcache ∧ (i.scope = 3 → c.index ≠ i.region) ∧
      (i.scope = 2 → Region.part c.word ≠ i.part) ∧
      (i.scope = 1 → Region.part c.word = i.part → Region.pasid c.word ≠ i.pasid)) ∧
    (i.scope = 0 → (removeCached i s).xl.rcache = s.xl.rcache) ∧ onlyChanges [.xl] s (removeCached i s)

/-- An operation whose outcome is decided, that is its queue's oldest, needs no flush and whose completion ring can be written, ends: it
leaves the queue, gives back its slot, and counts as completed exactly where it ended with OK; where no queue holds a wait, nothing of
another queue changes. Acknowledgements that waited for its flush go first. -/
def Obligations.OldestOperationEnds : Prop :=
  ∀ (s : State) (wq idx : Nat) (ext : List Byte) (o : Op) (r : Result) (rest : List Op), running s = true →
    (wqOf s wq).ops = o :: rest → o.idx = idx → o.result = some r → o.flush = none → o.wqe.xpath = false →
    o.wqe.opcode ≠ opCollStep → ringOpen (ungate o.handle o.opnum s) (Desc.cq (wqOf s wq).desc) = true →
    (∀ x ∈ s.q.wqs, x.2.holds = false) →
    ∃ t, exec (.operationCompletion wq idx ext) s = .next t ∧ t = finishOp wq o r (ungate o.handle o.opnum s) ∧
      (wqOf t wq).ops = (wqOf s wq).ops.filter (fun x => x.idx != idx) ∧
      (wqOf t wq).completed = (if r.status = stOk then ((wqOf s wq).completed + 1) % 2 ^ 64 else (wqOf s wq).completed) ∧
      (wqOf t wq).producer = (wqOf s wq).producer ∧ (wqOf t wq).consumer = (wqOf s wq).consumer ∧
      (cqOf t (Desc.cq (wqOf s wq).desc)).reserved = (cqOf s (Desc.cq (wqOf s wq).desc)).reserved - 1 ∧
      (∀ k, k ≠ wq → wqOf t k = wqOf s k)

/-- The life of a group: GROUP_CMD CREATE checks the member list and the room, DELETE frees the group with its connections, edges and
schedules; a join is checked and goes to the home device; when the last comes the home device sends the member table; with every
connection and edge open the group is Ready; a member that leaves makes it Forming again. -/
def Obligations.GroupsFormAndDissolve : Prop :=
  (∀ (s : State) (r : Request) (c : Cmd), writesEntry s r c 0x5103 0 = true →
    let g := groupSel s (senderOf s r)
    (ofLe c.data = 1 → (groupOf s g).state = .free →
      (membersBad s (groupOf s g).members = true → exec .groupCmdCreate s = .next (finish rInvalid [] s)) ∧
      (membersBad s (groupOf s g).members = false → gen1 s = false →
        let acc := if bit (groupOf s g).flags 0 then (groupOf s g).accElems else 0
        ((membersJoined s (groupOf s g).members = false ∨
            ∃ d, d < engineDies s ∧ collUnits s d < collUsed s d + groupUnits s (groupOf s g).members acc d) →
          exec .groupCmdCreate s = .next (finish rNoResource [] s)) ∧
        (membersJoined s (groupOf s g).members = true →
          (∀ d, d < engineDies s → collUsed s d + groupUnits s (groupOf s g).members acc d ≤ collUnits s d) →
          ∃ t, exec .groupCmdCreate s = .next (finish rDone [] t) ∧ (groupOf t g).state = .forming ∧ (groupOf t g).retired = 0xFFFFFFFF ∧
            (groupOf t g).members = (groupOf s g).members ∧ (groupOf t g).joins = [] ∧ (groupOf t g).launches = [] ∧
            (∀ k, k ≠ g → groupOf t k = groupOf s k) ∧ onlyChanges [.coll, .part] s t))) ∧
    (ofLe c.data = 2 →
      ((groupOf s g).state = .free → exec .groupCmdDelete s = .next (finish rInvalid [] s)) ∧
      ((groupOf s g).state ≠ .free → ∃ t, exec .groupCmdDelete s = .next (finish rDone [] t) ∧ (groupOf t g).state = .free ∧
        (groupOf t g).members = (groupOf s g).members ∧ (groupOf t g).conns = [] ∧ (groupOf t g).launches = [] ∧
        (∀ e ∈ t.ar.edges, e.2.group ≠ g) ∧ (∀ x ∈ t.coll.slots, x.2.group ≠ g) ∧ (∀ x ∈ t.ar.slots, x.group ≠ g) ∧
        ∀ x ∈ t.coll.perms, x.2.group ≠ some g))) ∧
  (∀ (s : State) (r : Request) (c : Cmd) (k : Nat), writesEntry s r c 0x5200 0 = true →
    let g := field c.data 0 2
    let ep := field c.data 2 2
    let p := joinPart s (senderOf s r) ep (field c.data 4 4)
    let j : Join := { ep := ep, key := field c.data 4 4, base := field c.data 8 8, len := field c.data 16 8, ctr := field c.data 24 4,
                      pasid := field c.data 28 4, part := p }
    ((senderOf s r).priv = 1 → p ≠ (senderOf s r).part → exec .groupJoin s = .next (finish rDenied [] s)) ∧
    (((senderOf s r).priv ≠ 1 ∨ p = (senderOf s r).part) → isOwn s ep = true → (groupOf s g).state ≠ .free →
      rankOf (groupOf s g) ep = some k →
      (joinOk s (groupOf s g) p j = true → exec .groupJoin s = .next (finish rDone []
        ((setGroup g (fun x => { x with joins := tset x.joins k j }) s).emit (.coll 1 g (homeOf (groupOf s g)) (joinArgs k j))))) ∧
      (joinOk s (groupOf s g) p j = false → exec .groupJoin s = .next (finish rInvalid [] s)))) ∧
  (∀ (s : State) (r : Request) (c : Cmd) (k : Nat) (j : Join), writesEntry s r c 0x5201 0 = true →
    let g := field c.data 0 2
    rankOf (groupOf s g) (field c.data 2 2) = some k → tget (groupOf s g).joins k = some j →
    ((senderOf s r).priv = 1 → j.part = (senderOf s r).part) →
    ∃ t, exec .groupLeave s = .next (finish rDone [] t) ∧ tget (groupOf t g).joins k = none ∧
      (groupOf t g).state = (if (groupOf s g).state = .ready then .forming else (groupOf s g).state) ∧ (groupOf t g).table = [] ∧
      (∀ x ∈ (groupOf t g).conns, x.1 / 2 ^ 16 ≠ k) ∧
      (groupOf t g).retired = (groupOf s g).retired ∧ (groupOf t g).launches = (groupOf s g).launches ∧
      (∀ i, i ≠ g → (groupOf t i).state = (groupOf s i).state ∧ (groupOf t i).joins = (groupOf s i).joins) ∧
      onlyChanges [.coll, .conn, .mesh, .fab] s t) ∧
  (∀ (s : State) (g rank : Nat) (j : Join), running s = true → (groupOf s g).state ≠ .free → isOwn s (homeOf (groupOf s g)) = true →
    rank < (groupOf s g).n → nth (groupOf s g).members rank = j.ep → (tget s.coll.groups g).isSome = true →
    ∃ t, exec (.joinArrival g rank j) s = .next t ∧ (groupOf t g).homeJoins = tset (groupOf s g).homeJoins rank j ∧
      ((groupOf t g).homeJoins.length ≠ (groupOf s g).n → t.out = s.out) ∧
      ((groupOf t g).homeJoins.length = (groupOf s g).n → t.out = ((memberDevices (groupOf s g)).map fun d =>
        .coll 2 g d ((groupOf t g).homeJoins.flatMap fun x => joinArgs x.1 x.2)).reverse ++ s.out) ∧ onlyChanges [.coll, .out] s t) ∧
  (∀ (s : State) (g : Nat) (table : List Join), running s = true → (groupOf s g).state = .forming → table.length = (groupOf s g).n →
    ∃ t, exec (.memberTable g table) s = .next t ∧ (groupOf t g).table = table ∧ (groupOf t g).state = .forming ∧
      (groupOf t g).joins = (groupOf s g).joins ∧
      ∀ k, k ≠ g → (groupOf t k).state = (groupOf s k).state ∧ (groupOf t k).conns = (groupOf s k).conns) ∧
  (∀ (s : State) (g : Nat) (edges : List (Nat × Nat × Nat × Nat)), running s = true → (groupOf s g).state = .forming →
    (groupOf s g).table.length = (groupOf s g).n → (groupOf s g).n ≠ 0 → connsOpen s (groupOf s g) = true → edgesOpen s g = true → (groupOf s g).joins.length = (localRanks s (groupOf s g)).length →
    (∀ e ∈ s.ar.edges, e.2.group = g → ∃ x ∈ edges, x.1 = e.1) →
    ∃ t, exec (.groupReady g edges) s = .next t ∧ (groupOf t g).state = .ready ∧ (groupOf t g).members = (groupOf s g).members ∧
      (groupOf t g).launches = (groupOf s g).launches ∧ ∀ k, k ≠ g → groupOf t k = groupOf s k) ∧
  (∀ (s : State) (r : Request) (c : Cmd) (d : List Byte), writesEntry s r c 0x5111 0 = true →
    let k := selOf s (senderOf s r).num (dkey 0x5110 0)
    let g := groupSel s (senderOf s r)
    writeArray c (u16Bytes (tgetD s.coll.perms k {}).ranks) = some d →
    ((groupOf s g).state ≠ .free → isPermutation (groupOf s g).n (u16s d) = true → exec .permTable s = .next (finish rDone []
      { s with coll := { s.coll with perms := tset s.coll.perms k { group := some g, ranks := u16s d } } })) ∧
    (((groupOf s g).state = .free ∨ isPermutation (groupOf s g).n (u16s d) = false) → exec .permTable s = .next (finish rInvalid [] s)))

/-- Launches, READY, START, ABORT and retirement of a sequence (R199 to R204, R221, R225). -/
def Obligations.CollectivesAreMatched : Prop :=
  (∀ (s : State) (wq : Nat) (w : Wqe), nextWqe s wq = some w → w.opcode = opCollStep → issuing s = true → issuable s wq = true →
    hasTurn s wq = true →
    let s1 := takeTurn wq (leaveIdle s)
    (collCheck s wq w ≠ stOk → exec (.collStep wq) s = .next (settleWaits (endNext wq (collCheck s wq w) s1))) ∧
    (collCheck s wq w = stOk → holdsNow s wq w = false →
      exec (.collStep wq) s = .next (registerLaunch wq w (wqOf s1 wq).consumer s1))) ∧
  (∀ (s : State) (g dev seq : Nat) (sig : Signature), running s = true → (groupOf s g).state ≠ .free →
    isOwn s (homeOf (groupOf s g)) = true → (memberDevices (groupOf s g)).contains (epDev dev) = true →
    0 < sub32 seq (groupOf s g).retired → sub32 seq (groupOf s g).retired ≤ 16 → (groupOf s g).aborted.contains seq = false →
    let m : ReadyMsg := { dev := epDev dev, seq := seq, sig := sig, at_ := s.time.now }
    let s1 := setGroup g (fun x => { x with readys := x.readys.filter (fun r => !(r.seq == seq && r.dev == m.dev)) ++ [m] }) s
    let rs := (groupOf s1 g).readys.filter fun r => r.seq == seq
    ((∀ x ∈ (groupOf s g).members, s.fab.fenced.contains x = false) →
      ((∃ d ∈ readyDevices s (groupOf s g), ∀ r ∈ rs, r.dev ≠ d) → exec (.ready g dev seq sig) s = .next s1) ∧
      ((∀ d ∈ readyDevices s (groupOf s g), ∃ r ∈ rs, r.dev = d) →
        ((∃ r ∈ rs, r.sig ≠ sig) → (∀ r ∈ rs, r.sig.cfgCheck = sig.cfgCheck) →
          exec (.ready g dev seq sig) s = .next (sendAbort g seq false s1)) ∧
        ((∀ r ∈ rs, r.sig = sig) → sig.kind ≠ ckScheduled →
          ∃ t, exec (.ready g dev seq sig) s = .next t ∧
            t.out = ((memberDevices (groupOf s g)).map fun d => .coll 4 g d [seq, 0]).reverse ++ s.out ∧ onlyChanges [.coll, .out] s t))) ∧
    ((∃ x ∈ (groupOf s g).members, s.fab.fenced.contains x = true) → (∀ r ∈ rs, r.sig.kind = ckScheduled) →
      exec (.ready g dev seq sig) s = .next (sendAbort g seq true s1))) ∧
  (∀ (s : State) (g seq : Nat) (r : ReadyMsg), running s = true → (groupOf s g).state ≠ .free → isOwn s (homeOf (groupOf s g)) = true →
    (groupOf s g).readys.find? (fun r => r.seq == seq) = some r → due s r.at_ ((groupOf s g).timeout * ms) = true →
    ∃ t, exec (.coordinatorTimeout g seq) s = .next t ∧
      t.out = ((memberDevices (groupOf s g)).map fun d => .coll 5 g d [seq, 0]).reverse ++ s.out ∧ onlyChanges [.coll, .out] s t) ∧
  (∀ (s : State) (g seq t src : Nat), running s = true → (groupOf s g).state ≠ .free →
    (epDev src ≠ homeOf (groupOf s g) → exec (.start g seq t src) s = .next s) ∧
    (epDev src = homeOf (groupOf s g) →
    ((∃ l ∈ (groupOf s g).launches, l.seq = seq ∧ l.hasEnded = false) →
      (∀ l ∈ (groupOf s g).launches, l.seq = seq → l.sig.kind ≠ ckScheduled) → exec (.start g seq t src) s = .next (startDynamic g seq s)) ∧
    (∀ l rest, (groupOf s g).launches.filter (fun l => l.seq == seq && !l.hasEnded && !l.started) = l :: rest → l.sig.kind = ckScheduled →
      (t < s.time.now + us → exec (.start g seq t src) s = .next (s.emit (.coll 5 g (homeOf (groupOf s g)) [seq, 0]))) ∧
      (s.time.now + us ≤ t → exec (.start g seq t src) s = .next (armRun g seq t s))) ∧
    ((∀ l ∈ (groupOf s g).launches, l.seq = seq → l.hasEnded = true) → seq = add32 (groupOf s g).retired 1 →
      (∀ r ∈ localRanks s (groupOf s g), s.fab.fenced.contains (nth (groupOf s g).members r) = true) →
      exec (.start g seq t src) s = .next (retire g seq s)))) ∧
  (∀ (s : State) (g seq : Nat) (fenced : Bool), running s = true → (groupOf s g).state ≠ .free →
    ∃ t, exec (.abort g seq fenced) s = .next t ∧
      (0 < sub32 seq (groupOf s g).retired → sub32 seq (groupOf s g).retired ≤ 16 → (groupOf t g).retired = seq) ∧
      (∀ l ∈ (groupOf t g).launches, l.seq ≠ seq) ∧
      (isOwn s (homeOf (groupOf s g)) = true → (groupOf s g).aborted.contains seq = false →
        ∀ d ∈ memberDevices (groupOf s g), d ≠ homeOf (groupOf s g) → .coll 5 g d [seq, b2n fenced] ∈ t.out) ∧
      ∀ k, k ≠ g → groupOf t k = groupOf s k) ∧
  (∀ (s : State) (wq idx g : Nat) (gr : Group) (l : Launch), running s = true →
    s.coll.groups.find? (fun x => x.2.launches.any fun l => l.wq == wq && l.idx == idx && !l.hasEnded && !l.started) = some (g, gr) →
    gr.launches.find? (fun l => l.wq == wq && l.idx == idx) = some l → due s l.since (gr.timeout * ms) = true →
    exec (.collStepTimeout wq idx) s = .next ((mismatch g wq idx s).emit (.coll 5 g (homeOf gr) [l.seq, 0]))) ∧
  (∀ (s : State) (g : Nat), running s = true → (groupOf s g).state ≠ .free →
    let seq := add32 (groupOf s g).retired 1
    (∃ l ∈ (groupOf s g).launches, l.seq = seq) → (∀ l ∈ (groupOf s g).launches, l.seq = seq → l.hasEnded = true) →
    (∀ x ∈ (groupOf s g).joins, launchOf (groupOf s g) x.1 seq = none → s.fab.fenced.contains (nth (groupOf s g).members x.1) = true) →
    ∃ t, exec (.sequenceRetired g) s = .next t ∧ (groupOf t g).retired = seq ∧
      (∀ l ∈ (groupOf t g).launches, l.seq ≠ seq ∧ l ∈ (groupOf s g).launches) ∧
      (∀ k, k ≠ g → groupOf t k = groupOf s k) ∧ onlyChanges [.coll, .out] s t)

/-- Streaming, and the loading, running and ending of compiled schedules (R208, R214 to R218, R221, R222, R225). -/
def Obligations.SchedulesLoadAndRun : Prop :=
  (∀ (s : State) (wq idx g : Nat) (o : Op) (l : Launch) (x : Nat × Nat), running s = true → findOp s wq idx = some o →
    launchFor s wq idx = some (g, l) → (spanTiles s o.wqe l.sig.len)[o.released]? = some x → l.started = true → Wqe.stream o.wqe = true →
    (tileReady s o.wqe o.released = true → exec (.streamTileRelease wq idx) s = .next (sendSpan g l o.wqe true x
      (onOp wq idx (fun o => { o with released := o.released + 1, lastRelease := s.time.now }) s))) ∧
    (tileReady s o.wqe o.released = false → o.wqe.waitTimeout ≠ 0 → due s o.lastRelease (o.wqe.waitTimeout * 64000) = true →
      exec (.streamTileTimeout wq idx) s = .next (withdrawSpan g l o.wqe x.1 (l.sig.len - x.1)
        (collReceived g l.rank l.seq 0 0 (some (if l.sig.kind = ckAllGather then l.rank * l.sig.len + x.1 else x.1, stWaitTimeout, 0)) []
          (onOp wq idx (fun o => { o with released := (spanTiles s o.wqe l.sig.len).length }) s))))) ∧
  (∀ (s : State) (r : Request) (c : Cmd), writesEntry s r c 0x5300 0 = true → gen1 s = false →
    let n := field c.data 0 1
    (15 < n → exec .schedLoad s = .next (finish rNoResource [] s)) ∧
    (n ≤ 15 → ((tgetD s.coll.slots n {}).state = .verifying ∨ (tgetD s.coll.slots n {}).state = .resident) →
      exec .schedLoad s = .next (finish rBusy [] s)) ∧
    (n ≤ 15 → ((tgetD s.coll.slots n {}).state = .empty ∨ (tgetD s.coll.slots n {}).state = .refused) →
      let x : Slot := { state := .verifying, key := field c.data 1 4, addr := field c.data 5 8, len := field c.data 13 4 }
      exec .schedLoad s = .next (finish rDone [] { s with coll := { s.coll with slots := tset s.coll.slots n x } }))) ∧
  -- verified: resident, waiting for its connections, or refused
  (∀ (s : State) (slot : Nat) (ext : List Byte) (x : Slot), running s = true → tget s.coll.slots slot = some x → x.state = .verifying →
    x.opening = false →
    ∃ t, exec (.scheduleVerified slot ext) s = .next t ∧
      ((tgetD t.coll.slots slot {}).state = .resident ∨ (tgetD t.coll.slots slot {}).state = .refused ∨
        ((tgetD t.coll.slots slot {}).state = .verifying ∧ (tgetD t.coll.slots slot {}).opening = true)) ∧
      ((tgetD t.coll.slots slot {}).state = .resident → ∀ y ∈ (tgetD t.coll.slots slot {}).conns, (endOf t y.2).state = .open_) ∧
      (∀ d s1, deviceBytes x.key x.addr x.len s = (some d, s1) →
        (wordAt d 124 4 ≠ 0x53435A4B ∨ (Config.sha3 (d.drop 128)).toNat ≠ wordAt d 0 32) →
        (tgetD t.coll.slots slot {}).state = .refused) ∧ ∀ k, k ≠ slot → tget t.coll.slots k = tget s.coll.slots k) ∧
  (∀ (s : State) (r : Request) (c : Cmd) (x : Slot), writesEntry s r c 0x5302 0 = true → tget s.coll.slots (ofLe c.data) = some x →
    (x.run.isSome = true → exec .schedUnload s = .next (finish rBusy [] s)) ∧
    (x.run = none → exec .schedUnload s = .next (finish rDone [] (unloadSlot (ofLe c.data) s)) ∧
      tget (unloadSlot (ofLe c.data) s).coll.slots (ofLe c.data) = none)) ∧
  (∀ (s : State) (slot die idx : Nat) (c : StepCtx), running s = true → stepCtx s slot die idx = some c → c.r.stopped = false →
    c.r.t + Step.time c.st ≤ s.time.now → c.r.issued.contains (stepKey die idx) = false → turnOf c die idx = true →
    ∃ t r, exec (.chanterStep slot die idx) s = .next t ∧ (tgetD t.coll.slots slot {}).run = some r ∧
      r.issued = c.r.issued ++ [stepKey die idx] ∧ r.fired = c.r.fired ++ [stepKey die idx] ∧ r.t = c.r.t ∧ r.seq = c.r.seq ∧
      (r.lateSeen = true ↔ c.r.lateSeen = true ∨ (Step.op c.st ≠ sTransform ∧ c.r.t + Step.time c.st + cfg s 0x5000 2 < s.time.now)) ∧
      (∀ k, k ≠ slot → tget t.coll.slots k = tget s.coll.slots k) ∧ t.mem = s.mem) ∧
  (∀ (s : State) (slot rank : Nat), running s = true →
    exec (.runCounterReached slot rank) s = .next (setMember slot rank (fun m =>
      match m.hold with
      | some (k, v) => if v ≤ tgetD m.ctrs k 0 then { m with hold := none } else m
      | none => m) s)) ∧
  (∀ (s : State) (slot rank : Nat) (x : Slot) (r : Run) (m : RunMember), running s = true → tget s.coll.slots slot = some x →
    x.run = some r → r.members.find? (fun m => m.rank == rank) = some m → m.ended = false →
    (due s r.t (SHdr.duration x.hdr + (groupOf s x.group).timeout * ms) = true →
      exec (.runTimeout slot) s = .next (s.emit (.coll 5 x.group (homeOf (groupOf s x.group)) [r.seq, 0]))) ∧
    (∀ l, r.stopped = false → m.lastDone = true → memberQuiet s x r m = true → launchOf (groupOf s x.group) rank r.seq = some l →
      exec (.memberComplete slot rank) s = .next
        (let s1 := setMember slot rank (fun m => { m with ended := true }) s
         endStep x.group m.wq m.idx (collVerdict s1 (groupOf s x.group) { l with sig := { l.sig with kind := ckReduce }, startFenced := [] } [] 0) s1)) ∧
    (r.stopped = true → memberQuiet s x r m = true →
      let s1 := setMember slot rank (fun m => { m with ended := true }) s
      let fenced := (groupOf s x.group).members.filter fun y => s.fab.fenced.contains y
      (hasReduction x = true → exec (.memberComplete slot rank) s =
        .next (endStep x.group m.wq m.idx { status := stMemberFenced } s1)) ∧
      (hasReduction x = false →
        let z := makeList (dieOfWq m.wq) (Desc.part (wqOf s m.wq).desc) fenced s1
        exec (.memberComplete slot rank) s =
          .next (endStep x.group m.wq m.idx { status := stPartialDelivery, off := fenced.length, addr := z.1 } z.2))))

/-- What the steps of a run do once issued: each is carried out once, and then no longer waits (R213). -/
def Obligations.StepsOfARunAct : Prop :=
  ∀ (s : State) (slot die idx : Nat) (c : StepCtx) (l : Launch) (j : Join) (o : Op) (ext : List Byte),
    let g := c.x.group
    let fmt := SHdr.accFmt c.x.hdr
    let exact := exactFor (SHdr.accOp c.x.hdr) fmt (SHdr.exact c.x.hdr)
    -- SEND and SEND_ACC to another rank, over the schedule connection
    (∀ h, tget c.x.conns (l.rank * 2 ^ 16 + Step.peer c.st) = some h → Step.peer c.st ≠ l.rank →
      let code := Nat.log2 (tileSize (gen1 s) o.wqe.tile (Step.length c.st)) - 11
      let tile := fun (j : Join) (d : Desc) (off n : Nat) (s : State) =>
        if Step.src c.st == 2 then areaPackets d off n (queueRequest h) s else putTile h l j d (srcAt l o.wqe c.st) off n s
      (stepFires s slot die idx sSend c l j o → exec (.send slot die idx ext) s = .next (stepDone slot die idx
        (sendOp g h l o.wqe (Step.peer c.st) ocCollPut (srcAt l o.wqe c.st) (Step.dstOff c.st) (Step.length c.st) true
          (fun n => stepDesc c l o.wqe ocCollPut (endOf s h).peerEp n code false) tile s))) ∧
      (stepFires s slot die idx sSendAcc c l j o → exec (.sendAcc slot die idx ext) s = .next (stepDone slot die idx
        (sendOp g h l o.wqe (Step.peer c.st) ocCollAcc (srcAt l o.wqe c.st) (Step.dstOff c.st) (Step.length c.st) true
          (fun n => stepDesc c l o.wqe ocCollAcc (endOf s h).peerEp n code false) tile s)))) ∧
    -- to the member itself, and COPY and LOCAL_ACC, from a source that can be read
    (∀ b n s1, stepSource l o.wqe j c.st ext s = (.bytes b n, s1) →
      let put := toOutput g l j (Step.dstOff c.st) b s1
      (stepFires s slot die idx sSend c l j o → Step.peer c.st = l.rank →
        exec (.send slot die idx ext) s = .next (stepDone slot die idx (ownNote slot c put.1 put.2))) ∧
      (stepFires s slot die idx sCopy c l j o → exec (.copy slot die idx ext) s = .next (stepDone slot die idx (ownNote slot c put.1 put.2))) ∧
      (exact = true →
        let t := ownNote slot c true (accumulate j.ep j.part g l.rank fmt (Step.dstOff c.st) 1 false b s1)
        (stepFires s slot die idx sLocalAcc c l j o → exec (.localAcc slot die idx ext) s = .next (stepDone slot die idx t)) ∧
        (stepFires s slot die idx sSendAcc c l j o → Step.peer c.st = l.rank →
          exec (.sendAcc slot die idx ext) s = .next (stepDone slot die idx t))) ∧
      (∀ ps s2 s3, exact = false → winSpan j (l.sig.outOff + Step.dstOff c.st) b.length .write s1 = (.ok ps, s2) →
        pathState s2 true ps = .go →
        combineOutput die j.part g l.rank (SHdr.accOp c.x.hdr) fmt (Step.dstOff c.st) 1 false false ps b (ext.drop n) s2 = (none, s3) →
        let t := ownNote slot c true (collReceived g l.rank l.seq 0 0 none (ps.flatMap (pathsOf s3)) s3)
        (stepFires s slot die idx sLocalAcc c l j o → exec (.localAcc slot die idx ext) s = .next (stepDone slot die idx t)) ∧
        (stepFires s slot die idx sSendAcc c l j o → Step.peer c.st = l.rank →
          exec (.sendAcc slot die idx ext) s = .next (stepDone slot die idx t)))) ∧
    -- into trees
    (stepFires s slot die idx sTreeAcc c l j o →
      exec (.treeAcc slot die idx) s = .next (stepDone slot die idx (stepTree ocCollAcc c l o.wqe j s).2)) ∧
    (stepFires s slot die idx sMcast c l j o →
      exec (.mcast slot die idx) s = .next (stepDone slot die idx (stepTree ocCollMcast c l o.wqe j s).2)) ∧
    -- ROUND
    (∀ ps s1 s2, stepFires s slot die idx sRound c l j o →
      winSpan j (l.sig.outOff + Step.dstOff c.st) (Step.length c.st) .write s = (.ok ps, s1) → pathState s1 true ps = .go →
      roundArea j.ep j.part g l.rank (SHdr.accOp c.x.hdr) fmt l.seq (elemAt fmt (Step.srcOff c.st)) (elemAt fmt (Step.dstOff c.st))
        (elemAt fmt (Step.length c.st)) ps s1 = (none, s2) →
      exec (.round slot die idx) s = .next (stepDone slot die idx (ownNote slot c true
        (collReceived g l.rank l.seq 0 0 none (ps.flatMap (pathsOf s2)) s2))) ∧
      s2.ar.areas = s.ar.areas ∧ s2.ar.counts = s.ar.counts) ∧
    -- WAIT_COUNT
    (stepFires s slot die idx sWaitCount c l j o → exec (.waitCount slot die idx) s = .next (stepDone slot die idx
      (setMember slot c.m.rank (fun m => if Step.length c.st ≤ tgetD m.ctrs (Step.ctr c.st) 0 then m
        else { m with hold := some (Step.ctr c.st, Step.length c.st) }) s))) ∧
    -- TRANSFORM
    (stepFires s slot die idx sTransform c l j o → noArray s die (fld (tgetD s.ar.binds (Step.peer c.st) 0) 511 504) = false →
      kernelRoom s die (fld (tgetD s.ar.binds (Step.peer c.st) 0) 511 504) = true →
      ∃ t, exec (.transform slot die idx) s = .next (stepDone slot die idx t) ∧ t.ar.jobs = s.ar.jobs ++ [⟨slot, die, idx, s.time.now⟩] ∧
        t.mem = s.mem)

/-- R239: what a contribution adds to a wide-sum record, that no finite value of any format loses anything in it, and what adding a
record to a record gives. -/
def Obligations.ContributionsAddExactly : Prop :=
  (∀ w : WideSum, wsAdd .nan w = { w with nan := true, nonneg := true } ∧ wsAdd (.inf false) w = { w with pinf := true, nonneg := true } ∧
    wsAdd (.inf true) w = { w with ninf := true, nonneg := true }) ∧
  (∀ (w : WideSum) (neg : Bool) (n d k : Nat), 0 < d → n * 2 ^ 149 = k * d →
    (wsAdd (.fin neg n d) w).sum = w.sum + BitVec.ofInt 320 (if neg then -(k : Int) else k) ∧
    (wsAdd (.fin neg n d) w).nan = w.nan ∧ (wsAdd (.fin neg n d) w).pinf = w.pinf ∧ (wsAdd (.fin neg n d) w).ninf = w.ninf ∧
    ((wsAdd (.fin neg n d) w).nonneg = true ↔ (w.nonneg = true ∨ neg = false ∨ n ≠ 0))) ∧
  -- every finite value of the float formats and of the MX formats is a multiple of 2^-149, below 2^143 or 2^136
  (∀ (f : Flt) (c : Nat) (neg : Bool) (n d : Nat), f ∈ [fp32, fp16, bf16, e4m3, e5m2] → c < 2 ^ f.width → loadFlt f c = .fin neg n d →
    0 < d ∧ ∃ k, n * 2 ^ 149 = k * d ∧ k < 2 ^ 285) ∧
  (∀ (fmt j : Nat) (page : List Byte) (neg : Bool) (n d : Nat), (formatOf fmt).isMx = true →
    (decodePage (formatOf fmt) page)[j]? = some (.fin neg n d) →
    0 < d ∧ ∃ k, n * 2 ^ 149 = k * d ∧ k < 2 ^ (if fmt = 7 then 292 else 285)) ∧
  -- an element of an MX page is its element value times its block's scale
  (∀ (fmt j s : Nat) (page : List Byte), (formatOf fmt).isMx = true → j < (formatOf fmt).perUnit →
    let f := formatOf fmt
    let area := f.elemWidth * f.perUnit / 8
    let code := ofLe (page.take area) / 2 ^ (j * f.elemWidth) % 2 ^ f.elemWidth
    page[area + j / 32]? = some (BitVec.ofNat 8 s) → s < 255 →
    (decodePage f page)[j]? = some (scaleBy ((s : Int) - 127) (match f with
      | .mx g _ _ => loadFlt g code
      | _ => loadInt8 code))) ∧
  ∀ a b : WideSum, wsMerge a b = { sum := a.sum + b.sum, nan := a.nan || b.nan, pinf := a.pinf || b.pinf, ninf := a.ninf || b.ninf,
                                   nonneg := a.nonneg || b.nonneg }

/-- Order does not matter where the manual says so: exact sums, and MAX, MIN, the bit operators and integer sums and products; a value
that a format represents is stored unchanged by any rounding; EP64 loses nothing of what it can write. -/
def Obligations.ReductionsForgetOrder : Prop :=
  (∀ (l l' : List ExactNum) (w : WideSum), l.Perm l' → l.foldl (fun w v => wsAdd v w) w = l'.foldl (fun w v => wsAdd v w) w) ∧
  (∀ (l m : List ExactNum), wsMerge (l.foldl (fun w v => wsAdd v w) {}) (m.foldl (fun w v => wsAdd v w) {}) =
    (l ++ m).foldl (fun w v => wsAdd v w) {}) ∧
  (∀ (op w a b c : Nat), op ∈ [opSum, opProd, opMax, opMin, opBand, opBor, opBxor] → w ∈ [8, 32] → a < 2 ^ w → b < 2 ^ w → c < 2 ^ w →
    combineInt op w a b = combineInt op w b a ∧
    combineInt op w (combineInt op w a b) c = combineInt op w a (combineInt op w b c) ∧ combineInt op w a b < 2 ^ w) ∧
  (∀ (f : Flt) (op a b c : Nat), f ∈ [fp32, fp16, bf16, e4m3, e5m2] → op ∈ [opMax, opMin] → a < 2 ^ f.width → b < 2 ^ f.width →
    c < 2 ^ f.width →
    let join := fun x y => storeFlt f .nearest (combineNum op (loadFlt f x) (loadFlt f y))
    join a b = join b a ∧ join (join a b) c = join a (join b c)) ∧
  (∀ (f : Flt) (c : Nat) (r : Rnd), f ∈ [fp32, fp16, bf16, e4m3, e5m2, e3m2, e2m3, e2m1] → c < 2 ^ f.width →
    (loadFlt f c ≠ .nan → storeFlt f r (loadFlt f c) = c) ∧ (loadFlt f c = .nan → some (storeFlt f r (loadFlt f c)) = f.nan)) ∧
  ∀ (w : WideSum) (e : Nat), (w.sum ≠ 0 → w.nonneg = true) → ep64Store w = some e →
    (w.nan = false → w.pinf = false → w.ninf = false → ep64Load e = w) ∧
    (ep64Load e).nan = w.nan ∧ (ep64Load e).pinf = w.pinf ∧ (ep64Load e).ninf = w.ninf

/-- Reduction trees and multicast at a port die. A contribution that comes in on an edge, or from a member here, is absorbed by the engine
die of the root, or admitted chunk by chunk: a chunk is combined into its slot, takes a free slot, or goes on unreduced toward the parent;
an MX contribution and a withdrawal always do. A slot forwards after its linger; an acknowledgement frees what it names. A multicast packet
goes to the members here and down every child edge. -/
def Obligations.TreesAdmitForwardAndReplicate : Prop :=
  -- from an edge
  (∀ (s t : State) (p : Packet) (die tree : Nat) (tr : BitVec 128) (e : End) (ext : List Byte), die < 4 → trailerChecks p = true →
    let h := handleOf p.hdr
    let r := touch h (received t h)
    let n := p.payload.length
    isNew (received t h) p e = true →
    (comesOnEdge s t p die ocCollAcc tree tr e →
      (Tree.isRoot tr = true → ∀ k, rankOf (groupOf s (Tree.group tr)) (Tree.root tr) = some k →
        (rootWaits r (Tree.group tr) k p.hdr p.payload = true → exec (.storeAdmission die (some p) ext) s = .next (sendHold h r)) ∧
        (rootWaits r (Tree.group tr) k p.hdr p.payload = false → exec (.storeAdmission die (some p) ext) s =
          .next (noteNew h p.hdr n false (absorbRoot tr k p.hdr p.payload ext r)))) ∧
      (Tree.isRoot tr = false → ∀ key, edgeToward s die tree (Tree.parent tr) = some key →
        let (left, whole, u) := admitAll die tree p r
        exec (.storeAdmission die (some p) ext) s = .next (forwardFull die
          ((if whole then [p] else left.map (chunkPacket p)).foldl
            (fun s q => queueEdge (edgeHalf key) { rawDesc q with origin := some (h, Hdr.psn p.hdr) } s)
            (noteNew h p.hdr n (!left.isEmpty) u))))) ∧
    (comesOnEdge s t p die ocCollMcast tree tr e →
      let ranks := mcastRanks s tr
      let on := (Tree.children tr).filterMap (edgeToward s die tree)
      ((∃ k ∈ ranks, mcastWaits r (Tree.group tr) k p.hdr n = true) →
        exec (.mcastReplicate die (some p) ext) s = .next (sendHold h r)) ∧
      ((∀ k ∈ ranks, mcastWaits r (Tree.group tr) k p.hdr n = false) → exec (.mcastReplicate die (some p) ext) s =
        .next (on.foldl (fun s key => queueEdge (edgeHalf key) { rawDesc p with origin := some (h, Hdr.psn p.hdr) } s)
          (noteNew h p.hdr n (!on.isEmpty) (ranks.foldl (fun s k => landMcast (Tree.group tr) k p.hdr p.payload s) r)))))) ∧
  -- a packet that an edge has accepted before does nothing again
  (∀ (s t : State) (p : Packet) (die tree : Nat) (tr : BitVec 128) (e : End) (ext : List Byte), die < 4 →
    let h := handleOf p.hdr
    let d := sub32 (Hdr.psn p.hdr) e.recvThrough
    (d = 0 ∨ 2 ^ 32 - 65535 ≤ d ∨ (d ≤ 256 ∧ flag e.bitmap (d - 1) = true)) →
    (comesOnEdge s t p die ocCollAcc tree tr e → ∃ v, exec (.storeAdmission die (some p) ext) s = .next v ∧
      (endOf v h).recvThrough = e.recvThrough ∧ (endOf v h).bitmap = e.bitmap ∧ (endOf v h).ackPending = 0 ∧
      onlyChanges [.conn, .mesh, .fab, .counts, .obs, .pow] s v) ∧
    (comesOnEdge s t p die ocCollMcast tree tr e → ∃ v, exec (.mcastReplicate die (some p) ext) s = .next v ∧
      (endOf v h).recvThrough = e.recvThrough ∧ (endOf v h).bitmap = e.bitmap ∧ (endOf v h).ackPending = 0 ∧
      onlyChanges [.conn, .mesh, .fab, .counts, .obs, .pow] s v)) ∧
  -- from a member at the port die
  (∀ (s : State) (die : Nat) (i : TreeItem) (tr : BitVec 128) (ext : List Byte), die < 4 → running s = true →
    let p := memberPacket s i tr ext
    let r := memberRead s die i ext
    (memberEnters s die ocCollAcc i tr →
      (Tree.isRoot tr = true → ∀ k, rankOf (groupOf s (Tree.group tr)) (Tree.root tr) = some k →
        (rootWaits r (Tree.group tr) k p.hdr p.payload = true → exec (.storeAdmission die none ext) s = .next s) ∧
        (rootWaits r (Tree.group tr) k p.hdr p.payload = false → exec (.storeAdmission die none ext) s = .next (settleMember i.group i.desc
          (absorbRoot tr k p.hdr p.payload (ext.drop (outsideLen i.desc.src)) r)))) ∧
      (Tree.isRoot tr = false → ∀ key, edgeToward s die i.tree (Tree.parent tr) = some key →
        let (left, whole, u) := admitAll die i.tree p r
        exec (.storeAdmission die none ext) s = .next (settleMember i.group i.desc (forwardFull die
          ((if whole then [i.desc] else left.map (chunkDesc i.desc)).foldl (fun s d => queueEdge (edgeHalf key) d s) u))))) ∧
    (memberEnters s die ocCollMcast i tr →
      let ranks := mcastRanks s tr
      ((∃ k ∈ ranks, mcastWaits r (Tree.group tr) k p.hdr p.payload.length = true) → exec (.mcastReplicate die none ext) s = .next s) ∧
      ((∀ k ∈ ranks, mcastWaits r (Tree.group tr) k p.hdr p.payload.length = false) → exec (.mcastReplicate die none ext) s =
        .next (settleMember i.group i.desc (((Tree.children tr).filterMap (edgeToward s die i.tree)).foldl
          (fun s key => queueEdge (edgeHalf key) i.desc s) (ranks.foldl (fun s k => landMcast (Tree.group tr) k p.hdr p.payload s) r)))))) ∧
  -- chunks
  (∀ (s : State) (die tree : Nat) (hdr : Hdr) (k : Chunk),
    let c := collHdr hdr
    let exact := exactFor c.op c.fmt c.exact
    let new := if c.isPartial then some (storeElems exact k.data) else toStore exact c.fmt k.data
    (∀ x v, s.ar.slots.find? (fun x => x.holds die tree c k.n) = some x → new.bind (storeCombine exact c.op c.fmt x.vals) = some v →
      ∃ t, takeChunk die tree hdr k s = (.absorbed, t) ∧
        t.ar.slots.find? (fun x => x.holds die tree c k.n) = some { x with vals := v, count := x.count + c.count } ∧
        t.ar.slots.length = s.ar.slots.length ∧ onlyChanges [.ar, .counts] s t) ∧
    (∀ x, s.ar.slots.find? (fun x => x.holds die tree c k.n) = some x → new.bind (storeCombine exact c.op c.fmt x.vals) = none →
      ∃ t, takeChunk die tree hdr k s = (.escaped, t) ∧ onlyChanges [.counts] s t) ∧
    (s.ar.slots.find? (fun x => x.holds die tree c k.n) = none → storeSlots ≤ slotsOf s die →
      ∃ t, takeChunk die tree hdr k s = (.noSlot, t) ∧ onlyChanges [.counts] s t) ∧
    (∀ v, s.ar.slots.find? (fun x => x.holds die tree c k.n) = none → slotsOf s die < storeSlots → new = some v →
      ∃ t x, takeChunk die tree hdr k s = (.absorbed, t) ∧ t.ar.slots = s.ar.slots ++ [x] ∧ x.holds die tree c k.n = true ∧ x.vals = v ∧
        x.count = c.count ∧ x.taken = s.time.now ∧ x.linger = cfg s 0x5001 1 ∧ onlyChanges [.ar, .counts] s t) ∧
    (s.ar.slots.find? (fun x => x.holds die tree c k.n) = none → slotsOf s die < storeSlots → new = none →
      ∃ t, takeChunk die tree hdr k s = (.escaped, t) ∧ onlyChanges [.counts] s t)) ∧
  (∀ (s : State) (die tree : Nat) (p : Packet), ((formatOf (collHdr p.hdr).fmt).isMx = true ∨ Hdr.kind p.hdr = kWithdraw) →
    admitAll die tree p s = (chunksOf p.hdr p.payload, true, s)) ∧
  -- a slot's linger ends
  (∀ (s : State) (i : Nat) (x : StoreSlot), running s = true → s.ar.slots[i]? = some x → x.number = 0 → due s x.taken x.linger = true →
    exec (.admitLinger i) s = .next (bump (dkey 0x5520 (x.die + 1)) 3 1 (forwardSlot x s)) ∧
    ∀ key, edgeToward s x.die x.tree (Tree.parent (tgetD s.fab.trees x.tree 0)) = some key → (endOf s (edgeHalf key)).isOpen = true →
      let t := forwardSlot x s
      t.ar.slots[i]? = some { x with number := s.ar.partials + 1 } ∧
      (endOf t (edgeHalf key)).toSend = (endOf s (edgeHalf key)).toSend ++ [{ rawDesc (partialOf x) with slot := s.ar.partials + 1 }] ∧
      (partialOf x).payload = storeBytes x.exact x.vals ∧ onlyChanges [.ar, .conn] s t) ∧
  -- an ACK comes back on an edge
  ∀ (s t : State) (p : Packet) (e : End) (ext : List Byte), let h := handleOf p.hdr
    p.route = 0 → reaches p s = some t → reachesEdge s p kAck e = true →
    (trailerChecks p = false → exec (.treeEdgeAck p.hdr p.payload p.crc ext) s = .next (checkFailed h (Hdr.psn p.hdr) true (received t h))) ∧
    (trailerChecks p = true → ∃ v, exec (.treeEdgeAck p.hdr p.payload p.crc ext) s = .next v ∧
      (endOf v h).unacked.map (·.psn) = (e.unacked.filter fun u => !(ackBody p.payload).covers u.psn).map (·.psn) ∧
      (endOf v h).nextPsn = e.nextPsn ∧
      ∀ x, x ∈ v.ar.slots ↔ x ∈ s.ar.slots ∧ ∀ u ∈ e.unacked, (ackBody p.payload).covers u.psn = true → u.desc.slot ≠ 0 →
        x.number ≠ u.desc.slot)

/-- Transform kernels: images are loaded, verified and unloaded, bindings written, invocations finished and stopped. -/
def Obligations.KernelsLoadBindAndRun : Prop :=
  (∀ (s : State) (r : Request) (c : Cmd), writesEntry s r c 0x5500 0 = true →
    let k := field c.data 0 1
    (k < 16 → exec .kernelLoad s = .next (finish rRange [] s)) ∧
    (16 ≤ k → gen1 s = true → exec .kernelLoad s = .next (finish rInvalid [] s)) ∧
    (16 ≤ k → gen1 s = false → tgetD s.ar.kernels k .empty ∈ [.verifying, .resident] → exec .kernelLoad s = .next (finish rBusy [] s)) ∧
    (16 ≤ k → gen1 s = false → tgetD s.ar.kernels k .empty ∈ [.empty, .refused] → exec .kernelLoad s = .next (finish rDone []
      { s with ar := { s.ar with kernels := tset s.ar.kernels k .verifying,
                                 images := tset s.ar.images k (field c.data 1 4, field c.data 5 8, field c.data 13 4) } }))) ∧
  (∀ (s : State) (k key addr len : Nat) (d : Option (List Byte)) (s1 : State), running s = true →
    tget s.ar.images k = some (key, addr, len) → tgetD s.ar.kernels k .empty = .verifying → deviceBytes key addr len s = (d, s1) →
    ∃ t, exec (.kernelVerified k) s = .next t ∧
      let good := verifyImage s1 6 (d.getD []) && Nat.ble ((d.getD []).length - 4096) 65536
      tget t.ar.kernels k = some (if good then .resident else .refused) ∧
      (good = true → tget t.ar.code k = some ((d.getD []).drop 4096)) ∧
      ∀ j, j ≠ k → tget t.ar.kernels j = tget s.ar.kernels j ∧ tget t.ar.code j = tget s.ar.code j) ∧
  (∀ (s : State) (r : Request) (c : Cmd), writesEntry s r c 0x5502 0 = true →
    let k := ofLe c.data
    ((∃ b ∈ s.ar.binds, Bind.kernel b.2 = k ∧ k ≠ 0) → exec .kernelUnload s = .next (finish rBusy [] s)) ∧
    ((∀ b ∈ s.ar.binds, Bind.kernel b.2 ≠ k) → exec .kernelUnload s = .next (finish rDone []
      { s with ar := { s.ar with kernels := tdel s.ar.kernels k, images := tdel s.ar.images k,
                                 code := tdel s.ar.code k } }))) ∧
  (∀ (s : State) (r : Request) (c : Cmd), writesEntry s r c 0x5511 0 = true →
    let n := selOf s (senderOf s r).num (dkey 0x5510 0)
    let b : BitVec 512 := BitVec.ofNat 512 (ofLe c.data)
    (bindNamed s n = true → exec .kernelBind s = .next (finish rBusy [] s)) ∧
    (bindNamed s n = false → Bind.kernel b = 0 →
      exec .kernelBind s = .next (finish rDone [] { s with ar := { s.ar with binds := tdel s.ar.binds n } })) ∧
    (bindNamed s n = false → Bind.kernel b ≠ 0 →
      (4096 < Bind.parLength b ∨ (16 ≤ Bind.kernel b ∧ (Bind.budget b < 16 ∨ 65536 < Bind.budget b))) →
      exec .kernelBind s = .next (finish rRange [] s)) ∧
    (bindNamed s n = false → Bind.kernel b ≠ 0 → Bind.parLength b ≤ 4096 →
      (Bind.kernel b < 16 ∨ (16 ≤ Bind.budget b ∧ Bind.budget b ≤ 65536)) →
      ((12 ≤ bindPart b ∨ bindKeysOk s b = false) → exec .kernelBind s = .next (finish rInvalid [] s)) ∧
      (bindPart b < 12 → bindKeysOk s b = true → exec .kernelBind s = .next (finish rDone []
        { s with ar := { s.ar with binds := tset s.ar.binds n (setFld b 127 0 0) } })))) ∧
  -- an invocation ends: what it read decides what is written
  (∀ (s : State) (slot die : Nat) (x : Invocation) (c : StepCtx) (l : Launch) (w : Wqe) (j : Join) (n : Nat) (b : BitVec 512),
    running s = true → jobCtx s slot die x.idx = some (c, l, w, j, n, b) →
    let gone := fun (v : State) => ∀ y ∈ v.ar.jobs, ¬ (y.slot = slot ∧ y.die = die ∧ y.idx = x.idx)
    (∀ inp par st t, kernelIn die c l w j b x s = (.read inp par st, t) →
      (∀ out st', runKernel t b l.seq par inp st = some (out, st') →
        let put := out.spans.foldl (fun s y => (toOutput c.x.group l j (Step.dstOff c.st + y.1) y.2 s).2) t
        let (ps, u) := statePieces die b .write put
        ∃ v, exec (.kernelDone slot die x.idx x.input x.params x.state) s = .next v ∧ gone v ∧ v.mem = (if st' = st then u else writePieces ps st' u).mem) ∧
      (runKernel t b l.seq par inp st = none → exec (.kernelDone slot die x.idx x.input x.params x.state) s = .next s) ∧
      -- a user kernel past its budget, or that faults, is stopped and the run aborted; what it wrote is open
      (16 ≤ Bind.kernel b →
        let r := userRun t b par inp st
        let stops := fun (e : Instr) => ∃ v, exec e s = .next v ∧ gone v ∧
          v.out.head? = some (.coll 5 c.x.group (homeOf (groupOf v c.x.group)) [l.seq, 0])
        (overBudget b inp.length r = true → stops (.kernelBudgetExceeded slot die x)) ∧
        (overBudget b inp.length r = false → exec (.kernelBudgetExceeded slot die x) s = .next s) ∧
        (r.fault = true → stops (.kernelFault slot die x)) ∧
        (r.fault = false → exec (.kernelFault slot die x) s = .next s))) ∧
    (∀ st t, kernelIn die c l w j b x s = (.fail st, t) → exec (.kernelDone slot die x.idx x.input x.params x.state) s =
      .next (endJob slot die x.idx l.rank (failStep c.x.group l (Step.dstOff c.st) st t))) ∧
    (∀ t, kernelIn die c l w j b x s = (.wait, t) → exec (.kernelDone slot die x.idx x.input x.params x.state) s = .next s)) ∧
  -- what the kernels put out is what their definitions say
  (∀ (s : State) (b : BitVec 512) (seq : Nat) (par inp state : List Byte), let run := runKernel s b seq par inp state
    (Bind.kernel b = 1 → run = some (mxQuant par inp seq, state)) ∧
    (Bind.kernel b = 2 → run = some (mxDequant par inp, state)) ∧
    (Bind.kernel b = 3 → run = some ({ spans := [(0, (lowrankProject par inp state).1)] }, (lowrankProject par inp state).2)) ∧
    (Bind.kernel b = 4 → run = some ({ spans := [(0, lowrankExpand par inp state)] }, state)) ∧
    (Bind.kernel b = 5 → run = some ({ spans := [(0, expertCombine par inp state)] }, state)) ∧
    (16 ≤ Bind.kernel b → let r := userRun s b par inp state
      (r.fault = false → overBudget b inp.length r = false → run =
        some ({ spans := [(0, slice r.out 0 (Bind.outLength b))] }, slice r.state 0 (Bind.stateLength b))) ∧
      ((r.fault = true ∨ overBudget b inp.length r = true) → run = none))) ∧
  ∀ (s : State) (slot die : Nat) (x : Invocation), running s = true → jobCtx s slot die x.idx = none →
    exec (.kernelBudgetExceeded slot die x) s = .next s ∧ exec (.kernelFault slot die x) s = .next s

/-- The route of a frame: a minimal direction brings it one hop nearer to its destination and a route ends within 22 hops; what a port
die does with an arriving frame and with one that waits; the priority a frame is queued at; and that no queue outgrows 256 KiB. -/
def Obligations.FramesTakeMinimalRoutes : Prop :=
  -- R269, R289, R290
  (∀ (s : State) (c d k : Nat), c < 2 ^ 16 → (∀ i, i < 3 → coordOf c i < dimSize s i ∧ coordOf d i < dimSize s i) →
    (k ∈ allMinimal s c d → hopsLeft s (neighbourOf s c k) d + 1 = hopsLeft s c d) ∧
    (∀ flow, (dorDir s c d flow = none ↔ hopsLeft s c d = 0) ∧ ∀ j, dorDir s c d flow = some j → j ∈ allMinimal s c d) ∧
    (dimSize s 2 ≤ 12 → hopsLeft s c d ≤ 22)) ∧
  -- R302: what is dropped is counted and nothing else comes of it
  (∀ (s : State) (port : Nat) (b : FrameBytes) (why : Nat), port < 24 → portsRun s = true →
    (portOf s port).isTrained = true → dieUp s (fpCode (port / 6)) = true →
    let f := readFrame b
    let s1 := countRoute (port / 6) why (countLink port 0 f.size s)
    frameFault (countLink port 0 f.size s) f = some why →
    exec (.fabricFrameArrival port b) s = .next (if why = dropGeneration then generationEvent port s1 else s1)) ∧
  (∀ (s : State) (f : Frame), let h := f.pkt.hdr
    ((f.fcsOk = false ∨ f.size < 64 ∨ largestFrame s < f.size) → frameFault s f = some dropMalformed) ∧
    (f.fcsOk = true → 64 ≤ f.size → f.size ≤ largestFrame s →
      ((f.tagged = true ∨ f.etherType ∉ [cfg s 0x3000 1, 0x88F7, 0x8808]) → frameFault s f = some dropForeign) ∧
      (f.tagged = false → f.etherType = cfg s 0x3000 1 →
        (Hdr.ver h ≠ 3 → Hdr.ver h ≠ (if s.far.generation = 1 then 1 else 2) → frameFault s f = some dropGeneration) ∧
        (Hdr.ver h = (if s.far.generation = 1 then 1 else 2) →
          (Hdr.rmode h = 3 → frameFault s f = some dropMalformed) ∧
          (Hdr.rmode h < 2 → coord s = none → frameFault s f = some dropUnassigned) ∧
          (Hdr.rmode h < 2 → coord s ≠ none → epInRange s (Hdr.dest h) = false → frameFault s f = some dropDest) ∧
          (Hdr.rmode h < 2 → coord s ≠ none → epInRange s (Hdr.dest h) = true →
            (Hdr.ttl h = 0 → isOwn s (Hdr.dest h) = false → frameFault s f = some dropTtl) ∧
            (isOwn s (Hdr.dest h) = true → epE (Hdr.dest h) ≤ 7 → dieUp s (ownerDie s (epE (Hdr.dest h))) = false →
              frameFault s f = some dropUnreachable)))))) ∧
  (∀ (s : State) (port : Nat) (b : FrameBytes), port < 24 → portsRun s = true → (portOf s port).isTrained = true →
    dieUp s (fpCode (port / 6)) = true →
    let f := readFrame b
    let s1 := countLink port 0 f.size s
    let on := transit port { pkt := f.pkt, from_ := some port, size := f.size, spray := if b.full then 2 else 0, mgmt := b.mgmt, at_ := s.time.now } s1
    let here := deliver (port / 6) f.pkt s1
    let lost := fun why => countRoute (port / 6) why s1
    let comes := fun t => exec (.fabricFrameArrival port b) s = .next t
    frameFault s1 f = none → ownFrame s1 f = false →
    -- a port that is held out, or fenced, takes no such frame
    (((portOf s port).heldOut ≠ 0 ∨ ((portOf s port).fenced = true ∧ b.mgmt = false)) → comes s1) ∧
    ((portOf s port).heldOut = 0 → ((portOf s port).fenced = false ∨ b.mgmt = true) →
      -- a tree frame enters at its edge's die
      (Hdr.rmode f.pkt.hdr = 2 → Hdr.ver f.pkt.hdr ≠ 1 → comes (if edgeKnown s1 f.pkt.hdr then here else lost dropTree)) ∧
      -- a frame for this device goes over the mesh, unless its endpoint is fenced; for another it goes on
      (Hdr.rmode f.pkt.hdr = 0 → Hdr.ver f.pkt.hdr ≠ 1 → comes (if isOwn s1 (Hdr.dest f.pkt.hdr) then
        (if s.fab.fenced.contains (Hdr.dest f.pkt.hdr) && !b.mgmt then lost dropFence else here) else on)) ∧
      (sourceRouted f.pkt = true → (Hdr.rmode f.pkt.hdr ≠ 2 ∨ Hdr.ver f.pkt.hdr = 1) →
        ((512 < torusSize s1 ∨ (routeDir f.pkt = none ∧ isOwn s1 (Hdr.dest f.pkt.hdr) = false)) → comes (lost dropRoute)) ∧
        (torusSize s1 ≤ 512 →
          (routeDir f.pkt ≠ none → comes on) ∧
          (routeDir f.pkt = none → isOwn s1 (Hdr.dest f.pkt.hdr) = true →
            comes (if s.fab.fenced.contains (Hdr.dest f.pkt.hdr) && !b.mgmt then lost dropFence else here)))))) ∧
  -- R276, R277, R279: a frame's bytes read back as what was put into them
  (∀ (ety dst src : Nat) (p : Packet) (full mgmt : Bool), ety < 2 ^ 16 → p.payload.length = payloadLen p.hdr → (Hdr.ver p.hdr = 1 ∨ p.route = 0) →
    let f := readFrame ⟨frameBytes ety dst src p, full, mgmt⟩
    f.pkt = p ∧ f.etherType = ety ∧ (f.tagged = true ↔ ety = 0x8100) ∧ f.fcsOk = true ∧
    f.size = max 64 ((if Hdr.ver p.hdr = 1 then 70 else 62) + p.payload.length)) ∧
  -- R21, R120, R298: over the mesh to the die that takes it, behind what is under way
  (∀ (s : State) (die : Nat) (p : Packet) (r : List Nat), let c : Carried := { src := fpCode die, dst := takerOf p, pkt := p }
    meshRoute s c.src c.dst = some r → r.all (dieUp s) = true → (s.mesh.switching = false ∨ c.src = c.dst) →
    (c.dst ≠ hubCode ∨ Hdr.kind p.hdr ≠ kConnectReq ∨ setupFull s = false) →
    deliver die p s = { s with mesh := { s.mesh with carry := s.mesh.carry ++ [{ c with route := r }] } }) ∧
  -- R287, R291
  (∀ (s : State) (die i : Nat) (q : Queued), die < 4 → portsRun s = true →
    let l := landUpTo i (tgetD s.fab.waiting die [])
    let stays : State := { s with fab := { s.fab with waiting := tset s.fab.waiting die l } }
    l[i]? = some q →
    (firstInHold l i q = false → exec (.frameEnqueue die i) s = .next stays) ∧
    (firstInHold l i q = true →
      (∀ why, choices s die q = .inl why → exec (.frameEnqueue die i) s = .next (countRoute die why (leaveHold die i l q s))) ∧
      ∀ cs, choices s die q = .inr cs →
        (withRoom s q cs = none → exec (.frameEnqueue die i) s = .next stays) ∧
        ∀ x, withRoom s q cs = some x → ∃ t q', exec (.frameEnqueue die i) s = .next t ∧
          (portOf t (6 * x.die + x.k)).egress = (portOf s (6 * x.die + x.k)).egress ++ [q'] ∧
          q'.pkt.payload = q.pkt.payload ∧ q'.size = q.size ∧ Hdr.dl q'.pkt.hdr = dlFor s q x.k ∧
          q'.prio = 2 * Hdr.tc q.pkt.hdr + (if dlFor s q x.k then 1 else 0) ∧
          (∀ p, p ≠ 6 * x.die + x.k → (portOf t p).egress = (portOf s p).egress) ∧
          tgetD t.fab.waiting die [] = l.eraseIdx i ∧ onlyChanges [.fab, .counts] s t ∧
          ((∀ p prio, egressBytes s p prio ≤ 262144) → (∀ y ∈ cs, q.size ≤ y.room) → ∀ p prio, egressBytes t p prio ≤ 262144)) ∧
    ∀ cs, choices s die q = .inr cs → ∀ y ∈ cs, q.size ≤ y.room) ∧
  ∀ (s : State) (c k : Nat), coordOf c (k / 2) < dimSize s (k / 2) → (crosses s c k = true ↔
    (if k % 2 = 0 then coordOf c (k / 2) = dateline s (k / 2)
     else coordOf c (k / 2) = (dateline s (k / 2) + 1) % dimSize s (k / 2)))

/-- Link frames and coordinates, tree entries, and fences. -/
def Obligations.CoordinatesTreesAndFences : Prop :=
  (∀ (s : State) (port : Nat), port < 24 → running s = true → (portOf s port).isTrained = true →
    due s (portOf s port).lastAnnounce (100 * ms) = true →
    ∃ t, exec (.announceTimer port) s = .next t ∧ t.out = .announce port (announceFrame s port) :: s.out ∧
      (portOf t port).lastAnnounce = s.time.now ∧ (∀ p, p ≠ port → portOf t p = portOf s p) ∧ onlyChanges [.fab, .out] s t) ∧
  -- the ANNOUNCE frame and its header
  (∀ (s : State) (port : Nat), port < 24 → cfg s 0x3000 1 < 2 ^ 16 → cfg s 0x3001 3 ≤ 1 → (∀ c, coord s = some c → c < 2 ^ 16) →
    let d := announceFrame s port
    let f := readFrame ⟨d, false, false⟩
    let h := announceHdr s port
    d.length = 64 ∧ d.take 6 = List.replicate 6 0xFF ∧ f.fcsOk = true ∧ f.etherType = cfg s 0x3000 1 ∧ f.pkt.hdr = h ∧ f.pkt.payload = [] ∧
    Hdr.ver h = 3 ∧ Hdr.kind h = 1 ∧ Hdr.gen h = (if s.far.generation = 1 then 1 else 2) ∧ Hdr.port h = port ∧
    Hdr.coordValid h = (coord s).isSome ∧ (Hdr.open_ h = true ↔ cfg s 0x3001 3 = 1) ∧ Hdr.manager h = isManager s ∧
    Hdr.coord h = (coord s).getD 0 / 16 * 16 ∧ Hdr.shape h = cfg s 0x3001 1 % 2 ^ 12 ∧ Hdr.deviceId h = deviceId) ∧
  (∀ (s : State) (port mac : Nat) (hdr : BitVec 320), port < 24 → running s = true → (portOf s port).isTrained = true →
    Hdr.ver hdr = 3 → Hdr.kind hdr = 1 →
    ∃ t, exec (.announce port hdr mac) s = .next t ∧ (portOf t port).farMac = mac ∧
      (powered t port = true → (portOf t port).heard = some hdr) ∧ (∀ p, p < 24 → powered t p = false → (portOf t p).bring = .down) ∧
      (∀ p h, p < 24 → (portOf t p).heard = some h → (portOf t p).heldOut = heldReason t p h) ∧
      ((coord s).isSome = true → cfg t 0x3001 2 = cfg s 0x3001 2 ∧ cfg t 0x3001 1 = cfg s 0x3001 1) ∧
      -- the first ANNOUNCE that passes gives shape and coordinates
      (isManager s = false → coord s = none → Hdr.coordValid hdr = true → Hdr.open_ hdr = true → Hdr.port hdr = partner port →
        s.far.generation ≠ 1 → Hdr.gen hdr = 2 →
        (∀ q h, q < 4 → (portOf s (6 * q + port % 6)).heard = some h → Hdr.deviceId h = Hdr.deviceId hdr) →
        cfg t 0x3001 1 = Hdr.shape hdr ∧ cfg t 0x3001 2 = neighbourOf t (Hdr.coord hdr) (port % 6 ^^^ 1))) ∧
  (∀ (s : State) (r : Request) (c : Cmd), writesEntry s r c 0x3001 2 = true →
    (fabricQuiet s = false → exec .coord s = .next (finish rBusy [] s)) ∧
    (fabricQuiet s = true → ofLe c.data ≠ 0xFFFF → (ofLe c.data % 16 ≠ 0 ∨ 11 < coordOf (ofLe c.data) 2) →
      exec .coord s = .next (finish rRange [] s)) ∧
    (fabricQuiet s = true → (ofLe c.data = 0xFFFF ∨ (ofLe c.data % 16 = 0 ∧ coordOf (ofLe c.data) 2 ≤ 11)) → ofLe c.data < 2 ^ 16 →
      ∃ t, exec .coord s = .next t ∧ cfg t 0x3001 2 = ofLe c.data ∧ (ofLe c.data = 0xFFFF → cfg t 0x3001 3 = 1))) ∧
  (∀ (s : State) (die tree : Nat), die < 4 → running s = true → (tget s.fab.trees tree).isSome = true → treeCached s die tree = false →
    ∃ t, exec (.treeEntryFill die tree) s = .next t ∧ treeCached t die tree = true ∧ onlyChanges [.fab] s t ∧
      ((s.fab.treeCache.filter fun x => x / 2 ^ 20 == die).length ≤ 16384 → tree < 2 ^ 20 →
        (t.fab.treeCache.filter fun x => x / 2 ^ 20 == die).length ≤ 16384)) ∧
  (∀ (s : State) (r : Request) (c : Cmd), writesEntry s r c 0x3011 0 = true →
    let n := selOf s (senderOf s r).num (dkey 0x3010 0)
    let old := tgetD s.fab.trees n 0
    let v := setFld (BitVec.ofNat 128 (ofLe (splice (leBytes 16 old.toNat) c.offset c.data))) 60 0 0
    let ready := fun (t : BitVec 128) => fld t 111 110 ≠ 0 ∧ (groupOf s (Tree.group t)).state = .ready
    ((ready old ∨ ready v) → exec .treeEntry s = .next (finish rBusy [] s)) ∧
    (¬ ready old → ¬ ready v → (fld v 111 110 = 3 ∨ Tree.parent v = 6) → exec .treeEntry s = .next (finish rRange [] s)) ∧
    (¬ ready old → ¬ ready v → fld v 111 110 ≠ 3 → Tree.parent v ≠ 6 → ∃ t, exec .treeEntry s = .next (finish rDone [] t) ∧
      tget t.fab.trees n = (if fld v 111 110 = 0 then none else some v) ∧ (∀ k, k ≠ n → tget t.fab.trees k = tget s.fab.trees k) ∧
      (∀ die, treeCached t die n = false ∨ 2 ^ 20 ≤ n) ∧ onlyChanges [.fab] s t)) ∧
  (∀ (s : State) (r : Request) (c : Cmd), writesEntry s r c 0x3020 0 = true → ∀ a e, (a, e) ∈ [(1, Instr.fenceCmdFence), (0, Instr.fenceCmdUnfence)] →
    field c.data 3 1 = a →
    (isManager s = false → exec e s = .next (finish rInvalid [] s)) ∧
    (isManager s = true → 1 < field c.data 2 1 → exec e s = .next (finish rRange [] s)) ∧
    (isManager s = true → field c.data 2 1 ≤ 1 →
      exec e s = .next (finish rDone [] (s.emit (.notice 0x20 0xFFFF [field c.data 0 2, field c.data 2 1, a]))))) ∧
  ∀ (s : State) (ep : Nat) (device : Bool), running s = true →
    (∃ t, exec (.fenceNotice ep device true) s = .next t ∧ (∀ e ∈ fencedBy ep device, e ∈ t.fab.fenced) ∧
      (∀ e ∈ s.fab.fenced, e ∈ t.fab.fenced) ∧
      (∀ h e, tget s.conn.ends h = some e → e.initiator = true → e.mgmt = false → e.isOpen = true → e.peerEp ∈ fencedBy ep device →
        (endOf t h).state = .broken ∧ (endOf t h).cause = stFenced) ∧
      (∀ h e, tget s.conn.ends h = some e → e.initiator = false → e.mgmt = false → e.localEp ∈ fencedBy ep device →
        ∀ a ∈ t.conn.arrivals, a.1 / 2 ^ 24 ≠ h) ∧
      (device = true → ∀ p, p < 24 → toward s p (epDev ep) = true → (portOf t p).fenced = true ∧ ∀ q ∈ (portOf t p).egress, q.mgmt = true)) ∧
    ∃ t, exec (.fenceNotice ep device false) s = .next t ∧ (∀ e, e ∈ t.fab.fenced ↔ (e ∈ s.fab.fenced ∧ e ∉ fencedBy ep device)) ∧
      (device = true → ∀ p, p < 24 → toward s p (epDev ep) = true → (portOf t p).fenced = false) ∧
      onlyChanges [.fab, .pow] s t

/-- Ports come up in steps with bounds, retrain fast, fall back to a full bring-up, and darn worn lane cores from stock. -/
def Obligations.PortsComeUpRetrainAndDarn : Prop :=
  (∀ (s : State) (port : Nat), port < 24 → portUp s port = true →
    let q := portOf s port
    let auto := cfgPort s port 0x3101 1 = 0
    let step := fun (i : Instr) (b : Bring) => ∃ t, exec i s = .next t ∧ (portOf t port).bring = b ∧ (portOf t port).stepAt = s.time.now ∧
      (∀ p, p ≠ port → portOf t p = portOf s p) ∧ onlyChanges [.fab] s t
    (q.bring = .down → q.failed = false → q.stopped = false → powered s port = true → s.elec.clocksOut.contains 0 = false →
      step (.signalDetected port) .signal) ∧
    (∀ rate, q.bring = .signal → auto → 1 ≤ rate → rate ≤ 3 → step (.autonegComplete port rate) .negotiated ∧
      ∀ t, exec (.autonegComplete port rate) s = .next t → (portOf t port).rate = rateOf rate) ∧
    ((q.bring = .negotiated ∨ (q.bring = .signal ∧ ¬ auto)) → step (.linkTrainingComplete port) .linkTrained) ∧
    (q.bring = .linkTrained → ∃ t, exec (.portTrained port) s = .next t ∧ (portOf t port).bring = .trained ∧
      (portOf t port).retrainFails = 0 ∧ t.fab.firstTrained.isSome = true ∧ t.out = .announce port (announceFrame s port) :: s.out ∧
      countAt t (dkey 0x3101 4 (port + 1)) 3 = sat64 (countAt s (dkey 0x3101 4 (port + 1)) 3) 1) ∧
    (stepBound s port = (match q.bring with
      | .signal => some (if cfgPort s port 0x3101 1 = 0 then 500 * ms else 1500 * ms)
      | .negotiated => some (1500 * ms)
      | .linkTrained => some (1 * ms)
      | _ => none)) ∧
    (∀ b, stepBound s port = some b → due s q.stepAt b = true → ∃ t, exec (.bringupTimeout port) s = .next t ∧
      (portOf t port).bring = .down ∧ (portOf t port).rate = 0 ∧ (portOf t port).failed = q.wornNoStock ∧
      countAt t (dkey 0x3101 4 (port + 1)) 4 = sat64 (countAt s (dkey 0x3101 4 (port + 1)) 4) 1) ∧
    (q.isTrained = true → ∀ i ∈ [Instr.uncorrectableBurst port, Instr.alignmentLoss port], ∃ t, exec i s = .next t ∧
      (portOf t port).bring = .retrain ∧ (portOf t port).egress = [] ∧ (portOf t port).paused = [] ∧ portLive t port = false ∧
      (tgetD t.fab.waiting (port / 6) []).length = (tgetD s.fab.waiting (port / 6) []).length + q.egress.length ∧
      countAt t (dkey 0x3101 4 (port + 1)) 2 = sat64 (countAt s (dkey 0x3101 4 (port + 1)) 2) 1) ∧
    (q.bring = .retrain →
      (∃ t, exec (.fastRetrainDone port) s = .next t ∧ (portOf t port).bring = .trained ∧ (portOf t port).retrainFails = 0 ∧
        t.out = .announce port (announceFrame s port) :: s.out) ∧
      (q.retrainFails = 0 → ∃ t, exec (.fastRetrainFail port) s = .next t ∧ (portOf t port).bring = .retrain ∧
        (portOf t port).retrainFails = 1) ∧
      (q.retrainFails ≠ 0 → ∃ t, exec (.fastRetrainFail port) s = .next t ∧ (portOf t port).bring = .down ∧
        (portOf t port).failed = (q.failed || q.wornNoStock)))) ∧
  -- a lane over LANE_WEAR_SER in three windows in a row is darned
  (∀ (s : State) (port corrected uncorrectable lane : Nat) (errors ratios : List Nat), port < 24 → portUp s port = true →
    (portOf s port).isTrained = true → lane < 4 → (∀ l, l < 4 → l ≠ lane → nth ratios l ≤ cfg s 0x3102 2) →
    (nth ratios lane ≤ cfg s 0x3102 2 → ∃ t, exec (.laneWearWindow port corrected uncorrectable errors ratios) s = .next t ∧
      (∀ l, l < 4 → tget (portOf t port).wearRow l = none) ∧ coresOf t port = coresOf s port ∧ (portOf t port).bring = .trained) ∧
    (cfg s 0x3102 2 < nth ratios lane → tgetD (portOf s port).wearRow lane 0 < 2 →
      ∃ t, exec (.laneWearWindow port corrected uncorrectable errors ratios) s = .next t ∧
        tget (portOf t port).wearRow lane = some (tgetD (portOf s port).wearRow lane 0 + 1) ∧ coresOf t port = coresOf s port) ∧
    (cfg s 0x3102 2 < nth ratios lane → 2 ≤ tgetD (portOf s port).wearRow lane 0 → cfg s 0x3102 1 ≠ 0 →
      ∀ core rest, stockOf s (port / 6) = core :: rest →
      ∃ t, exec (.laneWearWindow port corrected uncorrectable errors ratios) s = .next t ∧
        coresOf t port = (coresOf s port).set lane core ∧ core ∉ stockOf t (port / 6) ∧ (portOf t port).bring = .retrain)) ∧
  (∀ (s : State) (r : Request) (c : Cmd), writesEntry s r c 0x3102 3 = true →
    let p := field c.data 0 1
    let lane := field c.data 1 1
    ((23 < p ∨ 3 < lane) → exec .laneDarn s = .next (finish rRange [] s)) ∧
    (p ≤ 23 → lane ≤ 3 → stockOf s (p / 6) = [] → exec .laneDarn s = .next (finish rNoResource [] s)) ∧
    (∀ core rest, p ≤ 23 → lane ≤ 3 → stockOf s (p / 6) = core :: rest →
      exec .laneDarn s = .next (finish rDone [] (darnLane p lane core s)))) ∧
  ∀ (s : State) (r : Request) (c : Cmd), writesEntry s r c 0x3101 1 = true →
    let p := selOf s (senderOf s r).num (dkey 0x3100 0)
    exec .rate s = .next (finish rDone [] (bringDown p (setDict (dkey 0x3101 1 (p + 1)) c.data s))) ∧
    (portOf (bringDown p (setDict (dkey 0x3101 1 (p + 1)) c.data s)) p).bring = .down

/-- Pauses received and sent, the watchdog, shapers, and gate control lists. -/
def Obligations.PausesShapersAndGates : Prop :=
  (∀ (s : State) (port : Nat), port < 24 → portUp s port = true → (portOf s port).isTrained = true →
    let q := portOf s port
    let mode := cfgPort s port 0x3103 1
    let taken := fun (t : State) (i v : Nat) =>
      (v = 0 → tget (portOf t port).paused i = none) ∧
      (v ≠ 0 → ∃ x, tget (portOf t port).paused i = some x ∧ x.until_ = s.time.now + 100 + pauseTime q.rate v ∧
        x.since = ((tget q.paused i).elim s.time.now fun y => if y.until_ ≤ s.time.now then s.time.now else y.since))
    (∀ pause mask times, ∃ t, exec (.pfcFrame port pause mask times) s = .next t ∧
      (∀ i, i < 8 → pause = false → mode = 2 → bit (cfgPort s port 0x3103 2) i = true → bit mask i = true → taken t i (nth times i)) ∧
      (∀ i, i < 8 → pause = true → mode = 1 → taken t i (nth times 0)) ∧
      (∀ i, ((pause = false ∧ (mode ≠ 2 ∨ bit (cfgPort s port 0x3103 2) i = false ∨ bit mask i = false)) ∨ (pause = true ∧ mode ≠ 1)) →
        tget (portOf t port).paused i = tget q.paused i)) ∧
    (∀ prio x, tget q.paused prio = some x → due s x.since (cfgPort s port 0x3103 5 * ms) = true →
      x.since + cfgPort s port 0x3103 5 * ms ≤ x.until_ → ∃ t, exec (.pauseWatchdog port prio) s = .next t ∧ (portOf t port).bring = .retrain ∧ (portOf t port).paused = [] ∧
        (portOf t port).trigger = 3) ∧
    (∀ prio since, tget q.xoff prio = some since → due s since (pauseTime q.rate 0xFFFF / 2) = true →
      cfgPort s port 0x3103 4 < tgetD q.hold prio 0 → ∃ t, exec (.pfcRefresh port prio) s = .next t ∧
        (prio, 0xFFFF) ∈ (portOf t port).pfcOut ∧ tget (portOf t port).xoff prio = some s.time.now)) ∧
  (∀ (s : State) (port : Nat), port < 24 → portUp s port = true →
    let q := portOf s port
    (∀ prio x, tget q.paused prio = some x → x.until_ ≤ s.time.now → ∃ t, exec (.pauseExpiry port prio) s = .next t ∧
      tget (portOf t port).paused prio = none ∧
      countAt t (dkey 0x3103 6 (port + 1)) (6 * prio + 3) = sat64 (countAt s (dkey 0x3103 6 (port + 1)) (6 * prio + 3)) (x.until_ - x.since)) ∧
    (s.time.now % 1024 = 0 → q.refillAt ≠ some s.time.now → ∃ t, exec (.shaperRefill port) s = .next t ∧
      (portOf t port).refillAt = some s.time.now ∧
      (∀ tc ∈ [0, 2, 3], ∀ r, shaperRate s port tc = some r → tget (portOf t port).buckets tc =
        some (min (min (tgetD q.buckets tc 0) (cfgPort s port 0x3201 6) + (r * 1024 / 8000 : Nat)) (cfgPort s port 0x3201 6))) ∧
      ∀ tc ∈ [2, 3], shaped (portOf t port) tc = (shaperRate s port tc).isSome) ∧
    (∃ t, exec (.gateEntryStart port) s = .next t ∧
      (portOf t port).gates = ((q.gateList[(entryIndex q.gateList 0 0 (cycleOffset q s.time.now)).1]?).getD ⟨15, 0⟩).gates ∧
      (portOf t port).gateList = q.gateList ∧ onlyChanges [.fab] s t) ∧
    (∀ l base at_, q.gatePending = some (l, base, at_) → at_ ≤ s.time.now → ∃ t, exec (.gateChangeover port) s = .next t ∧
      (portOf t port).gateList = l ∧ (portOf t port).gateBase = base ∧ (portOf t port).gatePending = none ∧ onlyChanges [.fab] s t)) ∧
  (∀ (s : State) (r : Request) (c : Cmd), writesEntry s r c 0x3302 2 = true →
    let p := selOf s (senderOf s r).num (dkey 0x3100 0)
    let l := gateEntries (cfgBytes s (dkey 0x3301 0 (p + 1)) 0 0)
    let base := cfgPort s p 0x3302 1
    let good := l ≠ [] ∧ l.length ≤ 256 ∧ (∀ e ∈ l, 64 ≤ e.duration) ∧ 1000 ≤ cycleOf l ∧ cycleOf l ≤ 10000000
    let same := base = (portOf s p).gateBase ∧ tc1Windows l = tc1Windows (portOf s p).gateList
    (¬ good → exec .gateCommit s = .next (finish rInvalid [] s)) ∧
    (good → (∃ x ∈ s.coll.slots, x.2.state = .resident) → ¬ same → exec .gateCommit s = .next (finish rBusy [] s)) ∧
    (good → ((∀ x ∈ s.coll.slots, x.2.state ≠ .resident) ∨ same) → ∃ t k, exec .gateCommit s = .next (finish rDone [] t) ∧
      -- the first cycle start of the new list at or after its base and 10 µs from now
      let at_ := base + k * cycleOf l
      (portOf t p).gatePending = some (l, base, at_) ∧ base ≤ at_ ∧ s.time.now + 10000 ≤ at_ ∧
        (k = 0 ∨ base + (k - 1) * cycleOf l < s.time.now + 10000) ∧ (portOf t p).gateList = (portOf s p).gateList ∧ onlyChanges [.fab] s t))

/-- PTP, holdover, PPS and TIME_SET: how the device follows system time. -/
def Obligations.TimeFollowsTheSystemManager : Prop :=
  (∀ (s : State) (port : Nat), port < 24 → portUp s port = true →
    (serves s port = true → (∀ t, (portOf s port).lastSyncTx = some t → due s t 7812500 = true) →
      ∃ t, exec (.syncTimer port) s = .next t ∧ (portOf t port).ptpOut = (portOf s port).ptpOut ++ [0] ∧
        (portOf t port).lastSyncTx = some s.time.now ∧ (∀ p, p ≠ port → portOf t p = portOf s p) ∧ onlyChanges [.fab] s t) ∧
    (portLive s port = true → (∀ t, (portOf s port).lastPdelayTx = some t → due s t 62500000 = true) →
      ∃ t, exec (.pdelayTimer port) s = .next t ∧ (portOf t port).ptpOut = (portOf s port).ptpOut ++ [1] ∧
        (portOf t port).lastPdelayTx = some s.time.now ∧ (∀ p, p ≠ port → portOf t p = portOf s p) ∧ onlyChanges [.fab] s t)) ∧
  -- a Sync from the upstream port
  (∀ (s : State) (port : Nat) (offset : Int) (delay state hops : Nat), port < 24 → portUp s port = true →
    (portOf s port).isTrained = true → (portOf s port).heldOut = 0 →
    let a : Align := if state = 2 then .aligned else if state = 3 then .holdover else if state = 1 then .acquiring else .free
    let s1 : State := { s with time := { s.time with neighbour := tset s.time.neighbour port a, hops := tset s.time.hops port hops } }
    let off := offset - signed32 (cfgPort s port 0x3101 3)
    (isManager s = true → ∃ t, exec (.ptpMessage port 0 offset delay state hops) s = .next t ∧ t.time.state = .aligned ∧ t.time.upstream = none) ∧
    (isManager s = false → s.time.upstream = some port → chooseUpstream s1 = some port →
      ∃ t, exec (.ptpMessage port 0 offset delay state hops) s = .next t ∧ t.time.offset = off ∧ t.time.upstream = some port ∧
        (1000000 < off.natAbs → t.time.state = .acquiring ∧ t.time.now = ((s.time.now : Int) - off / 1000).toNat % m64 ∧
          ∀ p, p < 24 → (portOf t p).stepClosed = true) ∧
        (off.natAbs ≤ 1000000 → t.time.now = s.time.now ∧
          ((s.time.state = .acquiring ∨ s.time.state = .holdover) → off.natAbs ≤ 1000 → 15 ≤ s.time.within → trusted a = true →
            t.time.state = .aligned) ∧
          (s.time.state = .acquiring → (1000 < off.natAbs ∨ s.time.within < 15 ∨ trusted a = false) → t.time.state = .acquiring) ∧
          (s.time.state = .holdover → 5000 < off.natAbs → t.time.state = .acquiring) ∧
          (s.time.state = .aligned → t.time.state = .aligned)))) ∧
  (∀ s : State, running s = true → isManager s = false → s.time.state = .aligned → due s s.time.lastSync 23437500 = true →
    ∃ t, exec .syncLoss s = .next t ∧ t.time.state = .holdover ∧ t.time.holdSince = s.time.now ∧ onlyChanges [.time] s t) ∧
  (∀ s : State, running s = true → isManager s = false → s.time.state = .holdover →
    due s s.time.holdSince (cfg s 0x3400 6 * ms) = true →
    ∃ t, exec .holdoverLimit s = .next t ∧ t.time.state = (if s.time.upstream.isNone then .free else .acquiring) ∧ timeSuspect t = true ∧ onlyChanges [.time] s t) ∧
  (∀ s : State, running s = true → s.time.now % sec = 0 → s.time.ppsAt ≠ some s.time.now → cfg s 0x3400 7 = 1 →
    ∃ t, exec .ppsSecond s = .next t ∧ t.time.ppsOut = true ∧ t.out = .pin 0 true :: s.out ∧ t.time.now = s.time.now) ∧
  (∀ s : State, running s = true → s.pow.state = .active →
    ∃ t, exec .ppsIn s = .next t ∧ t.time.ppsIn = s.time.now ∧
      ((isManager s = false ∨ cfg s 0x3400 8 = 0) → t.time.now = s.time.now) ∧
      (isManager s = true → cfg s 0x3400 8 ≠ 0 →
        (∀ n w, s.time.setPending = some (n, w) → due s w (100 * ms) = true → t.time.now = n * sec % m64 ∧ t.time.setPending = none) ∧
        (s.time.setPending = none → t.time.now % sec = 0 ∧ t.time.now ≤ s.time.now + sec / 2 ∧ s.time.now < t.time.now + sec / 2 + 1))) ∧
  (∀ (s : State) (r : Request) (c : Cmd), writesEntry s r c 0x3400 10 = true →
    (isManager s = false → exec .timeSet s = .next (finish rInvalid [] s)) ∧
    (isManager s = true →
      exec .timeSet s = .next (finish rDone [] { s with time := { s.time with setPending := some (ofLe c.data, s.time.now) } }))) ∧
  ∀ (s : State) (n w : Nat), running s = true → isManager s = true → cfg s 0x3400 8 = 0 → s.time.now % sec = 0 →
    s.time.setPending = some (n, w) → due s w (100 * ms) = true →
    ∃ t, exec .timeSetStep s = .next t ∧ t.time.now = n * sec % m64 ∧ t.time.setPending = none ∧
      ∀ p, p < 24 → (portOf t p).stepClosed = true

/-- Transmission selection, latency samples and high-water marks, wake patterns. -/
def Obligations.FramesLeaveInOrder : Prop :=
  (∀ (s : State) (port : Nat), port < 24 → portUp s port = true → (portOf s port).isTrained = true → (portOf s port).stopped = false →
    (portOf s port).busyUntil ≤ s.time.now →
    let q := portOf s port
    (∀ prio t rest, q.pfcOut = (prio, t) :: rest → ∃ u, exec (.frameTransmit port) s = .next u ∧
      u.out = .link port 2 [cfgPort s port 0x3103 1, prio, t] :: s.out ∧ (portOf u port).pfcOut = rest ∧ (portOf u port).egress = q.egress) ∧
    (q.pfcOut = [] →
      let sends := fun t => exec (.frameTransmit port) s = .next t
      (∀ x, classHead s port 1 = some x → sends (startFrame port x q s)) ∧
      (classHead s port 1 = none →
        -- a PTP message, at priority 0 but past the shaper
        (∀ k rest, q.ptpOut = k :: rest → ptpMay s port = true → sends (startPtp port k s)) ∧
        ((q.ptpOut = [] ∨ ptpMay s port = false) →
          (∀ x, classHead s port 0 = some x → sends (startFrame port x q s)) ∧
          (classHead s port 0 = none →
            (∀ x q', bulkTurn s port 6 q = some (x, q') → sends (startFrame port x q' s)) ∧
            (bulkTurn s port 6 q = none → sends s)))))) ∧
  (∀ (s : State) (p k : Nat), let t := startPtp p k s
    (portOf t p).ptpOut = (portOf s p).ptpOut.tail ∧ (portOf t p).egress = (portOf s p).egress ∧
    t.out = .link p 3 (if k = 0 then [0, cfg s 0x3400 4, b2n (bit (cfg s 0x3400 5) p), s.time.now] else [1, cfg s 0x3400 4, s.time.now]) :: s.out ∧
    onlyChanges [.fab, .out] s t) ∧
  (∀ (s : State) (p tc : Nat) (x : Queued), classHead s p tc = some x → tc < 4 → tgetD (portOf s p).lastPrio tc (2 * tc + 1) / 2 = tc →
    x ∈ (portOf s p).egress ∧ x.prio / 2 = tc ∧ pausedNow s p x.prio = false ∧ gateAllows s p tc = true ∧ shaperOpen s p tc = true) ∧
  -- no class starves the port: where TC2 or TC3 has a frame that may start, one starts
  (∀ (s : State) (p : Nat) (q : Port), (q.lastBulk = 2 ∨ q.lastBulk = 3) → 1 ≤ cfgPort s p 0x3201 1 → 1 ≤ cfgPort s p 0x3201 2 →
    (∀ w, q.weights = some w → 1 ≤ w.1 ∧ 1 ≤ w.2) → (∀ tc ∈ [2, 3], ∀ x, classHead s p tc = some x → x.size ≤ 4166) →
    ((classHead s p 2).isSome = true ∨ (classHead s p 3).isSome = true) →
    ∃ x q' tc, bulkTurn s p 6 q = some (x, q') ∧ tc ∈ [2, 3] ∧ classHead s p tc = some x ∧ q'.egress = q.egress) ∧
  (∀ (s : State) (p : Nat) (x : Queued) (q : Port),
    (startFrame p x q s).out = .frame p x.prio (frameBytes (cfg s 0x3000 1) q.farMac (macOf p) (onLink x)) :: s.out ∧
    (portOf (startFrame p x q s) p).egress = q.egress.erase x ∧ (portOf (startFrame p x q s) p).busyUntil = s.time.now + txTime q.rate x.size ∧
    (shaped q (x.prio / 2) = true → tgetD (portOf (startFrame p x q s) p).buckets (x.prio / 2) 0 =
      tgetD q.buckets (x.prio / 2) 0 - (x.size : Int)) ∧
    (Hdr.rmode x.pkt.hdr ≠ 2 → Hdr.ttl (onLink x).hdr = Hdr.ttl x.pkt.hdr - 1) ∧ (onLink x).payload = x.pkt.payload) ∧
  (∀ (s : State) (die : Nat), die < 4 → running s = true → dieUp s (fpCode die) = true → s.time.now % 1024 = 0 →
    tget s.fab.sampledAt die ≠ some s.time.now → (∀ k, k < 6 → sampleMask s (6 * die + k) = 0) →
    exec (.queueSample die) s = .next { s with fab := { s.fab with sampledAt := tset s.fab.sampledAt die s.time.now } }) ∧
  (∀ (s : State) (die k prio : Nat), die < 4 → k < 6 → prio < 8 → running s = true → dieUp s (fpCode die) = true → s.time.now % 1024 = 0 →
    tget s.fab.sampledAt die ≠ some s.time.now → (∀ j, j < 6 → sampleMask s (6 * die + j) = (if j = k then 2 ^ prio else 0)) →
    let s1 : State := { s with fab := { s.fab with sampledAt := tset s.fab.sampledAt die s.time.now } }
    (∀ u, addSample die (6 * die + k) prio true s1 = (true, u) → exec (.queueSample die) s = .next u) ∧
    (∀ u, addSample die (6 * die + k) prio true s1 = (false, u) → ∃ t, exec (.queueSample die) s = .next t ∧
      ∀ j, j < 6 → sampleMask t (6 * die + j) = 0)) ∧
  (∀ (s : State) (r : Request) (c : Cmd), readsEntry s r c 0x3510 0 = true →
    let p := selOf s (senderOf s r).num (dkey 0x3100 0)
    let d := (List.range 4).flatMap fun tc => leBytes 4 (tgetD (portOf s p).hwm tc (0, 0)).1 ++ leBytes 4 (tgetD (portOf s p).hwm tc (0, 0)).2
    ∃ t, exec .hwm s = .next (finish rDone (readArray c 8 d) t) ∧ (portOf t p).hwm = [] ∧ onlyChanges [.fab] s t) ∧
  (∀ (s : State) (port slots : Nat), port < 24 → wakeReceivers s = true →
    (bits slots 23 16 = 0xAC → bits slots 15 0 = cfg s 0x3600 1 → ∃ t, exec (.wakePattern port slots) s = .next t ∧ t.fab.wakePort = port ∧
      countAt t (dkey 0x3600 3) (2 * port) = sat64 (countAt s (dkey 0x3600 3) (2 * port)) 1 ∧
      (alwaysOn s = true → s.pow.state = .standby → wakeArmed s 1 = true → t.pow.state = .leaving ∧ t.pow.source = 2)) ∧
    ((bits slots 23 16 ≠ 0xAC ∨ bits slots 15 0 ≠ cfg s 0x3600 1) →
      exec (.wakePattern port slots) s = .next (bump (dkey 0x3600 3) (2 * port + 1) 1 s))) ∧
  ∀ (s : State) (r : Request) (c : Cmd), writesEntry s r c 0x3600 2 = true →
    (23 < field c.data 0 1 → exec .wakeSend s = .next (finish rRange [] s)) ∧
    (field c.data 0 1 ≤ 23 → ∃ t, exec .wakeSend s = .next (finish rDone [] t) ∧ (portOf t (field c.data 0 1)).bring = .down ∧
      t.out = List.replicate 3 (.link (field c.data 0 1) 4 [field c.data 1 2]) ++ s.out)

/-- Edrad links: flits are accepted in order and replayed, links train in bounded steps, retrain fast, and come to be Active. -/
def Obligations.EdradLinksReplayAndTrain : Prop :=
  (∀ (s : State) (link : Nat) (f : Flit), link < 2 → running s = true → dieUp s (atCode link) = true → (edradOf s link).state = .active →
    let e := edradOf s link
    let ahead := (FlitHdr.seq f.hdr + 4096 - (e.recvSeq + 1) % 4096) % 4096
    let good := f.uncorrectable = 0 ∧ flitCrc f = f.crc
    -- the next flit is passed on, in order
    (good → FlitHdr.type f.hdr ∈ [1, 2] → ahead = 0 → FlitHdr.ackValid f.hdr = false → FlitHdr.nak f.hdr = false →
      ∃ t, exec (.flit link f) s = .next t ∧ (edradOf t link).recvSeq = FlitHdr.seq f.hdr ∧ (edradOf t link).discarding = false ∧
        (edradOf t link).replay = e.replay ∧ onlyChanges [.link, .counts, .out] s t ∧
        t.out = .flit link (flitHdr (edradOf t link) (keptHdr 0 0 0x1FF) false) :: s.out) ∧
    -- a flit that failed, of a reserved type, or out of order is discarded, with one NAK
    ((¬ good ∨ 2 < FlitHdr.type f.hdr ∨ (FlitHdr.type f.hdr ∈ [1, 2] ∧ 0 < ahead ∧ ahead ≤ 2047)) →
      ∃ t, exec (.flit link f) s = .next t ∧ (edradOf t link).recvSeq = e.recvSeq ∧ (edradOf t link).discarding = true ∧
        (edradOf t link).replay = e.replay ∧ countAt t (dkey 0x6003 (link + 1)) 2 =
          (if e.discarding then countAt s (dkey 0x6003 (link + 1)) 2 else sat64 (countAt s (dkey 0x6003 (link + 1)) 2) 1) ∧
        t.out = (if e.discarding then [] else [.flit link (flitHdr (edradOf t link) (keptHdr 0 0 0x1FF) true)]) ++ s.out ∧
        onlyChanges [.link, .counts, .out] s t) ∧
    -- a duplicate is discarded silently
    (good → FlitHdr.type f.hdr ∈ [1, 2] → 2047 < ahead →
      ∃ t, exec (.flit link f) s = .next t ∧ edradOf t link = e ∧ onlyChanges [.counts] s t) ∧
    -- an ACK frees what it covers, a NAK resends the rest, and after four resends the link retrains
    (good → FlitHdr.type f.hdr = 0 → FlitHdr.ackValid f.hdr = true → FlitHdr.nak f.hdr = false → e.sleeping = false → e.outbound = [] →
      ∃ t, exec (.flit link f) s = .next t ∧ (edradOf t link).recvSeq = e.recvSeq ∧ (edradOf t link).state = .active ∧
        (edradOf t link).replay = (if FlitHdr.ack f.hdr ∈ e.replay then (e.replay.dropWhile (· != FlitHdr.ack f.hdr)).drop 1 else e.replay)) ∧
    (good → FlitHdr.type f.hdr = 0 → FlitHdr.ackValid f.hdr = false → FlitHdr.nak f.hdr = true → e.replay ≠ [] →
      ∃ t, exec (.flit link f) s = .next t ∧ (edradOf t link).replay = e.replay ∧
        (e.resends < 4 → (edradOf t link).resends = e.resends + 1 ∧ (edradOf t link).state = .active ∧
          t.out = (e.replay.map fun q => Out.flit link (flitHdr (edradOf t link) (tgetD e.headers q 0) false)).reverse ++ s.out) ∧
        (4 ≤ e.resends → (edradOf t link).state = .outage ∧ (edradOf t link).fast = true ∧ (edradOf t link).outageAt = s.time.now))) ∧
  (∀ (s : State) (link : Nat), link < 2 → running s = true → dieUp s (atCode link) = true →
    let e := edradOf s link
    (∀ ph pd nh nd, e.state = .active → e.outbound = [] → ∃ t, exec (.credit link ph pd nh nd) s = .next t ∧
      (edradOf t link).credits = [nth e.credits 0 + ph, nth e.credits 1 + pd, nth e.credits 2 + nh, nth e.credits 3 + nd] ∧
      onlyChanges [.link] s t) ∧
    (e.step = 0 → s.elec.clocksOut.contains 0 = false → e.state ∈ [.down, .outage, .training] →
      ∃ t, exec (.edradSignalDetect link) s = .next t ∧ (edradOf t link).step = 2 ∧ (edradOf t link).fast = false ∧
        (edradOf t link).stepAt = s.time.now ∧ (edradOf t link).state = (if e.state = .outage then .outage else .training) ∧
        onlyChanges [.link] s t) ∧
    (2 ≤ e.step → e.step ≤ 4 → ∃ t, exec (.edradTrainingStepDone link) s = .next t ∧
      (edradOf t link).step = (if e.step = 2 ∧ e.fast = true then 4 else e.step + 1) ∧
      (e.step ≠ 4 → t.out = s.out) ∧ (e.step = 4 → ∃ args, t.out = .edrad link 2 args :: s.out) ∧ onlyChanges [.link, .out] s t) ∧
    (∀ b, trainBound e = some b → due s e.stepAt b = true → ∃ t, exec (.edradTrainingTimeout link) s = .next t ∧
      (e.fast = true → e.fastFails = 0 → (edradOf t link).step = 2 ∧ (edradOf t link).fast = true ∧ (edradOf t link).fastFails = 1) ∧
      ((e.fast = false ∨ e.fastFails ≠ 0) → (edradOf t link).step = 0 ∧ (edradOf t link).fast = false) ∧
      (edradOf t link).replay = e.replay ∧ (edradOf t link).recvSeq = e.recvSeq) ∧
    (e.state = .active → ∃ t, exec (.edradLinkLoss link) s = .next t ∧ (edradOf t link).state = .outage ∧
      (edradOf t link).outageAt = s.time.now ∧ (edradOf t link).step = 2 ∧ (edradOf t link).fast = true ∧
      (edradOf t link).replay = e.replay ∧ (edradOf t link).outbound = e.outbound ∧ (edradOf t link).lossMs = cfg s 0x6002 (link + 1)) ∧
    -- LINK_PARAMS of the same reset epoch make the link Active; of another they reset the host domain
    (∀ epoch lastSeq credits, e.step = 5 → (e.peerEpoch = none ∨ e.peerEpoch = some epoch) →
      ∃ t, exec (.linkParams link epoch lastSeq credits) s = .next t ∧ (edradOf t link).state = .active ∧ (edradOf t link).everActive = true ∧
        (edradOf t link).peerEpoch = some epoch ∧ (edradOf t link).card.lost = false ∧ (edradOf t link).card.held = [] ∧
        -- a held request is passed on; one past the host's completion timeout has its completion discarded
        (∀ x ∈ e.card.held, .card link 4 x.1 ∈ t.out ∧
          (due s x.2 (max (10 * ms) (Config.hostTimeout link)) = true → .card link 5 x.1 ∈ t.out)) ∧
        (e.outbound = [] → (edradOf t link).replay =
          (if lastSeq ∈ e.replay then (e.replay.dropWhile (· != lastSeq)).drop 1 else e.replay) ∧ (edradOf t link).credits = credits) ∧
        ∀ p ∈ boundPorts s link, (accelOf s p).byHost = true → (accelOf t p).isolated = false ∧ (accelOf t p).inReset = false) ∧
    (∀ epoch x lastSeq credits, e.step = 5 → e.peerEpoch = some x → x ≠ epoch →
      exec (.linkParams link epoch lastSeq credits) s = .next (hostReset link 3 s)))

/-- Host-domain resets, and what the EHA-6 card does with its messages, wakes and host requests. -/
def Obligations.HostDomainsResetAndTheCardAnswers : Prop :=
  -- what a host-domain reset leaves of the link; one under way merges
  (∀ (s : State) (link trigger : Nat), link < 2 →
    ((tget s.link.hdr link).isSome = true → hostReset link trigger s = s) ∧
    (tget s.link.hdr link = none → (edradOf (hostReset link trigger s) link).state = .down ∧
      (edradOf (hostReset link trigger s) link).outbound = [] ∧ (edradOf (hostReset link trigger s) link).replay = [] ∧
      (edradOf (hostReset link trigger s) link).epoch = ((edradOf s link).epoch + 1) % m32 ∧
      (edradOf (hostReset link trigger s) (1 - link)).state = (edradOf s (1 - link)).state ∧
      (∀ p ∈ boundPorts s link, (accelOf (hostReset link trigger s) p).isolated = true ∧ (accelOf (hostReset link trigger s) p).inReset = true ∧
        (accelOf (hostReset link trigger s) p).up = false) ∧
      (∀ p, p ∉ boundPorts s link → accelOf (hostReset link trigger s) p = accelOf s p) ∧
      ∀ p, p < 12 → p ∉ boundParts s link → partOf (hostReset link trigger s) p = partOf s p)) ∧
  (∀ (s : State) (link : Nat), link < 2 → running s = true → dieUp s (atCode link) = true →
    let e := edradOf s link
    (∀ cause, e.state = .active → 1 ≤ cause → cause ≤ 4 → exec (.hostReset link cause) s = .next (hostReset link 2 s)) ∧
    (e.state = .outage → e.everActive = true → due s e.outageAt (e.lossMs * ms) = true →
      exec (.hostLossTimer link) s = .next (hostReset link 1 s)) ∧
    (∀ dev up speed width errors, e.state = .active → e.card.lost = false → 1 ≤ dev → dev ≤ 16 →
      ∃ t, exec (.portStatus link dev up speed width errors) s = .next t ∧ (dev ∈ (edradOf t link).card.slots ↔ up = true) ∧
        tget (edradOf t link).card.status dev = some (speed, width) ∧
        tget (edradOf t link).card.aer dev = some (tgetD e.card.aer dev 0 + errors) ∧ onlyChanges [.link] s t) ∧
    (∀ n bus base limit command acs pasidEn relaxed msix p, e.state = .active → funcPart s link n = some p →
      ∃ t, exec (.settings link false n bus base limit command acs pasidEn relaxed msix) s = .next t ∧
        (tgetD t.link.funcs p {}).pasidEn = pasidEn ∧ (tgetD t.link.funcs p {}).relaxed = relaxed ∧
        (tgetD t.link.funcs p {}).base = base ∧ (tgetD t.link.funcs p {}).limit = limit) ∧
    (∀ n bus base limit command acs pasidEn relaxed msix, e.state = .active → 1 ≤ n → n ≤ 16 →
      ∃ t, exec (.settings link true n bus base limit command acs pasidEn relaxed msix) s = .next t ∧
        (tgetD t.link.funcs (16 + 17 * link + n) {}).base = base ∧ (tgetD t.link.funcs (16 + 17 * link + n) {}).limit = limit ∧
        ((accelOf s ((n - 1) % 8)).bound = link + 1 → (accelOf t ((n - 1) % 8)).acs = acs % 256 ∧
          (accelOf t ((n - 1) % 8)).egress = acs / 256) ∧ onlyChanges [.link] s t) ∧
    (e.state = .active → exec (.wake link true) s = .next (s.emit (.card link 1 0)) ∧ exec (.wake link false) s = .next (leaveIdle s)) ∧
    (e.state = .active → e.sleeping = true →
      (∃ t, exec (.sleepReq link) s = .next t ∧ (edradOf t link).card.holding = true ∧ t.out = .edrad link 9 [] :: s.out) ∧
      ∃ t, exec (.sleepAck link) s = .next t ∧ (edradOf t link).sleepAcked = true ∧
        (edradOf t link).state = (if e.replay = [] then .idle else .active) ∧ onlyChanges [.link] s t)) ∧
  (∀ (s : State) (r : Request) (c : Cmd), writesEntry s r c 0x6002 5 = true →
    (1 < ofLe c.data → exec .hostDomainReset s = .next (finish rRange [] s)) ∧
    (ofLe c.data ≤ 1 → exec .hostDomainReset s = .next (finish rDone [] (hostReset (ofLe c.data) 4 s)))) ∧
  (∀ (s : State) (link : Nat), link < 2 →
    let e := edradOf s link
    exec (.resetNotice link) s = .next (cardLost link s) ∧
    (edradOf (cardLost link s) link).card.lost = true ∧ (edradOf (cardLost link s) link).card.slots = [] ∧
    (cardLost link s).out = (answerHeld link 3 s e.card.held).reverse ++ s.out ∧
    exec (.slotControlPower link) s = .next (s.emit (.card link 2 0)) ∧
    (∀ id, (e.card.lost = true → exec (.hostRequest link id) s = .next (s.emit (.card link 3 id))) ∧
      (e.card.lost = false → e.state = .active → e.card.holding = false → exec (.hostRequest link id) s = .next (s.emit (.card link 4 id))) ∧
      (e.card.lost = false → (e.state ≠ .active ∨ e.card.holding = true) → ∃ t, exec (.hostRequest link id) s = .next t ∧
        (edradOf t link).card.held = e.card.held ++ [(id, s.time.now)] ∧ t.out = (if e.state = .idle then [.card link 2 0] else []) ++ s.out)) ∧
    (e.state = .idle → dieUp s (atCode link) = true →
      (s.pow.state = .active → ∃ t, exec (.edradWakeBurst link) s = .next t ∧ (edradOf t link).state = .training ∧
        (edradOf t link).fast = true ∧ (edradOf t link).step = 2) ∧
      (s.pow.state = .standby → alwaysOn s = true → wakeArmed s 2 = true → ∃ t, exec (.edradWakeBurst link) s = .next t ∧
        t.pow.state = .leaving ∧ t.pow.source = 3 ∧ t.pow.wakePort = link ∧ t.link = s.link)))

/-- Partition functions and accelerator ports. -/
def Obligations.FunctionsAndAcceleratorPorts : Prop :=
  (∀ (s : State) (p : Nat), p < 12 → running s = true → p ∈ boundParts s 0 ++ boundParts s 1 →
    exec (.functionLevelReset p) s = .next (startReset p 0 2 false false s)) ∧
  (∀ (s : State) (p a : Nat) (o : BarOp), p < 12 → running s = true → (partOf s p).enabled = true →
    let s1 := leaveIdle s
    let b := (dataRange s1 p).1
    let n := (dataRange s1 p).2
    let inside := b ≤ a ∧ a + BarOp.len o ≤ b + n ∧ withdrawn s1 a = false ∧ withdrawn s1 (a + BarOp.len o - 1) = false
    let whole := ∀ code size x y, o = .atomic code size x y → (size = 4 ∨ size = 8) ∧ code ≤ 2 ∧ a % size = 0
    let held := memWaits s1 a = true ∨ memWaits s1 (a + BarOp.len o - 1) = true
    let waits : State := { s1 with link := { s1.link with barWait := s1.link.barWait ++ [(p, a, o)] } }
    ((∃ y ∈ s.link.barWait, y.1 = p) → exec (.bar4Access p a o) s = .next waits) ∧
    ((∀ y ∈ s.link.barWait, y.1 ≠ p) →
      ((partUp s1 p = false ∨ ¬ whole) → exec (.bar4Access p a o) s = .next (barRefuse p o s1)) ∧
      (partUp s1 p = true → whole →
        (¬ inside → exec (.bar4Access p a o) s = .next (barRefuse p o (logAer p s1))) ∧
        (inside → (held → exec (.bar4Access p a o) s = .next waits) ∧ (¬ held → exec (.bar4Access p a o) s = .next (barServe p a o s1)))))) ∧
  -- what is refused: a write is dropped, anything else is answered
  (∀ (s : State) (p n code size x y : Nat) (d : List Byte), barRefuse p (.write d) s = s ∧
    barRefuse p (.read n) s = s.emit (.completion p 1 []) ∧ barRefuse p (.atomic code size x y) s = s.emit (.completion p 1 [])) ∧
  -- an access that waits is tried again
  (∀ (s : State) (x : Nat × Nat × BarOp), s.link.barWait = [x] →
    let s1 : State := { s with link := { s.link with barWait := [] } }
    (∀ t, barAct x.1 x.2.1 x.2.2 s1 = some t → serveBars s = t) ∧ (barAct x.1 x.2.1 x.2.2 s1 = none → serveBars s = s)) ∧
  (∀ (s : State) (p a n : Nat),
    (firstBadRead s a n = none → ∃ t, barServe p a (.read n) s = t ∧ t.out = .completion p 0 (devRead s a n) :: s.out ∧ t.mem = s.mem) ∧
    (∀ x, firstBadRead s a n = some x → ∃ t rest, barServe p a (.read n) s = t ∧ t.out = .completion p 2 [] :: rest ∧ t.mem.bytes = s.mem.bytes)) ∧
  (∀ (s : State) (p a : Nat) (d : List Byte), Memory.wf s.mem.bytes = true → memorySame s { s with mem := { (barServe p a (.write d) s).mem with
      bytes := putBytes (barServe p a (.write d) s).mem.bytes a (getBytes s.mem.bytes a d.length) } } ∧
    (firstBadWrite s a d.length = none → d ≠ [] → getBytes (barServe p a (.write d) s).mem.bytes a d.length = d)) ∧
  (∀ (size operand compare old : Nat), barAtomic 0 size operand compare old = (old + operand) % 2 ^ (8 * size) ∧
    barAtomic 1 size operand compare old = operand % 2 ^ (8 * size) ∧
    barAtomic 2 size operand compare old = (if old = compare % 2 ^ (8 * size) then operand % 2 ^ (8 * size) else old)) ∧
  (∀ (s : State) (e : Nat), e < 8 → running s = true → dieUp s (atCode (e / 4)) = true →
    let x := accelOf s e
    -- requests: peer to peer, to a function, or to the host
    (∀ a, (x.up = true ∨ x.upB = true) → x.isolated = false →
      (∀ l q, x.bound = l + 1 → peerPort s e l a = some q → exec (.acceleratorRequest e a) s = .next (s.emit (.accel e
        (if bit x.acs 1 && bit x.egress q then 3 else if bit x.acs 0 then 2 else 0)
        (if (bit x.acs 1 && bit x.egress q) || bit x.acs 0 then a else q)))) ∧
      (∀ l, x.bound = l + 1 → peerPort s e l a = none → (∀ p, p < 12 → (tgetD s.link.funcs p {}).holds a = false) →
        exec (.acceleratorRequest e a) s = .next (s.emit (.accel e 2 a))) ∧
      (∀ l p, x.bound = l + 1 → peerPort s e l a = none → p < 12 → p ∈ boundParts s l → (tgetD s.link.funcs p {}).holds a = true →
        (∀ q, q < p → (tgetD s.link.funcs q {}).holds a = false) → exec (.acceleratorRequest e a) s = .next (s.emit (.accel e 1 p))) ∧
      -- a port that no host holds reaches its owner's function only
      (x.bound = 0 → (∀ p, p < 12 → (tgetD s.link.funcs p {}).holds a = false) → exec (.acceleratorRequest e a) s = .next (s.emit (.accel e 3 a))) ∧
      (∀ p, x.bound = 0 → x.owner = some p → p < 12 → (tgetD s.link.funcs p {}).holds a = true →
        exec (.acceleratorRequest e a) s = .next (s.emit (.accel e 1 p)))) ∧
    -- a link down starts the loss timer, which isolates the port; a link up releases it
    (∀ second, (if second then x.upB else x.up) = true → ∃ t, exec (.acceleratorLinkDown e second) s = .next t ∧
      (if second then (accelOf t e).upB else (accelOf t e).up) = false ∧
      (accelOf t e).downAt = (if x.downAt = none then some s.time.now else x.downAt) ∧ (accelOf t e).lossMs = cfg s 0x6005 1) ∧
    (∀ since, x.isolated = false → x.lowPower = false → x.downAt = some since → due s since (x.lossMs * ms) = true →
      ∃ t, exec (.accelLossTimer e) s = .next t ∧ (accelOf t e).isolated = true ∧ (accelOf t e).byHost = false ∧ (accelOf t e).inReset = true ∧
        ∀ p, p ≠ e → accelOf t p = accelOf s p) ∧
    (∀ second speed width flit, x.owner.isSome = true → (x.isolated = true → x.byHost = false) → x.lowPower = false →
      (second = true → x.bifurcated = true) → (if second then x.upB else x.up) = false →
      ∃ t, exec (.acceleratorLinkUp e second speed width flit) s = .next t ∧ (if second then (accelOf t e).upB else (accelOf t e).up) = true ∧
        -- no faster than PORT_MAX_SPEED, and in FLIT mode at the two highest speeds
        (let v := max speed (cfg s 0x6004 (e + 1))
         (if second then (accelOf t e).linkB else ((accelOf t e).speed, (accelOf t e).width, (accelOf t e).flit)) =
           (v, width, flit || Nat.ble v 1)) ∧ (accelOf t e).isolated = false ∧ (accelOf t e).inReset = false))

/-- The map of device addresses: an address lies on one die, in one frame, channel slot and channel offset, no two addresses share a
place, a frame lies on one die and its packets spread over all eight slots. -/
def Obligations.AddressesHaveOnePlace : Prop :=
  (∀ (s : State) (a b : Nat), a < 2 ^ 40 → b < 2 ^ 40 → s.mem.seven = [] →
    (memDie s a < engineDies s) ∧ (slotOf s a).1 < 8 ∧
    (memDie s a = memDie s b → slotOf s a = slotOf s b → a = b) ∧
    (a / frameSize = b / frameSize → memDie s a = memDie s b ∧ dieFrame s a = dieFrame s b) ∧
    (memDie s a = a / frameSize % engineDies s) ∧ (dieFrame s a = a / frameSize / engineDies s) ∧
    (a / frameSize < deviceFrames s ↔ dieFrame s a < 19074)) ∧
  (∀ (s : State) (a : Nat), a < 2 ^ 40 → s.mem.seven = [] → a % 4096 = 0 → ∀ k, k < 8 → ∃ x, x < 4096 ∧ (slotOf s (a + x)).1 = k) ∧
  -- over seven channels after a failure
  (∀ (s : State) (a b : Nat), a < 2 ^ 40 → b < 2 ^ 40 → s.mem.seven.contains (memDie s a) = true →
    ((List.range 8).filter fun k => !(chanOf s (memDie s a) k).dead).length = 7 →
    (slotOf s a).1 < 8 ∧ (chanOf s (memDie s a) (slotOf s a).1).dead = false ∧
    (memDie s a = memDie s b → slotOf s a = slotOf s b → a = b)) ∧
  -- what is withdrawn
  ∀ (s : State) (a : Nat), withdrawn s a = true ↔
    (if s.mesh.withdrawnDies.contains (memDie s a) then 0 else if s.mem.seven.contains (memDie s a) then 16514 else 19074) ≤ dieFrame s a

/-- Corrected and uncorrectable reads, the scrub, remaps, darns of channels, refresh, and the zeroing of memory. -/
def Obligations.MemoryCorrectsRemapsAndDarns : Prop :=
  (∀ (s : State) (a pin : Nat), memPowered s = true → a / frameSize < deviceFrames s → dieUp s (memDie s a) = true →
    let die := memDie s a
    let b := a / 4096
    (∃ t, exec (.memoryReadError a true pin) s = .next t ∧ memorySame s t ∧ t.mem.bad = s.mem.bad ∧
      countAt t (dkey 0x2402 (die + 1)) 0 = sat64 (countAt s (dkey 0x2402 (die + 1)) 0) 1 ∧
      -- a block corrected often enough within 24 hours is copied to the pool
      (cfg s 0x2401 2 ≤ (window s (24 * hour) (tgetD s.mem.blockCorr b [])).length → cfg s 0x2401 4 ≠ 0 → tget s.mem.remaps b = none →
        remapsOf s die < 65536 → tget t.mem.remaps b = some .copying ∧ memWaits t a = true) ∧
      ((window s (24 * hour) (tgetD s.mem.blockCorr b [])).length < cfg s 0x2401 2 → t.mem.remaps = s.mem.remaps ∧
        tget t.mem.blockCorr b = some (window s (24 * hour) (tgetD s.mem.blockCorr b [])))) ∧
    (∃ t, exec (.memoryReadError a false pin) s = .next t ∧ memorySame s t ∧ unitBad t a = true ∧ a / 64 ∈ t.mem.bad ∧
      countAt t (dkey 0x2402 (die + 1)) 1 = sat64 (countAt s (dkey 0x2402 (die + 1)) 1) 1 ∧
      (remapsOf s die < 65536 → tget t.mem.remaps b = some .lost) ∧
      ∀ k, k ≠ b → tget t.mem.remaps k = tget s.mem.remaps k)) ∧
  (∀ (s : State) (die pin : Nat), die < 8 → memPowered s = true → dieUp s die = true →
    ∃ t, exec (.scrub die 0 pin) s = .next t ∧ tget t.mem.scrubAt die = some ((tgetD s.mem.scrubAt die 0 + 1) % scrubUnits) ∧
      (tgetD s.mem.scrubAt die 0 + 1 = scrubUnits →
        countAt t (dkey 0x2402 (die + 1)) 4 = sat64 (countAt s (dkey 0x2402 (die + 1)) 4) 1) ∧ onlyChanges [.mem, .counts] s t) ∧
  (∀ (s : State) (b : Nat), memPowered s = true → tget s.mem.remaps b = some .copying →
    (∃ t, exec (.remapCopyDone b false) s = .next t ∧ tget t.mem.remaps b = some .pool ∧ b ∈ t.mem.wearList ∧
      countAt t (dkey 0x2402 (memDie s (4096 * b) + 1)) 2 = sat64 (countAt s (dkey 0x2402 (memDie s (4096 * b) + 1)) 2) 1 ∧ memorySame s t) ∧
    (remapsOf s (memDie s (4096 * b)) ≤ 65536 → ∃ t, exec (.remapCopyDone b true) s = .next t ∧ tget t.mem.remaps b = some .lost ∧
      memorySame s t)) ∧
  (∀ (s : State) (die slot : Nat), die < 8 → slot < 8 → dieUp s die = true → (chanOf s die slot).dead = false → s.elec.held = false →
    (spareFree s die = false → ∃ t, exec (.channelFail die slot) s = .next t ∧ (chanOf t die slot).dead = true ∧
      ∀ a, memDie s a = die → (slotOf s a).1 = slot → s.mem.seven.contains die = false → unitBad t a = true) ∧
    (spareFree s die = true → s.pow.boot = 0 → ∃ t, exec (.channelFail die slot) s = .next t ∧ (chanOf t die slot).darn = some 0 ∧
      spareFree t die = false ∧ (chanOf t die slot).dead = false ∧ onlyChanges [.mem] s t) ∧
    (spareFree s die = true → s.pow.boot ≠ 0 → ∃ t, exec (.channelFail die slot) s = .next t ∧ (chanOf t die slot).onSpare = true ∧
      (chanOf t die slot).darn = none ∧ spareFree t die = false)) ∧
  (∀ (s : State) (r : Request) (c : Cmd), writesEntry s r c 0x2401 5 = true →
    let die := field c.data 0 1
    let slot := field c.data 1 1
    ((7 < die ∨ 7 < slot) → exec .chanDarn s = .next (finish rRange [] s)) ∧
    (die ≤ 7 → slot ≤ 7 → dieUp s die = false → exec .chanDarn s = .next (finish rInvalid [] s)) ∧
    (die ≤ 7 → slot ≤ 7 → dieUp s die = true → spareFree s die = false → exec .chanDarn s = .next (finish rNoResource [] s)) ∧
    (die ≤ 7 → slot ≤ 7 → dieUp s die = true → spareFree s die = true → exec .chanDarn s = .next (finish rDone [] (startDarn die slot s)))) ∧
  (∀ (s : State) (die slot k : Nat), die < 8 → slot < 8 → memPowered s = true → (chanOf s die slot).darn = some k →
    ∃ t, exec (.darnSegmentDone die slot []) s = .next t ∧
      (k + 1 < 80 → (chanOf t die slot).darn = some (k + 1)) ∧
      (80 ≤ k + 1 → (chanOf t die slot).darn = none ∧ (chanOf t die slot).onSpare = true) ∧ memorySame s t) ∧
  (∀ (s : State) (die slot bank : Nat), die < 8 → slot < 8 → bank < 64 → memPowered s = true → dieUp s die = true →
    ∃ t, exec (.refresh die slot bank) s = .next t ∧ tget t.mem.refreshed (64 * (8 * die + slot) + bank) = some s.time.now ∧
      onlyChanges [.mem] s t ∧ memorySame s t) ∧
  ∀ s : State, memPowered s = true → s.mem.zeroing = true → ∃ t, exec .memoryZeroed s = .next t ∧ t.mem.zeroing = false ∧
    (∀ a, getByte t.mem.bytes a = 0) ∧ (∀ a, getByte t.mem.hub a = 0) ∧ t.mem.bad = [] ∧ (∀ b, tget t.mem.remaps b ≠ some .lost) ∧
    (∀ b, tget s.mem.remaps b = some .pool → tget t.mem.remaps b = some .pool) ∧ onlyChanges [.mem] s t

/-- Partition and slice resets: PART_CMD and SLICE_CMD, what the first steps free, the drain and its squash, and what the end clears. -/
def Obligations.PartitionsAndSlicesReset : Prop :=
  (∀ (s : State) (r : Request) (c : Cmd), writesEntry s r c 0x7010 0 = true → ∀ a i, (a, i) ∈ [(1, Instr.partCmdReset), (2, Instr.partCmdResetZero)] →
    field c.data 1 1 = a →
    let p := field c.data 0 1
    (11 < p → exec i s = .next (finish rRange [] s)) ∧
    (p ≤ 11 → (partOf s p).state = .off → exec i s = .next (finish rInvalid [] s)) ∧
    (p ≤ 11 → (partOf s p).state ≠ .off → exec i s = .next (finish rDone [] (startReset p 0 1 (a == 2) false s)))) ∧
  -- steps 1 and 2
  (∀ (s : State) (p trigger : Nat) (zero : Bool),
    ((partOf s p).state = .off → startReset p 0 trigger zero false s = s) ∧
    ((partOf s p).state ≠ .off → (tget (partOf s p).resets 0).isSome = true → ∃ t, startReset p 0 trigger zero false s = t ∧
      (partOf t p).state = (partOf s p).state ∧ (∀ q, q ≠ p → partOf t q = partOf s q) ∧ onlyChanges [.part] s t ∧
      ∀ x y, tget (partOf s p).resets 0 = some x → tget (partOf t p).resets 0 = some y → y.zero = (x.zero || zero) ∧ y.step = x.step) ∧
    ((partOf s p).state ≠ .off → tget (partOf s p).resets 0 = none → ∃ t x, startReset p 0 trigger zero false s = t ∧
      (partOf t p).state = .resetting ∧ tget (partOf t p).resets 0 = some x ∧ x.step = 3 ∧ x.zero = zero ∧ x.trigger = trigger ∧
      (Tab.wf s.q.wqs = true → ∀ k w, tget t.q.wqs k = some w → wqLive w = true → Desc.part w.desc ≠ p) ∧
      (∀ x ∈ t.q.cqs, x.2.exists_ = true → Desc.part x.2.desc ≠ p) ∧ (∀ x ∈ t.q.ctrs, x.2.part ≠ p) ∧
      (∀ x ∈ t.conn.ends, endIn p 0 x.2 = false) ∧
      (∀ q, q ≠ p → partOf t q = partOf s q))) ∧
  -- steps 3 to 5
  (∀ (s : State) (p key : Nat) (r : PReset), p < 12 → resetsRun s = true → tget (partOf s p).resets key = some r → r.step = 3 →
    exec (.partitionDrained p key) s = .next (flushReset p key 0 s) ∧
    (∀ left, due s r.stepAt (r.drain * us) = true → exec (.resetDrain p key left) s = .next (flushReset p key left s)) ∧
    ∀ left, ∃ x, tget (partOf (flushReset p key left s) p).resets key = some x ∧ x.step = 5 ∧ x.squashed = left ∧
      x.flushes = ((r.paths.filter fun f => !pathGone s f).filter (pathActive s)).length ∧
      (x.unflushed = none ↔ ∀ f ∈ r.paths, pathGone s f = true ∨ pathActive s f = true)) ∧
  -- steps 6 and 7
  (∀ (s : State) (p key : Nat) (r : PReset), p < 12 → running s = true → tget (partOf s p).resets key = some r → r.step = 5 → r.flushes = 0 →
    r.trigger ≠ 0 → ∃ t, exec (.partitionResetDone p key) s = .next t ∧
    (key = 0 → (partOf t p).state = .up ∧ (partOf t p).slices = [] ∧ (partOf t p).resets = [] ∧
      (∀ k w, (partOf s p).regions.has k = true → tget t.xl.regions k = some w → Region.valid w = false) ∧
      (∀ a, getByte t.mem.bytes a =
        (if tableBase s p ≤ a ∧ a < tableBase s p + tableBytes s p then 0
         else if r.zero = true ∧ (dataRange s p).1 ≤ a ∧ a < (dataRange s p).1 + (dataRange s p).2 then 0
         else getByte s.mem.bytes a)) ∧
      -- a whole unit that is zeroed is good again (R384)
      (∀ u ∈ t.mem.bad, u ∈ s.mem.bad ∧ ¬ (tableBase s p ≤ 64 * u ∧ 64 * u + 64 ≤ tableBase s p + tableBytes s p))) ∧
    (key ≠ 0 → (partOf t p).state = (partOf s p).state ∧ t.mem = s.mem ∧ t.xl.regions = s.xl.regions ∧
      (∀ x, x ∈ (partOf t p).slices ↔ x ∈ (partOf s p).slices ∧ (r.destroy = true → x + 1 ≠ key)) ∧ tget (partOf t p).resets key = none) ∧
    ∀ q, q ≠ p → partOf t q = partOf s q) ∧
  -- SLICE_CMD
  (∀ (s : State) (r : Request) (c : Cmd), writesEntry s r c 0x7020 0 = true → ∀ a i,
    (a, i) ∈ [(1, Instr.sliceCmdCreate), (2, .sliceCmdReset), (3, .sliceCmdDestroy)] → field c.data 5 1 = a →
    let p := field c.data 0 1
    let pasid := field c.data 1 4
    let x := partOf s p
    ((11 < p ∨ 2 ^ 20 ≤ pasid) → exec i s = .next (finish rRange [] s)) ∧
    (p ≤ 11 → pasid < 2 ^ 20 → (senderOf s r).priv = 1 → (senderOf s r).part ≠ p → exec i s = .next (finish rDenied [] s)) ∧
    (p ≤ 11 → pasid < 2 ^ 20 → ((senderOf s r).priv ≠ 1 ∨ (senderOf s r).part = p) →
      (a = 1 → (partUp s p = false ∨ isSlice s p pasid = true) → exec i s = .next (finish rInvalid [] s)) ∧
      (a = 1 → partUp s p = true → isSlice s p pasid = false → (x.quotaSlices ≤ x.slices.length + 1 ∨ 16384 ≤ slicesHeld s) →
        exec i s = .next (finish rNoResource [] s)) ∧
      (a = 1 → partUp s p = true → isSlice s p pasid = false → x.slices.length + 1 < x.quotaSlices → slicesHeld s < 16384 →
        exec i s = .next (finish rDone [] (setPart p (fun x => { x with slices := x.slices ++ [pasid] }) s))) ∧
      (a ≠ 1 → (x.state = .off ∨ isSlice s p pasid = false ∨ (a = 3 ∧ pasid = 0)) → exec i s = .next (finish rInvalid [] s)) ∧
      (a = 3 → pasid ≠ 0 → x.state ≠ .off → isSlice s p pasid = true → partUp s p = true → sliceNamed s p pasid = true →
        exec i s = .next (finish rBusy [] s)) ∧
      (a ≠ 1 → x.state ≠ .off → isSlice s p pasid = true → (a = 3 → pasid ≠ 0 ∧ (partUp s p = false ∨ sliceNamed s p pasid = false)) →
        exec i s = .next (startReset p (pasid + 1) 1 false (a == 3) (markWaiting s)))))

/-- Farnen frames are taken, dropped or answered again; requests run record by record; sessions open, close and expire. -/
def Obligations.FarnenRequestsRunInOrder : Prop :=
  (∀ (s : State) (path : FPath) (f : FarnenFrame), serving s = true → pathOpen s path = true →
    let s1 := leaveIdle s
    let req : Request := { path := path, session := f.session, counter := f.counter, transaction := f.transaction, notice := (f.type == 3), cmds := f.cmds,
                           key := (tget s.far.sessions f.session).map (·.key) }
    let drop := exec (.farnenFrame path f) s = .next (countFarnen 1 s1)
    (frameForm f = false → drop) ∧
    (frameForm f = true → f.type ∈ [1, 3] →
      (f.session ≠ 0 → tget s.far.sessions f.session = none → drop) ∧
      (∀ x, f.session ≠ 0 → tget s.far.sessions f.session = some x →
        (Config.cmac x.key (frameBody f) ≠ f.tag → exec (.farnenFrame path f) s = .next (countFarnen 1 (countSec 0 s1))) ∧
        (Config.cmac x.key (frameBody f) = f.tag → f.counter ≤ x.counter →
          (∀ r, x.kept = some r → r.counter ≠ f.counter ∨ r.transaction ≠ f.transaction) → drop) ∧
        -- the kept response goes out again, and no record runs again
        (∀ r, Config.cmac x.key (frameBody f) = f.tag → x.kept = some r → r.counter = f.counter → r.transaction = f.transaction →
          ∃ t, exec (.farnenFrame path f) s = .next t ∧ t.far.running = s.far.running ∧ t.far.queue = s.far.queue ∧ t.dict = s.dict ∧
            (path = .segment ∨ path = .fabric → t.out = .farnen path (respBytes r) :: s.out))) ∧
      ((f.session = 0 ∨ ∃ x, f.session ≠ 0 ∧ tget s.far.sessions f.session = some x ∧ Config.cmac x.key (frameBody f) = f.tag ∧ x.counter < f.counter ∧
          ∀ r, x.kept = some r → r.counter ≠ f.counter ∨ r.transaction ≠ f.transaction) →
        (64 ≤ s.far.queue.length → exec (.farnenFrame path f) s = .next (countFarnen 3 s1)) ∧
        (s.far.queue.length < 64 → ∃ t, exec (.farnenFrame path f) s = .next t ∧ onlyChanges [.far, .pow] s t ∧
          (f.session ≠ 0 → ∃ y, tget t.far.sessions f.session = some y ∧ y.counter = f.counter ∧ y.lastFrame = s.time.now) ∧
          (∀ r, s.far.running = some r → t.far.running = some r ∧ t.far.queue = s.far.queue ++ [req]) ∧
          (s.far.running = none → s.far.queue = [] → t.far.running = some { req := req, todo := f.cmds } ∧ t.far.queue = []))))) ∧
  -- the in-band mailbox and the sideband
  (∀ (s : State) (part : Nat) (accel : Bool) (vector : Nat) (irqEn : Bool) (f : FarnenFrame), serving s = true →
    pathOpen s (if accel then .accelMailbox part else .mailbox part) = true →
    let m := tgetD s.far.mailboxes part {}
    (∃ t, exec (.mailboxGo part accel vector irqEn false f) s = .next t ∧
      tgetD t.far.mailboxes part {} = { m with vector := vector % 4096, irqEn := irqEn } ∧ t.far.queue = s.far.queue ∧
      t.far.running = s.far.running ∧ onlyChanges [.far, .pow] s t) ∧
    (m.running = true → ∃ t, exec (.mailboxGo part accel vector irqEn true f) s = .next t ∧ t.far.queue = s.far.queue ∧
      t.far.running = s.far.running ∧ countAt t (dkey 0x9100 3) 6 = sat64 (countAt s (dkey 0x9100 3) 6) 1) ∧
    (m.running = false → frameForm f = true → f.type = 1 → f.session = 0 → s.far.running = none → s.far.queue = [] →
      ∃ t r, exec (.mailboxGo part accel vector irqEn true f) s = .next t ∧ t.far.running = some r ∧ r.todo = f.cmds ∧
        r.req.path = (if accel then .accelMailbox part else .mailbox part) ∧ (tgetD t.far.mailboxes part {}).running = true ∧
        (tgetD t.far.mailboxes part {}).done = false)) ∧
  (∀ (s : State) (i3c : Bool) (f : FarnenFrame), serving s = true → pathOpen s .sideband = true →
    (∃ t, exec .sidebandRead s = .next t ∧ t.out = .sideband (match s.far.sideband with
        | some r => leBytes 2 (respLength r) ++ respBytes r
        | none => leBytes 2 0) :: s.out ∧ t.far.sideband = none ∧ onlyChanges [.far, .pow, .out] s t) ∧
    (frameForm f = true → f.type = 1 → f.session = 0 → s.far.running = none → s.far.queue = [] →
      ∃ t r, exec (.sidebandRequest i3c f) s = .next t ∧ t.far.sideband = none ∧ t.far.sideI3c = i3c ∧ t.far.running = some r ∧
        r.todo = f.cmds ∧ r.req.path = .sideband)) ∧
  -- the records of a request: one after another, the later ones NOT_RUN once one fails, then the response
  (∀ (s : State) (r : Running) (c : Cmd) (rest : List Cmd) (res : Nat) (d : List Byte), s.far.running = some r → r.todo = c :: rest →
    (res = rDone → rest ≠ [] → (finish res d s).far.running = some { r with todo := rest, answers := r.answers ++ [⟨c, res, d⟩], waiting := false } ∧
      (finish res d s).out = s.out) ∧
    ((res ≠ rDone ∨ rest = []) → r.stored = false → r.closeMgmt = false → r.req.notice = false → (r.req.path = .segment ∨ r.req.path = .fabric) →
      (finish res d s).out = .farnen r.req.path (respBytes ⟨r.req.session, r.req.counter, r.req.transaction,
        r.answers ++ ⟨c, res, d⟩ :: (if res = rDone then [] else notRun rest), r.req.key⟩) :: s.out) ∧
    ((res ≠ rDone ∨ rest = []) → r.stored = true → r.req.notice = false → (finish res d s).far.commitDue = true ∧ (finish res d s).out = s.out)) ∧
  -- the bytes of a response: a header, each record with its result, and the tag over them
  (∀ (r : Response), let d := respBytes r
    d.length = respLength r ∧ slice d 0 6 = leBytes 2 0x4E46 ++ [1, 2] ++ leBytes 2 (respLength r) ∧ slice d 6 4 = leBytes 4 r.session ∧
    slice d 10 8 = leBytes 8 r.counter ∧ slice d 18 2 = leBytes 2 r.transaction ∧ slice d 20 1 = leBytes 1 r.answers.length ∧
    d.drop (d.length - 16) = leBytes 16 ((r.key.map fun k => (Config.cmac k (d.take (d.length - 16))).toNat).getD 0)) ∧
  -- OPEN, CLOSE, reserved codes
  (∀ (s : State) (r : Request) (c : Cmd), runsCode s r c cOpen = true →
    let priv := field c.data 0 1
    let part := field c.data 1 1
    let epoch := field c.data 2 4
    (r.session ≠ 0 → exec .open_ s = .next (finish rDenied [] s)) ∧
    (r.session = 0 → c.data.length = 22 → c.length = 22 → 1 ≤ priv → priv ≤ 4 → (priv = 1 → part ≤ 11) →
      (priv = 1 → ownMailbox r.path part = false → exec .open_ s = .next (finish rDenied [] s)) ∧
      ((priv = 1 → ownMailbox r.path part = true) →
        (epoch ≠ 0 → epoch < s.mgr.epoch → exec .open_ s = .next (finish rStaleManager [] s)) ∧
        (epoch = 0 ∨ s.mgr.epoch ≤ epoch →
          ((64 ≤ s.far.sessions.length ∨ s.sec.randomOk = false) → exec .open_ s = .next (finish rNoResource [] s)) ∧
          (s.far.sessions.length < 64 → s.sec.randomOk = true → s.far.nextSession ≠ 0 →
            ∃ t x nonce, exec .open_ s = .next t ∧ nonce.length = 16 ∧ tget t.far.sessions s.far.nextSession = some x ∧ x.priv = priv ∧
              x.part = (if priv = 1 then part else 0xFF) ∧ x.counter = 0 ∧ x.path = r.path ∧
              x.key = sessionKey (privKey s priv (if priv = 1 then part else 0xFF)) s.far.nextSession (slice c.data 6 16) nonce epoch ∧
              t.far.nextSession = (if s.far.nextSession = m32 - 1 then 1 else s.far.nextSession + 1) ∧ t.free = s.free + 16))))) ∧
  (∀ (s : State) (r : Request) (c : Cmd), runsCode s r c cClose = true →
    (r.session = 0 → exec .closeSession s = .next (finish rDenied [] s)) ∧
    (r.session ≠ 0 → exec .closeSession s = .next (finish rDone [] (closeSession r.session s)))) ∧
  (∀ (s : State) (n : Nat), tget (closeSession n s).far.sessions n = none ∧
    (∀ m, m ≠ n → tget (closeSession n s).far.sessions m = tget s.far.sessions m) ∧ onlyChanges [.far, .sec] s (closeSession n s)) ∧
  (∀ (s : State) (r : Request) (c : Cmd), current s = some (r, c) → serving s = true →
    c.code ∉ [1, 2, 3, 4, 0x10, 0x11, 0x30, 0x31, 0x32, 0x33, 0x34] → exec .badCommand s = .next (finish rBadCommand [] s)) ∧
  (∀ (s : State) (n : Nat) (x : Session), serving s = true → tget s.far.sessions n = some x →
    (due s x.lastFrame (cfg s 0x9100 1 * sec) = true → exec (.sessionIdle n) s = .next (closeSession n s)) ∧
    (∀ g, x.staged = some g → due s g.last (10 * sec) = true →
      ∃ t, exec (.stagedRecordTimeout n) s = .next t ∧ tget t.far.sessions n = some { x with staged := none } ∧ onlyChanges [.far, .sec] s t))

/-- READ, WRITE, DESCRIBE and NEXT of dictionary entries, and the commit of stored ones. -/
def Obligations.EntriesAreReadWrittenAndStored : Prop :=
  (∀ (s : State) (r : Request) (c : Cmd), runsCode s r c cRead = true → readHasRow c.index c.sub = false →
    (entryAt c.index c.sub = none → exec .read s = .next (finish rNoEntry [] s)) ∧
    (∀ e, entryAt c.index c.sub = some e →
      let w := senderOf s r
      let may := shutOut s e.index c.sub = false ∧ reach w e c.sub true = true ∧ fifoDenied s w e.index c.sub = false
      let v := valueOf s w e c.sub
      (¬ may → exec .read s = .next (finish rDenied [] s)) ∧
      (may → e.access = 2 → exec .read s = .next (finish rAccess [] s)) ∧
      (may → e.access ≠ 2 → v.length < c.offset → exec .read s = .next (finish rLength [] s)) ∧
      (may → e.access ≠ 2 → c.offset ≤ v.length → e.ty ≠ 14 → exec .read s = .next (finish rDone ((v.drop c.offset).take c.length) s)))) ∧
  -- session 0 reads entries marked Any alone; Platform includes Operator, Operator includes Tenant; Meter and they exclude each other
  (∀ (w : Sender) (e : Entry) (n : Nat) (reading : Bool), e.priv ≤ 4 →
    (w.priv = 0 → (reach w e n reading = true ↔ reading = true ∧ e.priv = 0)) ∧
    (w.priv = 3 → (reach w e n reading = true ↔ (e.priv ≤ 3 ∨ reading = true))) ∧
    (w.priv = 2 → (reach w e n reading = true ↔ e.priv ≤ 2)) ∧
    (w.priv = 4 → (reach w e n reading = true ↔ e.priv = 0 ∨ e.priv = 4)) ∧
    (w.priv = 1 → (reach w e n reading = true ↔ e.priv ≤ 1 ∧ (perPartition e.index = true → n = w.part + 1 ∨ n = 0)))) ∧
  -- the checks of a write, in their order
  (∀ (s : State) (r : Request) (c : Cmd), runsCode s r c cWrite = true → writeHasRow c.index c.sub = false → actionHasRow c.index c.sub c.data = false →
    (entryAt c.index c.sub = none → exec .write s = .next (finish rNoEntry [] s)) ∧
    (∀ e, entryAt c.index c.sub = some e →
      let may := shutOut s e.index c.sub = false ∧ reach (senderOf s r) e c.sub false = true
      (¬ may → exec .write s = .next (finish rDenied [] s)) ∧
      (may → e.access = 0 → exec .write s = .next (finish rAccess [] s)) ∧
      (may → e.access ≠ 0 → lengthFits e c = false → exec .write s = .next (finish rLength [] s)) ∧
      (may → e.access ≠ 0 → lengthFits e c = true → inRange e c = false → exec .write s = .next (finish rRange [] s)))) ∧
  -- a setting keeps the value written, reads it back, and commits it where it is stored
  (∀ (s : State) (r : Request) (c : Cmd) (i n : Nat) (e : Entry),
    (i, n) ∈ [(0x3700, 1), (0x3701, 1), (0x7000, 1), (0x9100, 1), (0x7011, 1), (0x2000, 3), (0x2000, 4), (0x2200, 1), (0x2200, 2), (0x8200, 3)] →
    entryAt i n = some e → writesEntry s r c i n = true → ∃ t, exec .write s = .next t ∧ cfg t i n = ofLe c.data ∧
      (∀ w, valueOf t w e n = c.data) ∧ (∀ j m, dkey j m ≠ dkey i n → cfg t j m = cfg s j m) ∧
      (e.cls = 2 → (∀ x, s.far.running = some x → x.todo = [c]) → t.far.commitDue = true)) ∧
  (∀ (s : State) (r : Request) (c : Cmd), runsCode s r c cDescribe = true →
    (entryAt c.index c.sub = none → exec .describe s = .next (finish rNoEntry [] s)) ∧
    (∀ e, entryAt c.index c.sub = some e → e.ty ≠ 14 →
      exec .describe s = .next (finish rDone ([byteOf e.ty, byteOf e.access, byteOf e.cls, byteOf e.priv] ++ leBytes 4 e.size) s))) ∧
  (∀ (s : State) (r : Request) (c : Cmd), runsCode s r c cNext = true →
    let w := senderOf s r
    let after := fun (x : Nat × Nat) => x ∈ entries.flatMap subsOf ∧ dkey c.index c.sub < dkey x.1 x.2 ∧ mayReach s w x.1 x.2 = true
    ((∀ x, ¬ after x) → exec .next s = .next (finish rDone (leBytes 2 0xFFFF ++ leBytes 1 0xFF) s)) ∧
    (∀ x e, after x → (∀ y, after y → dkey x.1 x.2 < dkey y.1 y.2 ∨ x = y) → entryAt x.1 x.2 = some e →
      exec .next s = .next (finish rDone (leBytes 2 x.1 ++ leBytes 1 x.2 ++ describeBytes s w e x.2) s))) ∧
  (∀ (s : State), commitReady s = true →
    (commitCount s ≠ m32 - 1 → ∃ t b, exec .storedCommit s = .next t ∧ newerBank t = some b ∧ b.count = commitCount s + 1 ∧
      b.entries = storedImage s ∧ (∀ x, newerBank s = some x → x = t.far.bankA ∨ x = t.far.bankB) ∧
      t.far.commitDue = false ∧ t.far.held = [] ∧ t.far.lastCommit = some s.time.now ∧ t.dict = s.dict ∧
      (s.far.closeMgmt = false → (∀ x ∈ s.far.held, x.1 = .segment ∨ x.1 = .fabric) →
        t.out = (s.far.held.map fun x => Out.farnen x.1 (respBytes x.2)).reverse ++ s.out)) ∧
    (commitCount s = m32 - 1 → ∃ t, exec .storedCommit s = .next t ∧ t.far.bankA = s.far.bankA ∧ t.far.bankB = s.far.bankB ∧
      t.far.commitDue = false))

/-- The system manager, its heartbeats, journal and failover. -/
def Obligations.ManagersBeatAndFailOver : Prop :=
  (∀ (s : State), running s = true →
    (configuredManager s = true → s.mgr.role = 0 → sinceTrained s (300 * ms) = true → heardCoord s = false →
      ∃ t, exec .managerElectionTimer s = .next t ∧ t.mgr.role = 1 ∧ t.mgr.id = deviceId ∧ t.mgr.epoch = s.mgr.epoch ∧
        t.time.state = .aligned ∧ onlyChanges [.mgr, .fab, .time, .out] s t) ∧
    (s.fab.noManagerSaid = false → coord s = none → s.mgr.role ≠ 1 → sinceTrained s (10 * sec) = true →
      exec .noManagerTimer s = .next (record 2 0x3020 0xF hubCode [] { s with fab := { s.fab with noManagerSaid := true } })) ∧
    (s.mgr.role = 1 → due s s.mgr.lastBeat (cfg s 0x3702 1 * ms) = true →
      ∃ t, exec .heartbeatTimer s = .next t ∧ t.mgr.lastBeat = s.time.now ∧ t.mgr.witnesses = chooseWitnesses s ∧
        t.out = ((beatTargets s).map fun d => Out.notice 0x30 d [s.mgr.epoch, s.mgr.id]).reverse ++ s.out ∧ onlyChanges [.mgr, .out] s t) ∧
    (s.mgr.role = 1 → s.mgr.witnesses ≠ [] → due s s.mgr.since (lossSpan s) = true → majority s = false →
      exec .managerStop s = .next (announceAll { s with mgr := { s.mgr with role := 4 } })) ∧
    (s.mgr.role = 2 → s.mgr.query = none → due s s.mgr.heard (lossSpan s) = true →
      ∃ t, exec .managerLoss s = .next t ∧ t.mgr.query = some s.time.now ∧
        t.out = (s.mgr.witnesses.map fun w => Out.notice 0x33 w []).reverse ++ s.out ∧ onlyChanges [.mgr, .out] s t) ∧
    (s.mgr.role = 1 ∨ s.mgr.role = 2 → exec .standbySynchronised s = .next { s with mgr := { s.mgr with standbySync := true } }) ∧
    (∀ c, s.mgr.role = 1 → c ∈ subManagers s → c ∉ s.mgr.subLost → due s (tgetD s.mgr.subHeard c s.mgr.since) (lossSpan s) = true →
      ∃ t, exec (.submanagerLoss c) s = .next t ∧ c ∈ t.mgr.subLost ∧ t.mgr.role = 1)) ∧
  -- messages that reach the device directly
  (∀ (s : State) (code : Nat), running s = true → (∀ r c, current s = some (r, c) → c.code ≠ code) →
    (code = 0x30 → ∀ src epoch id role witnesses, s.mgr.epoch ≤ epoch → s.mgr.role ≠ 1 →
      ∃ t, exec (.heartbeat src epoch id role witnesses) s = .next t ∧ t.mgr.epoch = epoch ∧ t.mgr.id = id ∧ t.mgr.heard = s.time.now ∧
        t.mgr.witnesses = witnesses ∧ t.mgr.query = none ∧
        (s.mgr.role ≠ 4 ∨ s.mgr.epoch < epoch → t.mgr.role = (if role = 2 ∨ role = 3 then role else 0)) ∧
        (s.mgr.epoch < epoch → ∀ x ∈ t.far.sessions, x.2.epoch = 0 ∨ epoch ≤ x.2.epoch)) ∧
    (code = 0x31 → ∀ src, s.mgr.role = 1 ∨ s.mgr.role = 4 →
      ∃ t, exec (.heartbeatAck src) s = .next t ∧ tget t.mgr.acks src = some s.time.now ∧
        t.mgr.role = (if majority t = true then 1 else s.mgr.role) ∧ onlyChanges [.mgr, .fab, .out] s t ∧
        (s.mgr.role = 1 → onlyChanges [.mgr] s t)) ∧
    (code = 0x33 → ∀ src, managerSession s = none →
      exec (.lossQuery src) s = .next (s.emit (.notice 0x33 src [if s.mgr.role = 1 ∨ due s s.mgr.heard (lossSpan s) = false then 1 else 0]))) ∧
    (code = 0x34 → ∀ epoch id, s.mgr.epoch < epoch →
      ∃ t, exec (.takeover epoch id) s = .next t ∧ t.mgr.epoch = epoch ∧ t.mgr.id = id ∧
        t.mgr.role = (if s.mgr.role = 1 ∨ s.mgr.role = 4 then 0 else s.mgr.role) ∧
        ∀ x ∈ t.far.sessions, x.2.epoch = 0 ∨ epoch ≤ x.2.epoch) ∧
    (code = 0x32 → ∀ seq target key data,
      let j : Journal := { seq := seq, target := target, key := key, data := data, sentAt := s.time.now }
      (s.mgr.role = 1 → ∃ t, exec (.journal seq target key data false) s = .next t ∧ t.mgr.journal = s.mgr.journal ++ [j] ∧
        (∀ d, standbyOf s = some d → t.out = .notice 0x32 d [seq, target, key] :: s.out) ∧ onlyChanges [.mgr, .out] s t) ∧
      (s.mgr.role = 1 → ∃ t, exec (.journal seq target key data true) s = .next t ∧
        t.mgr.journal = s.mgr.journal.map (fun x => if x.seq == seq then { x with acked := true } else x) ∧ onlyChanges [.mgr] s t) ∧
      (s.mgr.role = 2 → ∃ t, exec (.journal seq target key data false) s = .next t ∧
        t.mgr.journal = (s.mgr.journal.filter fun x => x.seq != seq) ++ [{ j with acked := true }]) ∧
      (s.mgr.role = 2 → ∃ t, exec (.journal seq target key data true) s = .next t ∧
        t.mgr.journal = (s.mgr.journal.filter fun x => x.seq != seq) ∧ onlyChanges [.mgr] s t))) ∧
  -- failover: by a majority of lost witnesses, or handed over
  (∀ (s : State) (answers : List Bool) (handed : Bool), running s = true → s.mgr.role = 2 → answers.length ≤ s.mgr.witnesses.length →
    (handed = true ∨ s.mgr.query.isSome = true) →
    let lost := (answers.filter fun h => !h).length
    let takes := s.mgr.standbySync = true ∧ (handed = true ∨ (3 ≤ s.mgr.witnesses.length ∧ s.mgr.witnesses.length < 2 * lost))
    (takes → ∃ t, exec (.lossQueryDecided answers handed) s = .next t ∧ t.mgr.role = 1 ∧ t.mgr.id = deviceId ∧
      t.mgr.epoch = (s.mgr.epoch + 1) % m32 ∧ Out.notice 0x34 0xFFFF [(s.mgr.epoch + 1) % m32, deviceId] ∈ t.out ∧
      (∀ j ∈ s.mgr.journal, Out.notice 0x32 j.target [j.seq, j.target, j.key] ∈ t.out) ∧ t.time.state = .aligned ∧
      ∀ x ∈ t.far.sessions, x.2.epoch = 0 ∨ (s.mgr.epoch + 1) % m32 ≤ x.2.epoch) ∧
    (¬ takes → exec (.lossQueryDecided answers handed) s = .next { s with mgr := { s.mgr with query := none, heard := s.time.now } })) ∧
  (∀ (s : State) (r : Request) (c : Cmd), writesEntry s r c 0x3702 3 = true →
    ((standbyOf s = none ∨ s.mgr.role ≠ 1 ∨ s.mgr.standbySync = false) → exec .failover s = .next (finish rInvalid [] s)) ∧
    (∀ d, standbyOf s = some d → s.mgr.role = 1 → s.mgr.standbySync = true →
      ∃ t, exec .failover s = .next (finish rDone [] t) ∧ t.mgr.role = 2 ∧ t.mgr.heard = s.time.now ∧ t.mgr.journal = s.mgr.journal ∧
        Out.notice 0x33 d [1] ∈ t.out ∧ ∀ j ∈ s.mgr.journal, j.acked = false → Out.notice 0x32 d [j.seq, j.target, j.key] ∈ t.out)) ∧
  (∀ (s : State) (seq : Nat), running s = true →
    (s.mgr.role = 2 → exec (.journalAckTimeout seq) s = .next { s with mgr := { s.mgr with standbySync := false } }) ∧
    (∀ j ∈ s.mgr.journal, s.mgr.role = 1 → j.seq = seq → j.acked = false → due s j.sentAt (1 * ms) = true →
      ∃ t, exec (.journalAckTimeout seq) s = .next t ∧ t.mgr.standbySync = false ∧ t.mgr.role = 1 ∧ ∀ x ∈ t.mgr.journal, x.seq ≠ seq))

/-- Privilege keys, fused slots, images and anti-rollback. -/
def Obligations.KeysSlotsAndImages : Prop :=
  (∀ (s : State) (r : Request) (c : Cmd), runsCode s r c cRead = true → c.index = 0x9030 → c.sub = 2 →
    let may := s.sec.recovery = false ∧ trustedPath r.path = true ∧ ((senderOf s r).priv = 3 ∨ (r.session = 0 ∧ s.sec.provisioned = false))
    (may → exec .keyExport s = .next (finish rDone (readArray c 32 ((privilegeKeys s).flatMap digestBytes)) s)) ∧
    (¬ may → exec .keyExport s = .next (finish rDenied [] s))) ∧
  (∀ (s : State) (r : Request) (c : Cmd), writesEntry s r c 0x9030 4 = true →
    ∃ t, exec .provisionDone s = .next (finish rDone [] t) ∧ t.sec = { s.sec with provisioned := true } ∧ onlyChanges [.sec, .far] s t ∧
      t.far.sessions = s.far.sessions ∧ ∀ x, t.far.running = some x → x.stored = true) ∧
  -- a written element of KEY_EPOCH rises by one, whatever is written
  (∀ (s : State) (r : Request) (c : Cmd), writesEntry s r c 0x9030 1 = true →
    (c.offset ≠ 0 → c.offset + c.length ≤ 60 → ∃ t, exec .keyEpoch s = .next (finish rDone [] t) ∧ ∀ k,
      tgetD t.sec.epochs k 0 = (if c.offset ≤ 4 * k ∧ 4 * k < c.offset + c.length then (tgetD s.sec.epochs k 0 + 1) % m32 else tgetD s.sec.epochs k 0)) ∧
    (c.offset = 0 → arrayCount c.data = 15 → ∃ t, exec .keyEpoch s = .next (finish rDone [] t) ∧ ∀ k,
      tgetD t.sec.epochs k 0 = (if k < 15 then (tgetD s.sec.epochs k 0 + 1) % m32 else tgetD s.sec.epochs k 0)) ∧
    (c.offset ≠ 0 → 60 < c.offset + c.length → exec .keyEpoch s = .next (finish rLength [] s))) ∧
  -- OWNER_ENROLL
  (∀ (s : State) (r : Request) (c : Cmd) (d : List Byte),
    completesStaged s r c 0x9000 2 (if field d 33 1 = 0xFF then 34 else 2454) d = true →
    let slot := field d 0 1
    let auth := field d 33 1
    let digest := BitVec.ofNat 256 (field d 1 32)
    let allowed := slot ≤ 3 ∧ (keySlot s 1 slot).state = 0 ∧
      (if auth = 0xFF then s.sec.ownerEver = false ∧ trustedPath r.path = true
       else slotActive s 1 auth = true ∧
         Config.mldsaVerify (keySlot s 1 auth).digest (ascii "KZ-ENROLL" ++ idBytes ++ [byteOf slot] ++ digestBytes digest) (d.drop 34) = true)
    (allowed → ∃ t, exec .ownerEnroll s = .next (finish rDone [] t) ∧ keySlot t 1 slot = { state := 1, digest := digest } ∧
      (∀ cls k, cls < 2 → k < 4 → (cls, k) ≠ (1, slot) → keySlot t cls k = keySlot s cls k) ∧ t.sec.ownerEver = true ∧
      ((∀ k, k < 4 → (keySlot s 1 k).state = 0) → t.sec.provisioned = false) ∧
      ((∃ k, k < 4 ∧ (keySlot s 1 k).state ≠ 0) → t.sec.provisioned = s.sec.provisioned)) ∧
    (¬ allowed → ∃ t, exec .ownerEnroll s = .next (finish rInvalid [] t) ∧ t.sec = s.sec ∧
      countAt t (dkey 0x9050 0) 2 = sat64 (countAt s (dkey 0x9050 0) 2) 1)) ∧
  -- SLOT_REVOKE: by another active slot of its class, and not the last that may sign firmware
  (∀ (s : State) (r : Request) (c : Cmd) (d : List Byte), completesStaged s r c 0x9000 3 2423 d = true →
    let cls := field d 0 1
    let slot := field d 1 1
    let signer := field d 2 1
    let allowed := cls < 2 ∧ slot < 4 ∧ signer ≠ slot ∧ slotActive s cls signer = true ∧
      (∃ a b, a < 2 ∧ b < 4 ∧ (a, b) ≠ (cls, slot) ∧ slotActive s a b = true ∧ (a = 1 ∨ s.sec.ownerExclusive = false)) ∧
      Config.mldsaVerify (keySlot s cls signer).digest (ascii "KZ-REVOKE" ++ idBytes ++ [byteOf cls, byteOf slot]) (d.drop 3) = true
    (allowed → ∃ t, exec .slotRevoke s = .next (finish rDone [] t) ∧ keySlot t cls slot = { keySlot s cls slot with state := 2 } ∧
      ∀ a b, a < 2 → b < 4 → (a, b) ≠ (cls, slot) → keySlot t a b = keySlot s a b) ∧
    (¬ allowed → ∃ t, exec .slotRevoke s = .next (finish rInvalid [] t) ∧ t.sec = s.sec)) ∧
  (∀ (s : State) (r : Request) (c : Cmd), writesEntry s r c 0x9000 4 = true →
    (ofLe c.data = 0 → exec .ownerExclusive s = .next (finish rDone [] s)) ∧
    (ofLe c.data ≠ 0 → (∀ k, k < 4 → slotActive s 1 k = false) → exec .ownerExclusive s = .next (finish rInvalid [] s)) ∧
    (ofLe c.data ≠ 0 → (∃ k, k < 4 ∧ slotActive s 1 k = true) →
      ∃ t, exec .ownerExclusive s = .next (finish rDone [] t) ∧ t.sec = { s.sec with ownerExclusive := true } ∧ onlyChanges [.sec, .far] s t)) ∧
  -- the checks of an image
  (∀ (s : State) (kind : Nat) (d : List Byte),
    let h := imageHead d
    verifyImage s kind d = true ↔
      (fld h 1023 992 = 0x57465A4B ∧ fld h 991 984 = 1 ∧ fld h 911 880 ≤ 33554432 ∧ d.length = 4096 + fld h 911 880 ∧ fld h 959 944 ≤ 63 ∧
        fld h 983 976 = kind) ∧
      (fld h 975 968 < 2 ∧ slotActive s (fld h 975 968) (fld h 967 960) = true ∧
        Config.sha3 (slice d 128 1312) = (keySlot s (fld h 975 968) (fld h 967 960)).digest ∧
        (kind ≠ 6 → s.sec.ownerOnly = true → fld h 975 968 = 1)) ∧
      Config.mldsaVerify (keySlot s (fld h 975 968) (fld h 967 960)).digest (slice d 0 1440) (slice d 1440 2420) = true ∧
      Config.sha3 (d.drop 4096) = BitVec.ofNat 256 (fld h 767 512) ∧ (kind ≠ 6 → tgetD s.sec.svn kind 0 ≤ fld h 959 944) ∧
      (fld h 511 448 = 0 ∨ fld h 511 448 = deviceId)) ∧
  (∀ (s : State) (r : Request) (c : Cmd), writesEntry s r c 0x9010 2 = true → s.sec.recovery = false →
    let kind := field c.data 0 1
    ((kind < 1 ∨ 5 < kind) → exec .imageWrite s = .next (finish rInvalid [] s)) ∧
    (1 ≤ kind → kind ≤ 5 → verifying s kind = true → exec .imageWrite s = .next (finish rBusy [] s)) ∧
    (1 ≤ kind → kind ≤ 5 → verifying s kind = false → ∃ t, exec .imageWrite s = .next (finish rDone [] t) ∧
      (bankOf t kind (targetBank s kind)).state = 1 ∧
      (bankOf t kind (targetBank s kind)).data = (deviceBytes (field c.data 1 4) (field c.data 5 8) (field c.data 13 4) s).1.getD [] ∧
      bankOf t kind (1 - targetBank s kind) = bankOf s kind (1 - targetBank s kind) ∧
      (bankOf s kind (targetBank s kind)).preferred = (bankOf t kind (targetBank s kind)).preferred)) ∧
  (∀ (s : State) (r : Request) (c : Cmd) (d : List Byte), s.sec.recovery = true →
    completesStaged s r c 0x9010 2 (8 + field d 4 4) d = true →
    let kind := field d 0 1
    let img := d.drop 8
    1 ≤ kind → kind ≤ 5 → verifying s kind = false → img.length = 4096 + fld (imageHead img) 911 880 → img.length ≤ 33558528 →
      ∃ t, exec .imageWrite s = .next (finish rDone [] t) ∧ (bankOf t kind (targetBank s kind)).state = 1 ∧
        (bankOf t kind (targetBank s kind)).data = img ∧ bankOf t kind (1 - targetBank s kind) = bankOf s kind (1 - targetBank s kind)) ∧
  (∀ (s : State) (kind bank : Nat), serving s = true → 1 ≤ kind → kind ≤ 5 → bank < 2 → (bankOf s kind bank).state = 1 →
    (verifyImage s kind (bankOf s kind bank).data = true → ∃ t, exec (.imageVerified kind bank) s = .next t ∧
      bankOf t kind bank = { bankOf s kind bank with state := 2 } ∧ onlyChanges [.sec] s t) ∧
    (verifyImage s kind (bankOf s kind bank).data = false → ∃ t, exec (.imageVerified kind bank) s = .next t ∧
      bankOf t kind bank = { bankOf s kind bank with state := 3 } ∧ onlyChanges [.sec, .counts] s t ∧
      countAt t (dkey 0x9050 0) 1 = sat64 (countAt s (dkey 0x9050 0) 1) 1)) ∧
  (∀ (s : State) (r : Request) (c : Cmd), writesEntry s r c 0x9010 3 = true →
    let kind := field c.data 0 1
    let bank := field c.data 1 1
    ((kind < 1 ∨ 5 < kind ∨ 1 < bank) → exec .imageActivate s = .next (finish rInvalid [] s)) ∧
    (1 ≤ kind → kind ≤ 5 → bank ≤ 1 → ∃ t, exec .imageActivate s = .next (finish rDone [] t) ∧
      bankOf t kind bank = { bankOf s kind bank with preferred := true } ∧
      bankOf t kind (1 - bank) = { bankOf s kind (1 - bank) with preferred := false } ∧
      (∀ k b, k ≠ kind → b ≤ 1 → bankOf t k b = bankOf s k b) ∧ onlyChanges [.sec] s t)) ∧
  (∀ (s : State) (r : Request) (c : Cmd), writesEntry s r c 0x9010 5 = true →
    let kind := ofLe c.data
    (runningBank s kind = none → exec .rollbackCommit s = .next (finish rInvalid [] s)) ∧
    (∀ b, runningBank s kind = some b →
      let n := max b.svn (svnFused s kind)
      let both := 1 ≤ kind ∧ kind ≤ 5 ∧ verifyAt s kind n (bankOf s kind 0).data = true ∧ verifyAt s kind n (bankOf s kind 1).data = true
      (both → ∃ t, exec .rollbackCommit s = .next (finish rDone [] t) ∧ svnFused t kind = n ∧
        (∀ k, k ≠ kind → svnFused t k = svnFused s k) ∧ onlyChanges [.sec] s t) ∧
      (¬ both → exec .rollbackCommit s = .next (finish rInvalid [] s))))

/-- Measurement, attestation, debug authorisation, the random source. -/
def Obligations.MeasurementsAttestAndUnlock : Prop :=
  (∀ (s : State) (r : Request) (c : Cmd), writesEntry s r c 0x9020 2 = true →
    let m := field c.data 0 1
    ((m < 8 ∨ 15 < m) → exec .measureExtend s = .next (finish rInvalid [] s)) ∧
    (8 ≤ m → m ≤ 15 → ∃ t, exec .measureExtend s = .next (finish rDone [] t) ∧
      tgetD t.sec.measure m 0 = Config.sha3 (digestBytes (tgetD s.sec.measure m 0) ++ digestBytes (BitVec.ofNat 256 (field c.data 1 32))) ∧
      (∀ k, k ≠ m → tgetD t.sec.measure k 0 = tgetD s.sec.measure k 0) ∧ onlyChanges [.sec] s t)) ∧
  (∀ (s : State) (r : Request) (c : Cmd) (x : Session), writesEntry s r c 0x9020 3 = true → tget s.far.sessions r.session = some x →
    ((s.sec.randomOk = false ∨ s.sec.reportCount = m64 - 1) → exec .attestReq s = .next (finish rNoResource [] s)) ∧
    (s.sec.randomOk = true → s.sec.reportCount ≠ m64 - 1 → ∃ t head,
      exec .attestReq s = .next (finish rDone [] t) ∧ t.sec = { s.sec with reportCount := s.sec.reportCount + 1 } ∧
      head = leBytes 128 (reportHead s (field c.data 0 32) (field c.data 32 2) (s.sec.reportCount + 1)) ++
        (maskBits 16 (field c.data 32 2)).flatMap (fun i => digestBytes (tgetD s.sec.measure i 0)) ∧
      tget t.far.sessions r.session = some { x with report := head ++ Config.mldsaSign head } ∧
      (∀ n, n ≠ r.session → tget t.far.sessions n = tget s.far.sessions n) ∧ onlyChanges [.sec, .far, .counts] s t)) ∧
  -- a challenge is good for one response within 60 s
  (∀ (s : State) (r : Request) (c : Cmd) (x : Session), readsEntry s r c 0x9040 1 = true → tget s.far.sessions r.session = some x →
    ∃ t n, exec .debugChallenge s = .next (finish rDone ((n.drop c.offset).take c.length) t) ∧ n.length = 32 ∧ t.free = s.free + 32 ∧
      tget t.far.sessions r.session = some { x with nonce := some (n, s.time.now) } ∧ onlyChanges [.far, .free] s t) ∧
  (∀ (s : State) (n : Nat) (x : Session) (nonce : List Byte) (t0 : Nat), serving s = true → tget s.far.sessions n = some x →
    x.nonce = some (nonce, t0) → due s t0 (60 * sec) = true →
    ∃ t, exec (.debugChallengeExpiry n) s = .next t ∧ tget t.far.sessions n = some { x with nonce := none } ∧ onlyChanges [.far] s t) ∧
  (∀ (s : State) (r : Request) (c : Cmd) (d : List Byte) (x : Session), completesStaged s r c 0x9040 2 2422 d = true →
    tget s.far.sessions r.session = some x →
    let scope := field d 0 1
    let slot := field d 1 1
    let cls := if scope = 1 then 1 else 0
    let good := ∃ nonce t0, x.nonce = some (nonce, t0) ∧ (scope = 1 ∨ scope = 2) ∧ due s t0 (60 * sec) = false ∧ slotActive s cls slot = true ∧
      Config.mldsaVerify (keySlot s cls slot).digest (ascii "KZ-DEBUG" ++ idBytes ++ [byteOf scope] ++ nonce) (d.drop 2) = true
    (scope = 2 → s.sec.ownerExclusive = true → ∃ t, exec .debugResponse s = .next (finish rDenied [] t) ∧ t.sec = s.sec ∧
      tget t.far.sessions r.session = some { x with nonce := none, staged := none }) ∧
    ((scope ≠ 2 ∨ s.sec.ownerExclusive = false) → good → ∃ t, exec .debugResponse s = .next (finish rDone [] t) ∧
      t.sec.debug = max s.sec.debug scope ∧ tget t.far.sessions r.session = some { x with nonce := none, staged := none } ∧
      tgetD t.sec.measure 0 0 = Config.sha3 (digestBytes (tgetD s.sec.measure 0 0) ++ digestBytes (Config.sha3 (ascii "KZ-DEBUG" ++ [byteOf scope])))) ∧
    ((scope ≠ 2 ∨ s.sec.ownerExclusive = false) → ¬ good → ∃ t, exec .debugResponse s = .next (finish rInvalid [] t) ∧ t.sec = s.sec ∧
      tget t.far.sessions r.session = some { x with nonce := none, staged := none })) ∧
  (∀ (s : State), serving s = true → s.sec.randomOk = true →
    exec .randomSourceFailure s = .next (record 4 0x9003 0xF hubCode [] { s with sec := { s.sec with randomOk := false } }))

/-- The metering die: the feed and attribution, intervals and signed records, power loss, read-out, the seal. -/
def Obligations.TheMeterMeasuresSignsAndSeals : Prop :=
  (∀ (s : State), hubUp s = true → s.pow.boot = 0 → s.pow.warm = 0 → s.time.now % ms = 0 → ∃ t, exec .feedFrame s = .next t ∧
    t.mtr = { s.mtr with feedNumber := s.mtr.feedNumber + 1 } ∧ onlyChanges [.mtr, .out] s t ∧
    t.out = .feed ⟨s.mtr.feedEpoch, s.mtr.feedNumber, s.time.now, suspectAt s (firstIsland hubCode + 18),
      (List.range 12).map (fun p => (partOf s p).state.code), (List.range 12).map (fun p => tgetD s.mtr.fabricBytes p 0 % m64),
      (List.range 12).map (fun p => tgetD s.mtr.hostBytes p 0 % m64), true⟩ :: s.out) ∧
  -- what closing an interval does
  (∀ (s : State) (event : Nat),
    (slotsFull s = true → (closeInterval event s).mtr.records = s.mtr.records ∧ (closeInterval event s).mtr.m.elapsed = s.mtr.m.elapsed ∧
      bit (closeInterval event s).mtr.m.flags 5 = true) ∧
    (slotsFull s = false → ∃ r, (closeInterval event s).mtr.records.getLast? = some r ∧ r.seq = s.mtr.nextSeq ∧ r.event = event ∧
      r.elapsed = s.mtr.m.elapsed ∧ r.energy = milli s.mtr.m.energy ∧ r.audit = s.mtr.audit ∧ r.fw = s.mtr.fw ∧ r.cal = s.mtr.cal ∧
      r.collected = false ∧ r.sig = Config.meterSign (recordBody r) ∧
      (∀ x, s.mtr.records.getLast? = some x → r.prev = Config.sha3 (recordBytes x)) ∧ (s.mtr.records = [] → r.prev = 0) ∧
      (s.mtr.records.length < 4096 → (closeInterval event s).mtr.records = s.mtr.records ++ [r]) ∧
      (closeInterval event s).mtr.nextSeq = s.mtr.nextSeq + 1 ∧ (closeInterval event s).mtr.m.elapsed = 0 ∧
      (closeInterval event s).mtr.m.flags = 0 ∧ (closeInterval event s).mtr.m.energy = s.mtr.m.energy ∧
      (closeInterval event s).mtr.m.parts = s.mtr.m.parts ∧ onlyChanges [.mtr] s (closeInterval event s))) ∧
  -- the shares of an interval never add up to more than its energy
  (∀ (m : Metered), 1000 * ((recordParts m).foldl (fun n x => n + x.2) 0) ≤ milli m.energy - milli m.startEnergy) ∧
  -- frames of the feed
  (∀ (s : State) (f : Feed) (x : Sensed), s.mtr.powered = true →
    let dt := s.mtr.clock + x.dt - s.mtr.lastFrameAt
    (f.crcOk = false → exec (.feedFrameAccepted f x) s = .next (countMeter 1 (sense x s))) ∧
    (∀ l, f.crcOk = true → s.mtr.last = some l → l.epoch = f.epoch → f.number = l.number + 1 → s.mtr.feedLoss = false → f.time < boundary s →
      ∃ t, exec (.feedFrameAccepted f x) s = .next t ∧ t.mtr.last = some f ∧ t.mtr.records = s.mtr.records ∧ onlyChanges [.mtr, .counts] s t ∧
        t.mtr.m.energy = (sense x s).mtr.m.energy ∧ t.mtr.m.elapsed = s.mtr.m.elapsed + x.dt ∧ t.mtr.m.start = s.mtr.m.start ∧
        countAt t (dkey 0xA020 0) 0 = sat64 (countAt s (dkey 0xA020 0) 0) 1 ∧
        (∀ p, p < 12 → mpart t.mtr.m.parts p =
          { active := ((mpart s.mtr.m.parts p).active + (if nth l.states p = 1 ∧ nth f.states p = 1 then dt else 0)) % m64,
            fabric := ((mpart s.mtr.m.parts p).fabric + (nth f.fabric p + (m64 - nth l.fabric p % m64)) % m64) % m64,
            host := ((mpart s.mtr.m.parts p).host + (nth f.host p + (m64 - nth l.host p % m64)) % m64) % m64 })) ∧
    (∀ l, f.crcOk = true → s.mtr.last = some l → l.epoch ≠ f.epoch → f.time < boundary s →
      ∃ t, exec (.feedFrameAccepted f x) s = .next t ∧ bit t.mtr.m.flags 1 = true ∧ t.mtr.records = s.mtr.records ∧
        (∀ p, p < 12 → (mpart t.mtr.m.parts p).active = (mpart s.mtr.m.parts p).active % m64 ∧
          (mpart t.mtr.m.parts p).fabric = ((mpart s.mtr.m.parts p).fabric + nth f.fabric p) % m64)) ∧
    (f.crcOk = true → boundary s ≤ f.time → ∃ u, exec (.feedFrameAccepted f x) s = .next (closeInterval 0 u) ∧ u.mtr.records = s.mtr.records ∧
      u.mtr.nextSeq = s.mtr.nextSeq ∧ u.mtr.m.elapsed = s.mtr.m.elapsed + x.dt ∧ u.mtr.last = some f)) ∧
  -- feed loss, snapshots, power
  (∀ (s : State) (x : Sensed), s.mtr.powered = true →
    (s.mtr.feedLoss = false → 100 * ms ≤ s.mtr.clock + x.dt - s.mtr.lastFrameAt → ∃ t, exec (.feedLoss x) s = .next t ∧ t.mtr.feedLoss = true ∧
      bit t.mtr.m.flags 2 = true ∧ t.mtr.m.parts = s.mtr.m.parts ∧ t.mtr.m.energy = (sense x s).mtr.m.energy ∧ onlyChanges [.mtr, .counts] s t) ∧
    (s.mtr.feedLoss = true → elapsedDue s x.dt = true → exec (.feedLossIntervalEnd x) s = .next (setMFlag 2 (closeInterval 0 (sense x s)))) ∧
    (60 * sec ≤ s.mtr.clock + x.dt - s.mtr.snapshotAt → ∃ t, exec (.meterSnapshot x) s = .next t ∧ t.mtr.snapshot = (sense x s).mtr.m ∧
      t.mtr.m = (sense x s).mtr.m ∧ onlyChanges [.mtr] s t) ∧
    (∃ t, exec (.vmtrBrownOut x) s = .next t ∧ t.mtr.powered = false ∧ t.mtr.snapshot = (sense x s).mtr.m ∧ t.mtr.pending = [] ∧
      t.mtr.records = s.mtr.records ∧ t.mtr.audit = s.mtr.audit ∧ onlyChanges [.mtr] s t)) ∧
  (∀ (s : State), s.mtr.powered = false → ∃ u, exec .meterPowerUp s = .next (closeInterval 3 u) ∧ u.mtr.powered = true ∧
    bit u.mtr.m.flags 3 = true ∧ u.mtr.m.energy = s.mtr.snapshot.energy ∧ u.mtr.m.parts = s.mtr.snapshot.parts ∧ u.mtr.m.elapsed = s.mtr.snapshot.elapsed ∧
    u.mtr.records = s.mtr.records ∧ u.mtr.nextSeq = s.mtr.nextSeq) ∧
  -- read-out
  (∀ (s : State), serving s = true → (∀ r c, current s = some (r, c) → (c.code, c.index, c.sub) ≠ (cRead, 0xA000, 4)) →
    (s.mtr.powered = true → s.mtr.bootWait = true → ∃ t, exec .status s = .next t ∧ t.mtr.absent = false ∧ t.mtr.bootWait = false ∧
      (∀ p, (partOf s p).enabled = true → (partOf t p).state = .up ∧ (partOf t p).slices = [])) ∧
    (s.mtr.powered = true → s.mtr.bootWait = false → ∃ t, exec .status s = .next t ∧ t.mtr.absent = false ∧ t.mtr.statusAsked = none ∧
      onlyChanges [.mtr] s t) ∧
    (s.mtr.powered = false → ∃ t, exec .status s = .next t ∧ t.mtr.statusAsked = some (s.mtr.statusAsked.getD s.time.now) ∧ onlyChanges [.mtr] s t) ∧
    (∀ t0, s.mtr.statusAsked = some t0 → due s t0 sec = true →
      (s.mtr.bootWait = true → ∃ t, exec .meterStatusTimeout s = .next t ∧ t.mtr.absent = true ∧ t.mtr.bootWait = false ∧
        ∀ p, (partOf s p).enabled = true → (partOf t p).state = .up) ∧
      (s.mtr.bootWait = false → ∃ t, exec .meterStatusTimeout s = .next t ∧ t.mtr.statusAsked = some s.time.now ∧ t.part = s.part))) ∧
  (∀ (s : State) (r : Request) (c : Cmd), readsEntry s r c 0xA010 1 = true →
    let n := selOf s r.session (dkey 0xA010 0)
    (recordOf s n = none → exec .readRecord s = .next (finish rNoEntry (((List.replicate 2932 0).drop c.offset).take c.length) s)) ∧
    (∀ x, recordOf s n = some x → ∃ t, exec .readRecord s = .next (finish rDone (((recordBytes x).drop c.offset).take c.length) t) ∧
      t.mtr.records = s.mtr.records.map (fun y => if y.seq == n then { y with collected := true } else y) ∧ onlyChanges [.mtr] s t)) ∧
  -- the seal
  (∀ (s : State) (x : Sensed), s.mtr.powered = true →
    (s.mtr.sealOpen = false → ∃ u, exec (.sealOpened x) s = .next (closeInterval 1 u) ∧ u.mtr.sealOpen = true ∧
      u.mtr.audit = min (s.mtr.audit + 1) (m32 - 1) ∧ u.mtr.records = s.mtr.records ∧ u.mtr.nextSeq = s.mtr.nextSeq) ∧
    (s.mtr.sealOpen = true → ∃ u, exec (.sealClosed x) s = .next (closeInterval 2 u) ∧ u.mtr.sealOpen = false ∧ u.mtr.pending = [] ∧
      u.mtr.audit = s.mtr.audit ∧
      (s.mtr.pending = [] → u.mtr.interval = s.mtr.interval ∧ u.mtr.cal = s.mtr.cal ∧ u.mtr.fw = s.mtr.fw) ∧
      (∀ v, s.mtr.pending = [(1, v)] → u.mtr.interval = v) ∧ (∀ v, s.mtr.pending = [(2, v)] → u.mtr.cal = v) ∧
      ∀ v, s.mtr.pending = [(3, v)] → u.mtr.fw = v)) ∧
  (∀ (s : State) (r : Request) (c : Cmd), writesEntry s r c 0xA030 0 = true → ∀ a i,
    (a, i) ∈ [(1, Instr.sealCmdInterval), (2, .sealCmdCalibration), (3, .sealCmdFirmware)] → field c.data 0 1 = a →
    let data := (deviceBytes (field c.data 5 4) (field c.data 9 8) (field c.data 17 4) s).1
    let good := if a = 1 then 60 ≤ field c.data 1 4 ∧ field c.data 1 4 ≤ 3600 else ∃ b, data = some b ∧ (a = 3 → Config.meterFwOk b = true)
    ((s.mtr.powered = false ∨ s.mtr.sealOpen = false) → ∃ t, exec i s = .next (finish rInvalid [] t) ∧ t.mtr = s.mtr) ∧
    (s.mtr.powered = true → s.mtr.sealOpen = true → ¬ good → ∃ t, exec i s = .next (finish rInvalid [] t) ∧ t.mtr = s.mtr) ∧
    (s.mtr.powered = true → s.mtr.sealOpen = true → good → ∃ t, exec i s = .next (finish rDone [] t) ∧
      t.mtr = { s.mtr with pending := s.mtr.pending ++ [(a, field c.data 1 4)] }))

/-- Programmable counters, bandwidth windows, histograms, sample FIFOs and the event recorder. -/
def Obligations.CountersSampleAndRecord : Prop :=
  -- the elements a write of an ARRAY names
  (∀ (c : Cmd) (n k : Nat), 0 < n →
    (c.offset = 0 → arrayCount c.data = k → elementsOf c n k = some ((List.range k).map fun j => (j, slice (c.data.drop 4) (n * j) n))) ∧
    (∀ i, 0 < i → i < k → c.offset = n * i → c.length = n → elementsOf c n k = some [(i, slice c.data 0 n)])) ∧
  -- counters: configuration, value, owner
  (∀ (s : State) (r : Request) (c : Cmd) (i : Instr) (entry size : Nat), (i, entry, size) ∈ [(Instr.pctrCfg, 0x8010, 11), (.pctrValue, 0x8011, 8), (.pctrOwner, 0x8013, 1)] →
    1 ≤ c.sub → c.sub ≤ 8 → writesEntry s r c entry c.sub = true →
    let die := c.sub - 1
    let w := senderOf s r
    let refused := fun (x : Nat × List Byte) =>
      if entry = 0x8013 then (if ofLe x.2 < 12 ∨ ofLe x.2 = 0xFF then rDone else rRange)
      else if ownerReach w (pctrOf s die x.1).owner = false then rDenied
      else if entry = 0x8011 then rDone
      else if 1 < field x.2 10 1 then rRange
      else if (pctrOf s die x.1).owner ≠ 0xFF ∧ 0x40 ≤ field x.2 0 1 then rInvalid else rDone
    let put := fun (d : List Byte) (p : Pctr) =>
      if entry = 0x8010 then takePctr d p
      else if entry = 0x8011 then { p with value := ofLe d }
      else if p.owner = ofLe d then p else { p with owner := ofLe d, enable := false, value := 0 }
    (engineDies s < c.sub → exec i s = .next (finish rInvalid [] s)) ∧
    (c.sub ≤ engineDies s → elementsOf c size 64 = none → exec i s = .next (finish rLength [] s)) ∧
    (∀ es, c.sub ≤ engineDies s → elementsOf c size 64 = some es →
      (∀ x, es.find? (fun x => refused x != rDone) = some x → exec i s = .next (finish (refused x) [] s)) ∧
      ((∀ x ∈ es, refused x = rDone) → ∃ t, exec i s = .next (finish rDone [] t) ∧
        (∀ x ∈ es, pctrOf t die x.1 = put x.2 (pctrOf s die x.1)) ∧
        (∀ d k, k < 64 → (d ≠ die ∨ k ∉ es.map (·.1)) → pctrOf t d k = pctrOf s d k) ∧
        t.obs = { s.obs with pctr := t.obs.pctr } ∧ onlyChanges [.obs] s t))) ∧
  -- an owned counter filters on its owner
  (∀ (d : List Byte) (p : Pctr), (takePctr d p).part = (if p.owner = 0xFF then field d 1 1 else p.owner) ∧ (takePctr d p).source = field d 0 1 ∧
    (takePctr d p).value = p.value ∧ (takePctr d p).owner = p.owner) ∧
  (∀ (s : State) (r : Request) (c : Cmd), 1 ≤ c.sub → c.sub ≤ engineDies s → c.sub ≤ 8 → readsEntry s r c 0x8012 c.sub = true →
    exec .pctrSnap s = .next (finish rDone (((snapBytes (senderOf s r) (c.sub - 1) s).drop c.offset).take c.length) s)) ∧
  -- bandwidth windows
  (∀ (s : State) (r : Request) (c : Cmd), writesEntry s r c 0x8020 1 = true →
    (ofLe c.data % 1024 ≠ 0 → exec .bwWindow s = .next (finish rRange [] s)) ∧
    (ofLe c.data % 1024 = 0 → ∃ t a, exec .bwWindow s = .next (finish rDone [] t) ∧ cfg t 0x8020 1 = ofLe c.data ∧ t.obs.bwPending = some a ∧
      a % ofLe c.data = 0 ∧ s.time.now < a ∧ a ≤ s.time.now + ofLe c.data ∧ t.obs.bwLen = s.obs.bwLen ∧ onlyChanges [.dict, .obs] s t)) ∧
  (∀ (s : State) (r : Request) (c : Cmd), readsEntry s r c 0x8021 0 = true → ∃ t, exec .portBw s = .next
    (finish rDone (readArray c 32 ((List.range 42).flatMap fun l => bwRecord (tgetD s.obs.bw l {}))) t) ∧
    (∀ l b, tget s.obs.bw l = some b → tget t.obs.bw l = some { b with peakSent := 0, peakReceived := 0 }) ∧
    t.obs = { s.obs with bw := t.obs.bw } ∧ onlyChanges [.obs] s t) ∧
  (∀ (s : State), running s = true →
    (∀ a, s.obs.bwPending = some a → a ≤ s.time.now → ∃ t, exec .bwWindowEnd s = .next t ∧ t.obs.bwLen = cfg s 0x8020 1 ∧ t.obs.bwStart = a ∧
      t.obs.bwPending = none ∧ (∀ l b, tget s.obs.bw l = some b → tget t.obs.bw l = some { b with sent := 0, received := 0 }) ∧ onlyChanges [.obs] s t) ∧
    ((∀ a, s.obs.bwPending = some a → s.time.now < a) → due s s.obs.bwStart s.obs.bwLen = true → ∃ t, exec .bwWindowEnd s = .next t ∧
      t.obs.bwLen = s.obs.bwLen ∧ t.obs.bwStart = s.time.now / s.obs.bwLen * s.obs.bwLen ∧
      (∀ l b, tget s.obs.bw l = some b → tget t.obs.bw l = some { b with
        sent := 0, received := 0, lastSent := b.sent, lastReceived := b.received,
        peakSent := max b.peakSent b.sent, peakReceived := max b.peakReceived b.received }) ∧ onlyChanges [.obs] s t) ∧
    -- histograms
    (s.time.now % 1024 = 0 → ∃ t, exec .histogramSample s = .next t ∧ onlyChanges [.obs] s t ∧ ∀ d i, d < engineDies s → i < 4 → ∀ b,
      tgetD (histOf t d i).bins b 0 = (match histValue s d (histOf s d i) with
        | some v => if binOf v = b then sat64 (tgetD (histOf s d i).bins b 0) 1 else tgetD (histOf s d i).bins b 0
        | none => tgetD (histOf s d i).bins b 0))) ∧
  (binOf 0 = 0 ∧ ∀ v b, 1 ≤ v → (b ≤ 14 → (binOf v = b ↔ 1 ≤ b ∧ 2 ^ (b - 1) ≤ v ∧ v < 2 ^ b)) ∧ (binOf v = 15 ↔ 2 ^ 14 ≤ v)) ∧
  (∀ (s : State) (r : Request) (c : Cmd), 1 ≤ c.sub → c.sub ≤ 8 → writesEntry s r c 0x8030 c.sub = true →
    let die := c.sub - 1
    let w := senderOf s r
    (engineDies s < c.sub → exec .histCfg s = .next (finish rInvalid [] s)) ∧
    (∀ k d, c.sub ≤ engineDies s → elementsOf c 6 4 = some [(k, d)] →
      let o := (histOf s die k).owner
      let n := field d 0 1
      (((w.priv = 1 ∧ o ≠ w.part) ∨ (o ≠ n ∧ w.priv ≠ 3)) → exec .histCfg s = .next (finish rDenied [] s)) ∧
      ((w.priv ≠ 1 ∨ o = w.part) → (o = n ∨ w.priv = 3) → (n ≤ 11 ∨ n = 0xFF) →
        (histOk s die n (field d 1 1) (field d 2 4) = false → exec .histCfg s = .next (finish rInvalid [] s)) ∧
        (histOk s die n (field d 1 1) (field d 2 4) = true → ∃ t, exec .histCfg s = .next (finish rDone [] t) ∧
          histOf t die k = { owner := n, kind := field d 1 1, object := field d 2 4, bins := [] } ∧ onlyChanges [.obs] s t)))) ∧
  -- a tenant's histogram takes its own queues alone
  (∀ (s : State) (die owner kind obj : Nat), owner ≠ 0xFF → histOk s die owner kind obj = true → kind = 0 ∨
    (kind = 1 ∧ dieOfWq obj = die ∧ ownsWq s owner obj = true) ∨ (kind = 2 ∧ dieOfCq obj = die ∧ ownsCq s owner obj = true)) ∧
  -- reads of a sample FIFO pop write words in order
  (∀ (s : State) (r : Request) (c : Cmd), 1 ≤ c.sub → c.sub ≤ engineDies s → c.sub ≤ 8 → readsEntry s r c 0x8041 c.sub = true →
    let die := c.sub - 1
    let f := tgetD s.obs.sfifo die {}
    let w := senderOf s r
    ((w.priv = 1 ∧ f.owner ≠ w.part) → exec .sfifoData s = .next (finish rDenied [] s)) ∧
    ((w.priv ≠ 1 ∨ f.owner = w.part) →
      ((c.length % 64 ≠ 0 ∨ c.length < 64 ∨ 1024 < c.length) → exec .sfifoData s = .next (finish rLength [] s)) ∧
      (c.length % 64 = 0 → 64 ≤ c.length → c.length ≤ 1024 → c.offset = 0 → ∃ t d g, exec .sfifoData s = .next (finish rDone d t) ∧
        -- copies of a pointer that differ reset the FIFO first: the words are discarded, and the marker is the first word
        (f.agrees = true → g = f ∧ onlyChanges [.obs] s t) ∧
        (f.agrees = false → g.words = [gapMarker 0xFFFFFFFF] ∧ g.epoch = (f.epoch + 1) % 16 ∧ g.lost = 0 ∧
          countAt t (dkey 0x8210 0) 2 = sat64 (countAt s (dkey 0x8210 0) 2) 1 ∧ onlyChanges [.obs, .counts] s t) ∧
        (tgetD t.obs.sfifo die {}).words = g.words.drop (7 * (c.length / 64)) ∧ (tgetD t.obs.sfifo die {}).agrees = g.agrees ∧
        (tgetD t.obs.sfifo die {}).epoch = g.epoch ∧
        d.length = 64 * min (c.length / 64) (g.words.length / 7 + 1) ∧
        (∀ k, k < g.words.length → k < 7 * (c.length / 64) →
          slice d (64 * (k / 7) + 8 * (k % 7)) 8 = leBytes 8 ((g.words.map (·.toNat)).getD k 0))))) ∧
  -- a FIFO that is written compares its pointers too; writes and reads keep the copies equal
  (∀ (f : Sfifo) (words : List (BitVec 64)), f.agrees = true → (f.enter words).agrees = true ∧ (f.push words).agrees = true ∧
    (f.resetPointers).agrees = true) ∧
  -- the recorder: what enters when it is full, reads, clears, copies
  (∀ (s : State) (sev code part die : Nat) (detail : List Nat), sev ≤ 4 →
    (sev < cfg s 0x8200 3 → (record sev code part die detail s).obs = s.obs) ∧
    (cfg s 0x8200 3 ≤ sev → s.obs.events.length < 16384 → (record sev code part die detail s).obs.events.length = s.obs.events.length + 1) ∧
    (cfg s 0x8200 3 ≤ sev → 16384 ≤ s.obs.events.length → (∀ e ∈ s.obs.events, sev ≤ e.severity) →
      (record sev code part die detail s).obs.events = s.obs.events ∧
      tgetD (record sev code part die detail s).obs.lost sev 0 = sat64 (tgetD s.obs.lost sev 0) 1) ∧
    (cfg s 0x8200 3 ≤ sev → 16384 ≤ s.obs.events.length → ∀ e ∈ s.obs.events, e.severity < sev →
      (∀ x ∈ s.obs.events, x.severity < sev → e.seq ≤ x.seq) → ∀ x ∈ (record sev code part die detail s).obs.events,
        (x ∈ s.obs.events ∧ x.seq ≠ e.seq) ∨ (x.code = code ∧ x.severity = sev))) ∧
  (∀ (s : State) (r : Request) (c : Cmd), readsEntry s r c 0x8203 0 = true → ∃ t, exec .eventRecords s = .next
    (finish rDone (readArray c 64 (((eventsFor s (senderOf s r)).take 20).flatMap eventBytes)) t) ∧ t.obs = s.obs ∧ onlyChanges [.far] s t) ∧
  (∀ (s : State) (w : Sender) (e : EventRec), e ∈ eventsFor s w ↔ e ∈ s.obs.events ∧ selOf s w.num (dkey 0x8201 0) ≤ e.seq ∧
    selOf s w.num (dkey 0x8202 0) ≤ e.severity ∧ (w.priv = 1 → e.part = w.part)) ∧
  (∀ (s : State) (r : Request) (c : Cmd), writesEntry s r c 0x8204 0 = true → ∃ t, exec .eventClear s = .next (finish rDone [] t) ∧
    (∀ e ∈ s.obs.events, ofLe c.data < e.seq → s.obs.events.length < 16384 → e ∈ t.obs.events) ∧
    (∀ e ∈ t.obs.events, (e ∈ s.obs.events ∧ ofLe c.data < e.seq) ∨ e.code = 0x8002) ∧
    t.obs.copying.isSome = true ∧ (s.obs.copying.isSome = true → t.obs.copyWaits = true)) ∧
  (∀ (s : State) (l : List EventRec), s.obs.copying = some l → ∃ t x, exec .recorderCopyDone s = .next t ∧ newerCopy t = some x ∧ x.records = l ∧
    t.obs.events = s.obs.events ∧ (t.obs.copying.isSome = s.obs.copyWaits) ∧ t.obs.copyWaits = false ∧
    (∀ y, newerCopy s = some y → y = t.obs.copyA ∨ y = t.obs.copyB) ∧ onlyChanges [.obs, .counts] s t)

/-- Power states: commands, entry step by step, wake events, the four wake stages. -/
def Obligations.PowerStatesAreEnteredAndLeft : Prop :=
  (∀ (s : State), entryBusy s = true ↔ s.mgr.role ≠ 0 ∨ (∃ x ∈ s.coll.slots, x.2.run ≠ none) ∨ (∃ x ∈ s.part.parts, x.2.state = .resetting) ∨
    (∃ c ∈ s.mem.chans, c.2.darn ≠ none) ∨
    -- a lane darn is in progress until its port has retrained
    (∃ p ∈ s.fab.ports, p.2.bring = .retrain ∧ p.2.trigger = 2) ∨ s.pow.clusterDarn ≠ [] ∨ s.pow.coreDarn ≠ none ∨ ¬ (s.pow.state = .active ∨ s.pow.state = .idle) ∨
    3 ∈ s.elec.clocksOut) ∧
  (∀ (s : State), deviceIdle s = true ↔ (∀ x ∈ s.q.wqs, x.2.ops = []) ∧ (∀ x ∈ s.coll.slots, x.2.run = none) ∧ s.ar.jobs = [] ∧
    s.conn.waitFill = [] ∧ ∀ c ∈ s.mesh.carry, c.frame.isNone = true → 8 ≤ c.dst) ∧
  (∀ (s : State) (r : Request) (c : Cmd), writesEntry s r c 0x2000 2 = true →
    (ofLe c.data = 1 →
      (awake s = true → deviceIdle s = true → ∃ t, exec .powerCmdIdle s = .next (finish rDone [] t) ∧ t.pow = { s.pow with state := .idle } ∧
        onlyChanges [.pow, .obs, .counts] s t) ∧
      ((awake s = false ∨ deviceIdle s = false) → exec .powerCmdIdle s = .next (finish rBusy [] s))) ∧
    (∀ i v, (i, v) ∈ [(Instr.powerCmdStandby, 2), (.powerCmdSleep, 3)] → ofLe c.data = v →
      (entryBusy s = true → exec i s = .next (finish rBusy [] s)) ∧
      (entryBusy s = false → ∃ t, exec i s = .next (finish rDone [] t) ∧ t.pow = { s.pow with
        state := .entering, target := v, step := 1, stepAt := s.time.now, entryStart := s.time.now, latch := none } ∧ onlyChanges [.pow] s t))) ∧
  (∀ (s : State),
    (running s = true → s.pow.state = .active → cfg s 0x2000 3 ≠ 0 → deviceIdle s = true → due s s.pow.idleSince (cfg s 0x2000 3 * us) = true →
      ∃ t, exec .idleAfter s = .next t ∧ t.pow = { s.pow with state := .idle } ∧ onlyChanges [.pow, .obs, .counts] s t) ∧
    (s.pow.state = .idle → ∃ t, exec .idleExit s = .next t ∧ t.pow = { s.pow with state := .active, idleSince := s.time.now } ∧ onlyChanges [.pow] s t)) ∧
  -- the steps of an entry
  (∀ (s : State) (refused : List Nat), hubUp s = true → s.pow.state = .entering →
    let sleep := s.pow.target = 3
    let go := fun (t : State) => exec (.entryStepDone refused) s = .next t ∧ t.pow.step = s.pow.step + 1 ∧ t.pow.state = .entering
    (s.pow.step = 1 → ∃ t, go t ∧ (¬ sleep → onlyChanges [.pow] s t) ∧
      (sleep → ∀ p, p < 12 → partUp s p = true → tget (partOf s p).resets 0 = none → (partOf t p).state = .resetting)) ∧
    (s.pow.step = 2 → ¬ sleep →
      (inFlightOps s = 0 → ∃ t, go t ∧ onlyChanges [.pow] s t) ∧ (inFlightOps s ≠ 0 → exec (.entryStepDone refused) s = .next s)) ∧
    (s.pow.step = 2 → sleep →
      (partsDrained s = true → ∃ t, go t ∧ onlyChanges [.pow] s t) ∧ (partsDrained s = false → exec (.entryStepDone refused) s = .next s)) ∧
    (s.pow.step = 3 → ∃ t, go t ∧ ∀ l, l < 2 → (edradOf s l).state = .active → (edradOf t l).sleeping = true) ∧
    (s.pow.step = 4 →
      (linksAsleep s = true ∨ due s s.pow.stepAt ms = true → ∃ t, go t ∧ onlyChanges [.pow] s t) ∧
      (linksAsleep s = false → due s s.pow.stepAt ms = false → exec (.entryStepDone refused) s = .next s)) ∧
    (s.pow.step = 5 → ∃ t, go t ∧ onlyChanges [.pow, .link] s t ∧ ∀ p, p < 8 →
      (sleep → (accelOf t p).up = false ∧ (accelOf t p).upB = false ∧ (accelOf t p).inReset = true) ∧
      (¬ sleep → (accelOf t p).inReset = (accelOf s p).inReset ∧ (accelOf t p).up = (accelOf s p).up ∧
        (p ∉ refused → (accelOf s p).up = true → (accelOf t p).lowPower = true) ∧ (p ∈ refused → accelOf t p = accelOf s p))) ∧
    (s.pow.step = 6 → ∃ t, go t ∧ ∀ p, p < 24 → (portOf t p).stopped = true ∧ (portOf t p).isTrained = false) ∧
    (s.pow.step = 7 → ∃ t, go t ∧ (¬ sleep → t.mem = { s.mem with selfRefresh := true }) ∧ (sleep → t.mem = s.mem)) ∧
    (s.pow.step = 8 → ∃ t, go t ∧ onlyChanges [.pow, .elec, .out] s t ∧ t.elec = { s.elec with vcore := t.elec.vcore } ∧
      ∀ r, r < 11 → (railPopulated s r = true → tget t.elec.vcore r = some (if sleep then 0 else 550) ∧
        Out.avs r (if sleep then 0 else 550) ∈ t.out) ∧ (railPopulated s r = false → tget t.elec.vcore r = tget s.elec.vcore r)) ∧
    (s.pow.step = 9 → s.pow.warmAfter = false → s.pow.pwrdnAfter = false →
      (¬ sleep → s.pow.target = 2 → s.pow.latch = none → timerPast s = false → ∃ t, exec (.entryStepDone refused) s = .next t ∧ t.pow.state = .standby ∧
        t.q = s.q ∧ t.conn = s.conn ∧ t.mem = s.mem ∧ t.dict = s.dict ∧ t.time = { s.time with aon := some (s.time.now, 0) }) ∧
      (∀ src port, s.pow.latch = some (src, port) → ∃ t, exec (.entryStepDone refused) s = .next t ∧ t.pow.state = .leaving ∧ t.pow.stage = 1 ∧
        t.pow.source = src ∧ t.pow.wakePort = port ∧ t.pow.report.latched = true) ∧
      (sleep → s.pow.latch = none → (wakeArmed s 3 = false ∨ cfg s 0x2001 2 = 0 ∨ s.time.now < cfg s 0x2001 2) →
        ∃ t, exec (.entryStepDone refused) s = .next t ∧ t.pow.state = .sleep ∧ t.q.wqs = [] ∧ t.conn.ends = [] ∧ t.coll.groups = [] ∧
          t.xl.regions = [] ∧ t.mem.zeroing = true ∧ t.mtr.records = s.mtr.records ∧ t.time.now = s.time.now ∧
          t.time.aon = some (s.time.now, 0) ∧ (∀ e ∈ s.obs.events, s.obs.events.length < 16384 → e ∈ t.obs.events) ∧
          ∀ k, (classOf k ≠ 0 → tget t.dict k = tget s.dict k) ∧ (classOf k = 0 → tget t.dict k = none)))) ∧
  (∀ (s : State), running s = true → s.pow.state = .entering → s.pow.target = 2 → s.pow.step = 2 → inFlightOps s ≠ 0 →
    due s s.pow.stepAt (cfg s 0x2000 4 * ms) = true → s.pow.warmAfter = false → s.pow.pwrdnAfter = false →
    ∃ t, exec .entryDrain s = .next t ∧ t.pow.state = .active ∧ t.pow.step = 0 ∧ t.q = s.q ∧ onlyChanges [.pow, .obs, .counts] s t) ∧
  -- what wakes the device
  (∀ (s : State) (addr : Nat), alwaysOn s = true →
    (s.pow.state = .standby ∨ (s.pow.state = .sleep ∧ s.pow.stuck = false) → ∃ t, exec (.i3cAddressMatch addr) s = .next t ∧
      t.pow.state = .leaving ∧ t.pow.stage = 1 ∧ t.pow.source = 1 ∧ t.pow.report.i3c = addr % 128 ∧ t.pow.exitStart = s.time.now ∧ onlyChanges [.pow] s t) ∧
    (s.pow.state = .entering → s.pow.latch = none → ∃ t, exec (.i3cAddressMatch addr) s = .next t ∧ t.pow.latch = some (1, 0) ∧
      t.pow.state = .entering ∧ onlyChanges [.pow] s t) ∧
    (s.pow.state = .leaving → ∃ t, exec (.i3cAddressMatch addr) s = .next t ∧ t.pow.stage = s.pow.stage ∧ t.pow.lateWakes = s.pow.lateWakes + 1)) ∧
  (∀ (s : State), alwaysOn s = true → cfg s 0x2001 2 ≠ 0 → cfg s 0x2001 2 ≤ s.time.now → s.pow.timerDone = false →
    ∃ t, exec .wakeAt s = .next t ∧ t.pow.timerDone = true ∧ onlyChanges [.pow] s t ∧
      (s.pow.state = .standby ∨ (s.pow.state = .sleep ∧ s.pow.stuck = false) →
        (wakeArmed s 3 = true → t.pow.state = .leaving ∧ t.pow.source = 4) ∧ (wakeArmed s 3 = false → t.pow.state = s.pow.state)) ∧
      (s.pow.state = .idle → t.pow.state = .active)) ∧
  -- the wake stages
  (∀ (s : State), hubUp s = true → s.pow.state = .leaving →
    (s.pow.stage = 1 → (missingRails s = [] → ∃ t, exec .wakeStageReady s = .next t ∧ t.pow.stage = 2 ∧ t.pow.stageAt = s.time.now ∧
        onlyChanges [.pow, .elec, .out] s t ∧ t.elec = { s.elec with vcore := t.elec.vcore } ∧
        ∀ r, r < 11 → railPopulated s r = true → tget t.elec.vcore r = some (if s.pow.target = 3 then 750 else operatingMv r)) ∧
      (missingRails s ≠ [] → exec .wakeStageReady s = .next s)) ∧
    (s.pow.stage = 2 → ∃ t, exec .wakeStageReady s = .next t ∧ t.pow.stage = 3 ∧ t.time = { s.time with aon := none } ∧ onlyChanges [.pow, .time] s t) ∧
    (s.pow.stage = 3 → s.pow.warmAfter = false → s.pow.pwrdnAfter = false →
      (s.mem.zeroing = true → s.pow.target = 3 → exec .wakeStageReady s = .next s) ∧
      (s.mem.zeroing = false ∨ s.pow.target ≠ 3 → ∃ t, exec .wakeStageReady s = .next t ∧ t.pow.stage = 4 ∧
        t.mem = { s.mem with selfRefresh := false } ∧ onlyChanges [.pow, .mem] s t)) ∧
    (s.pow.stage = 3 → s.pow.warmAfter = true → (s.mem.zeroing = false ∨ s.pow.target ≠ 3) → ∃ t, exec .wakeStageReady s = .next t ∧
      t.pow.warm = 4 ∧ t.pow.state = .active ∧ t.pow.report.source = s.pow.source ∧ t.q.wqs = []) ∧
    (s.pow.stage = 4 → s.pow.target ≠ 3 → s.sec.recovery = false → ∃ t, exec .wakeStageReady s = .next t ∧ t.pow.state = .active ∧
      t.pow.report.source = s.pow.source ∧ t.pow.report.left = s.pow.target ∧ t.pow.report.discarded = false ∧ t.pow.report.activeAt = s.time.now ∧
      (∀ p, p < 24 → (portOf t p).stopped = false) ∧ (∀ p, p < 8 → (accelOf t p).lowPower = false) ∧ t.q = s.q ∧ t.part = s.part) ∧
    (s.pow.stage = 4 → s.pow.target = 3 → s.sec.recovery = false → ∃ t, exec .wakeStageReady s = .next t ∧ t.pow.state = .active ∧
      (t.sec.recovery = false → t.pow.report.discarded = true ∧ t.conn.holdoff = some (s.time.now + 5 * ms) ∧
        ∀ p, (partOf s p).enabled = true → (partOf t p).state = .up ∧ (partOf t p).slices = []) ∧
      (t.sec.recovery = true → t.pow.boot = 0 ∧ t.pow.report = s.pow.report)) ∧
    (due s s.pow.stageAt (stageBound s) = true →
      (s.pow.attempts = 0 → ∃ t, exec .wakeStageOverrun s = .next t ∧ t.pow.stage = 1 ∧ t.pow.attempts = 1 ∧ t.pow.state = .leaving) ∧
      (s.pow.attempts ≠ 0 → ∃ t, exec .wakeStageOverrun s = .next t ∧ t.pow.state = .sleep ∧ t.pow.stuck = true ∧ t.elec.alert = true)))

/-- Cold and warm resets, the boot, the watchdogs and the orderly power-down: what each keeps and what it loses. -/
def Obligations.ResetsLoseKeepAndBoot : Prop :=
  (∀ (s : State) (gensel mgrEn : Bool) (bootsel : Nat),
    -- COLD_RESET_N falls
    (∃ t, exec (.coldResetN false gensel mgrEn bootsel) s = .next t ∧ t.elec.coldN = false ∧ hubUp t = false ∧ t.q.wqs = [] ∧ t.conn.ends = [] ∧
      t.mem.bytes = [] ∧ t.mem.zeroing = true ∧ t.elec.pwrdnRdy = false ∧ t.elec.thermtrip = false ∧ (s.elec.pwrdnRdy = true → Out.pin 1 false ∈ t.out) ∧
      (s.elec.thermtrip = true → Out.pin 2 true ∈ t.out) ∧ t.mtr = s.mtr ∧ t.obs.events = s.obs.events ∧ t.far.patternGen = 1 ∧ t.fab.fenced = [] ∧
      t.sec.slots = s.sec.slots ∧ t.sec.svn = s.sec.svn ∧ t.far.bankA = s.far.bankA ∧ t.far.bankB = s.far.bankB ∧
      ∀ k, (2 ≤ classOf k → tget t.dict k = tget s.dict k) ∧ (classOf k < 2 → tget t.dict k = none)) ∧
    -- and rises: straps sampled, missing power-goods waited for
    (s.elec.coldN = false → ∃ t, exec (.coldResetN true gensel mgrEn bootsel) s = .next t ∧ t.elec.coldN = true ∧ t.elec.genselS = gensel ∧
      t.elec.mgrEnS = mgrEn ∧ t.elec.bootselS = bootsel % 8 ∧
      (missingRails s ≠ [] → t.elec.waitPg = true ∧ t.elec.alert = true ∧ t.pow.boot = s.pow.boot ∧ hubUp t = false) ∧
      (missingRails s = [] → t.pow.boot = 1 ∧ t.pow.lastReset = (1, if s.elec.vaonLost then 4 else 1, s.time.now) ∧
        t.obs.coldBoots = (if s.obs.coldBoots = 0xFFFF then 0xFFFF else s.obs.coldBoots + 1)))) ∧
  -- the cold boot
  (∀ (s : State), hubUp s = true →
    (s.pow.boot = 1 → ∃ t, exec .coldBootStep s = .next t ∧ t.pow.boot = 2 ∧ t.elec.vaonLost = false ∧ t.mtr = s.mtr) ∧
    (s.pow.boot = 2 → ∃ t, exec .coldBootStep s = .next t ∧ t.pow.boot = 3 ∧ onlyChanges [.pow] s t) ∧
    (s.pow.boot = 3 → (s.elec.bootselS = 3 ∨ s.elec.bootselS = 4 → ∃ t, exec .coldBootStep s = .next t ∧ t.sec.recovery = true ∧ t.pow.boot = 0) ∧
      (s.elec.bootselS ≠ 3 → s.elec.bootselS ≠ 4 → ∃ t, exec .coldBootStep s = .next t ∧ t.pow.boot = 4 ∧ onlyChanges [.pow] s t)) ∧
    (s.pow.boot = 4 → s.sec.recovery = false →
      (∀ b, (hubOrder s).head? = some b → verifyImage s 1 (bankOf s 1 b).data = true → ∃ t, exec .coldBootStep s = .next t ∧ t.pow.boot = 5 ∧
        (bankOf t 1 b).state = 4 ∧ tgetD t.sec.measure 0 0 =
          Config.sha3 (digestBytes (tgetD s.sec.measure 0 0) ++ digestBytes (Config.sha3 (slice (bankOf s 1 b).data 0 1440)))) ∧
      ((∀ b ∈ hubOrder s, verifyImage s 1 (bankOf s 1 b).data = false) → ∃ t, exec .coldBootStep s = .next t ∧ t.sec.recovery = true ∧ t.pow.boot = 0)) ∧
    (s.pow.boot = 5 → s.sec.recovery = false → ∃ t, exec .coldBootStep s = .next t ∧ (t.pow.boot = 6 ↔ t.sec.recovery = false) ∧
      t.mtr.feedNumber = 0 ∧ t.mtr.fabricBytes = [] ∧ t.mtr.records = s.mtr.records) ∧
    (s.pow.boot = 6 → ∃ t, exec .coldBootStep s = .next t ∧ t.pow.boot = 0 ∧ t.pow.state = .active ∧ t.mtr.bootWait = true ∧
      t.conn.holdoff = some (s.time.now + 5 * ms) ∧ t.part = s.part)) ∧
  -- what starts a warm reset
  (∀ (s : State) (r : Request) (c : Cmd), writesEntry s r c 0x2002 1 = true →
    (ofLe c.data = 1 → exec .warmReset s = .next (finish rDone [] (startWarm 2 s))) ∧
    (ofLe c.data ≠ 1 → exec .warmReset s = .next (finish rInvalid [] s))) ∧
  (∀ (s : State) (cause : Nat),
    (s.pow.warm ≠ 0 ∨ s.pow.boot ≠ 0 → startWarm cause s = s) ∧
    (s.pow.warm = 0 → s.pow.boot = 0 → (startWarm cause s).pow.warm = 1 ∧ (startWarm cause s).pow.lastReset = (2, cause, s.time.now) ∧
      (startWarm cause s).q = s.q ∧ ∀ p, p < 24 → (portOf (startWarm cause s) p).stopped = true ∧ (portOf (startWarm cause s) p).isTrained = false)) ∧
  (∀ (s : State), hubUp s = true → s.pow.boot = 0 → s.pow.warm = 0 →
    (s.elec.warmN = true →
      let t := { s with elec := { s.elec with warmN := false } }
      (awake s = true → exec .warmResetN s = .next (startWarm 1 t)) ∧
      (s.pow.state = .standby ∨ (s.pow.state = .sleep ∧ s.pow.stuck = false) → ∃ u, exec .warmResetN s = .next u ∧ u.pow.warmAfter = true ∧
        u.pow.state = .leaving ∧ u.pow.source = 6 ∧ u.elec = t.elec) ∧
      (s.pow.state = .entering → ∃ u, exec .warmResetN s = .next u ∧ u.pow = { s.pow with warmAfter := true } ∧ u.elec = t.elec)) ∧
    (∀ core, core < 4 → serving s = true →
      ((∀ x, s.pow.watchdogAt = some x → due s x (10 * sec) = true) → ∃ t, exec (.mcWatchdog core) s = .next t ∧
        t.pow = { s.pow with watchdogAt := some s.time.now } ∧ onlyChanges [.pow, .obs, .counts] s t) ∧
      (∀ x, s.pow.watchdogAt = some x → due s x (10 * sec) = false → ∃ t, exec (.mcWatchdog core) s = .next t ∧ t.pow.warm = 1 ∧ t.pow.cause = 3 ∧
        t.pow.lastReset = (2, 3, s.time.now))) ∧
    (s.elec.pwrdn = false →
      (awake s = true → ∃ t, exec .pwrdnReqN s = .next t ∧ t.elec.pwrdn = true ∧ t.pow.warm = 1 ∧ t.pow.lastReset = s.pow.lastReset) ∧
      (s.pow.state = .standby → ∃ t, exec .pwrdnReqN s = .next t ∧ t.pow.state = .leaving ∧ t.pow.source = 6 ∧ t.pow.pwrdnAfter = true))) ∧
  -- the steps of a warm reset, and of a power-down that ends with the third
  (∀ (s : State), hubUp s = true →
    (s.pow.warm = 1 → ∃ t, exec .warmResetStep s = .next t ∧ t.pow.warm = 2 ∧ ∀ p, p < 12 → partUp s p = true →
      tget (partOf s p).resets 0 = none → (partOf t p).state = .resetting) ∧
    (s.pow.warm = 2 → (partsDrained s = false → exec .warmResetStep s = .next s) ∧
      (partsDrained s = true → ∃ t, exec .warmResetStep s = .next t ∧ t.pow.warm = 3 ∧ t.obs.copying.isSome = true)) ∧
    (s.pow.warm = 3 → (s.obs.copying.isSome = true ∨ s.far.commitDue = true → exec .warmResetStep s = .next s) ∧
      (s.obs.copying = none → s.far.commitDue = false → s.elec.pwrdn = true → ∃ t, exec .warmResetStep s = .next t ∧ t.elec.held = true ∧
        t.elec.pwrdnRdy = true ∧ t.out = .pin 1 true :: s.out ∧ t.pow.warm = 0 ∧ hubUp t = false ∧ t.mtr = s.mtr) ∧
      (s.obs.copying = none → s.far.commitDue = false → s.elec.pwrdn = false → ∃ t, exec .warmResetStep s = .next t ∧ t.pow.warm = 4 ∧
        t.q.wqs = [] ∧ t.q.cqs = [] ∧ t.conn.ends = [] ∧ t.xl.regions = [] ∧ t.coll.groups = [] ∧ t.far.sessions = [] ∧ t.sec.measure = [] ∧
        t.sec.debug = 0 ∧ t.fab.fenced = s.fab.fenced ∧ t.mtr.records = s.mtr.records ∧ t.mtr.m = s.mtr.m ∧ t.sec.reportCount = s.sec.reportCount ∧
        (∀ k, (1 ≤ classOf k → tget t.dict k = tget s.dict k) ∧ (classOf k = 0 → tget t.dict k = none)) ∧
        ((∀ c ∈ s.mem.chans, c.2.dead = false ∧ c.2.darn = none) → t.mem.bytes = s.mem.bytes))) ∧
    (s.pow.warm = 4 → (s.elec.warmN = false → exec .warmResetStep s = .next s) ∧
      (s.elec.warmN = true → ∃ t, exec .warmResetStep s = .next t ∧ t.pow.warm = 5 ∧ onlyChanges [.pow] s t)) ∧
    (s.pow.warm = 4 → s.elec.warmN = false → ∃ t, exec .warmResetNRise s = .next t ∧ t.elec.warmN = true ∧ t.pow.warm = 5) ∧
    (s.pow.warm = 5 → s.sec.recovery = false → ∃ t, exec .warmResetStep s = .next t ∧ (t.pow.warm = 6 ↔ t.sec.recovery = false) ∧
      (t.sec.recovery = false → t.far.generation = selectedGen s)) ∧
    (s.pow.warm = 6 → ∃ t, exec .warmResetStep s = .next t ∧ t.pow.warm = 0 ∧ t.pow.state = .active ∧ t.mtr.bootWait = true ∧ t.part = s.part))

/-- Darning of clusters, arrays, cores, SRAM and mesh wires; rails, clocks, temperatures and power. -/
def Obligations.UnitsDarnAndRailsAct : Prop :=
  -- a worn cluster leaves service for the spare, or for good
  (∀ (s : State) (die c : Nat), die < 8 →
    (8 * die + c ∈ s.pow.clustersOut → wearCluster die c s = s) ∧
    (8 * die + c ∉ s.pow.clustersOut → 8 * die + c ∈ (wearCluster die c s).pow.clustersOut ∧
      (clusterStock s die = true → tget (wearCluster die c s).pow.clusterSpare die = some c ∧ 8 * die + c ∈ (wearCluster die c s).pow.clusterDarn) ∧
      (clusterStock s die = false → (wearCluster die c s).pow.clusterSpare = s.pow.clusterSpare ∧
        countAt (wearCluster die c s) (dkey 0x2003 7) 1 = sat64 (countAt s (dkey 0x2003 7) 1) 1))) ∧
  (∀ (s : State) (r : Request) (x : Cmd) (die c : Nat), die < 8 → writesEntry s r x 0x2003 4 = true →
    let d := field x.data 0 1
    let k := field x.data 1 1
    ((7 < d ∨ 4 < k) → exec (.clusterDarn die c) s = .next (finish rRange [] s)) ∧
    (d ≤ 7 → k ≤ 4 → dieUp s d = true → clusterStock s d = false → exec (.clusterDarn die c) s = .next (finish rNoResource [] s)) ∧
    (d ≤ 7 → k ≤ 4 → dieUp s d = true → clusterStock s d = true → exec (.clusterDarn die c) s = .next (finish rDone [] (wearCluster d k s)))) ∧
  (∀ (s : State) (die c : Nat), die < 8 → running s = true → clusterAsked s = false → dieUp s die = true → 8 * die + c ∈ s.pow.clusterDarn →
    ∃ t, exec (.clusterDarn die c) s = .next t ∧ 8 * die + c ∉ t.pow.clusterDarn ∧ t.pow.clusterSpare = s.pow.clusterSpare ∧
      countAt t (dkey 0x2003 7) 0 = sat64 (countAt s (dkey 0x2003 7) 0) 1 ∧
      t.far.patternGen = (if s.far.patternGen = 0xFFFFFFFF then 1 else s.far.patternGen + 1)) ∧
  -- application cores
  (∀ (s : State) (r : Request) (x : Cmd), writesEntry s r x 0x2003 5 = true →
    (s.pow.coreSpare ≠ none ∨ s.pow.coreDarn ≠ none → exec .coreDarn s = .next (finish rNoResource [] s)) ∧
    (s.pow.coreSpare = none → s.pow.coreDarn = none → ∃ t, exec .coreDarn s = .next (finish rDone [] t) ∧
      t.pow = { s.pow with coreDarn := some (ofLe x.data, s.time.now) } ∧ onlyChanges [.pow] s t)) ∧
  (∀ (s : State) (core t0 : Nat), running s = true → s.pow.coreDarn = some (core, t0) →
    (∃ t, exec .coreParked s = .next t ∧ t.pow.coreSpare = some core ∧ t.pow.coreDarn = none) ∧
    (due s t0 (100 * ms) = true → ∃ t, exec .coreParkTimeout s = .next t ∧ t.pow.coreDarn = some (core, s.time.now + sec) ∧
      t.pow.coreSpare = s.pow.coreSpare ∧ onlyChanges [.pow, .obs, .counts] s t)) ∧
  -- self-tests: a passed test with few errors changes nothing but the count; a failed one makes the unit worn, by policy
  (∀ (s : State) (die unit errors : Nat), die < 8 → running s = true → dieUp s die = true →
    (unit < 5 → ∃ t, exec (.selftest die 0 unit errors false) s = .next t ∧ countAt t (dkey 0x2003 7) 6 = sat64 (countAt s (dkey 0x2003 7) 6) 1 ∧
      (cfg s 0x2003 1 = 0 → t.pow.clustersOut = s.pow.clustersOut) ∧ (cfg s 0x2003 1 ≠ 0 → 8 * die + unit ∈ t.pow.clustersOut)) ∧
    (unit < 5 → tget s.pow.unitCe (32 * die + unit) = none → errors ≤ cfg s 0x2003 2 → ∃ t, exec (.selftest die 0 unit errors true) s = .next t ∧
      t.pow.clustersOut = s.pow.clustersOut ∧ tget t.pow.unitCe (32 * die + unit) = some (errors, s.time.now) ∧ onlyChanges [.pow] s t) ∧
    (unit < 2 → ∃ t, exec (.selftest die 1 unit errors false) s = .next t ∧ 8 * die + unit ∈ t.pow.arraysOut)) ∧
  (∀ (s : State) (die unit errors : Nat), unit < 17 → running s = true → cfg s 0x2003 1 ≠ 0 → s.pow.coreSpare = none → s.pow.coreDarn = none →
    ∃ t, exec (.selftest die 2 unit errors false) s = .next t ∧ t.pow.coreDarn = some (unit, s.time.now)) ∧
  -- SRAM
  (∀ (s : State) (die array line : Nat), die ∈ dieCodes → running s = true → dieUp s die = true → (die, array, line) ∉ s.pow.sramEntered →
    (∀ meets, tgetD s.pow.sramUsed (65536 * die + array) 0 < Config.sramSpares (65536 * die + array) →
      ∃ t, exec (.sramCorrection die array line (.uncorrectable meets)) s = .next t ∧
        (die, array, line) ∈ t.pow.sramEntered ∧ tgetD t.pow.sramPending die 0 = tgetD s.pow.sramPending die 0 + 1 ∧
        tgetD t.pow.sramUsed (65536 * die + array) 0 = tgetD s.pow.sramUsed (65536 * die + array) 0 + 1) ∧
    (Config.sramSpares (65536 * die + array) ≤ tgetD s.pow.sramUsed (65536 * die + array) 0 → exec (.sramCorrection die array line (.uncorrectable none)) s =
      .next (record 2 0x2127 0xF die [die, array] s)) ∧
    -- the operation that met the error ends with MEDIA_ERROR: whole, or every tile of it that has not ended
    (∀ wq idx o, findOp s wq idx = some o → o.result = none → ∃ t, exec (.sramCorrection die array line (.uncorrectable (some (wq, idx)))) s = .next t ∧
      (o.tiles = [] → ∃ x, findOp t wq idx = some x ∧ x.result = some { status := stMediaError }) ∧
      (o.tiles ≠ [] → ∃ x, findOp t wq idx = some x ∧ (∀ y ∈ x.tiles, y.ended = true) ∧ (o.wqe.opcode = opGet → x.result.isSome = true)) ∧
      ∀ w i y, (w, i) ≠ (wq, idx) → findOp s w i = some y → y.result.isSome = true → findOp t w i = some y) ∧
    ((∀ x ∈ s.pow.sramCe, (x.1, x.2.1, x.2.2.1) ≠ (die, array, line)) → ∃ t, exec (.sramCorrection die array line .corrected) s = .next t ∧
      (die, array, line, 1, s.time.now) ∈ t.pow.sramCe ∧ t.pow.sramEntered = s.pow.sramEntered ∧ onlyChanges [.pow] s t)) ∧
  -- mesh wires
  (∀ (s : State) (link modul dir lane : Nat), link < 18 → modul < 4 → dir < 2 → hubUp s = true → linkServes s link = true →
    let key := 8 * link + 2 * modul + dir
    (tgetD s.mesh.repairs key 0 < 4 → ∃ t, exec (.meshWireDarn link modul dir lane) s = .next t ∧
      tgetD t.mesh.repairs key 0 = tgetD s.mesh.repairs key 0 + 1 ∧ t.mesh.out = s.mesh.out) ∧
    (4 ≤ tgetD s.mesh.repairs key 0 → exec (.meshWireDarn link modul dir lane) s = .next (linkOut link s))) ∧
  -- rails: a short fall is a glitch; a longer one fails an engine die or holds the device
  (∀ (s : State) (rail ns : Nat), rail < 18 →
    (ns < 2000 → (railWatched s rail = true → exec (.powerGoodLost rail ns) s = .next (bump (dkey 0x2203 0) 3 1 s)) ∧
      (railWatched s rail = false → exec (.powerGoodLost rail ns) s = .next s)) ∧
    (2000 ≤ ns → railWatched s rail = false → ∃ t, exec (.powerGoodLost rail ns) s = .next t ∧ rail ∈ t.elec.pgLost ∧ t.elec.held = s.elec.held ∧
      onlyChanges [.elec] s t) ∧
    (2000 ≤ ns → railWatched s rail = true →
      (rail < 8 → ∃ t, exec (.powerGoodLost rail ns) s = .next t ∧ rail ∈ t.mesh.failed ∧ t.elec.held = s.elec.held ∧ t.mtr.records = s.mtr.records) ∧
      (rail = 11 → ∃ t, exec (.powerGoodLost rail ns) s = .next t ∧ t.elec.held = true ∧ t.elec.vaonLost = true ∧ hubUp t = false ∧ t.mtr = s.mtr) ∧
      (8 ≤ rail → rail ≠ 11 → ∃ t, exec (.powerGoodLost rail ns) s = .next t ∧ t.elec.held = true ∧ t.elec.alert = true ∧ hubUp t = false ∧
        t.mtr = s.mtr)) ∧
    (s.elec.waitPg = true → missingRails s = [rail] → ∃ t, exec (.powerGoodAsserted rail) s = .next t ∧ t.pow.boot = 1 ∧ t.elec.waitPg = false) ∧
    (s.elec.waitPg = false → ∃ t, exec (.powerGoodAsserted rail) s = .next t ∧ rail ∉ t.elec.pgLost ∧ onlyChanges [.elec] s t)) ∧
  -- reference clocks
  (∀ (s : State) (clk : Nat) (ppm : Int) (common : List Nat), clk < 4 → hubUp s = true →
    (clk ∉ s.elec.clocksOut → ∃ t, exec (.refclkLoss clk ppm common) s = .next t ∧ clk ∈ t.elec.clocksOut ∧ tget t.elec.ppm clk = some ppm ∧
      (clk = 0 → (∀ p, p < 24 → (portOf t p).isTrained = false) ∧ ∀ l, l < 2 → (edradOf t l).state ≠ .active) ∧
      (clk = 1 → ∀ p, p < 8 → (accelOf t p).up = ((accelOf s p).up && !common.contains (2 * p))) ∧
      (clk = 2 → s.time.state = .aligned → t.time.state = .holdover) ∧
      (clk = 3 → entryBusy t = true)) ∧
    (clk ∈ s.elec.clocksOut → ∃ t, exec (.refclkRestored clk ppm) s = .next t ∧ clk ∉ t.elec.clocksOut ∧ tget t.elec.ppm clk = some ppm ∧
      onlyChanges [.elec, .obs, .counts] s t)) ∧
  -- temperatures: readings, memory limits, throttling, the trip
  (∀ (old : Nat) (t : Int), (1000 < t → memLimit old t = 4) ∧ (t ≤ 900 → memLimit old t = 0) ∧ (950 < t → t ≤ 1000 → old ≠ 4 → memLimit old t = 2) ∧
    (900 < t → t ≤ 950 → memLimit old t = (if old = 0 then 0 else 2)) ∧ (950 < t → old = 4 → memLimit old t = 4)) ∧
  (∀ (s : State) (temps : List Int), hubUp s = true → s.pow.state ≠ .standby → s.pow.state ≠ .sleep →
    (∀ x, s.elec.tempsAt = some x → due s x (10 * us) = true) → ∃ t, exec (.temperatureRead temps) s = .next t ∧ t.elec.tempsAt = some s.time.now ∧
      (∀ i, i < 29 → tget t.elec.temps i = some ((temps[i]?).getD 0)) ∧
      (∀ k, k < engineDies s / 2 → tgetD t.mem.limit k 0 = memLimit (tgetD s.mem.limit k 0) ((temps[25 + k]?).getD 0)) ∧
      (∀ k ∈ domains s, throttleTj s ≤ (temps[tempIndex (domainCode k)]?).getD 0 → k ∈ t.elec.hot) ∧
      ((∃ d ∈ dieCodes, populated s d = true ∧ 1150 ≤ (temps[tempIndex d]?).getD 0) → t.elec.thermtrip = true ∧ hubUp t = false ∧
        t.out = .pin 2 false :: s.out ∧ t.mtr = s.mtr) ∧
      ((∀ d ∈ dieCodes, populated s d = true → (temps[tempIndex d]?).getD 0 < 1150) → t.elec.thermtrip = s.elec.thermtrip ∧ t.out = s.out)) ∧
  (∀ (s : State), serving s = true → (∀ x, s.elec.throttleAt = some x → due s x (100 * us) = true) → ∃ t, exec .throttleStep s = .next t ∧
    t.elec.throttleAt = some s.time.now ∧ onlyChanges [.elec, .obs, .counts] s t ∧ ∀ k ∈ domains s, eighthsOf s k ≤ 8 →
      let tj := tempOf s (domainCode k)
      (throttleTj s ≤ tj ∨ powerThrottled s k = true → eighthsOf t k = max 2 (eighthsOf s k - 1)) ∧
      (tj < throttleTj s → powerThrottled s k = false → k ∈ s.elec.hot → throttleTj s - 30 < tj → eighthsOf t k = eighthsOf s k) ∧
      (tj ≤ throttleTj s - 30 → powerThrottled s k = false → eighthsOf t k = min 8 (eighthsOf s k + 1))) ∧
  (∀ (s : State) (power : Nat) (rails : List (Nat × Nat)), serving s = true → (∀ x, s.elec.limitAt = some x → due s x (100 * us) = true) →
    ∃ t, exec (.powerLimitCheck power rails) s = .next t ∧ t.elec.limitAt = some s.time.now ∧ t.elec.eighths = s.elec.eighths ∧
      t.elec.powerHot = (if 10 * cfg s 0x2200 2 < power then true else if power < 10 * cfg s 0x2200 2 then false else s.elec.powerHot) ∧
      onlyChanges [.elec, .obs, .counts] s t) ∧
  (∀ (s : State) (rail status : Nat), rail < 18 → serving s = true →
    exec (.regulatorFault rail status) s = .next (record 3 0x2208 0xF hubCode [rail, status] (bump (dkey 0x2203 0) 5 1 s)))
end

