-- ==== Sys2Proof/Laws/Table.lean ====
section
/-! SUPPORT. Laws of the tables: what a read gives after each update, and that every update keeps the keys in strictly rising order. -/

namespace Sys2Proof.Machine

variable {α : Type}

/-! ## What a read gives -/

@[simp] theorem tget_nil (n : Nat) : tget ([] : Tab α) n = none := rfl

@[simp] theorem tgetD_nil (n : Nat) (d : α) : tgetD ([] : Tab α) n d = d := rfl

theorem tgetD_eq (t : Tab α) (n : Nat) (d : α) : tgetD t n d = (tget t n).getD d := by
  unfold tgetD; cases tget t n <;> rfl

@[simp] theorem tget_tset (t : Tab α) (n : Nat) (a : α) : tget (tset t n a) n = some a := by
  induction t with
  | nil => simp [tset, tget]
  | cons e t ih =>
    obtain ⟨k, v⟩ := e
    simp only [tset]
    split
    · simp [tget]
    · split
      · simp [tget]
      · next h => simpa [tget, h] using ih

theorem tget_tset_ne (t : Tab α) {n m : Nat} (a : α) (h : m ≠ n) : tget (tset t n a) m = tget t m := by
  induction t with
  | nil => simp [tset, tget, h]
  | cons e t ih =>
    obtain ⟨k, v⟩ := e
    simp only [tset]
    split
    · simp [tget, h]
    · split
      · next hk =>
        have : n = k := by simpa using hk
        subst this; simp [tget, h]
      · simp only [tget, ih]

theorem tget_tset_eq (t : Tab α) (n m : Nat) (a : α) : tget (tset t n a) m = if m = n then some a else tget t m := by
  by_cases h : m = n
  · subst h; simp
  · simp [h, tget_tset_ne]

theorem tgetD_tset_eq (t : Tab α) (n m : Nat) (a d : α) : tgetD (tset t n a) m d = if m = n then a else tgetD t m d := by
  by_cases h : m = n <;> simp [tgetD, tget_tset_eq, h]

@[simp] theorem tgetD_tset (t : Tab α) (n : Nat) (a d : α) : tgetD (tset t n a) n d = a := by simp [tgetD]

theorem tget_tkeep (t : Tab α) (p : Nat → α → Bool) (q : Nat → Bool) (hp : ∀ k v, p k v = q k) (n : Nat) :
    tget (tkeep t p) n = if q n then tget t n else none := by
  induction t with
  | nil => simp [tkeep, tget]
  | cons e t ih =>
    obtain ⟨k, v⟩ := e
    have ih' : tget (List.filter (fun e => q e.1) t) n = if q n = true then tget t n else none := by
      simpa [tkeep, hp] using ih
    simp only [tkeep, List.filter, hp]
    by_cases hk : q k
    · simp only [hk, tget]
      by_cases hn : n == k
      · have : n = k := by simpa using hn
        simp [this, hk]
      · simp only [hn]; simpa using ih'
    · simp only [hk, tget]
      by_cases hn : n == k
      · have : n = k := by simpa using hn
        subst this; rw [ih']; simp [hk]
      · simp only [hn]; simpa using ih'

theorem tget_tdel_eq (t : Tab α) (n m : Nat) : tget (tdel t n) m = if m = n then none else tget t m := by
  have h := tget_tkeep t (fun k _ => k != n) (fun k => k != n) (fun _ _ => rfl) m
  simp only [tkeep] at h
  simp only [tdel, h]
  by_cases hm : m = n <;> simp [hm]

@[simp] theorem tget_tdel (t : Tab α) (n : Nat) : tget (tdel t n) n = none := by simp [tget_tdel_eq]

theorem tget_tmod_eq (t : Tab α) (n m : Nat) (f : α → α) :
    tget (tmod t n f) m = if m = n then (tget t n).map f else tget t m := by
  unfold tmod
  cases h : tget t n with
  | none => by_cases hm : m = n <;> simp [hm, h]
  | some v => simp [tget_tset_eq]

@[simp] theorem tget_tmod (t : Tab α) (n : Nat) (f : α → α) : tget (tmod t n f) n = (tget t n).map f := by
  simp [tget_tmod_eq]

theorem tget_tmodD_eq (t : Tab α) (n m : Nat) (d : α) (f : α → α) :
    tget (tmodD t n d f) m = if m = n then some (f (tgetD t n d)) else tget t m := by
  simp [tmodD, tget_tset_eq]

@[simp] theorem tget_tmodD (t : Tab α) (n : Nat) (d : α) (f : α → α) :
    tget (tmodD t n d f) n = some (f (tgetD t n d)) := by simp [tmodD]

theorem tgetD_tmodD_eq (t : Tab α) (n m : Nat) (d e : α) (f : α → α) :
    tgetD (tmodD t n d f) m e = if m = n then f (tgetD t n d) else tgetD t m e := by
  simp [tmodD, tgetD_tset_eq]

@[simp] theorem tget_tmap (t : Tab α) (f : Nat → α → α) (n : Nat) : tget (tmap t f) n = (tget t n).map (f n) := by
  induction t with
  | nil => rfl
  | cons e t ih =>
    obtain ⟨k, v⟩ := e
    simp only [tmap, List.map, tget]
    split
    · next h => have : n = k := by simpa using h
                subst this; rfl
    · simpa [tmap] using ih

/-- A key the table lists stands in the list with its value. -/
theorem mem_of_tget {t : Tab α} {n : Nat} {a : α} (h : tget t n = some a) : (n, a) ∈ t := by
  induction t with
  | nil => simp at h
  | cons e t ih =>
    obtain ⟨k, v⟩ := e
    simp only [tget] at h
    split at h
    · next hk => have : n = k := by simpa using hk
                 simp_all
    · exact List.mem_cons_of_mem _ (ih h)

/-! ## The canonical form -/

theorem sortedFrom_mono {t : Tab α} {n m : Nat} (h : Tab.sortedFrom n t = true) (hm : m ≤ n) : Tab.sortedFrom m t = true := by
  cases t with
  | nil => rfl
  | cons e t =>
    simp only [Tab.sortedFrom, Bool.and_eq_true, Nat.ble_eq] at h ⊢
    exact ⟨by omega, h.2⟩

theorem sortedFrom_tset {t : Tab α} {b n : Nat} (a : α) (h : Tab.sortedFrom b t = true) (hb : b ≤ n) :
    Tab.sortedFrom b (tset t n a) = true := by
  induction t generalizing b with
  | nil => simp [tset, Tab.sortedFrom, hb]
  | cons e t ih =>
    obtain ⟨k, v⟩ := e
    simp only [Tab.sortedFrom, Bool.and_eq_true, Nat.ble_eq] at h
    simp only [tset]
    split
    · simp only [Tab.sortedFrom, Bool.and_eq_true, Nat.ble_eq]
      exact ⟨hb, by omega, h.2⟩
    · split
      · next hk => have : n = k := by simpa using hk
                   simp only [Tab.sortedFrom, Bool.and_eq_true, Nat.ble_eq]
                   exact ⟨hb, this ▸ h.2⟩
      · next hk1 hk2 =>
        have : n ≠ k := by simpa using hk2
        simp only [Tab.sortedFrom, Bool.and_eq_true, Nat.ble_eq]
        exact ⟨h.1, ih h.2 (by omega)⟩

theorem sortedFrom_filter {t : Tab α} {b : Nat} (p : Nat × α → Bool) (h : Tab.sortedFrom b t = true) :
    Tab.sortedFrom b (t.filter p) = true := by
  induction t generalizing b with
  | nil => rfl
  | cons e t ih =>
    obtain ⟨k, v⟩ := e
    simp only [Tab.sortedFrom, Bool.and_eq_true, Nat.ble_eq] at h
    simp only [List.filter]
    split
    · simp only [Tab.sortedFrom, Bool.and_eq_true, Nat.ble_eq]
      exact ⟨h.1, ih h.2⟩
    · exact sortedFrom_mono (ih h.2) (by omega)

theorem Tab.wf_tset {t : Tab α} (n : Nat) (a : α) (h : Tab.wf t = true) : Tab.wf (tset t n a) = true :=
  sortedFrom_tset a h (Nat.zero_le n)

theorem Tab.wf_tdel {t : Tab α} (n : Nat) (h : Tab.wf t = true) : Tab.wf (tdel t n) = true := sortedFrom_filter _ h

theorem Tab.wf_tkeep {t : Tab α} (p : Nat → α → Bool) (h : Tab.wf t = true) : Tab.wf (tkeep t p) = true := sortedFrom_filter _ h

theorem Tab.wf_tmod {t : Tab α} (n : Nat) (f : α → α) (h : Tab.wf t = true) : Tab.wf (tmod t n f) = true := by
  unfold tmod; split
  · exact Tab.wf_tset _ _ h
  · exact h

theorem Tab.wf_tmodD {t : Tab α} (n : Nat) (d : α) (f : α → α) (h : Tab.wf t = true) : Tab.wf (tmodD t n d f) = true :=
  Tab.wf_tset _ _ h

theorem Tab.wf_tmap {t : Tab α} (f : Nat → α → α) (h : Tab.wf t = true) : Tab.wf (tmap t f) = true := by
  have : ∀ (b : Nat) (t : Tab α), Tab.sortedFrom b (tmap t f) = Tab.sortedFrom b t := by
    intro b t
    induction t generalizing b with
    | nil => rfl
    | cons e t ih =>
      simp only [tmap, List.map, Tab.sortedFrom]
      rw [← ih]; rfl
  simpa [Tab.wf, this] using h

end Sys2Proof.Machine
end

