-- ==== Sys2Proof/Laws/Memory.lean ====
section
/-! SUPPORT. Laws of memory: what a byte reads as after each write, and that every write keeps the canonical form. -/

namespace Sys2Proof.Machine

theorem getByte_putByte (m : Tab Byte) (a x : Nat) (b : Byte) :
    getByte (putByte m a b) x = if x = a then b else getByte m x := by
  simp only [getByte, putByte]
  split
  · next h => have : b = 0 := by simpa using h
              simp only [tgetD, tget_tdel_eq]; split <;> simp_all
  · simp [tgetD_tset_eq]

/-- A byte outside the span written reads as before. -/
theorem getByte_putBytes_outside (m : Tab Byte) (a x : Nat) (d : List Byte) (h : x < a ∨ a + d.length ≤ x) :
    getByte (putBytes m a d) x = getByte m x := by
  induction d generalizing m a with
  | nil => rfl
  | cons b t ih =>
    simp only [putBytes, List.length_cons] at *
    rw [ih _ _ (by omega), getByte_putByte]
    simp; omega

/-- A byte inside the span written reads as the one written. -/
theorem getByte_putBytes_inside (m : Tab Byte) (a i : Nat) (d : List Byte) (h : i < d.length) :
    getByte (putBytes m a d) (a + i) = d[i] := by
  induction d generalizing m a i with
  | nil => simp at h
  | cons b t ih =>
    cases i with
    | zero =>
      simp only [putBytes, Nat.add_zero]
      rw [getByte_putBytes_outside _ _ _ _ (by omega), getByte_putByte]; simp
    | succ i =>
      simp only [putBytes]
      have := ih (putByte m a b) (a + 1) i (by simpa using h)
      rw [show a + (i + 1) = a + 1 + i by omega, this]; simp

@[simp] theorem getBytes_length (m : Tab Byte) (a n : Nat) : (getBytes m a n).length = n := by
  induction n generalizing a with
  | zero => rfl
  | succ n ih => simp [getBytes, ih]

/-- What was written is what a read of the same span gives. -/
theorem getBytes_putBytes (m : Tab Byte) (a : Nat) (d : List Byte) : getBytes (putBytes m a d) a d.length = d := by
  have key : ∀ (m : Tab Byte) (a n : Nat), getBytes m a n = (List.range n).map fun i => getByte m (a + i) := by
    intro m a n
    induction n generalizing a with
    | zero => rfl
    | succ n ih =>
      rw [getBytes, ih, List.range_succ_eq_map]
      simp only [List.map_cons, List.map_map, Nat.add_zero, List.cons.injEq, true_and]
      apply List.map_congr_left
      intro i _
      simp only [Function.comp, Nat.succ_eq_add_one]
      congr 1; omega
  rw [key]
  apply List.ext_getElem
  · simp
  · intro i h1 h2
    simp only [List.getElem_map, List.getElem_range]
    exact getByte_putBytes_inside m a i d h2

/-! ## The canonical form -/

@[simp] theorem Memory.wf_nil : Memory.wf [] = true := rfl

theorem all_tset {α : Type} {t : Tab α} {p : Nat × α → Bool} (n : Nat) (a : α) (h : t.all p = true) (ha : p (n, a) = true) :
    (tset t n a).all p = true := by
  induction t with
  | nil => simp [tset, ha]
  | cons e t ih =>
    obtain ⟨k, v⟩ := e
    simp only [List.all_cons, Bool.and_eq_true] at h
    simp only [tset]
    split
    · simp [ha, h.1]; simpa using h.2
    · split
      · simp [ha]; simpa using h.2
      · rw [List.all_cons, h.1, ih h.2]; rfl

theorem all_filter {α : Type} {t : List α} {p : α → Bool} (q : α → Bool) (h : t.all p = true) : (t.filter q).all p = true := by
  simp only [List.all_eq_true, List.mem_filter] at *
  intro x hx; exact h x hx.1

theorem Memory.wf_putByte {m : Tab Byte} (a : Nat) (b : Byte) (h : Memory.wf m = true) : Memory.wf (putByte m a b) = true := by
  simp only [Memory.wf, Bool.and_eq_true] at *
  unfold putByte
  split
  · exact ⟨Tab.wf_tdel _ h.1, all_filter _ h.2⟩
  · next hb => exact ⟨Tab.wf_tset _ _ h.1, all_tset _ _ h.2 (by simpa using hb)⟩

theorem Memory.wf_putBytes {m : Tab Byte} (a : Nat) (d : List Byte) (h : Memory.wf m = true) :
    Memory.wf (putBytes m a d) = true := by
  induction d generalizing m a with
  | nil => exact h
  | cons b t ih => exact ih _ (Memory.wf_putByte _ _ h)

theorem Memory.wf_tkeep {m : Tab Byte} (p : Nat → Byte → Bool) (h : Memory.wf m = true) : Memory.wf (tkeep m p) = true := by
  simp only [Memory.wf, Bool.and_eq_true] at *
  exact ⟨Tab.wf_tkeep _ h.1, all_filter _ h.2⟩

/-- Every operation on device memory and hub memory keeps the canonical form. -/
theorem devWrite_wf (a : Nat) (d : List Byte) (s : State) (h : Memory.wf s.mem.bytes = true) :
    Memory.wf (devWrite a d s).mem.bytes = true := Memory.wf_putBytes a d h

theorem devZero_wf (a n : Nat) (s : State) (h : Memory.wf s.mem.bytes = true) :
    Memory.wf (devZero a n s).mem.bytes = true := by
  exact Memory.wf_tkeep (fun k _ => k < a || Nat.ble (a + n) k) h

theorem hubWrite_wf (a : Nat) (d : List Byte) (s : State) (h : Memory.wf s.mem.hub = true) :
    Memory.wf (hubWrite a d s).mem.hub = true := Memory.wf_putBytes a d h

/-- Reset lists no byte, so its memories have the form. -/
theorem reset_memory_wf : Memory.wf State.reset.mem.bytes = true ∧ Memory.wf State.reset.mem.hub = true := ⟨rfl, rfl⟩

/-- A zeroed range reads zero, and every other byte reads as before. -/
theorem getByte_devZero (a n x : Nat) (s : State) :
    getByte (devZero a n s).mem.bytes x = if a ≤ x ∧ x < a + n then 0 else getByte s.mem.bytes x := by
  simp only [devZero, getByte, tgetD]
  rw [tget_tkeep _ _ (fun k => decide (k < a) || Nat.ble (a + n) k) (fun _ _ => rfl)]
  by_cases h : a ≤ x ∧ x < a + n
  · have : (decide (x < a) || Nat.ble (a + n) x) = false := by
      simp only [Bool.or_eq_false_iff, decide_eq_false_iff_not, Nat.not_lt]
      exact ⟨h.1, by rw [Bool.eq_false_iff]; simp; omega⟩
    simp [this, h]
  · have : (decide (x < a) || Nat.ble (a + n) x) = true := by
      simp only [Bool.or_eq_true, decide_eq_true_eq, Nat.ble_eq]; omega
    simp [this, h]

end Sys2Proof.Machine
end

