-- ==== Sys2Proof/Laws/Setters.lean ====
section
/-! SUPPORT. What the setters of the units' records leave as it was, field by field, what they write, and what the records read as after. -/

set_option Elab.async false

namespace Sys2Proof.Machine

/-! ## A work queue -/

@[simp] theorem setWq_grade (wq : Nat) (f : WorkQueue → WorkQueue) (s : State) :
    (setWq wq f s).grade = s.grade := rfl
@[simp] theorem setWq_time (wq : Nat) (f : WorkQueue → WorkQueue) (s : State) :
    (setWq wq f s).time = s.time := rfl
@[simp] theorem setWq_mesh (wq : Nat) (f : WorkQueue → WorkQueue) (s : State) :
    (setWq wq f s).mesh = s.mesh := rfl
@[simp] theorem setWq_q (wq : Nat) (f : WorkQueue → WorkQueue) (s : State) :
    (setWq wq f s).q = { s.q with wqs := tmodD s.q.wqs wq {} f } := rfl
@[simp] theorem setWq_conn (wq : Nat) (f : WorkQueue → WorkQueue) (s : State) :
    (setWq wq f s).conn = s.conn := rfl
@[simp] theorem setWq_xl (wq : Nat) (f : WorkQueue → WorkQueue) (s : State) :
    (setWq wq f s).xl = s.xl := rfl
@[simp] theorem setWq_coll (wq : Nat) (f : WorkQueue → WorkQueue) (s : State) :
    (setWq wq f s).coll = s.coll := rfl
@[simp] theorem setWq_ar (wq : Nat) (f : WorkQueue → WorkQueue) (s : State) :
    (setWq wq f s).ar = s.ar := rfl
@[simp] theorem setWq_fab (wq : Nat) (f : WorkQueue → WorkQueue) (s : State) :
    (setWq wq f s).fab = s.fab := rfl
@[simp] theorem setWq_link (wq : Nat) (f : WorkQueue → WorkQueue) (s : State) :
    (setWq wq f s).link = s.link := rfl
@[simp] theorem setWq_mem (wq : Nat) (f : WorkQueue → WorkQueue) (s : State) :
    (setWq wq f s).mem = s.mem := rfl
@[simp] theorem setWq_part (wq : Nat) (f : WorkQueue → WorkQueue) (s : State) :
    (setWq wq f s).part = s.part := rfl
@[simp] theorem setWq_far (wq : Nat) (f : WorkQueue → WorkQueue) (s : State) :
    (setWq wq f s).far = s.far := rfl
@[simp] theorem setWq_mgr (wq : Nat) (f : WorkQueue → WorkQueue) (s : State) :
    (setWq wq f s).mgr = s.mgr := rfl
@[simp] theorem setWq_sec (wq : Nat) (f : WorkQueue → WorkQueue) (s : State) :
    (setWq wq f s).sec = s.sec := rfl
@[simp] theorem setWq_mtr (wq : Nat) (f : WorkQueue → WorkQueue) (s : State) :
    (setWq wq f s).mtr = s.mtr := rfl
@[simp] theorem setWq_obs (wq : Nat) (f : WorkQueue → WorkQueue) (s : State) :
    (setWq wq f s).obs = s.obs := rfl
@[simp] theorem setWq_pow (wq : Nat) (f : WorkQueue → WorkQueue) (s : State) :
    (setWq wq f s).pow = s.pow := rfl
@[simp] theorem setWq_elec (wq : Nat) (f : WorkQueue → WorkQueue) (s : State) :
    (setWq wq f s).elec = s.elec := rfl
@[simp] theorem setWq_dict (wq : Nat) (f : WorkQueue → WorkQueue) (s : State) :
    (setWq wq f s).dict = s.dict := rfl
@[simp] theorem setWq_inForce (wq : Nat) (f : WorkQueue → WorkQueue) (s : State) :
    (setWq wq f s).inForce = s.inForce := rfl
@[simp] theorem setWq_counts (wq : Nat) (f : WorkQueue → WorkQueue) (s : State) :
    (setWq wq f s).counts = s.counts := rfl
@[simp] theorem setWq_out (wq : Nat) (f : WorkQueue → WorkQueue) (s : State) :
    (setWq wq f s).out = s.out := rfl
@[simp] theorem setWq_free (wq : Nat) (f : WorkQueue → WorkQueue) (s : State) :
    (setWq wq f s).free = s.free := rfl
@[simp] theorem setWq_pending (wq : Nat) (f : WorkQueue → WorkQueue) (s : State) :
    (setWq wq f s).pending = s.pending := rfl

/-! ## A completion queue -/

@[simp] theorem setCq_grade (cq : Nat) (f : ComplQueue → ComplQueue) (s : State) :
    (setCq cq f s).grade = s.grade := rfl
@[simp] theorem setCq_time (cq : Nat) (f : ComplQueue → ComplQueue) (s : State) :
    (setCq cq f s).time = s.time := rfl
@[simp] theorem setCq_mesh (cq : Nat) (f : ComplQueue → ComplQueue) (s : State) :
    (setCq cq f s).mesh = s.mesh := rfl
@[simp] theorem setCq_q (cq : Nat) (f : ComplQueue → ComplQueue) (s : State) :
    (setCq cq f s).q = { s.q with cqs := tmodD s.q.cqs cq {} f } := rfl
@[simp] theorem setCq_conn (cq : Nat) (f : ComplQueue → ComplQueue) (s : State) :
    (setCq cq f s).conn = s.conn := rfl
@[simp] theorem setCq_xl (cq : Nat) (f : ComplQueue → ComplQueue) (s : State) :
    (setCq cq f s).xl = s.xl := rfl
@[simp] theorem setCq_coll (cq : Nat) (f : ComplQueue → ComplQueue) (s : State) :
    (setCq cq f s).coll = s.coll := rfl
@[simp] theorem setCq_ar (cq : Nat) (f : ComplQueue → ComplQueue) (s : State) :
    (setCq cq f s).ar = s.ar := rfl
@[simp] theorem setCq_fab (cq : Nat) (f : ComplQueue → ComplQueue) (s : State) :
    (setCq cq f s).fab = s.fab := rfl
@[simp] theorem setCq_link (cq : Nat) (f : ComplQueue → ComplQueue) (s : State) :
    (setCq cq f s).link = s.link := rfl
@[simp] theorem setCq_mem (cq : Nat) (f : ComplQueue → ComplQueue) (s : State) :
    (setCq cq f s).mem = s.mem := rfl
@[simp] theorem setCq_part (cq : Nat) (f : ComplQueue → ComplQueue) (s : State) :
    (setCq cq f s).part = s.part := rfl
@[simp] theorem setCq_far (cq : Nat) (f : ComplQueue → ComplQueue) (s : State) :
    (setCq cq f s).far = s.far := rfl
@[simp] theorem setCq_mgr (cq : Nat) (f : ComplQueue → ComplQueue) (s : State) :
    (setCq cq f s).mgr = s.mgr := rfl
@[simp] theorem setCq_sec (cq : Nat) (f : ComplQueue → ComplQueue) (s : State) :
    (setCq cq f s).sec = s.sec := rfl
@[simp] theorem setCq_mtr (cq : Nat) (f : ComplQueue → ComplQueue) (s : State) :
    (setCq cq f s).mtr = s.mtr := rfl
@[simp] theorem setCq_obs (cq : Nat) (f : ComplQueue → ComplQueue) (s : State) :
    (setCq cq f s).obs = s.obs := rfl
@[simp] theorem setCq_pow (cq : Nat) (f : ComplQueue → ComplQueue) (s : State) :
    (setCq cq f s).pow = s.pow := rfl
@[simp] theorem setCq_elec (cq : Nat) (f : ComplQueue → ComplQueue) (s : State) :
    (setCq cq f s).elec = s.elec := rfl
@[simp] theorem setCq_dict (cq : Nat) (f : ComplQueue → ComplQueue) (s : State) :
    (setCq cq f s).dict = s.dict := rfl
@[simp] theorem setCq_inForce (cq : Nat) (f : ComplQueue → ComplQueue) (s : State) :
    (setCq cq f s).inForce = s.inForce := rfl
@[simp] theorem setCq_counts (cq : Nat) (f : ComplQueue → ComplQueue) (s : State) :
    (setCq cq f s).counts = s.counts := rfl
@[simp] theorem setCq_out (cq : Nat) (f : ComplQueue → ComplQueue) (s : State) :
    (setCq cq f s).out = s.out := rfl
@[simp] theorem setCq_free (cq : Nat) (f : ComplQueue → ComplQueue) (s : State) :
    (setCq cq f s).free = s.free := rfl
@[simp] theorem setCq_pending (cq : Nat) (f : ComplQueue → ComplQueue) (s : State) :
    (setCq cq f s).pending = s.pending := rfl

/-! ## A queue control window -/

@[simp] theorem setWindow_grade (p : Nat) (f : Window → Window) (s : State) :
    (setWindow p f s).grade = s.grade := rfl
@[simp] theorem setWindow_time (p : Nat) (f : Window → Window) (s : State) :
    (setWindow p f s).time = s.time := rfl
@[simp] theorem setWindow_mesh (p : Nat) (f : Window → Window) (s : State) :
    (setWindow p f s).mesh = s.mesh := rfl
@[simp] theorem setWindow_q (p : Nat) (f : Window → Window) (s : State) :
    (setWindow p f s).q = { s.q with windows := tmodD s.q.windows p {} f } := rfl
@[simp] theorem setWindow_conn (p : Nat) (f : Window → Window) (s : State) :
    (setWindow p f s).conn = s.conn := rfl
@[simp] theorem setWindow_xl (p : Nat) (f : Window → Window) (s : State) :
    (setWindow p f s).xl = s.xl := rfl
@[simp] theorem setWindow_coll (p : Nat) (f : Window → Window) (s : State) :
    (setWindow p f s).coll = s.coll := rfl
@[simp] theorem setWindow_ar (p : Nat) (f : Window → Window) (s : State) :
    (setWindow p f s).ar = s.ar := rfl
@[simp] theorem setWindow_fab (p : Nat) (f : Window → Window) (s : State) :
    (setWindow p f s).fab = s.fab := rfl
@[simp] theorem setWindow_link (p : Nat) (f : Window → Window) (s : State) :
    (setWindow p f s).link = s.link := rfl
@[simp] theorem setWindow_mem (p : Nat) (f : Window → Window) (s : State) :
    (setWindow p f s).mem = s.mem := rfl
@[simp] theorem setWindow_part (p : Nat) (f : Window → Window) (s : State) :
    (setWindow p f s).part = s.part := rfl
@[simp] theorem setWindow_far (p : Nat) (f : Window → Window) (s : State) :
    (setWindow p f s).far = s.far := rfl
@[simp] theorem setWindow_mgr (p : Nat) (f : Window → Window) (s : State) :
    (setWindow p f s).mgr = s.mgr := rfl
@[simp] theorem setWindow_sec (p : Nat) (f : Window → Window) (s : State) :
    (setWindow p f s).sec = s.sec := rfl
@[simp] theorem setWindow_mtr (p : Nat) (f : Window → Window) (s : State) :
    (setWindow p f s).mtr = s.mtr := rfl
@[simp] theorem setWindow_obs (p : Nat) (f : Window → Window) (s : State) :
    (setWindow p f s).obs = s.obs := rfl
@[simp] theorem setWindow_pow (p : Nat) (f : Window → Window) (s : State) :
    (setWindow p f s).pow = s.pow := rfl
@[simp] theorem setWindow_elec (p : Nat) (f : Window → Window) (s : State) :
    (setWindow p f s).elec = s.elec := rfl
@[simp] theorem setWindow_dict (p : Nat) (f : Window → Window) (s : State) :
    (setWindow p f s).dict = s.dict := rfl
@[simp] theorem setWindow_inForce (p : Nat) (f : Window → Window) (s : State) :
    (setWindow p f s).inForce = s.inForce := rfl
@[simp] theorem setWindow_counts (p : Nat) (f : Window → Window) (s : State) :
    (setWindow p f s).counts = s.counts := rfl
@[simp] theorem setWindow_out (p : Nat) (f : Window → Window) (s : State) :
    (setWindow p f s).out = s.out := rfl
@[simp] theorem setWindow_free (p : Nat) (f : Window → Window) (s : State) :
    (setWindow p f s).free = s.free := rfl
@[simp] theorem setWindow_pending (p : Nat) (f : Window → Window) (s : State) :
    (setWindow p f s).pending = s.pending := rfl

/-! ## An operation in flight -/

@[simp] theorem onOp_grade (wq idx : Nat) (f : Op → Op) (s : State) :
    (onOp wq idx f s).grade = s.grade := rfl
@[simp] theorem onOp_time (wq idx : Nat) (f : Op → Op) (s : State) :
    (onOp wq idx f s).time = s.time := rfl
@[simp] theorem onOp_mesh (wq idx : Nat) (f : Op → Op) (s : State) :
    (onOp wq idx f s).mesh = s.mesh := rfl
@[simp] theorem onOp_conn (wq idx : Nat) (f : Op → Op) (s : State) :
    (onOp wq idx f s).conn = s.conn := rfl
@[simp] theorem onOp_xl (wq idx : Nat) (f : Op → Op) (s : State) :
    (onOp wq idx f s).xl = s.xl := rfl
@[simp] theorem onOp_coll (wq idx : Nat) (f : Op → Op) (s : State) :
    (onOp wq idx f s).coll = s.coll := rfl
@[simp] theorem onOp_ar (wq idx : Nat) (f : Op → Op) (s : State) :
    (onOp wq idx f s).ar = s.ar := rfl
@[simp] theorem onOp_fab (wq idx : Nat) (f : Op → Op) (s : State) :
    (onOp wq idx f s).fab = s.fab := rfl
@[simp] theorem onOp_link (wq idx : Nat) (f : Op → Op) (s : State) :
    (onOp wq idx f s).link = s.link := rfl
@[simp] theorem onOp_mem (wq idx : Nat) (f : Op → Op) (s : State) :
    (onOp wq idx f s).mem = s.mem := rfl
@[simp] theorem onOp_part (wq idx : Nat) (f : Op → Op) (s : State) :
    (onOp wq idx f s).part = s.part := rfl
@[simp] theorem onOp_far (wq idx : Nat) (f : Op → Op) (s : State) :
    (onOp wq idx f s).far = s.far := rfl
@[simp] theorem onOp_mgr (wq idx : Nat) (f : Op → Op) (s : State) :
    (onOp wq idx f s).mgr = s.mgr := rfl
@[simp] theorem onOp_sec (wq idx : Nat) (f : Op → Op) (s : State) :
    (onOp wq idx f s).sec = s.sec := rfl
@[simp] theorem onOp_mtr (wq idx : Nat) (f : Op → Op) (s : State) :
    (onOp wq idx f s).mtr = s.mtr := rfl
@[simp] theorem onOp_obs (wq idx : Nat) (f : Op → Op) (s : State) :
    (onOp wq idx f s).obs = s.obs := rfl
@[simp] theorem onOp_pow (wq idx : Nat) (f : Op → Op) (s : State) :
    (onOp wq idx f s).pow = s.pow := rfl
@[simp] theorem onOp_elec (wq idx : Nat) (f : Op → Op) (s : State) :
    (onOp wq idx f s).elec = s.elec := rfl
@[simp] theorem onOp_dict (wq idx : Nat) (f : Op → Op) (s : State) :
    (onOp wq idx f s).dict = s.dict := rfl
@[simp] theorem onOp_inForce (wq idx : Nat) (f : Op → Op) (s : State) :
    (onOp wq idx f s).inForce = s.inForce := rfl
@[simp] theorem onOp_counts (wq idx : Nat) (f : Op → Op) (s : State) :
    (onOp wq idx f s).counts = s.counts := rfl
@[simp] theorem onOp_out (wq idx : Nat) (f : Op → Op) (s : State) :
    (onOp wq idx f s).out = s.out := rfl
@[simp] theorem onOp_free (wq idx : Nat) (f : Op → Op) (s : State) :
    (onOp wq idx f s).free = s.free := rfl
@[simp] theorem onOp_pending (wq idx : Nat) (f : Op → Op) (s : State) :
    (onOp wq idx f s).pending = s.pending := rfl

/-! ## A connection control window -/

@[simp] theorem setConnWindow_grade (p : Nat) (f : Window → Window) (s : State) :
    (setConnWindow p f s).grade = s.grade := rfl
@[simp] theorem setConnWindow_time (p : Nat) (f : Window → Window) (s : State) :
    (setConnWindow p f s).time = s.time := rfl
@[simp] theorem setConnWindow_mesh (p : Nat) (f : Window → Window) (s : State) :
    (setConnWindow p f s).mesh = s.mesh := rfl
@[simp] theorem setConnWindow_q (p : Nat) (f : Window → Window) (s : State) :
    (setConnWindow p f s).q = s.q := rfl
@[simp] theorem setConnWindow_conn (p : Nat) (f : Window → Window) (s : State) :
    (setConnWindow p f s).conn = { s.conn with windows := tmodD s.conn.windows p {} f } := rfl
@[simp] theorem setConnWindow_xl (p : Nat) (f : Window → Window) (s : State) :
    (setConnWindow p f s).xl = s.xl := rfl
@[simp] theorem setConnWindow_coll (p : Nat) (f : Window → Window) (s : State) :
    (setConnWindow p f s).coll = s.coll := rfl
@[simp] theorem setConnWindow_ar (p : Nat) (f : Window → Window) (s : State) :
    (setConnWindow p f s).ar = s.ar := rfl
@[simp] theorem setConnWindow_fab (p : Nat) (f : Window → Window) (s : State) :
    (setConnWindow p f s).fab = s.fab := rfl
@[simp] theorem setConnWindow_link (p : Nat) (f : Window → Window) (s : State) :
    (setConnWindow p f s).link = s.link := rfl
@[simp] theorem setConnWindow_mem (p : Nat) (f : Window → Window) (s : State) :
    (setConnWindow p f s).mem = s.mem := rfl
@[simp] theorem setConnWindow_part (p : Nat) (f : Window → Window) (s : State) :
    (setConnWindow p f s).part = s.part := rfl
@[simp] theorem setConnWindow_far (p : Nat) (f : Window → Window) (s : State) :
    (setConnWindow p f s).far = s.far := rfl
@[simp] theorem setConnWindow_mgr (p : Nat) (f : Window → Window) (s : State) :
    (setConnWindow p f s).mgr = s.mgr := rfl
@[simp] theorem setConnWindow_sec (p : Nat) (f : Window → Window) (s : State) :
    (setConnWindow p f s).sec = s.sec := rfl
@[simp] theorem setConnWindow_mtr (p : Nat) (f : Window → Window) (s : State) :
    (setConnWindow p f s).mtr = s.mtr := rfl
@[simp] theorem setConnWindow_obs (p : Nat) (f : Window → Window) (s : State) :
    (setConnWindow p f s).obs = s.obs := rfl
@[simp] theorem setConnWindow_pow (p : Nat) (f : Window → Window) (s : State) :
    (setConnWindow p f s).pow = s.pow := rfl
@[simp] theorem setConnWindow_elec (p : Nat) (f : Window → Window) (s : State) :
    (setConnWindow p f s).elec = s.elec := rfl
@[simp] theorem setConnWindow_dict (p : Nat) (f : Window → Window) (s : State) :
    (setConnWindow p f s).dict = s.dict := rfl
@[simp] theorem setConnWindow_inForce (p : Nat) (f : Window → Window) (s : State) :
    (setConnWindow p f s).inForce = s.inForce := rfl
@[simp] theorem setConnWindow_counts (p : Nat) (f : Window → Window) (s : State) :
    (setConnWindow p f s).counts = s.counts := rfl
@[simp] theorem setConnWindow_out (p : Nat) (f : Window → Window) (s : State) :
    (setConnWindow p f s).out = s.out := rfl
@[simp] theorem setConnWindow_free (p : Nat) (f : Window → Window) (s : State) :
    (setConnWindow p f s).free = s.free := rfl
@[simp] theorem setConnWindow_pending (p : Nat) (f : Window → Window) (s : State) :
    (setConnWindow p f s).pending = s.pending := rfl

/-! ## A connection end -/

@[simp] theorem setEnd_grade (h : Nat) (f : End → End) (s : State) :
    (setEnd h f s).grade = s.grade := rfl
@[simp] theorem setEnd_time (h : Nat) (f : End → End) (s : State) :
    (setEnd h f s).time = s.time := rfl
@[simp] theorem setEnd_mesh (h : Nat) (f : End → End) (s : State) :
    (setEnd h f s).mesh = s.mesh := rfl
@[simp] theorem setEnd_q (h : Nat) (f : End → End) (s : State) :
    (setEnd h f s).q = s.q := rfl
@[simp] theorem setEnd_conn (h : Nat) (f : End → End) (s : State) :
    (setEnd h f s).conn = { s.conn with ends := tmod s.conn.ends h f } := rfl
@[simp] theorem setEnd_xl (h : Nat) (f : End → End) (s : State) :
    (setEnd h f s).xl = s.xl := rfl
@[simp] theorem setEnd_coll (h : Nat) (f : End → End) (s : State) :
    (setEnd h f s).coll = s.coll := rfl
@[simp] theorem setEnd_ar (h : Nat) (f : End → End) (s : State) :
    (setEnd h f s).ar = s.ar := rfl
@[simp] theorem setEnd_fab (h : Nat) (f : End → End) (s : State) :
    (setEnd h f s).fab = s.fab := rfl
@[simp] theorem setEnd_link (h : Nat) (f : End → End) (s : State) :
    (setEnd h f s).link = s.link := rfl
@[simp] theorem setEnd_mem (h : Nat) (f : End → End) (s : State) :
    (setEnd h f s).mem = s.mem := rfl
@[simp] theorem setEnd_part (h : Nat) (f : End → End) (s : State) :
    (setEnd h f s).part = s.part := rfl
@[simp] theorem setEnd_far (h : Nat) (f : End → End) (s : State) :
    (setEnd h f s).far = s.far := rfl
@[simp] theorem setEnd_mgr (h : Nat) (f : End → End) (s : State) :
    (setEnd h f s).mgr = s.mgr := rfl
@[simp] theorem setEnd_sec (h : Nat) (f : End → End) (s : State) :
    (setEnd h f s).sec = s.sec := rfl
@[simp] theorem setEnd_mtr (h : Nat) (f : End → End) (s : State) :
    (setEnd h f s).mtr = s.mtr := rfl
@[simp] theorem setEnd_obs (h : Nat) (f : End → End) (s : State) :
    (setEnd h f s).obs = s.obs := rfl
@[simp] theorem setEnd_pow (h : Nat) (f : End → End) (s : State) :
    (setEnd h f s).pow = s.pow := rfl
@[simp] theorem setEnd_elec (h : Nat) (f : End → End) (s : State) :
    (setEnd h f s).elec = s.elec := rfl
@[simp] theorem setEnd_dict (h : Nat) (f : End → End) (s : State) :
    (setEnd h f s).dict = s.dict := rfl
@[simp] theorem setEnd_inForce (h : Nat) (f : End → End) (s : State) :
    (setEnd h f s).inForce = s.inForce := rfl
@[simp] theorem setEnd_counts (h : Nat) (f : End → End) (s : State) :
    (setEnd h f s).counts = s.counts := rfl
@[simp] theorem setEnd_out (h : Nat) (f : End → End) (s : State) :
    (setEnd h f s).out = s.out := rfl
@[simp] theorem setEnd_free (h : Nat) (f : End → End) (s : State) :
    (setEnd h f s).free = s.free := rfl
@[simp] theorem setEnd_pending (h : Nat) (f : End → End) (s : State) :
    (setEnd h f s).pending = s.pending := rfl

/-! ## An epoch -/

@[simp] theorem setEpoch_grade (h v : Nat) (s : State) :
    (setEpoch h v s).grade = s.grade := rfl
@[simp] theorem setEpoch_time (h v : Nat) (s : State) :
    (setEpoch h v s).time = s.time := rfl
@[simp] theorem setEpoch_mesh (h v : Nat) (s : State) :
    (setEpoch h v s).mesh = s.mesh := rfl
@[simp] theorem setEpoch_q (h v : Nat) (s : State) :
    (setEpoch h v s).q = s.q := rfl
@[simp] theorem setEpoch_conn (h v : Nat) (s : State) :
    (setEpoch h v s).conn = { s.conn with epochs := tset s.conn.epochs h (v % m16) } := rfl
@[simp] theorem setEpoch_xl (h v : Nat) (s : State) :
    (setEpoch h v s).xl = s.xl := rfl
@[simp] theorem setEpoch_coll (h v : Nat) (s : State) :
    (setEpoch h v s).coll = s.coll := rfl
@[simp] theorem setEpoch_ar (h v : Nat) (s : State) :
    (setEpoch h v s).ar = s.ar := rfl
@[simp] theorem setEpoch_fab (h v : Nat) (s : State) :
    (setEpoch h v s).fab = s.fab := rfl
@[simp] theorem setEpoch_link (h v : Nat) (s : State) :
    (setEpoch h v s).link = s.link := rfl
@[simp] theorem setEpoch_mem (h v : Nat) (s : State) :
    (setEpoch h v s).mem = s.mem := rfl
@[simp] theorem setEpoch_part (h v : Nat) (s : State) :
    (setEpoch h v s).part = s.part := rfl
@[simp] theorem setEpoch_far (h v : Nat) (s : State) :
    (setEpoch h v s).far = s.far := rfl
@[simp] theorem setEpoch_mgr (h v : Nat) (s : State) :
    (setEpoch h v s).mgr = s.mgr := rfl
@[simp] theorem setEpoch_sec (h v : Nat) (s : State) :
    (setEpoch h v s).sec = s.sec := rfl
@[simp] theorem setEpoch_mtr (h v : Nat) (s : State) :
    (setEpoch h v s).mtr = s.mtr := rfl
@[simp] theorem setEpoch_obs (h v : Nat) (s : State) :
    (setEpoch h v s).obs = s.obs := rfl
@[simp] theorem setEpoch_pow (h v : Nat) (s : State) :
    (setEpoch h v s).pow = s.pow := rfl
@[simp] theorem setEpoch_elec (h v : Nat) (s : State) :
    (setEpoch h v s).elec = s.elec := rfl
@[simp] theorem setEpoch_dict (h v : Nat) (s : State) :
    (setEpoch h v s).dict = s.dict := rfl
@[simp] theorem setEpoch_inForce (h v : Nat) (s : State) :
    (setEpoch h v s).inForce = s.inForce := rfl
@[simp] theorem setEpoch_counts (h v : Nat) (s : State) :
    (setEpoch h v s).counts = s.counts := rfl
@[simp] theorem setEpoch_out (h v : Nat) (s : State) :
    (setEpoch h v s).out = s.out := rfl
@[simp] theorem setEpoch_free (h v : Nat) (s : State) :
    (setEpoch h v s).free = s.free := rfl
@[simp] theorem setEpoch_pending (h v : Nat) (s : State) :
    (setEpoch h v s).pending = s.pending := rfl

/-! ## An arrival record -/

@[simp] theorem setArrival_grade (k : Nat) (f : Arrival → Arrival) (s : State) :
    (setArrival k f s).grade = s.grade := rfl
@[simp] theorem setArrival_time (k : Nat) (f : Arrival → Arrival) (s : State) :
    (setArrival k f s).time = s.time := rfl
@[simp] theorem setArrival_mesh (k : Nat) (f : Arrival → Arrival) (s : State) :
    (setArrival k f s).mesh = s.mesh := rfl
@[simp] theorem setArrival_q (k : Nat) (f : Arrival → Arrival) (s : State) :
    (setArrival k f s).q = s.q := rfl
@[simp] theorem setArrival_conn (k : Nat) (f : Arrival → Arrival) (s : State) :
    (setArrival k f s).conn = { s.conn with arrivals := tmod s.conn.arrivals k f } := rfl
@[simp] theorem setArrival_xl (k : Nat) (f : Arrival → Arrival) (s : State) :
    (setArrival k f s).xl = s.xl := rfl
@[simp] theorem setArrival_coll (k : Nat) (f : Arrival → Arrival) (s : State) :
    (setArrival k f s).coll = s.coll := rfl
@[simp] theorem setArrival_ar (k : Nat) (f : Arrival → Arrival) (s : State) :
    (setArrival k f s).ar = s.ar := rfl
@[simp] theorem setArrival_fab (k : Nat) (f : Arrival → Arrival) (s : State) :
    (setArrival k f s).fab = s.fab := rfl
@[simp] theorem setArrival_link (k : Nat) (f : Arrival → Arrival) (s : State) :
    (setArrival k f s).link = s.link := rfl
@[simp] theorem setArrival_mem (k : Nat) (f : Arrival → Arrival) (s : State) :
    (setArrival k f s).mem = s.mem := rfl
@[simp] theorem setArrival_part (k : Nat) (f : Arrival → Arrival) (s : State) :
    (setArrival k f s).part = s.part := rfl
@[simp] theorem setArrival_far (k : Nat) (f : Arrival → Arrival) (s : State) :
    (setArrival k f s).far = s.far := rfl
@[simp] theorem setArrival_mgr (k : Nat) (f : Arrival → Arrival) (s : State) :
    (setArrival k f s).mgr = s.mgr := rfl
@[simp] theorem setArrival_sec (k : Nat) (f : Arrival → Arrival) (s : State) :
    (setArrival k f s).sec = s.sec := rfl
@[simp] theorem setArrival_mtr (k : Nat) (f : Arrival → Arrival) (s : State) :
    (setArrival k f s).mtr = s.mtr := rfl
@[simp] theorem setArrival_obs (k : Nat) (f : Arrival → Arrival) (s : State) :
    (setArrival k f s).obs = s.obs := rfl
@[simp] theorem setArrival_pow (k : Nat) (f : Arrival → Arrival) (s : State) :
    (setArrival k f s).pow = s.pow := rfl
@[simp] theorem setArrival_elec (k : Nat) (f : Arrival → Arrival) (s : State) :
    (setArrival k f s).elec = s.elec := rfl
@[simp] theorem setArrival_dict (k : Nat) (f : Arrival → Arrival) (s : State) :
    (setArrival k f s).dict = s.dict := rfl
@[simp] theorem setArrival_inForce (k : Nat) (f : Arrival → Arrival) (s : State) :
    (setArrival k f s).inForce = s.inForce := rfl
@[simp] theorem setArrival_counts (k : Nat) (f : Arrival → Arrival) (s : State) :
    (setArrival k f s).counts = s.counts := rfl
@[simp] theorem setArrival_out (k : Nat) (f : Arrival → Arrival) (s : State) :
    (setArrival k f s).out = s.out := rfl
@[simp] theorem setArrival_free (k : Nat) (f : Arrival → Arrival) (s : State) :
    (setArrival k f s).free = s.free := rfl
@[simp] theorem setArrival_pending (k : Nat) (f : Arrival → Arrival) (s : State) :
    (setArrival k f s).pending = s.pending := rfl

/-! ## A collective group -/

@[simp] theorem setGroup_grade (g : Nat) (f : Group → Group) (s : State) :
    (setGroup g f s).grade = s.grade := rfl
@[simp] theorem setGroup_time (g : Nat) (f : Group → Group) (s : State) :
    (setGroup g f s).time = s.time := rfl
@[simp] theorem setGroup_mesh (g : Nat) (f : Group → Group) (s : State) :
    (setGroup g f s).mesh = s.mesh := rfl
@[simp] theorem setGroup_q (g : Nat) (f : Group → Group) (s : State) :
    (setGroup g f s).q = s.q := rfl
@[simp] theorem setGroup_conn (g : Nat) (f : Group → Group) (s : State) :
    (setGroup g f s).conn = s.conn := rfl
@[simp] theorem setGroup_xl (g : Nat) (f : Group → Group) (s : State) :
    (setGroup g f s).xl = s.xl := rfl
@[simp] theorem setGroup_coll (g : Nat) (f : Group → Group) (s : State) :
    (setGroup g f s).coll = { s.coll with groups := tmod s.coll.groups g f } := rfl
@[simp] theorem setGroup_ar (g : Nat) (f : Group → Group) (s : State) :
    (setGroup g f s).ar = s.ar := rfl
@[simp] theorem setGroup_fab (g : Nat) (f : Group → Group) (s : State) :
    (setGroup g f s).fab = s.fab := rfl
@[simp] theorem setGroup_link (g : Nat) (f : Group → Group) (s : State) :
    (setGroup g f s).link = s.link := rfl
@[simp] theorem setGroup_mem (g : Nat) (f : Group → Group) (s : State) :
    (setGroup g f s).mem = s.mem := rfl
@[simp] theorem setGroup_part (g : Nat) (f : Group → Group) (s : State) :
    (setGroup g f s).part = s.part := rfl
@[simp] theorem setGroup_far (g : Nat) (f : Group → Group) (s : State) :
    (setGroup g f s).far = s.far := rfl
@[simp] theorem setGroup_mgr (g : Nat) (f : Group → Group) (s : State) :
    (setGroup g f s).mgr = s.mgr := rfl
@[simp] theorem setGroup_sec (g : Nat) (f : Group → Group) (s : State) :
    (setGroup g f s).sec = s.sec := rfl
@[simp] theorem setGroup_mtr (g : Nat) (f : Group → Group) (s : State) :
    (setGroup g f s).mtr = s.mtr := rfl
@[simp] theorem setGroup_obs (g : Nat) (f : Group → Group) (s : State) :
    (setGroup g f s).obs = s.obs := rfl
@[simp] theorem setGroup_pow (g : Nat) (f : Group → Group) (s : State) :
    (setGroup g f s).pow = s.pow := rfl
@[simp] theorem setGroup_elec (g : Nat) (f : Group → Group) (s : State) :
    (setGroup g f s).elec = s.elec := rfl
@[simp] theorem setGroup_dict (g : Nat) (f : Group → Group) (s : State) :
    (setGroup g f s).dict = s.dict := rfl
@[simp] theorem setGroup_inForce (g : Nat) (f : Group → Group) (s : State) :
    (setGroup g f s).inForce = s.inForce := rfl
@[simp] theorem setGroup_counts (g : Nat) (f : Group → Group) (s : State) :
    (setGroup g f s).counts = s.counts := rfl
@[simp] theorem setGroup_out (g : Nat) (f : Group → Group) (s : State) :
    (setGroup g f s).out = s.out := rfl
@[simp] theorem setGroup_free (g : Nat) (f : Group → Group) (s : State) :
    (setGroup g f s).free = s.free := rfl
@[simp] theorem setGroup_pending (g : Nat) (f : Group → Group) (s : State) :
    (setGroup g f s).pending = s.pending := rfl

/-! ## A schedule slot -/

@[simp] theorem setSlot_grade (n : Nat) (f : Slot → Slot) (s : State) :
    (setSlot n f s).grade = s.grade := rfl
@[simp] theorem setSlot_time (n : Nat) (f : Slot → Slot) (s : State) :
    (setSlot n f s).time = s.time := rfl
@[simp] theorem setSlot_mesh (n : Nat) (f : Slot → Slot) (s : State) :
    (setSlot n f s).mesh = s.mesh := rfl
@[simp] theorem setSlot_q (n : Nat) (f : Slot → Slot) (s : State) :
    (setSlot n f s).q = s.q := rfl
@[simp] theorem setSlot_conn (n : Nat) (f : Slot → Slot) (s : State) :
    (setSlot n f s).conn = s.conn := rfl
@[simp] theorem setSlot_xl (n : Nat) (f : Slot → Slot) (s : State) :
    (setSlot n f s).xl = s.xl := rfl
@[simp] theorem setSlot_coll (n : Nat) (f : Slot → Slot) (s : State) :
    (setSlot n f s).coll = { s.coll with slots := tmod s.coll.slots n f } := rfl
@[simp] theorem setSlot_ar (n : Nat) (f : Slot → Slot) (s : State) :
    (setSlot n f s).ar = s.ar := rfl
@[simp] theorem setSlot_fab (n : Nat) (f : Slot → Slot) (s : State) :
    (setSlot n f s).fab = s.fab := rfl
@[simp] theorem setSlot_link (n : Nat) (f : Slot → Slot) (s : State) :
    (setSlot n f s).link = s.link := rfl
@[simp] theorem setSlot_mem (n : Nat) (f : Slot → Slot) (s : State) :
    (setSlot n f s).mem = s.mem := rfl
@[simp] theorem setSlot_part (n : Nat) (f : Slot → Slot) (s : State) :
    (setSlot n f s).part = s.part := rfl
@[simp] theorem setSlot_far (n : Nat) (f : Slot → Slot) (s : State) :
    (setSlot n f s).far = s.far := rfl
@[simp] theorem setSlot_mgr (n : Nat) (f : Slot → Slot) (s : State) :
    (setSlot n f s).mgr = s.mgr := rfl
@[simp] theorem setSlot_sec (n : Nat) (f : Slot → Slot) (s : State) :
    (setSlot n f s).sec = s.sec := rfl
@[simp] theorem setSlot_mtr (n : Nat) (f : Slot → Slot) (s : State) :
    (setSlot n f s).mtr = s.mtr := rfl
@[simp] theorem setSlot_obs (n : Nat) (f : Slot → Slot) (s : State) :
    (setSlot n f s).obs = s.obs := rfl
@[simp] theorem setSlot_pow (n : Nat) (f : Slot → Slot) (s : State) :
    (setSlot n f s).pow = s.pow := rfl
@[simp] theorem setSlot_elec (n : Nat) (f : Slot → Slot) (s : State) :
    (setSlot n f s).elec = s.elec := rfl
@[simp] theorem setSlot_dict (n : Nat) (f : Slot → Slot) (s : State) :
    (setSlot n f s).dict = s.dict := rfl
@[simp] theorem setSlot_inForce (n : Nat) (f : Slot → Slot) (s : State) :
    (setSlot n f s).inForce = s.inForce := rfl
@[simp] theorem setSlot_counts (n : Nat) (f : Slot → Slot) (s : State) :
    (setSlot n f s).counts = s.counts := rfl
@[simp] theorem setSlot_out (n : Nat) (f : Slot → Slot) (s : State) :
    (setSlot n f s).out = s.out := rfl
@[simp] theorem setSlot_free (n : Nat) (f : Slot → Slot) (s : State) :
    (setSlot n f s).free = s.free := rfl
@[simp] theorem setSlot_pending (n : Nat) (f : Slot → Slot) (s : State) :
    (setSlot n f s).pending = s.pending := rfl

@[simp] theorem setRun_grade (n : Nat) (f : Run → Run) (s : State) :
    (setRun n f s).grade = s.grade := rfl
@[simp] theorem setRun_time (n : Nat) (f : Run → Run) (s : State) :
    (setRun n f s).time = s.time := rfl
@[simp] theorem setRun_mesh (n : Nat) (f : Run → Run) (s : State) :
    (setRun n f s).mesh = s.mesh := rfl
@[simp] theorem setRun_q (n : Nat) (f : Run → Run) (s : State) :
    (setRun n f s).q = s.q := rfl
@[simp] theorem setRun_conn (n : Nat) (f : Run → Run) (s : State) :
    (setRun n f s).conn = s.conn := rfl
@[simp] theorem setRun_xl (n : Nat) (f : Run → Run) (s : State) :
    (setRun n f s).xl = s.xl := rfl
@[simp] theorem setRun_ar (n : Nat) (f : Run → Run) (s : State) :
    (setRun n f s).ar = s.ar := rfl
@[simp] theorem setRun_fab (n : Nat) (f : Run → Run) (s : State) :
    (setRun n f s).fab = s.fab := rfl
@[simp] theorem setRun_link (n : Nat) (f : Run → Run) (s : State) :
    (setRun n f s).link = s.link := rfl
@[simp] theorem setRun_mem (n : Nat) (f : Run → Run) (s : State) :
    (setRun n f s).mem = s.mem := rfl
@[simp] theorem setRun_part (n : Nat) (f : Run → Run) (s : State) :
    (setRun n f s).part = s.part := rfl
@[simp] theorem setRun_far (n : Nat) (f : Run → Run) (s : State) :
    (setRun n f s).far = s.far := rfl
@[simp] theorem setRun_mgr (n : Nat) (f : Run → Run) (s : State) :
    (setRun n f s).mgr = s.mgr := rfl
@[simp] theorem setRun_sec (n : Nat) (f : Run → Run) (s : State) :
    (setRun n f s).sec = s.sec := rfl
@[simp] theorem setRun_mtr (n : Nat) (f : Run → Run) (s : State) :
    (setRun n f s).mtr = s.mtr := rfl
@[simp] theorem setRun_obs (n : Nat) (f : Run → Run) (s : State) :
    (setRun n f s).obs = s.obs := rfl
@[simp] theorem setRun_pow (n : Nat) (f : Run → Run) (s : State) :
    (setRun n f s).pow = s.pow := rfl
@[simp] theorem setRun_elec (n : Nat) (f : Run → Run) (s : State) :
    (setRun n f s).elec = s.elec := rfl
@[simp] theorem setRun_dict (n : Nat) (f : Run → Run) (s : State) :
    (setRun n f s).dict = s.dict := rfl
@[simp] theorem setRun_inForce (n : Nat) (f : Run → Run) (s : State) :
    (setRun n f s).inForce = s.inForce := rfl
@[simp] theorem setRun_counts (n : Nat) (f : Run → Run) (s : State) :
    (setRun n f s).counts = s.counts := rfl
@[simp] theorem setRun_out (n : Nat) (f : Run → Run) (s : State) :
    (setRun n f s).out = s.out := rfl
@[simp] theorem setRun_free (n : Nat) (f : Run → Run) (s : State) :
    (setRun n f s).free = s.free := rfl
@[simp] theorem setRun_pending (n : Nat) (f : Run → Run) (s : State) :
    (setRun n f s).pending = s.pending := rfl

@[simp] theorem setMember_grade (n r : Nat) (f : RunMember → RunMember) (s : State) :
    (setMember n r f s).grade = s.grade := rfl
@[simp] theorem setMember_time (n r : Nat) (f : RunMember → RunMember) (s : State) :
    (setMember n r f s).time = s.time := rfl
@[simp] theorem setMember_mesh (n r : Nat) (f : RunMember → RunMember) (s : State) :
    (setMember n r f s).mesh = s.mesh := rfl
@[simp] theorem setMember_q (n r : Nat) (f : RunMember → RunMember) (s : State) :
    (setMember n r f s).q = s.q := rfl
@[simp] theorem setMember_conn (n r : Nat) (f : RunMember → RunMember) (s : State) :
    (setMember n r f s).conn = s.conn := rfl
@[simp] theorem setMember_xl (n r : Nat) (f : RunMember → RunMember) (s : State) :
    (setMember n r f s).xl = s.xl := rfl
@[simp] theorem setMember_ar (n r : Nat) (f : RunMember → RunMember) (s : State) :
    (setMember n r f s).ar = s.ar := rfl
@[simp] theorem setMember_fab (n r : Nat) (f : RunMember → RunMember) (s : State) :
    (setMember n r f s).fab = s.fab := rfl
@[simp] theorem setMember_link (n r : Nat) (f : RunMember → RunMember) (s : State) :
    (setMember n r f s).link = s.link := rfl
@[simp] theorem setMember_mem (n r : Nat) (f : RunMember → RunMember) (s : State) :
    (setMember n r f s).mem = s.mem := rfl
@[simp] theorem setMember_part (n r : Nat) (f : RunMember → RunMember) (s : State) :
    (setMember n r f s).part = s.part := rfl
@[simp] theorem setMember_far (n r : Nat) (f : RunMember → RunMember) (s : State) :
    (setMember n r f s).far = s.far := rfl
@[simp] theorem setMember_mgr (n r : Nat) (f : RunMember → RunMember) (s : State) :
    (setMember n r f s).mgr = s.mgr := rfl
@[simp] theorem setMember_sec (n r : Nat) (f : RunMember → RunMember) (s : State) :
    (setMember n r f s).sec = s.sec := rfl
@[simp] theorem setMember_mtr (n r : Nat) (f : RunMember → RunMember) (s : State) :
    (setMember n r f s).mtr = s.mtr := rfl
@[simp] theorem setMember_obs (n r : Nat) (f : RunMember → RunMember) (s : State) :
    (setMember n r f s).obs = s.obs := rfl
@[simp] theorem setMember_pow (n r : Nat) (f : RunMember → RunMember) (s : State) :
    (setMember n r f s).pow = s.pow := rfl
@[simp] theorem setMember_elec (n r : Nat) (f : RunMember → RunMember) (s : State) :
    (setMember n r f s).elec = s.elec := rfl
@[simp] theorem setMember_dict (n r : Nat) (f : RunMember → RunMember) (s : State) :
    (setMember n r f s).dict = s.dict := rfl
@[simp] theorem setMember_inForce (n r : Nat) (f : RunMember → RunMember) (s : State) :
    (setMember n r f s).inForce = s.inForce := rfl
@[simp] theorem setMember_counts (n r : Nat) (f : RunMember → RunMember) (s : State) :
    (setMember n r f s).counts = s.counts := rfl
@[simp] theorem setMember_out (n r : Nat) (f : RunMember → RunMember) (s : State) :
    (setMember n r f s).out = s.out := rfl
@[simp] theorem setMember_free (n r : Nat) (f : RunMember → RunMember) (s : State) :
    (setMember n r f s).free = s.free := rfl
@[simp] theorem setMember_pending (n r : Nat) (f : RunMember → RunMember) (s : State) :
    (setMember n r f s).pending = s.pending := rfl

/-! ## A fabric port -/

@[simp] theorem setPort_grade (p : Nat) (f : Port → Port) (s : State) :
    (setPort p f s).grade = s.grade := rfl
@[simp] theorem setPort_time (p : Nat) (f : Port → Port) (s : State) :
    (setPort p f s).time = s.time := rfl
@[simp] theorem setPort_mesh (p : Nat) (f : Port → Port) (s : State) :
    (setPort p f s).mesh = s.mesh := rfl
@[simp] theorem setPort_q (p : Nat) (f : Port → Port) (s : State) :
    (setPort p f s).q = s.q := rfl
@[simp] theorem setPort_conn (p : Nat) (f : Port → Port) (s : State) :
    (setPort p f s).conn = s.conn := rfl
@[simp] theorem setPort_xl (p : Nat) (f : Port → Port) (s : State) :
    (setPort p f s).xl = s.xl := rfl
@[simp] theorem setPort_coll (p : Nat) (f : Port → Port) (s : State) :
    (setPort p f s).coll = s.coll := rfl
@[simp] theorem setPort_ar (p : Nat) (f : Port → Port) (s : State) :
    (setPort p f s).ar = s.ar := rfl
@[simp] theorem setPort_fab (p : Nat) (f : Port → Port) (s : State) :
    (setPort p f s).fab = { s.fab with ports := tmodD s.fab.ports p {} f } := rfl
@[simp] theorem setPort_link (p : Nat) (f : Port → Port) (s : State) :
    (setPort p f s).link = s.link := rfl
@[simp] theorem setPort_mem (p : Nat) (f : Port → Port) (s : State) :
    (setPort p f s).mem = s.mem := rfl
@[simp] theorem setPort_part (p : Nat) (f : Port → Port) (s : State) :
    (setPort p f s).part = s.part := rfl
@[simp] theorem setPort_far (p : Nat) (f : Port → Port) (s : State) :
    (setPort p f s).far = s.far := rfl
@[simp] theorem setPort_mgr (p : Nat) (f : Port → Port) (s : State) :
    (setPort p f s).mgr = s.mgr := rfl
@[simp] theorem setPort_sec (p : Nat) (f : Port → Port) (s : State) :
    (setPort p f s).sec = s.sec := rfl
@[simp] theorem setPort_mtr (p : Nat) (f : Port → Port) (s : State) :
    (setPort p f s).mtr = s.mtr := rfl
@[simp] theorem setPort_obs (p : Nat) (f : Port → Port) (s : State) :
    (setPort p f s).obs = s.obs := rfl
@[simp] theorem setPort_pow (p : Nat) (f : Port → Port) (s : State) :
    (setPort p f s).pow = s.pow := rfl
@[simp] theorem setPort_elec (p : Nat) (f : Port → Port) (s : State) :
    (setPort p f s).elec = s.elec := rfl
@[simp] theorem setPort_dict (p : Nat) (f : Port → Port) (s : State) :
    (setPort p f s).dict = s.dict := rfl
@[simp] theorem setPort_inForce (p : Nat) (f : Port → Port) (s : State) :
    (setPort p f s).inForce = s.inForce := rfl
@[simp] theorem setPort_counts (p : Nat) (f : Port → Port) (s : State) :
    (setPort p f s).counts = s.counts := rfl
@[simp] theorem setPort_out (p : Nat) (f : Port → Port) (s : State) :
    (setPort p f s).out = s.out := rfl
@[simp] theorem setPort_free (p : Nat) (f : Port → Port) (s : State) :
    (setPort p f s).free = s.free := rfl
@[simp] theorem setPort_pending (p : Nat) (f : Port → Port) (s : State) :
    (setPort p f s).pending = s.pending := rfl

/-! ## An Edrad link -/

@[simp] theorem setEdrad_grade (link : Nat) (f : Edrad → Edrad) (s : State) :
    (setEdrad link f s).grade = s.grade := rfl
@[simp] theorem setEdrad_time (link : Nat) (f : Edrad → Edrad) (s : State) :
    (setEdrad link f s).time = s.time := rfl
@[simp] theorem setEdrad_mesh (link : Nat) (f : Edrad → Edrad) (s : State) :
    (setEdrad link f s).mesh = s.mesh := rfl
@[simp] theorem setEdrad_q (link : Nat) (f : Edrad → Edrad) (s : State) :
    (setEdrad link f s).q = s.q := rfl
@[simp] theorem setEdrad_conn (link : Nat) (f : Edrad → Edrad) (s : State) :
    (setEdrad link f s).conn = s.conn := rfl
@[simp] theorem setEdrad_xl (link : Nat) (f : Edrad → Edrad) (s : State) :
    (setEdrad link f s).xl = s.xl := rfl
@[simp] theorem setEdrad_coll (link : Nat) (f : Edrad → Edrad) (s : State) :
    (setEdrad link f s).coll = s.coll := rfl
@[simp] theorem setEdrad_ar (link : Nat) (f : Edrad → Edrad) (s : State) :
    (setEdrad link f s).ar = s.ar := rfl
@[simp] theorem setEdrad_fab (link : Nat) (f : Edrad → Edrad) (s : State) :
    (setEdrad link f s).fab = s.fab := rfl
@[simp] theorem setEdrad_link (link : Nat) (f : Edrad → Edrad) (s : State) :
    (setEdrad link f s).link = { s.link with edrad := tmodD s.link.edrad link {} f } := rfl
@[simp] theorem setEdrad_mem (link : Nat) (f : Edrad → Edrad) (s : State) :
    (setEdrad link f s).mem = s.mem := rfl
@[simp] theorem setEdrad_part (link : Nat) (f : Edrad → Edrad) (s : State) :
    (setEdrad link f s).part = s.part := rfl
@[simp] theorem setEdrad_far (link : Nat) (f : Edrad → Edrad) (s : State) :
    (setEdrad link f s).far = s.far := rfl
@[simp] theorem setEdrad_mgr (link : Nat) (f : Edrad → Edrad) (s : State) :
    (setEdrad link f s).mgr = s.mgr := rfl
@[simp] theorem setEdrad_sec (link : Nat) (f : Edrad → Edrad) (s : State) :
    (setEdrad link f s).sec = s.sec := rfl
@[simp] theorem setEdrad_mtr (link : Nat) (f : Edrad → Edrad) (s : State) :
    (setEdrad link f s).mtr = s.mtr := rfl
@[simp] theorem setEdrad_obs (link : Nat) (f : Edrad → Edrad) (s : State) :
    (setEdrad link f s).obs = s.obs := rfl
@[simp] theorem setEdrad_pow (link : Nat) (f : Edrad → Edrad) (s : State) :
    (setEdrad link f s).pow = s.pow := rfl
@[simp] theorem setEdrad_elec (link : Nat) (f : Edrad → Edrad) (s : State) :
    (setEdrad link f s).elec = s.elec := rfl
@[simp] theorem setEdrad_dict (link : Nat) (f : Edrad → Edrad) (s : State) :
    (setEdrad link f s).dict = s.dict := rfl
@[simp] theorem setEdrad_inForce (link : Nat) (f : Edrad → Edrad) (s : State) :
    (setEdrad link f s).inForce = s.inForce := rfl
@[simp] theorem setEdrad_counts (link : Nat) (f : Edrad → Edrad) (s : State) :
    (setEdrad link f s).counts = s.counts := rfl
@[simp] theorem setEdrad_out (link : Nat) (f : Edrad → Edrad) (s : State) :
    (setEdrad link f s).out = s.out := rfl
@[simp] theorem setEdrad_free (link : Nat) (f : Edrad → Edrad) (s : State) :
    (setEdrad link f s).free = s.free := rfl
@[simp] theorem setEdrad_pending (link : Nat) (f : Edrad → Edrad) (s : State) :
    (setEdrad link f s).pending = s.pending := rfl

@[simp] theorem setCard_grade (link : Nat) (f : Card → Card) (s : State) :
    (setCard link f s).grade = s.grade := rfl
@[simp] theorem setCard_time (link : Nat) (f : Card → Card) (s : State) :
    (setCard link f s).time = s.time := rfl
@[simp] theorem setCard_mesh (link : Nat) (f : Card → Card) (s : State) :
    (setCard link f s).mesh = s.mesh := rfl
@[simp] theorem setCard_q (link : Nat) (f : Card → Card) (s : State) :
    (setCard link f s).q = s.q := rfl
@[simp] theorem setCard_conn (link : Nat) (f : Card → Card) (s : State) :
    (setCard link f s).conn = s.conn := rfl
@[simp] theorem setCard_xl (link : Nat) (f : Card → Card) (s : State) :
    (setCard link f s).xl = s.xl := rfl
@[simp] theorem setCard_coll (link : Nat) (f : Card → Card) (s : State) :
    (setCard link f s).coll = s.coll := rfl
@[simp] theorem setCard_ar (link : Nat) (f : Card → Card) (s : State) :
    (setCard link f s).ar = s.ar := rfl
@[simp] theorem setCard_fab (link : Nat) (f : Card → Card) (s : State) :
    (setCard link f s).fab = s.fab := rfl
@[simp] theorem setCard_mem (link : Nat) (f : Card → Card) (s : State) :
    (setCard link f s).mem = s.mem := rfl
@[simp] theorem setCard_part (link : Nat) (f : Card → Card) (s : State) :
    (setCard link f s).part = s.part := rfl
@[simp] theorem setCard_far (link : Nat) (f : Card → Card) (s : State) :
    (setCard link f s).far = s.far := rfl
@[simp] theorem setCard_mgr (link : Nat) (f : Card → Card) (s : State) :
    (setCard link f s).mgr = s.mgr := rfl
@[simp] theorem setCard_sec (link : Nat) (f : Card → Card) (s : State) :
    (setCard link f s).sec = s.sec := rfl
@[simp] theorem setCard_mtr (link : Nat) (f : Card → Card) (s : State) :
    (setCard link f s).mtr = s.mtr := rfl
@[simp] theorem setCard_obs (link : Nat) (f : Card → Card) (s : State) :
    (setCard link f s).obs = s.obs := rfl
@[simp] theorem setCard_pow (link : Nat) (f : Card → Card) (s : State) :
    (setCard link f s).pow = s.pow := rfl
@[simp] theorem setCard_elec (link : Nat) (f : Card → Card) (s : State) :
    (setCard link f s).elec = s.elec := rfl
@[simp] theorem setCard_dict (link : Nat) (f : Card → Card) (s : State) :
    (setCard link f s).dict = s.dict := rfl
@[simp] theorem setCard_inForce (link : Nat) (f : Card → Card) (s : State) :
    (setCard link f s).inForce = s.inForce := rfl
@[simp] theorem setCard_counts (link : Nat) (f : Card → Card) (s : State) :
    (setCard link f s).counts = s.counts := rfl
@[simp] theorem setCard_out (link : Nat) (f : Card → Card) (s : State) :
    (setCard link f s).out = s.out := rfl
@[simp] theorem setCard_free (link : Nat) (f : Card → Card) (s : State) :
    (setCard link f s).free = s.free := rfl
@[simp] theorem setCard_pending (link : Nat) (f : Card → Card) (s : State) :
    (setCard link f s).pending = s.pending := rfl

/-! ## An accelerator port -/

@[simp] theorem setAccel_grade (e : Nat) (f : Accel → Accel) (s : State) :
    (setAccel e f s).grade = s.grade := rfl
@[simp] theorem setAccel_time (e : Nat) (f : Accel → Accel) (s : State) :
    (setAccel e f s).time = s.time := rfl
@[simp] theorem setAccel_mesh (e : Nat) (f : Accel → Accel) (s : State) :
    (setAccel e f s).mesh = s.mesh := rfl
@[simp] theorem setAccel_q (e : Nat) (f : Accel → Accel) (s : State) :
    (setAccel e f s).q = s.q := rfl
@[simp] theorem setAccel_conn (e : Nat) (f : Accel → Accel) (s : State) :
    (setAccel e f s).conn = s.conn := rfl
@[simp] theorem setAccel_xl (e : Nat) (f : Accel → Accel) (s : State) :
    (setAccel e f s).xl = s.xl := rfl
@[simp] theorem setAccel_coll (e : Nat) (f : Accel → Accel) (s : State) :
    (setAccel e f s).coll = s.coll := rfl
@[simp] theorem setAccel_ar (e : Nat) (f : Accel → Accel) (s : State) :
    (setAccel e f s).ar = s.ar := rfl
@[simp] theorem setAccel_fab (e : Nat) (f : Accel → Accel) (s : State) :
    (setAccel e f s).fab = s.fab := rfl
@[simp] theorem setAccel_link (e : Nat) (f : Accel → Accel) (s : State) :
    (setAccel e f s).link = { s.link with accel := tmodD s.link.accel e {} f } := rfl
@[simp] theorem setAccel_mem (e : Nat) (f : Accel → Accel) (s : State) :
    (setAccel e f s).mem = s.mem := rfl
@[simp] theorem setAccel_part (e : Nat) (f : Accel → Accel) (s : State) :
    (setAccel e f s).part = s.part := rfl
@[simp] theorem setAccel_far (e : Nat) (f : Accel → Accel) (s : State) :
    (setAccel e f s).far = s.far := rfl
@[simp] theorem setAccel_mgr (e : Nat) (f : Accel → Accel) (s : State) :
    (setAccel e f s).mgr = s.mgr := rfl
@[simp] theorem setAccel_sec (e : Nat) (f : Accel → Accel) (s : State) :
    (setAccel e f s).sec = s.sec := rfl
@[simp] theorem setAccel_mtr (e : Nat) (f : Accel → Accel) (s : State) :
    (setAccel e f s).mtr = s.mtr := rfl
@[simp] theorem setAccel_obs (e : Nat) (f : Accel → Accel) (s : State) :
    (setAccel e f s).obs = s.obs := rfl
@[simp] theorem setAccel_pow (e : Nat) (f : Accel → Accel) (s : State) :
    (setAccel e f s).pow = s.pow := rfl
@[simp] theorem setAccel_elec (e : Nat) (f : Accel → Accel) (s : State) :
    (setAccel e f s).elec = s.elec := rfl
@[simp] theorem setAccel_dict (e : Nat) (f : Accel → Accel) (s : State) :
    (setAccel e f s).dict = s.dict := rfl
@[simp] theorem setAccel_inForce (e : Nat) (f : Accel → Accel) (s : State) :
    (setAccel e f s).inForce = s.inForce := rfl
@[simp] theorem setAccel_counts (e : Nat) (f : Accel → Accel) (s : State) :
    (setAccel e f s).counts = s.counts := rfl
@[simp] theorem setAccel_out (e : Nat) (f : Accel → Accel) (s : State) :
    (setAccel e f s).out = s.out := rfl
@[simp] theorem setAccel_free (e : Nat) (f : Accel → Accel) (s : State) :
    (setAccel e f s).free = s.free := rfl
@[simp] theorem setAccel_pending (e : Nat) (f : Accel → Accel) (s : State) :
    (setAccel e f s).pending = s.pending := rfl

/-! ## A memory channel -/

@[simp] theorem setChan_grade (die slot : Nat) (f : Chan → Chan) (s : State) :
    (setChan die slot f s).grade = s.grade := rfl
@[simp] theorem setChan_time (die slot : Nat) (f : Chan → Chan) (s : State) :
    (setChan die slot f s).time = s.time := rfl
@[simp] theorem setChan_mesh (die slot : Nat) (f : Chan → Chan) (s : State) :
    (setChan die slot f s).mesh = s.mesh := rfl
@[simp] theorem setChan_q (die slot : Nat) (f : Chan → Chan) (s : State) :
    (setChan die slot f s).q = s.q := rfl
@[simp] theorem setChan_conn (die slot : Nat) (f : Chan → Chan) (s : State) :
    (setChan die slot f s).conn = s.conn := rfl
@[simp] theorem setChan_xl (die slot : Nat) (f : Chan → Chan) (s : State) :
    (setChan die slot f s).xl = s.xl := rfl
@[simp] theorem setChan_coll (die slot : Nat) (f : Chan → Chan) (s : State) :
    (setChan die slot f s).coll = s.coll := rfl
@[simp] theorem setChan_ar (die slot : Nat) (f : Chan → Chan) (s : State) :
    (setChan die slot f s).ar = s.ar := rfl
@[simp] theorem setChan_fab (die slot : Nat) (f : Chan → Chan) (s : State) :
    (setChan die slot f s).fab = s.fab := rfl
@[simp] theorem setChan_link (die slot : Nat) (f : Chan → Chan) (s : State) :
    (setChan die slot f s).link = s.link := rfl
@[simp] theorem setChan_mem (die slot : Nat) (f : Chan → Chan) (s : State) :
    (setChan die slot f s).mem = { s.mem with chans := tmodD s.mem.chans (8 * die + slot) {} f } := rfl
@[simp] theorem setChan_part (die slot : Nat) (f : Chan → Chan) (s : State) :
    (setChan die slot f s).part = s.part := rfl
@[simp] theorem setChan_far (die slot : Nat) (f : Chan → Chan) (s : State) :
    (setChan die slot f s).far = s.far := rfl
@[simp] theorem setChan_mgr (die slot : Nat) (f : Chan → Chan) (s : State) :
    (setChan die slot f s).mgr = s.mgr := rfl
@[simp] theorem setChan_sec (die slot : Nat) (f : Chan → Chan) (s : State) :
    (setChan die slot f s).sec = s.sec := rfl
@[simp] theorem setChan_mtr (die slot : Nat) (f : Chan → Chan) (s : State) :
    (setChan die slot f s).mtr = s.mtr := rfl
@[simp] theorem setChan_obs (die slot : Nat) (f : Chan → Chan) (s : State) :
    (setChan die slot f s).obs = s.obs := rfl
@[simp] theorem setChan_pow (die slot : Nat) (f : Chan → Chan) (s : State) :
    (setChan die slot f s).pow = s.pow := rfl
@[simp] theorem setChan_elec (die slot : Nat) (f : Chan → Chan) (s : State) :
    (setChan die slot f s).elec = s.elec := rfl
@[simp] theorem setChan_dict (die slot : Nat) (f : Chan → Chan) (s : State) :
    (setChan die slot f s).dict = s.dict := rfl
@[simp] theorem setChan_inForce (die slot : Nat) (f : Chan → Chan) (s : State) :
    (setChan die slot f s).inForce = s.inForce := rfl
@[simp] theorem setChan_counts (die slot : Nat) (f : Chan → Chan) (s : State) :
    (setChan die slot f s).counts = s.counts := rfl
@[simp] theorem setChan_out (die slot : Nat) (f : Chan → Chan) (s : State) :
    (setChan die slot f s).out = s.out := rfl
@[simp] theorem setChan_free (die slot : Nat) (f : Chan → Chan) (s : State) :
    (setChan die slot f s).free = s.free := rfl
@[simp] theorem setChan_pending (die slot : Nat) (f : Chan → Chan) (s : State) :
    (setChan die slot f s).pending = s.pending := rfl

/-! ## A partition -/

@[simp] theorem setPart_grade (p : Nat) (f : Part → Part) (s : State) :
    (setPart p f s).grade = s.grade := rfl
@[simp] theorem setPart_time (p : Nat) (f : Part → Part) (s : State) :
    (setPart p f s).time = s.time := rfl
@[simp] theorem setPart_mesh (p : Nat) (f : Part → Part) (s : State) :
    (setPart p f s).mesh = s.mesh := rfl
@[simp] theorem setPart_q (p : Nat) (f : Part → Part) (s : State) :
    (setPart p f s).q = s.q := rfl
@[simp] theorem setPart_conn (p : Nat) (f : Part → Part) (s : State) :
    (setPart p f s).conn = s.conn := rfl
@[simp] theorem setPart_xl (p : Nat) (f : Part → Part) (s : State) :
    (setPart p f s).xl = s.xl := rfl
@[simp] theorem setPart_coll (p : Nat) (f : Part → Part) (s : State) :
    (setPart p f s).coll = s.coll := rfl
@[simp] theorem setPart_ar (p : Nat) (f : Part → Part) (s : State) :
    (setPart p f s).ar = s.ar := rfl
@[simp] theorem setPart_fab (p : Nat) (f : Part → Part) (s : State) :
    (setPart p f s).fab = s.fab := rfl
@[simp] theorem setPart_link (p : Nat) (f : Part → Part) (s : State) :
    (setPart p f s).link = s.link := rfl
@[simp] theorem setPart_mem (p : Nat) (f : Part → Part) (s : State) :
    (setPart p f s).mem = s.mem := rfl
@[simp] theorem setPart_part (p : Nat) (f : Part → Part) (s : State) :
    (setPart p f s).part = { s.part with parts := tmodD s.part.parts p {} f } := rfl
@[simp] theorem setPart_far (p : Nat) (f : Part → Part) (s : State) :
    (setPart p f s).far = s.far := rfl
@[simp] theorem setPart_mgr (p : Nat) (f : Part → Part) (s : State) :
    (setPart p f s).mgr = s.mgr := rfl
@[simp] theorem setPart_sec (p : Nat) (f : Part → Part) (s : State) :
    (setPart p f s).sec = s.sec := rfl
@[simp] theorem setPart_mtr (p : Nat) (f : Part → Part) (s : State) :
    (setPart p f s).mtr = s.mtr := rfl
@[simp] theorem setPart_obs (p : Nat) (f : Part → Part) (s : State) :
    (setPart p f s).obs = s.obs := rfl
@[simp] theorem setPart_pow (p : Nat) (f : Part → Part) (s : State) :
    (setPart p f s).pow = s.pow := rfl
@[simp] theorem setPart_elec (p : Nat) (f : Part → Part) (s : State) :
    (setPart p f s).elec = s.elec := rfl
@[simp] theorem setPart_dict (p : Nat) (f : Part → Part) (s : State) :
    (setPart p f s).dict = s.dict := rfl
@[simp] theorem setPart_inForce (p : Nat) (f : Part → Part) (s : State) :
    (setPart p f s).inForce = s.inForce := rfl
@[simp] theorem setPart_counts (p : Nat) (f : Part → Part) (s : State) :
    (setPart p f s).counts = s.counts := rfl
@[simp] theorem setPart_out (p : Nat) (f : Part → Part) (s : State) :
    (setPart p f s).out = s.out := rfl
@[simp] theorem setPart_free (p : Nat) (f : Part → Part) (s : State) :
    (setPart p f s).free = s.free := rfl
@[simp] theorem setPart_pending (p : Nat) (f : Part → Part) (s : State) :
    (setPart p f s).pending = s.pending := rfl

/-! ## An image bank -/

@[simp] theorem setBank_grade (k b : Nat) (f : ImageBank → ImageBank) (s : State) :
    (setBank k b f s).grade = s.grade := rfl
@[simp] theorem setBank_time (k b : Nat) (f : ImageBank → ImageBank) (s : State) :
    (setBank k b f s).time = s.time := rfl
@[simp] theorem setBank_mesh (k b : Nat) (f : ImageBank → ImageBank) (s : State) :
    (setBank k b f s).mesh = s.mesh := rfl
@[simp] theorem setBank_q (k b : Nat) (f : ImageBank → ImageBank) (s : State) :
    (setBank k b f s).q = s.q := rfl
@[simp] theorem setBank_conn (k b : Nat) (f : ImageBank → ImageBank) (s : State) :
    (setBank k b f s).conn = s.conn := rfl
@[simp] theorem setBank_xl (k b : Nat) (f : ImageBank → ImageBank) (s : State) :
    (setBank k b f s).xl = s.xl := rfl
@[simp] theorem setBank_coll (k b : Nat) (f : ImageBank → ImageBank) (s : State) :
    (setBank k b f s).coll = s.coll := rfl
@[simp] theorem setBank_ar (k b : Nat) (f : ImageBank → ImageBank) (s : State) :
    (setBank k b f s).ar = s.ar := rfl
@[simp] theorem setBank_fab (k b : Nat) (f : ImageBank → ImageBank) (s : State) :
    (setBank k b f s).fab = s.fab := rfl
@[simp] theorem setBank_link (k b : Nat) (f : ImageBank → ImageBank) (s : State) :
    (setBank k b f s).link = s.link := rfl
@[simp] theorem setBank_mem (k b : Nat) (f : ImageBank → ImageBank) (s : State) :
    (setBank k b f s).mem = s.mem := rfl
@[simp] theorem setBank_part (k b : Nat) (f : ImageBank → ImageBank) (s : State) :
    (setBank k b f s).part = s.part := rfl
@[simp] theorem setBank_far (k b : Nat) (f : ImageBank → ImageBank) (s : State) :
    (setBank k b f s).far = s.far := rfl
@[simp] theorem setBank_mgr (k b : Nat) (f : ImageBank → ImageBank) (s : State) :
    (setBank k b f s).mgr = s.mgr := rfl
@[simp] theorem setBank_mtr (k b : Nat) (f : ImageBank → ImageBank) (s : State) :
    (setBank k b f s).mtr = s.mtr := rfl
@[simp] theorem setBank_obs (k b : Nat) (f : ImageBank → ImageBank) (s : State) :
    (setBank k b f s).obs = s.obs := rfl
@[simp] theorem setBank_pow (k b : Nat) (f : ImageBank → ImageBank) (s : State) :
    (setBank k b f s).pow = s.pow := rfl
@[simp] theorem setBank_elec (k b : Nat) (f : ImageBank → ImageBank) (s : State) :
    (setBank k b f s).elec = s.elec := rfl
@[simp] theorem setBank_dict (k b : Nat) (f : ImageBank → ImageBank) (s : State) :
    (setBank k b f s).dict = s.dict := rfl
@[simp] theorem setBank_inForce (k b : Nat) (f : ImageBank → ImageBank) (s : State) :
    (setBank k b f s).inForce = s.inForce := rfl
@[simp] theorem setBank_counts (k b : Nat) (f : ImageBank → ImageBank) (s : State) :
    (setBank k b f s).counts = s.counts := rfl
@[simp] theorem setBank_out (k b : Nat) (f : ImageBank → ImageBank) (s : State) :
    (setBank k b f s).out = s.out := rfl
@[simp] theorem setBank_free (k b : Nat) (f : ImageBank → ImageBank) (s : State) :
    (setBank k b f s).free = s.free := rfl
@[simp] theorem setBank_pending (k b : Nat) (f : ImageBank → ImageBank) (s : State) :
    (setBank k b f s).pending = s.pending := rfl

/-! ## The metering die -/

@[simp] theorem setMtr_grade (f : MtrSt → MtrSt) (s : State) :
    (setMtr f s).grade = s.grade := rfl
@[simp] theorem setMtr_time (f : MtrSt → MtrSt) (s : State) :
    (setMtr f s).time = s.time := rfl
@[simp] theorem setMtr_mesh (f : MtrSt → MtrSt) (s : State) :
    (setMtr f s).mesh = s.mesh := rfl
@[simp] theorem setMtr_q (f : MtrSt → MtrSt) (s : State) :
    (setMtr f s).q = s.q := rfl
@[simp] theorem setMtr_conn (f : MtrSt → MtrSt) (s : State) :
    (setMtr f s).conn = s.conn := rfl
@[simp] theorem setMtr_xl (f : MtrSt → MtrSt) (s : State) :
    (setMtr f s).xl = s.xl := rfl
@[simp] theorem setMtr_coll (f : MtrSt → MtrSt) (s : State) :
    (setMtr f s).coll = s.coll := rfl
@[simp] theorem setMtr_ar (f : MtrSt → MtrSt) (s : State) :
    (setMtr f s).ar = s.ar := rfl
@[simp] theorem setMtr_fab (f : MtrSt → MtrSt) (s : State) :
    (setMtr f s).fab = s.fab := rfl
@[simp] theorem setMtr_link (f : MtrSt → MtrSt) (s : State) :
    (setMtr f s).link = s.link := rfl
@[simp] theorem setMtr_mem (f : MtrSt → MtrSt) (s : State) :
    (setMtr f s).mem = s.mem := rfl
@[simp] theorem setMtr_part (f : MtrSt → MtrSt) (s : State) :
    (setMtr f s).part = s.part := rfl
@[simp] theorem setMtr_far (f : MtrSt → MtrSt) (s : State) :
    (setMtr f s).far = s.far := rfl
@[simp] theorem setMtr_mgr (f : MtrSt → MtrSt) (s : State) :
    (setMtr f s).mgr = s.mgr := rfl
@[simp] theorem setMtr_sec (f : MtrSt → MtrSt) (s : State) :
    (setMtr f s).sec = s.sec := rfl
@[simp] theorem setMtr_mtr (f : MtrSt → MtrSt) (s : State) :
    (setMtr f s).mtr = f s.mtr := rfl
@[simp] theorem setMtr_obs (f : MtrSt → MtrSt) (s : State) :
    (setMtr f s).obs = s.obs := rfl
@[simp] theorem setMtr_pow (f : MtrSt → MtrSt) (s : State) :
    (setMtr f s).pow = s.pow := rfl
@[simp] theorem setMtr_elec (f : MtrSt → MtrSt) (s : State) :
    (setMtr f s).elec = s.elec := rfl
@[simp] theorem setMtr_dict (f : MtrSt → MtrSt) (s : State) :
    (setMtr f s).dict = s.dict := rfl
@[simp] theorem setMtr_inForce (f : MtrSt → MtrSt) (s : State) :
    (setMtr f s).inForce = s.inForce := rfl
@[simp] theorem setMtr_counts (f : MtrSt → MtrSt) (s : State) :
    (setMtr f s).counts = s.counts := rfl
@[simp] theorem setMtr_out (f : MtrSt → MtrSt) (s : State) :
    (setMtr f s).out = s.out := rfl
@[simp] theorem setMtr_free (f : MtrSt → MtrSt) (s : State) :
    (setMtr f s).free = s.free := rfl
@[simp] theorem setMtr_pending (f : MtrSt → MtrSt) (s : State) :
    (setMtr f s).pending = s.pending := rfl

/-! ## A sample FIFO -/

@[simp] theorem setSfifo_grade (die : Nat) (f : Sfifo → Sfifo) (s : State) :
    (setSfifo die f s).grade = s.grade := rfl
@[simp] theorem setSfifo_time (die : Nat) (f : Sfifo → Sfifo) (s : State) :
    (setSfifo die f s).time = s.time := rfl
@[simp] theorem setSfifo_mesh (die : Nat) (f : Sfifo → Sfifo) (s : State) :
    (setSfifo die f s).mesh = s.mesh := rfl
@[simp] theorem setSfifo_q (die : Nat) (f : Sfifo → Sfifo) (s : State) :
    (setSfifo die f s).q = s.q := rfl
@[simp] theorem setSfifo_conn (die : Nat) (f : Sfifo → Sfifo) (s : State) :
    (setSfifo die f s).conn = s.conn := rfl
@[simp] theorem setSfifo_xl (die : Nat) (f : Sfifo → Sfifo) (s : State) :
    (setSfifo die f s).xl = s.xl := rfl
@[simp] theorem setSfifo_coll (die : Nat) (f : Sfifo → Sfifo) (s : State) :
    (setSfifo die f s).coll = s.coll := rfl
@[simp] theorem setSfifo_ar (die : Nat) (f : Sfifo → Sfifo) (s : State) :
    (setSfifo die f s).ar = s.ar := rfl
@[simp] theorem setSfifo_fab (die : Nat) (f : Sfifo → Sfifo) (s : State) :
    (setSfifo die f s).fab = s.fab := rfl
@[simp] theorem setSfifo_link (die : Nat) (f : Sfifo → Sfifo) (s : State) :
    (setSfifo die f s).link = s.link := rfl
@[simp] theorem setSfifo_mem (die : Nat) (f : Sfifo → Sfifo) (s : State) :
    (setSfifo die f s).mem = s.mem := rfl
@[simp] theorem setSfifo_part (die : Nat) (f : Sfifo → Sfifo) (s : State) :
    (setSfifo die f s).part = s.part := rfl
@[simp] theorem setSfifo_far (die : Nat) (f : Sfifo → Sfifo) (s : State) :
    (setSfifo die f s).far = s.far := rfl
@[simp] theorem setSfifo_mgr (die : Nat) (f : Sfifo → Sfifo) (s : State) :
    (setSfifo die f s).mgr = s.mgr := rfl
@[simp] theorem setSfifo_sec (die : Nat) (f : Sfifo → Sfifo) (s : State) :
    (setSfifo die f s).sec = s.sec := rfl
@[simp] theorem setSfifo_mtr (die : Nat) (f : Sfifo → Sfifo) (s : State) :
    (setSfifo die f s).mtr = s.mtr := rfl
@[simp] theorem setSfifo_obs (die : Nat) (f : Sfifo → Sfifo) (s : State) :
    (setSfifo die f s).obs = { s.obs with sfifo := tmodD s.obs.sfifo die {} f } := rfl
@[simp] theorem setSfifo_pow (die : Nat) (f : Sfifo → Sfifo) (s : State) :
    (setSfifo die f s).pow = s.pow := rfl
@[simp] theorem setSfifo_elec (die : Nat) (f : Sfifo → Sfifo) (s : State) :
    (setSfifo die f s).elec = s.elec := rfl
@[simp] theorem setSfifo_dict (die : Nat) (f : Sfifo → Sfifo) (s : State) :
    (setSfifo die f s).dict = s.dict := rfl
@[simp] theorem setSfifo_inForce (die : Nat) (f : Sfifo → Sfifo) (s : State) :
    (setSfifo die f s).inForce = s.inForce := rfl
@[simp] theorem setSfifo_counts (die : Nat) (f : Sfifo → Sfifo) (s : State) :
    (setSfifo die f s).counts = s.counts := rfl
@[simp] theorem setSfifo_out (die : Nat) (f : Sfifo → Sfifo) (s : State) :
    (setSfifo die f s).out = s.out := rfl
@[simp] theorem setSfifo_free (die : Nat) (f : Sfifo → Sfifo) (s : State) :
    (setSfifo die f s).free = s.free := rfl
@[simp] theorem setSfifo_pending (die : Nat) (f : Sfifo → Sfifo) (s : State) :
    (setSfifo die f s).pending = s.pending := rfl

/-! ## A programmable counter -/

@[simp] theorem setPctr_grade (die i : Nat) (f : Pctr → Pctr) (s : State) :
    (setPctr die i f s).grade = s.grade := rfl
@[simp] theorem setPctr_time (die i : Nat) (f : Pctr → Pctr) (s : State) :
    (setPctr die i f s).time = s.time := rfl
@[simp] theorem setPctr_mesh (die i : Nat) (f : Pctr → Pctr) (s : State) :
    (setPctr die i f s).mesh = s.mesh := rfl
@[simp] theorem setPctr_q (die i : Nat) (f : Pctr → Pctr) (s : State) :
    (setPctr die i f s).q = s.q := rfl
@[simp] theorem setPctr_conn (die i : Nat) (f : Pctr → Pctr) (s : State) :
    (setPctr die i f s).conn = s.conn := rfl
@[simp] theorem setPctr_xl (die i : Nat) (f : Pctr → Pctr) (s : State) :
    (setPctr die i f s).xl = s.xl := rfl
@[simp] theorem setPctr_coll (die i : Nat) (f : Pctr → Pctr) (s : State) :
    (setPctr die i f s).coll = s.coll := rfl
@[simp] theorem setPctr_ar (die i : Nat) (f : Pctr → Pctr) (s : State) :
    (setPctr die i f s).ar = s.ar := rfl
@[simp] theorem setPctr_fab (die i : Nat) (f : Pctr → Pctr) (s : State) :
    (setPctr die i f s).fab = s.fab := rfl
@[simp] theorem setPctr_link (die i : Nat) (f : Pctr → Pctr) (s : State) :
    (setPctr die i f s).link = s.link := rfl
@[simp] theorem setPctr_mem (die i : Nat) (f : Pctr → Pctr) (s : State) :
    (setPctr die i f s).mem = s.mem := rfl
@[simp] theorem setPctr_part (die i : Nat) (f : Pctr → Pctr) (s : State) :
    (setPctr die i f s).part = s.part := rfl
@[simp] theorem setPctr_far (die i : Nat) (f : Pctr → Pctr) (s : State) :
    (setPctr die i f s).far = s.far := rfl
@[simp] theorem setPctr_mgr (die i : Nat) (f : Pctr → Pctr) (s : State) :
    (setPctr die i f s).mgr = s.mgr := rfl
@[simp] theorem setPctr_sec (die i : Nat) (f : Pctr → Pctr) (s : State) :
    (setPctr die i f s).sec = s.sec := rfl
@[simp] theorem setPctr_mtr (die i : Nat) (f : Pctr → Pctr) (s : State) :
    (setPctr die i f s).mtr = s.mtr := rfl
@[simp] theorem setPctr_obs (die i : Nat) (f : Pctr → Pctr) (s : State) :
    (setPctr die i f s).obs = { s.obs with pctr := tmodD s.obs.pctr (64 * die + i) {} f } := rfl
@[simp] theorem setPctr_pow (die i : Nat) (f : Pctr → Pctr) (s : State) :
    (setPctr die i f s).pow = s.pow := rfl
@[simp] theorem setPctr_elec (die i : Nat) (f : Pctr → Pctr) (s : State) :
    (setPctr die i f s).elec = s.elec := rfl
@[simp] theorem setPctr_dict (die i : Nat) (f : Pctr → Pctr) (s : State) :
    (setPctr die i f s).dict = s.dict := rfl
@[simp] theorem setPctr_inForce (die i : Nat) (f : Pctr → Pctr) (s : State) :
    (setPctr die i f s).inForce = s.inForce := rfl
@[simp] theorem setPctr_counts (die i : Nat) (f : Pctr → Pctr) (s : State) :
    (setPctr die i f s).counts = s.counts := rfl
@[simp] theorem setPctr_out (die i : Nat) (f : Pctr → Pctr) (s : State) :
    (setPctr die i f s).out = s.out := rfl
@[simp] theorem setPctr_free (die i : Nat) (f : Pctr → Pctr) (s : State) :
    (setPctr die i f s).free = s.free := rfl
@[simp] theorem setPctr_pending (die i : Nat) (f : Pctr → Pctr) (s : State) :
    (setPctr die i f s).pending = s.pending := rfl

/-! ## The power state -/

@[simp] theorem setPow_grade (f : PowSt → PowSt) (s : State) :
    (setPow f s).grade = s.grade := rfl
@[simp] theorem setPow_time (f : PowSt → PowSt) (s : State) :
    (setPow f s).time = s.time := rfl
@[simp] theorem setPow_mesh (f : PowSt → PowSt) (s : State) :
    (setPow f s).mesh = s.mesh := rfl
@[simp] theorem setPow_q (f : PowSt → PowSt) (s : State) :
    (setPow f s).q = s.q := rfl
@[simp] theorem setPow_conn (f : PowSt → PowSt) (s : State) :
    (setPow f s).conn = s.conn := rfl
@[simp] theorem setPow_xl (f : PowSt → PowSt) (s : State) :
    (setPow f s).xl = s.xl := rfl
@[simp] theorem setPow_coll (f : PowSt → PowSt) (s : State) :
    (setPow f s).coll = s.coll := rfl
@[simp] theorem setPow_ar (f : PowSt → PowSt) (s : State) :
    (setPow f s).ar = s.ar := rfl
@[simp] theorem setPow_fab (f : PowSt → PowSt) (s : State) :
    (setPow f s).fab = s.fab := rfl
@[simp] theorem setPow_link (f : PowSt → PowSt) (s : State) :
    (setPow f s).link = s.link := rfl
@[simp] theorem setPow_mem (f : PowSt → PowSt) (s : State) :
    (setPow f s).mem = s.mem := rfl
@[simp] theorem setPow_part (f : PowSt → PowSt) (s : State) :
    (setPow f s).part = s.part := rfl
@[simp] theorem setPow_far (f : PowSt → PowSt) (s : State) :
    (setPow f s).far = s.far := rfl
@[simp] theorem setPow_mgr (f : PowSt → PowSt) (s : State) :
    (setPow f s).mgr = s.mgr := rfl
@[simp] theorem setPow_sec (f : PowSt → PowSt) (s : State) :
    (setPow f s).sec = s.sec := rfl
@[simp] theorem setPow_mtr (f : PowSt → PowSt) (s : State) :
    (setPow f s).mtr = s.mtr := rfl
@[simp] theorem setPow_obs (f : PowSt → PowSt) (s : State) :
    (setPow f s).obs = s.obs := rfl
@[simp] theorem setPow_pow (f : PowSt → PowSt) (s : State) :
    (setPow f s).pow = f s.pow := rfl
@[simp] theorem setPow_elec (f : PowSt → PowSt) (s : State) :
    (setPow f s).elec = s.elec := rfl
@[simp] theorem setPow_dict (f : PowSt → PowSt) (s : State) :
    (setPow f s).dict = s.dict := rfl
@[simp] theorem setPow_inForce (f : PowSt → PowSt) (s : State) :
    (setPow f s).inForce = s.inForce := rfl
@[simp] theorem setPow_counts (f : PowSt → PowSt) (s : State) :
    (setPow f s).counts = s.counts := rfl
@[simp] theorem setPow_out (f : PowSt → PowSt) (s : State) :
    (setPow f s).out = s.out := rfl
@[simp] theorem setPow_free (f : PowSt → PowSt) (s : State) :
    (setPow f s).free = s.free := rfl
@[simp] theorem setPow_pending (f : PowSt → PowSt) (s : State) :
    (setPow f s).pending = s.pending := rfl

/-! ## The electrical state -/

@[simp] theorem setElec_grade (f : ElecSt → ElecSt) (s : State) :
    (setElec f s).grade = s.grade := rfl
@[simp] theorem setElec_time (f : ElecSt → ElecSt) (s : State) :
    (setElec f s).time = s.time := rfl
@[simp] theorem setElec_mesh (f : ElecSt → ElecSt) (s : State) :
    (setElec f s).mesh = s.mesh := rfl
@[simp] theorem setElec_q (f : ElecSt → ElecSt) (s : State) :
    (setElec f s).q = s.q := rfl
@[simp] theorem setElec_conn (f : ElecSt → ElecSt) (s : State) :
    (setElec f s).conn = s.conn := rfl
@[simp] theorem setElec_xl (f : ElecSt → ElecSt) (s : State) :
    (setElec f s).xl = s.xl := rfl
@[simp] theorem setElec_coll (f : ElecSt → ElecSt) (s : State) :
    (setElec f s).coll = s.coll := rfl
@[simp] theorem setElec_ar (f : ElecSt → ElecSt) (s : State) :
    (setElec f s).ar = s.ar := rfl
@[simp] theorem setElec_fab (f : ElecSt → ElecSt) (s : State) :
    (setElec f s).fab = s.fab := rfl
@[simp] theorem setElec_link (f : ElecSt → ElecSt) (s : State) :
    (setElec f s).link = s.link := rfl
@[simp] theorem setElec_mem (f : ElecSt → ElecSt) (s : State) :
    (setElec f s).mem = s.mem := rfl
@[simp] theorem setElec_part (f : ElecSt → ElecSt) (s : State) :
    (setElec f s).part = s.part := rfl
@[simp] theorem setElec_far (f : ElecSt → ElecSt) (s : State) :
    (setElec f s).far = s.far := rfl
@[simp] theorem setElec_mgr (f : ElecSt → ElecSt) (s : State) :
    (setElec f s).mgr = s.mgr := rfl
@[simp] theorem setElec_sec (f : ElecSt → ElecSt) (s : State) :
    (setElec f s).sec = s.sec := rfl
@[simp] theorem setElec_mtr (f : ElecSt → ElecSt) (s : State) :
    (setElec f s).mtr = s.mtr := rfl
@[simp] theorem setElec_obs (f : ElecSt → ElecSt) (s : State) :
    (setElec f s).obs = s.obs := rfl
@[simp] theorem setElec_pow (f : ElecSt → ElecSt) (s : State) :
    (setElec f s).pow = s.pow := rfl
@[simp] theorem setElec_elec (f : ElecSt → ElecSt) (s : State) :
    (setElec f s).elec = f s.elec := rfl
@[simp] theorem setElec_dict (f : ElecSt → ElecSt) (s : State) :
    (setElec f s).dict = s.dict := rfl
@[simp] theorem setElec_inForce (f : ElecSt → ElecSt) (s : State) :
    (setElec f s).inForce = s.inForce := rfl
@[simp] theorem setElec_counts (f : ElecSt → ElecSt) (s : State) :
    (setElec f s).counts = s.counts := rfl
@[simp] theorem setElec_out (f : ElecSt → ElecSt) (s : State) :
    (setElec f s).out = s.out := rfl
@[simp] theorem setElec_free (f : ElecSt → ElecSt) (s : State) :
    (setElec f s).free = s.free := rfl
@[simp] theorem setElec_pending (f : ElecSt → ElecSt) (s : State) :
    (setElec f s).pending = s.pending := rfl

/-! ## What the records read as -/

theorem wqOf_setWq (wq k : Nat) (f : WorkQueue → WorkQueue) (s : State) :
    wqOf (setWq wq f s) k = if k = wq then f (wqOf s wq) else wqOf s k := by
  simp [wqOf, tgetD_tmodD_eq]

@[simp] theorem wqOf_setWq_self (wq : Nat) (f : WorkQueue → WorkQueue) (s : State) : wqOf (setWq wq f s) wq = f (wqOf s wq) := by
  simp [wqOf_setWq]

theorem wqOf_setWq_ne {wq k : Nat} (h : k ≠ wq) (f : WorkQueue → WorkQueue) (s : State) : wqOf (setWq wq f s) k = wqOf s k := by
  simp [wqOf_setWq, h]

theorem cqOf_setCq (cq k : Nat) (f : ComplQueue → ComplQueue) (s : State) :
    cqOf (setCq cq f s) k = if k = cq then f (cqOf s cq) else cqOf s k := by
  simp [cqOf, tgetD_tmodD_eq]

@[simp] theorem cqOf_setCq_self (cq : Nat) (f : ComplQueue → ComplQueue) (s : State) : cqOf (setCq cq f s) cq = f (cqOf s cq) := by
  simp [cqOf_setCq]

@[simp] theorem wqOf_setCq (cq k : Nat) (f : ComplQueue → ComplQueue) (s : State) : wqOf (setCq cq f s) k = wqOf s k := rfl

@[simp] theorem cqOf_setWq (wq k : Nat) (f : WorkQueue → WorkQueue) (s : State) : cqOf (setWq wq f s) k = cqOf s k := rfl

@[simp] theorem wqOf_setWindow (p k : Nat) (f : Window → Window) (s : State) : wqOf (setWindow p f s) k = wqOf s k := rfl

@[simp] theorem cqOf_setWindow (p k : Nat) (f : Window → Window) (s : State) : cqOf (setWindow p f s) k = cqOf s k := rfl

theorem endOf_setEnd (h k : Nat) (f : End → End) (s : State) (hs : (tget s.conn.ends h).isSome = true) :
    endOf (setEnd h f s) k = if k = h then f (endOf s h) else endOf s k := by
  obtain ⟨e, he⟩ := Option.isSome_iff_exists.mp hs
  by_cases hk : k = h
  · subst hk; simp [endOf, tgetD_eq, he]
  · simp [endOf, tgetD_eq, tget_tmod_eq, hk]

theorem endOf_setEnd_ne {h k : Nat} (hk : k ≠ h) (f : End → End) (s : State) : endOf (setEnd h f s) k = endOf s k := by
  simp [endOf, tgetD_eq, tget_tmod_eq, hk]

theorem portOf_setPort (p k : Nat) (f : Port → Port) (s : State) :
    portOf (setPort p f s) k = if k = p then f (portOf s p) else portOf s k := by
  simp [portOf, tgetD_tmodD_eq]

@[simp] theorem portOf_setPort_self (p : Nat) (f : Port → Port) (s : State) : portOf (setPort p f s) p = f (portOf s p) := by
  simp [portOf_setPort]

theorem partOf_setPart (p k : Nat) (f : Part → Part) (s : State) :
    partOf (setPart p f s) k = if k = p then f (partOf s p) else partOf s k := by
  simp [partOf, tgetD_tmodD_eq]

@[simp] theorem partOf_setPart_self (p : Nat) (f : Part → Part) (s : State) : partOf (setPart p f s) p = f (partOf s p) := by
  simp [partOf_setPart]

theorem edradOf_setEdrad (link k : Nat) (f : Edrad → Edrad) (s : State) :
    edradOf (setEdrad link f s) k = if k = link then f (edradOf s link) else edradOf s k := by
  simp [edradOf, tgetD_tmodD_eq]

@[simp] theorem edradOf_setEdrad_self (link : Nat) (f : Edrad → Edrad) (s : State) :
    edradOf (setEdrad link f s) link = f (edradOf s link) := by
  simp [edradOf_setEdrad]

theorem accelOf_setAccel (e k : Nat) (f : Accel → Accel) (s : State) :
    accelOf (setAccel e f s) k = if k = e then f (accelOf s e) else accelOf s k := by
  simp [accelOf, tgetD_tmodD_eq]

@[simp] theorem accelOf_setAccel_self (e : Nat) (f : Accel → Accel) (s : State) : accelOf (setAccel e f s) e = f (accelOf s e) := by
  simp [accelOf_setAccel]

theorem chanOf_setChan (die slot d k : Nat) (f : Chan → Chan) (s : State) :
    chanOf (setChan die slot f s) d k = if 8 * d + k = 8 * die + slot then f (chanOf s die slot) else chanOf s d k := by
  simp [chanOf, tgetD_tmodD_eq]

theorem pctrOf_setPctr (die i d k : Nat) (f : Pctr → Pctr) (s : State) :
    pctrOf (setPctr die i f s) d k = if 64 * d + k = 64 * die + i then f (pctrOf s die i) else pctrOf s d k := by
  simp [pctrOf, tgetD_tmodD_eq]

end Sys2Proof.Machine
end

