-- ==== Sys2Proof/Laws/State.lean ====
section
/-! SUPPORT. What each update of the state leaves as it was, field by field, and what it writes. -/

namespace Sys2Proof.Machine

/-! ## What leaves the device -/

@[simp] theorem State.emit_grade (s : State) (o : Out) :
    (s.emit o).grade = s.grade := rfl
@[simp] theorem State.emit_time (s : State) (o : Out) :
    (s.emit o).time = s.time := rfl
@[simp] theorem State.emit_mesh (s : State) (o : Out) :
    (s.emit o).mesh = s.mesh := rfl
@[simp] theorem State.emit_q (s : State) (o : Out) :
    (s.emit o).q = s.q := rfl
@[simp] theorem State.emit_conn (s : State) (o : Out) :
    (s.emit o).conn = s.conn := rfl
@[simp] theorem State.emit_xl (s : State) (o : Out) :
    (s.emit o).xl = s.xl := rfl
@[simp] theorem State.emit_coll (s : State) (o : Out) :
    (s.emit o).coll = s.coll := rfl
@[simp] theorem State.emit_ar (s : State) (o : Out) :
    (s.emit o).ar = s.ar := rfl
@[simp] theorem State.emit_fab (s : State) (o : Out) :
    (s.emit o).fab = s.fab := rfl
@[simp] theorem State.emit_link (s : State) (o : Out) :
    (s.emit o).link = s.link := rfl
@[simp] theorem State.emit_mem (s : State) (o : Out) :
    (s.emit o).mem = s.mem := rfl
@[simp] theorem State.emit_part (s : State) (o : Out) :
    (s.emit o).part = s.part := rfl
@[simp] theorem State.emit_far (s : State) (o : Out) :
    (s.emit o).far = s.far := rfl
@[simp] theorem State.emit_mgr (s : State) (o : Out) :
    (s.emit o).mgr = s.mgr := rfl
@[simp] theorem State.emit_sec (s : State) (o : Out) :
    (s.emit o).sec = s.sec := rfl
@[simp] theorem State.emit_mtr (s : State) (o : Out) :
    (s.emit o).mtr = s.mtr := rfl
@[simp] theorem State.emit_obs (s : State) (o : Out) :
    (s.emit o).obs = s.obs := rfl
@[simp] theorem State.emit_pow (s : State) (o : Out) :
    (s.emit o).pow = s.pow := rfl
@[simp] theorem State.emit_elec (s : State) (o : Out) :
    (s.emit o).elec = s.elec := rfl
@[simp] theorem State.emit_dict (s : State) (o : Out) :
    (s.emit o).dict = s.dict := rfl
@[simp] theorem State.emit_inForce (s : State) (o : Out) :
    (s.emit o).inForce = s.inForce := rfl
@[simp] theorem State.emit_counts (s : State) (o : Out) :
    (s.emit o).counts = s.counts := rfl
@[simp] theorem State.emit_out (s : State) (o : Out) :
    (s.emit o).out = o :: s.out := rfl
@[simp] theorem State.emit_free (s : State) (o : Out) :
    (s.emit o).free = s.free := rfl
@[simp] theorem State.emit_pending (s : State) (o : Out) :
    (s.emit o).pending = s.pending := rfl

@[simp] theorem State.emits_grade (s : State) (os : List Out) :
    (s.emits os).grade = s.grade := rfl
@[simp] theorem State.emits_time (s : State) (os : List Out) :
    (s.emits os).time = s.time := rfl
@[simp] theorem State.emits_mesh (s : State) (os : List Out) :
    (s.emits os).mesh = s.mesh := rfl
@[simp] theorem State.emits_q (s : State) (os : List Out) :
    (s.emits os).q = s.q := rfl
@[simp] theorem State.emits_conn (s : State) (os : List Out) :
    (s.emits os).conn = s.conn := rfl
@[simp] theorem State.emits_xl (s : State) (os : List Out) :
    (s.emits os).xl = s.xl := rfl
@[simp] theorem State.emits_coll (s : State) (os : List Out) :
    (s.emits os).coll = s.coll := rfl
@[simp] theorem State.emits_ar (s : State) (os : List Out) :
    (s.emits os).ar = s.ar := rfl
@[simp] theorem State.emits_fab (s : State) (os : List Out) :
    (s.emits os).fab = s.fab := rfl
@[simp] theorem State.emits_link (s : State) (os : List Out) :
    (s.emits os).link = s.link := rfl
@[simp] theorem State.emits_mem (s : State) (os : List Out) :
    (s.emits os).mem = s.mem := rfl
@[simp] theorem State.emits_part (s : State) (os : List Out) :
    (s.emits os).part = s.part := rfl
@[simp] theorem State.emits_far (s : State) (os : List Out) :
    (s.emits os).far = s.far := rfl
@[simp] theorem State.emits_mgr (s : State) (os : List Out) :
    (s.emits os).mgr = s.mgr := rfl
@[simp] theorem State.emits_sec (s : State) (os : List Out) :
    (s.emits os).sec = s.sec := rfl
@[simp] theorem State.emits_mtr (s : State) (os : List Out) :
    (s.emits os).mtr = s.mtr := rfl
@[simp] theorem State.emits_obs (s : State) (os : List Out) :
    (s.emits os).obs = s.obs := rfl
@[simp] theorem State.emits_pow (s : State) (os : List Out) :
    (s.emits os).pow = s.pow := rfl
@[simp] theorem State.emits_elec (s : State) (os : List Out) :
    (s.emits os).elec = s.elec := rfl
@[simp] theorem State.emits_dict (s : State) (os : List Out) :
    (s.emits os).dict = s.dict := rfl
@[simp] theorem State.emits_inForce (s : State) (os : List Out) :
    (s.emits os).inForce = s.inForce := rfl
@[simp] theorem State.emits_counts (s : State) (os : List Out) :
    (s.emits os).counts = s.counts := rfl
@[simp] theorem State.emits_out (s : State) (os : List Out) :
    (s.emits os).out = os.reverse ++ s.out := rfl
@[simp] theorem State.emits_free (s : State) (os : List Out) :
    (s.emits os).free = s.free := rfl
@[simp] theorem State.emits_pending (s : State) (os : List Out) :
    (s.emits os).pending = s.pending := rfl

/-! ## A free value drawn -/

@[simp] theorem draw_grade (s : State) :
    (draw s).2.grade = s.grade := rfl
@[simp] theorem draw_time (s : State) :
    (draw s).2.time = s.time := rfl
@[simp] theorem draw_mesh (s : State) :
    (draw s).2.mesh = s.mesh := rfl
@[simp] theorem draw_q (s : State) :
    (draw s).2.q = s.q := rfl
@[simp] theorem draw_conn (s : State) :
    (draw s).2.conn = s.conn := rfl
@[simp] theorem draw_xl (s : State) :
    (draw s).2.xl = s.xl := rfl
@[simp] theorem draw_coll (s : State) :
    (draw s).2.coll = s.coll := rfl
@[simp] theorem draw_ar (s : State) :
    (draw s).2.ar = s.ar := rfl
@[simp] theorem draw_fab (s : State) :
    (draw s).2.fab = s.fab := rfl
@[simp] theorem draw_link (s : State) :
    (draw s).2.link = s.link := rfl
@[simp] theorem draw_mem (s : State) :
    (draw s).2.mem = s.mem := rfl
@[simp] theorem draw_part (s : State) :
    (draw s).2.part = s.part := rfl
@[simp] theorem draw_far (s : State) :
    (draw s).2.far = s.far := rfl
@[simp] theorem draw_mgr (s : State) :
    (draw s).2.mgr = s.mgr := rfl
@[simp] theorem draw_sec (s : State) :
    (draw s).2.sec = s.sec := rfl
@[simp] theorem draw_mtr (s : State) :
    (draw s).2.mtr = s.mtr := rfl
@[simp] theorem draw_obs (s : State) :
    (draw s).2.obs = s.obs := rfl
@[simp] theorem draw_pow (s : State) :
    (draw s).2.pow = s.pow := rfl
@[simp] theorem draw_elec (s : State) :
    (draw s).2.elec = s.elec := rfl
@[simp] theorem draw_dict (s : State) :
    (draw s).2.dict = s.dict := rfl
@[simp] theorem draw_inForce (s : State) :
    (draw s).2.inForce = s.inForce := rfl
@[simp] theorem draw_counts (s : State) :
    (draw s).2.counts = s.counts := rfl
@[simp] theorem draw_out (s : State) :
    (draw s).2.out = s.out := rfl
@[simp] theorem draw_free (s : State) :
    (draw s).2.free = s.free + 1 := rfl
@[simp] theorem draw_pending (s : State) :
    (draw s).2.pending = s.pending := rfl

@[simp] theorem drawBytes_grade (n : Nat) (s : State) :
    (drawBytes n s).2.grade = s.grade := rfl
@[simp] theorem drawBytes_time (n : Nat) (s : State) :
    (drawBytes n s).2.time = s.time := rfl
@[simp] theorem drawBytes_mesh (n : Nat) (s : State) :
    (drawBytes n s).2.mesh = s.mesh := rfl
@[simp] theorem drawBytes_q (n : Nat) (s : State) :
    (drawBytes n s).2.q = s.q := rfl
@[simp] theorem drawBytes_conn (n : Nat) (s : State) :
    (drawBytes n s).2.conn = s.conn := rfl
@[simp] theorem drawBytes_xl (n : Nat) (s : State) :
    (drawBytes n s).2.xl = s.xl := rfl
@[simp] theorem drawBytes_coll (n : Nat) (s : State) :
    (drawBytes n s).2.coll = s.coll := rfl
@[simp] theorem drawBytes_ar (n : Nat) (s : State) :
    (drawBytes n s).2.ar = s.ar := rfl
@[simp] theorem drawBytes_fab (n : Nat) (s : State) :
    (drawBytes n s).2.fab = s.fab := rfl
@[simp] theorem drawBytes_link (n : Nat) (s : State) :
    (drawBytes n s).2.link = s.link := rfl
@[simp] theorem drawBytes_mem (n : Nat) (s : State) :
    (drawBytes n s).2.mem = s.mem := rfl
@[simp] theorem drawBytes_part (n : Nat) (s : State) :
    (drawBytes n s).2.part = s.part := rfl
@[simp] theorem drawBytes_far (n : Nat) (s : State) :
    (drawBytes n s).2.far = s.far := rfl
@[simp] theorem drawBytes_mgr (n : Nat) (s : State) :
    (drawBytes n s).2.mgr = s.mgr := rfl
@[simp] theorem drawBytes_sec (n : Nat) (s : State) :
    (drawBytes n s).2.sec = s.sec := rfl
@[simp] theorem drawBytes_mtr (n : Nat) (s : State) :
    (drawBytes n s).2.mtr = s.mtr := rfl
@[simp] theorem drawBytes_obs (n : Nat) (s : State) :
    (drawBytes n s).2.obs = s.obs := rfl
@[simp] theorem drawBytes_pow (n : Nat) (s : State) :
    (drawBytes n s).2.pow = s.pow := rfl
@[simp] theorem drawBytes_elec (n : Nat) (s : State) :
    (drawBytes n s).2.elec = s.elec := rfl
@[simp] theorem drawBytes_dict (n : Nat) (s : State) :
    (drawBytes n s).2.dict = s.dict := rfl
@[simp] theorem drawBytes_inForce (n : Nat) (s : State) :
    (drawBytes n s).2.inForce = s.inForce := rfl
@[simp] theorem drawBytes_counts (n : Nat) (s : State) :
    (drawBytes n s).2.counts = s.counts := rfl
@[simp] theorem drawBytes_out (n : Nat) (s : State) :
    (drawBytes n s).2.out = s.out := rfl
@[simp] theorem drawBytes_free (n : Nat) (s : State) :
    (drawBytes n s).2.free = s.free + n := rfl
@[simp] theorem drawBytes_pending (n : Nat) (s : State) :
    (drawBytes n s).2.pending = s.pending := rfl

/-! ## A setting written -/

@[simp] theorem setDict_grade (k : Nat) (v : List Byte) (s : State) :
    (setDict k v s).grade = s.grade := rfl
@[simp] theorem setDict_time (k : Nat) (v : List Byte) (s : State) :
    (setDict k v s).time = s.time := rfl
@[simp] theorem setDict_mesh (k : Nat) (v : List Byte) (s : State) :
    (setDict k v s).mesh = s.mesh := rfl
@[simp] theorem setDict_q (k : Nat) (v : List Byte) (s : State) :
    (setDict k v s).q = s.q := rfl
@[simp] theorem setDict_conn (k : Nat) (v : List Byte) (s : State) :
    (setDict k v s).conn = s.conn := rfl
@[simp] theorem setDict_xl (k : Nat) (v : List Byte) (s : State) :
    (setDict k v s).xl = s.xl := rfl
@[simp] theorem setDict_coll (k : Nat) (v : List Byte) (s : State) :
    (setDict k v s).coll = s.coll := rfl
@[simp] theorem setDict_ar (k : Nat) (v : List Byte) (s : State) :
    (setDict k v s).ar = s.ar := rfl
@[simp] theorem setDict_fab (k : Nat) (v : List Byte) (s : State) :
    (setDict k v s).fab = s.fab := rfl
@[simp] theorem setDict_link (k : Nat) (v : List Byte) (s : State) :
    (setDict k v s).link = s.link := rfl
@[simp] theorem setDict_mem (k : Nat) (v : List Byte) (s : State) :
    (setDict k v s).mem = s.mem := rfl
@[simp] theorem setDict_part (k : Nat) (v : List Byte) (s : State) :
    (setDict k v s).part = s.part := rfl
@[simp] theorem setDict_far (k : Nat) (v : List Byte) (s : State) :
    (setDict k v s).far = s.far := rfl
@[simp] theorem setDict_mgr (k : Nat) (v : List Byte) (s : State) :
    (setDict k v s).mgr = s.mgr := rfl
@[simp] theorem setDict_sec (k : Nat) (v : List Byte) (s : State) :
    (setDict k v s).sec = s.sec := rfl
@[simp] theorem setDict_mtr (k : Nat) (v : List Byte) (s : State) :
    (setDict k v s).mtr = s.mtr := rfl
@[simp] theorem setDict_obs (k : Nat) (v : List Byte) (s : State) :
    (setDict k v s).obs = s.obs := rfl
@[simp] theorem setDict_pow (k : Nat) (v : List Byte) (s : State) :
    (setDict k v s).pow = s.pow := rfl
@[simp] theorem setDict_elec (k : Nat) (v : List Byte) (s : State) :
    (setDict k v s).elec = s.elec := rfl
@[simp] theorem setDict_dict (k : Nat) (v : List Byte) (s : State) :
    (setDict k v s).dict = tset s.dict k v := rfl
@[simp] theorem setDict_inForce (k : Nat) (v : List Byte) (s : State) :
    (setDict k v s).inForce = s.inForce := rfl
@[simp] theorem setDict_counts (k : Nat) (v : List Byte) (s : State) :
    (setDict k v s).counts = s.counts := rfl
@[simp] theorem setDict_out (k : Nat) (v : List Byte) (s : State) :
    (setDict k v s).out = s.out := rfl
@[simp] theorem setDict_free (k : Nat) (v : List Byte) (s : State) :
    (setDict k v s).free = s.free := rfl
@[simp] theorem setDict_pending (k : Nat) (v : List Byte) (s : State) :
    (setDict k v s).pending = s.pending := rfl

/-! ## A count -/

@[simp] theorem bump_grade (key i n : Nat) (s : State) :
    (bump key i n s).grade = s.grade := rfl
@[simp] theorem bump_time (key i n : Nat) (s : State) :
    (bump key i n s).time = s.time := rfl
@[simp] theorem bump_mesh (key i n : Nat) (s : State) :
    (bump key i n s).mesh = s.mesh := rfl
@[simp] theorem bump_q (key i n : Nat) (s : State) :
    (bump key i n s).q = s.q := rfl
@[simp] theorem bump_conn (key i n : Nat) (s : State) :
    (bump key i n s).conn = s.conn := rfl
@[simp] theorem bump_xl (key i n : Nat) (s : State) :
    (bump key i n s).xl = s.xl := rfl
@[simp] theorem bump_coll (key i n : Nat) (s : State) :
    (bump key i n s).coll = s.coll := rfl
@[simp] theorem bump_ar (key i n : Nat) (s : State) :
    (bump key i n s).ar = s.ar := rfl
@[simp] theorem bump_fab (key i n : Nat) (s : State) :
    (bump key i n s).fab = s.fab := rfl
@[simp] theorem bump_link (key i n : Nat) (s : State) :
    (bump key i n s).link = s.link := rfl
@[simp] theorem bump_mem (key i n : Nat) (s : State) :
    (bump key i n s).mem = s.mem := rfl
@[simp] theorem bump_part (key i n : Nat) (s : State) :
    (bump key i n s).part = s.part := rfl
@[simp] theorem bump_far (key i n : Nat) (s : State) :
    (bump key i n s).far = s.far := rfl
@[simp] theorem bump_mgr (key i n : Nat) (s : State) :
    (bump key i n s).mgr = s.mgr := rfl
@[simp] theorem bump_sec (key i n : Nat) (s : State) :
    (bump key i n s).sec = s.sec := rfl
@[simp] theorem bump_mtr (key i n : Nat) (s : State) :
    (bump key i n s).mtr = s.mtr := rfl
@[simp] theorem bump_obs (key i n : Nat) (s : State) :
    (bump key i n s).obs = s.obs := rfl
@[simp] theorem bump_pow (key i n : Nat) (s : State) :
    (bump key i n s).pow = s.pow := rfl
@[simp] theorem bump_elec (key i n : Nat) (s : State) :
    (bump key i n s).elec = s.elec := rfl
@[simp] theorem bump_dict (key i n : Nat) (s : State) :
    (bump key i n s).dict = s.dict := rfl
@[simp] theorem bump_inForce (key i n : Nat) (s : State) :
    (bump key i n s).inForce = s.inForce := rfl
@[simp] theorem bump_counts (key i n : Nat) (s : State) :
    (bump key i n s).counts = tmodD s.counts key [] fun l => nmod l i fun x => sat64 x n := rfl
@[simp] theorem bump_out (key i n : Nat) (s : State) :
    (bump key i n s).out = s.out := rfl
@[simp] theorem bump_free (key i n : Nat) (s : State) :
    (bump key i n s).free = s.free := rfl
@[simp] theorem bump_pending (key i n : Nat) (s : State) :
    (bump key i n s).pending = s.pending := rfl

@[simp] theorem raise_grade (key i n : Nat) (s : State) :
    (raise key i n s).grade = s.grade := rfl
@[simp] theorem raise_time (key i n : Nat) (s : State) :
    (raise key i n s).time = s.time := rfl
@[simp] theorem raise_mesh (key i n : Nat) (s : State) :
    (raise key i n s).mesh = s.mesh := rfl
@[simp] theorem raise_q (key i n : Nat) (s : State) :
    (raise key i n s).q = s.q := rfl
@[simp] theorem raise_conn (key i n : Nat) (s : State) :
    (raise key i n s).conn = s.conn := rfl
@[simp] theorem raise_xl (key i n : Nat) (s : State) :
    (raise key i n s).xl = s.xl := rfl
@[simp] theorem raise_coll (key i n : Nat) (s : State) :
    (raise key i n s).coll = s.coll := rfl
@[simp] theorem raise_ar (key i n : Nat) (s : State) :
    (raise key i n s).ar = s.ar := rfl
@[simp] theorem raise_fab (key i n : Nat) (s : State) :
    (raise key i n s).fab = s.fab := rfl
@[simp] theorem raise_link (key i n : Nat) (s : State) :
    (raise key i n s).link = s.link := rfl
@[simp] theorem raise_mem (key i n : Nat) (s : State) :
    (raise key i n s).mem = s.mem := rfl
@[simp] theorem raise_part (key i n : Nat) (s : State) :
    (raise key i n s).part = s.part := rfl
@[simp] theorem raise_far (key i n : Nat) (s : State) :
    (raise key i n s).far = s.far := rfl
@[simp] theorem raise_mgr (key i n : Nat) (s : State) :
    (raise key i n s).mgr = s.mgr := rfl
@[simp] theorem raise_sec (key i n : Nat) (s : State) :
    (raise key i n s).sec = s.sec := rfl
@[simp] theorem raise_mtr (key i n : Nat) (s : State) :
    (raise key i n s).mtr = s.mtr := rfl
@[simp] theorem raise_obs (key i n : Nat) (s : State) :
    (raise key i n s).obs = s.obs := rfl
@[simp] theorem raise_pow (key i n : Nat) (s : State) :
    (raise key i n s).pow = s.pow := rfl
@[simp] theorem raise_elec (key i n : Nat) (s : State) :
    (raise key i n s).elec = s.elec := rfl
@[simp] theorem raise_dict (key i n : Nat) (s : State) :
    (raise key i n s).dict = s.dict := rfl
@[simp] theorem raise_inForce (key i n : Nat) (s : State) :
    (raise key i n s).inForce = s.inForce := rfl
@[simp] theorem raise_counts (key i n : Nat) (s : State) :
    (raise key i n s).counts = tmodD s.counts key [] fun l => nmod l i fun x => max x n := rfl
@[simp] theorem raise_out (key i n : Nat) (s : State) :
    (raise key i n s).out = s.out := rfl
@[simp] theorem raise_free (key i n : Nat) (s : State) :
    (raise key i n s).free = s.free := rfl
@[simp] theorem raise_pending (key i n : Nat) (s : State) :
    (raise key i n s).pending = s.pending := rfl

@[simp] theorem bumpFixed_grade (die i n : Nat) (s : State) :
    (bumpFixed die i n s).grade = s.grade := by
  unfold bumpFixed; split <;> rfl
@[simp] theorem bumpFixed_time (die i n : Nat) (s : State) :
    (bumpFixed die i n s).time = s.time := by
  unfold bumpFixed; split <;> rfl
@[simp] theorem bumpFixed_mesh (die i n : Nat) (s : State) :
    (bumpFixed die i n s).mesh = s.mesh := by
  unfold bumpFixed; split <;> rfl
@[simp] theorem bumpFixed_q (die i n : Nat) (s : State) :
    (bumpFixed die i n s).q = s.q := by
  unfold bumpFixed; split <;> rfl
@[simp] theorem bumpFixed_conn (die i n : Nat) (s : State) :
    (bumpFixed die i n s).conn = s.conn := by
  unfold bumpFixed; split <;> rfl
@[simp] theorem bumpFixed_xl (die i n : Nat) (s : State) :
    (bumpFixed die i n s).xl = s.xl := by
  unfold bumpFixed; split <;> rfl
@[simp] theorem bumpFixed_coll (die i n : Nat) (s : State) :
    (bumpFixed die i n s).coll = s.coll := by
  unfold bumpFixed; split <;> rfl
@[simp] theorem bumpFixed_ar (die i n : Nat) (s : State) :
    (bumpFixed die i n s).ar = s.ar := by
  unfold bumpFixed; split <;> rfl
@[simp] theorem bumpFixed_fab (die i n : Nat) (s : State) :
    (bumpFixed die i n s).fab = s.fab := by
  unfold bumpFixed; split <;> rfl
@[simp] theorem bumpFixed_link (die i n : Nat) (s : State) :
    (bumpFixed die i n s).link = s.link := by
  unfold bumpFixed; split <;> rfl
@[simp] theorem bumpFixed_mem (die i n : Nat) (s : State) :
    (bumpFixed die i n s).mem = s.mem := by
  unfold bumpFixed; split <;> rfl
@[simp] theorem bumpFixed_part (die i n : Nat) (s : State) :
    (bumpFixed die i n s).part = s.part := by
  unfold bumpFixed; split <;> rfl
@[simp] theorem bumpFixed_far (die i n : Nat) (s : State) :
    (bumpFixed die i n s).far = s.far := by
  unfold bumpFixed; split <;> rfl
@[simp] theorem bumpFixed_mgr (die i n : Nat) (s : State) :
    (bumpFixed die i n s).mgr = s.mgr := by
  unfold bumpFixed; split <;> rfl
@[simp] theorem bumpFixed_sec (die i n : Nat) (s : State) :
    (bumpFixed die i n s).sec = s.sec := by
  unfold bumpFixed; split <;> rfl
@[simp] theorem bumpFixed_mtr (die i n : Nat) (s : State) :
    (bumpFixed die i n s).mtr = s.mtr := by
  unfold bumpFixed; split <;> rfl
@[simp] theorem bumpFixed_obs (die i n : Nat) (s : State) :
    (bumpFixed die i n s).obs = s.obs := by
  unfold bumpFixed; split <;> rfl
@[simp] theorem bumpFixed_pow (die i n : Nat) (s : State) :
    (bumpFixed die i n s).pow = s.pow := by
  unfold bumpFixed; split <;> rfl
@[simp] theorem bumpFixed_elec (die i n : Nat) (s : State) :
    (bumpFixed die i n s).elec = s.elec := by
  unfold bumpFixed; split <;> rfl
@[simp] theorem bumpFixed_dict (die i n : Nat) (s : State) :
    (bumpFixed die i n s).dict = s.dict := by
  unfold bumpFixed; split <;> rfl
@[simp] theorem bumpFixed_inForce (die i n : Nat) (s : State) :
    (bumpFixed die i n s).inForce = s.inForce := by
  unfold bumpFixed; split <;> rfl
@[simp] theorem bumpFixed_out (die i n : Nat) (s : State) :
    (bumpFixed die i n s).out = s.out := by
  unfold bumpFixed; split <;> rfl
@[simp] theorem bumpFixed_free (die i n : Nat) (s : State) :
    (bumpFixed die i n s).free = s.free := by
  unfold bumpFixed; split <;> rfl
@[simp] theorem bumpFixed_pending (die i n : Nat) (s : State) :
    (bumpFixed die i n s).pending = s.pending := by
  unfold bumpFixed; split <;> rfl

@[simp] theorem bumpPart_grade (p i n : Nat) (s : State) :
    (bumpPart p i n s).grade = s.grade := by
  unfold bumpPart; split <;> rfl
@[simp] theorem bumpPart_time (p i n : Nat) (s : State) :
    (bumpPart p i n s).time = s.time := by
  unfold bumpPart; split <;> rfl
@[simp] theorem bumpPart_mesh (p i n : Nat) (s : State) :
    (bumpPart p i n s).mesh = s.mesh := by
  unfold bumpPart; split <;> rfl
@[simp] theorem bumpPart_q (p i n : Nat) (s : State) :
    (bumpPart p i n s).q = s.q := by
  unfold bumpPart; split <;> rfl
@[simp] theorem bumpPart_conn (p i n : Nat) (s : State) :
    (bumpPart p i n s).conn = s.conn := by
  unfold bumpPart; split <;> rfl
@[simp] theorem bumpPart_xl (p i n : Nat) (s : State) :
    (bumpPart p i n s).xl = s.xl := by
  unfold bumpPart; split <;> rfl
@[simp] theorem bumpPart_coll (p i n : Nat) (s : State) :
    (bumpPart p i n s).coll = s.coll := by
  unfold bumpPart; split <;> rfl
@[simp] theorem bumpPart_ar (p i n : Nat) (s : State) :
    (bumpPart p i n s).ar = s.ar := by
  unfold bumpPart; split <;> rfl
@[simp] theorem bumpPart_fab (p i n : Nat) (s : State) :
    (bumpPart p i n s).fab = s.fab := by
  unfold bumpPart; split <;> rfl
@[simp] theorem bumpPart_link (p i n : Nat) (s : State) :
    (bumpPart p i n s).link = s.link := by
  unfold bumpPart; split <;> rfl
@[simp] theorem bumpPart_mem (p i n : Nat) (s : State) :
    (bumpPart p i n s).mem = s.mem := by
  unfold bumpPart; split <;> rfl
@[simp] theorem bumpPart_part (p i n : Nat) (s : State) :
    (bumpPart p i n s).part = s.part := by
  unfold bumpPart; split <;> rfl
@[simp] theorem bumpPart_far (p i n : Nat) (s : State) :
    (bumpPart p i n s).far = s.far := by
  unfold bumpPart; split <;> rfl
@[simp] theorem bumpPart_mgr (p i n : Nat) (s : State) :
    (bumpPart p i n s).mgr = s.mgr := by
  unfold bumpPart; split <;> rfl
@[simp] theorem bumpPart_sec (p i n : Nat) (s : State) :
    (bumpPart p i n s).sec = s.sec := by
  unfold bumpPart; split <;> rfl
@[simp] theorem bumpPart_mtr (p i n : Nat) (s : State) :
    (bumpPart p i n s).mtr = s.mtr := by
  unfold bumpPart; split <;> rfl
@[simp] theorem bumpPart_obs (p i n : Nat) (s : State) :
    (bumpPart p i n s).obs = s.obs := by
  unfold bumpPart; split <;> rfl
@[simp] theorem bumpPart_pow (p i n : Nat) (s : State) :
    (bumpPart p i n s).pow = s.pow := by
  unfold bumpPart; split <;> rfl
@[simp] theorem bumpPart_elec (p i n : Nat) (s : State) :
    (bumpPart p i n s).elec = s.elec := by
  unfold bumpPart; split <;> rfl
@[simp] theorem bumpPart_dict (p i n : Nat) (s : State) :
    (bumpPart p i n s).dict = s.dict := by
  unfold bumpPart; split <;> rfl
@[simp] theorem bumpPart_inForce (p i n : Nat) (s : State) :
    (bumpPart p i n s).inForce = s.inForce := by
  unfold bumpPart; split <;> rfl
@[simp] theorem bumpPart_out (p i n : Nat) (s : State) :
    (bumpPart p i n s).out = s.out := by
  unfold bumpPart; split <;> rfl
@[simp] theorem bumpPart_free (p i n : Nat) (s : State) :
    (bumpPart p i n s).free = s.free := by
  unfold bumpPart; split <;> rfl
@[simp] theorem bumpPart_pending (p i n : Nat) (s : State) :
    (bumpPart p i n s).pending = s.pending := by
  unfold bumpPart; split <;> rfl

@[simp] theorem bumpConn_grade (die p i n : Nat) (s : State) :
    (bumpConn die p i n s).grade = s.grade := by
  unfold bumpConn; split <;> simp
@[simp] theorem bumpConn_time (die p i n : Nat) (s : State) :
    (bumpConn die p i n s).time = s.time := by
  unfold bumpConn; split <;> simp
@[simp] theorem bumpConn_mesh (die p i n : Nat) (s : State) :
    (bumpConn die p i n s).mesh = s.mesh := by
  unfold bumpConn; split <;> simp
@[simp] theorem bumpConn_q (die p i n : Nat) (s : State) :
    (bumpConn die p i n s).q = s.q := by
  unfold bumpConn; split <;> simp
@[simp] theorem bumpConn_conn (die p i n : Nat) (s : State) :
    (bumpConn die p i n s).conn = s.conn := by
  unfold bumpConn; split <;> simp
@[simp] theorem bumpConn_xl (die p i n : Nat) (s : State) :
    (bumpConn die p i n s).xl = s.xl := by
  unfold bumpConn; split <;> simp
@[simp] theorem bumpConn_coll (die p i n : Nat) (s : State) :
    (bumpConn die p i n s).coll = s.coll := by
  unfold bumpConn; split <;> simp
@[simp] theorem bumpConn_ar (die p i n : Nat) (s : State) :
    (bumpConn die p i n s).ar = s.ar := by
  unfold bumpConn; split <;> simp
@[simp] theorem bumpConn_fab (die p i n : Nat) (s : State) :
    (bumpConn die p i n s).fab = s.fab := by
  unfold bumpConn; split <;> simp
@[simp] theorem bumpConn_link (die p i n : Nat) (s : State) :
    (bumpConn die p i n s).link = s.link := by
  unfold bumpConn; split <;> simp
@[simp] theorem bumpConn_mem (die p i n : Nat) (s : State) :
    (bumpConn die p i n s).mem = s.mem := by
  unfold bumpConn; split <;> simp
@[simp] theorem bumpConn_part (die p i n : Nat) (s : State) :
    (bumpConn die p i n s).part = s.part := by
  unfold bumpConn; split <;> simp
@[simp] theorem bumpConn_far (die p i n : Nat) (s : State) :
    (bumpConn die p i n s).far = s.far := by
  unfold bumpConn; split <;> simp
@[simp] theorem bumpConn_mgr (die p i n : Nat) (s : State) :
    (bumpConn die p i n s).mgr = s.mgr := by
  unfold bumpConn; split <;> simp
@[simp] theorem bumpConn_sec (die p i n : Nat) (s : State) :
    (bumpConn die p i n s).sec = s.sec := by
  unfold bumpConn; split <;> simp
@[simp] theorem bumpConn_mtr (die p i n : Nat) (s : State) :
    (bumpConn die p i n s).mtr = s.mtr := by
  unfold bumpConn; split <;> simp
@[simp] theorem bumpConn_obs (die p i n : Nat) (s : State) :
    (bumpConn die p i n s).obs = s.obs := by
  unfold bumpConn; split <;> simp
@[simp] theorem bumpConn_pow (die p i n : Nat) (s : State) :
    (bumpConn die p i n s).pow = s.pow := by
  unfold bumpConn; split <;> simp
@[simp] theorem bumpConn_elec (die p i n : Nat) (s : State) :
    (bumpConn die p i n s).elec = s.elec := by
  unfold bumpConn; split <;> simp
@[simp] theorem bumpConn_dict (die p i n : Nat) (s : State) :
    (bumpConn die p i n s).dict = s.dict := by
  unfold bumpConn; split <;> simp
@[simp] theorem bumpConn_inForce (die p i n : Nat) (s : State) :
    (bumpConn die p i n s).inForce = s.inForce := by
  unfold bumpConn; split <;> simp
@[simp] theorem bumpConn_out (die p i n : Nat) (s : State) :
    (bumpConn die p i n s).out = s.out := by
  unfold bumpConn; split <;> simp
@[simp] theorem bumpConn_free (die p i n : Nat) (s : State) :
    (bumpConn die p i n s).free = s.free := by
  unfold bumpConn; split <;> simp
@[simp] theorem bumpConn_pending (die p i n : Nat) (s : State) :
    (bumpConn die p i n s).pending = s.pending := by
  unfold bumpConn; split <;> simp

@[simp] theorem bumpXlate_grade (die p i n : Nat) (s : State) :
    (bumpXlate die p i n s).grade = s.grade := by
  simp [bumpXlate]
@[simp] theorem bumpXlate_time (die p i n : Nat) (s : State) :
    (bumpXlate die p i n s).time = s.time := by
  simp [bumpXlate]
@[simp] theorem bumpXlate_mesh (die p i n : Nat) (s : State) :
    (bumpXlate die p i n s).mesh = s.mesh := by
  simp [bumpXlate]
@[simp] theorem bumpXlate_q (die p i n : Nat) (s : State) :
    (bumpXlate die p i n s).q = s.q := by
  simp [bumpXlate]
@[simp] theorem bumpXlate_conn (die p i n : Nat) (s : State) :
    (bumpXlate die p i n s).conn = s.conn := by
  simp [bumpXlate]
@[simp] theorem bumpXlate_xl (die p i n : Nat) (s : State) :
    (bumpXlate die p i n s).xl = s.xl := by
  simp [bumpXlate]
@[simp] theorem bumpXlate_coll (die p i n : Nat) (s : State) :
    (bumpXlate die p i n s).coll = s.coll := by
  simp [bumpXlate]
@[simp] theorem bumpXlate_ar (die p i n : Nat) (s : State) :
    (bumpXlate die p i n s).ar = s.ar := by
  simp [bumpXlate]
@[simp] theorem bumpXlate_fab (die p i n : Nat) (s : State) :
    (bumpXlate die p i n s).fab = s.fab := by
  simp [bumpXlate]
@[simp] theorem bumpXlate_link (die p i n : Nat) (s : State) :
    (bumpXlate die p i n s).link = s.link := by
  simp [bumpXlate]
@[simp] theorem bumpXlate_mem (die p i n : Nat) (s : State) :
    (bumpXlate die p i n s).mem = s.mem := by
  simp [bumpXlate]
@[simp] theorem bumpXlate_part (die p i n : Nat) (s : State) :
    (bumpXlate die p i n s).part = s.part := by
  simp [bumpXlate]
@[simp] theorem bumpXlate_far (die p i n : Nat) (s : State) :
    (bumpXlate die p i n s).far = s.far := by
  simp [bumpXlate]
@[simp] theorem bumpXlate_mgr (die p i n : Nat) (s : State) :
    (bumpXlate die p i n s).mgr = s.mgr := by
  simp [bumpXlate]
@[simp] theorem bumpXlate_sec (die p i n : Nat) (s : State) :
    (bumpXlate die p i n s).sec = s.sec := by
  simp [bumpXlate]
@[simp] theorem bumpXlate_mtr (die p i n : Nat) (s : State) :
    (bumpXlate die p i n s).mtr = s.mtr := by
  simp [bumpXlate]
@[simp] theorem bumpXlate_obs (die p i n : Nat) (s : State) :
    (bumpXlate die p i n s).obs = s.obs := by
  simp [bumpXlate]
@[simp] theorem bumpXlate_pow (die p i n : Nat) (s : State) :
    (bumpXlate die p i n s).pow = s.pow := by
  simp [bumpXlate]
@[simp] theorem bumpXlate_elec (die p i n : Nat) (s : State) :
    (bumpXlate die p i n s).elec = s.elec := by
  simp [bumpXlate]
@[simp] theorem bumpXlate_dict (die p i n : Nat) (s : State) :
    (bumpXlate die p i n s).dict = s.dict := by
  simp [bumpXlate]
@[simp] theorem bumpXlate_inForce (die p i n : Nat) (s : State) :
    (bumpXlate die p i n s).inForce = s.inForce := by
  simp [bumpXlate]
@[simp] theorem bumpXlate_out (die p i n : Nat) (s : State) :
    (bumpXlate die p i n s).out = s.out := by
  simp [bumpXlate]
@[simp] theorem bumpXlate_free (die p i n : Nat) (s : State) :
    (bumpXlate die p i n s).free = s.free := by
  simp [bumpXlate]
@[simp] theorem bumpXlate_pending (die p i n : Nat) (s : State) :
    (bumpXlate die p i n s).pending = s.pending := by
  simp [bumpXlate]

@[simp] theorem bumpColl_grade (die p i n : Nat) (s : State) :
    (bumpColl die p i n s).grade = s.grade := by
  unfold bumpColl; dsimp only; split <;> simp
@[simp] theorem bumpColl_time (die p i n : Nat) (s : State) :
    (bumpColl die p i n s).time = s.time := by
  unfold bumpColl; dsimp only; split <;> simp
@[simp] theorem bumpColl_mesh (die p i n : Nat) (s : State) :
    (bumpColl die p i n s).mesh = s.mesh := by
  unfold bumpColl; dsimp only; split <;> simp
@[simp] theorem bumpColl_q (die p i n : Nat) (s : State) :
    (bumpColl die p i n s).q = s.q := by
  unfold bumpColl; dsimp only; split <;> simp
@[simp] theorem bumpColl_conn (die p i n : Nat) (s : State) :
    (bumpColl die p i n s).conn = s.conn := by
  unfold bumpColl; dsimp only; split <;> simp
@[simp] theorem bumpColl_xl (die p i n : Nat) (s : State) :
    (bumpColl die p i n s).xl = s.xl := by
  unfold bumpColl; dsimp only; split <;> simp
@[simp] theorem bumpColl_coll (die p i n : Nat) (s : State) :
    (bumpColl die p i n s).coll = s.coll := by
  unfold bumpColl; dsimp only; split <;> simp
@[simp] theorem bumpColl_ar (die p i n : Nat) (s : State) :
    (bumpColl die p i n s).ar = s.ar := by
  unfold bumpColl; dsimp only; split <;> simp
@[simp] theorem bumpColl_fab (die p i n : Nat) (s : State) :
    (bumpColl die p i n s).fab = s.fab := by
  unfold bumpColl; dsimp only; split <;> simp
@[simp] theorem bumpColl_link (die p i n : Nat) (s : State) :
    (bumpColl die p i n s).link = s.link := by
  unfold bumpColl; dsimp only; split <;> simp
@[simp] theorem bumpColl_mem (die p i n : Nat) (s : State) :
    (bumpColl die p i n s).mem = s.mem := by
  unfold bumpColl; dsimp only; split <;> simp
@[simp] theorem bumpColl_part (die p i n : Nat) (s : State) :
    (bumpColl die p i n s).part = s.part := by
  unfold bumpColl; dsimp only; split <;> simp
@[simp] theorem bumpColl_far (die p i n : Nat) (s : State) :
    (bumpColl die p i n s).far = s.far := by
  unfold bumpColl; dsimp only; split <;> simp
@[simp] theorem bumpColl_mgr (die p i n : Nat) (s : State) :
    (bumpColl die p i n s).mgr = s.mgr := by
  unfold bumpColl; dsimp only; split <;> simp
@[simp] theorem bumpColl_sec (die p i n : Nat) (s : State) :
    (bumpColl die p i n s).sec = s.sec := by
  unfold bumpColl; dsimp only; split <;> simp
@[simp] theorem bumpColl_mtr (die p i n : Nat) (s : State) :
    (bumpColl die p i n s).mtr = s.mtr := by
  unfold bumpColl; dsimp only; split <;> simp
@[simp] theorem bumpColl_obs (die p i n : Nat) (s : State) :
    (bumpColl die p i n s).obs = s.obs := by
  unfold bumpColl; dsimp only; split <;> simp
@[simp] theorem bumpColl_pow (die p i n : Nat) (s : State) :
    (bumpColl die p i n s).pow = s.pow := by
  unfold bumpColl; dsimp only; split <;> simp
@[simp] theorem bumpColl_elec (die p i n : Nat) (s : State) :
    (bumpColl die p i n s).elec = s.elec := by
  unfold bumpColl; dsimp only; split <;> simp
@[simp] theorem bumpColl_dict (die p i n : Nat) (s : State) :
    (bumpColl die p i n s).dict = s.dict := by
  unfold bumpColl; dsimp only; split <;> simp
@[simp] theorem bumpColl_inForce (die p i n : Nat) (s : State) :
    (bumpColl die p i n s).inForce = s.inForce := by
  unfold bumpColl; dsimp only; split <;> simp
@[simp] theorem bumpColl_out (die p i n : Nat) (s : State) :
    (bumpColl die p i n s).out = s.out := by
  unfold bumpColl; dsimp only; split <;> simp
@[simp] theorem bumpColl_free (die p i n : Nat) (s : State) :
    (bumpColl die p i n s).free = s.free := by
  unfold bumpColl; dsimp only; split <;> simp
@[simp] theorem bumpColl_pending (die p i n : Nat) (s : State) :
    (bumpColl die p i n s).pending = s.pending := by
  unfold bumpColl; dsimp only; split <;> simp

@[simp] theorem bumpArith_grade (die p i n : Nat) (s : State) :
    (bumpArith die p i n s).grade = s.grade := by
  unfold bumpArith; dsimp only; split <;> simp
@[simp] theorem bumpArith_time (die p i n : Nat) (s : State) :
    (bumpArith die p i n s).time = s.time := by
  unfold bumpArith; dsimp only; split <;> simp
@[simp] theorem bumpArith_mesh (die p i n : Nat) (s : State) :
    (bumpArith die p i n s).mesh = s.mesh := by
  unfold bumpArith; dsimp only; split <;> simp
@[simp] theorem bumpArith_q (die p i n : Nat) (s : State) :
    (bumpArith die p i n s).q = s.q := by
  unfold bumpArith; dsimp only; split <;> simp
@[simp] theorem bumpArith_conn (die p i n : Nat) (s : State) :
    (bumpArith die p i n s).conn = s.conn := by
  unfold bumpArith; dsimp only; split <;> simp
@[simp] theorem bumpArith_xl (die p i n : Nat) (s : State) :
    (bumpArith die p i n s).xl = s.xl := by
  unfold bumpArith; dsimp only; split <;> simp
@[simp] theorem bumpArith_coll (die p i n : Nat) (s : State) :
    (bumpArith die p i n s).coll = s.coll := by
  unfold bumpArith; dsimp only; split <;> simp
@[simp] theorem bumpArith_ar (die p i n : Nat) (s : State) :
    (bumpArith die p i n s).ar = s.ar := by
  unfold bumpArith; dsimp only; split <;> simp
@[simp] theorem bumpArith_fab (die p i n : Nat) (s : State) :
    (bumpArith die p i n s).fab = s.fab := by
  unfold bumpArith; dsimp only; split <;> simp
@[simp] theorem bumpArith_link (die p i n : Nat) (s : State) :
    (bumpArith die p i n s).link = s.link := by
  unfold bumpArith; dsimp only; split <;> simp
@[simp] theorem bumpArith_mem (die p i n : Nat) (s : State) :
    (bumpArith die p i n s).mem = s.mem := by
  unfold bumpArith; dsimp only; split <;> simp
@[simp] theorem bumpArith_part (die p i n : Nat) (s : State) :
    (bumpArith die p i n s).part = s.part := by
  unfold bumpArith; dsimp only; split <;> simp
@[simp] theorem bumpArith_far (die p i n : Nat) (s : State) :
    (bumpArith die p i n s).far = s.far := by
  unfold bumpArith; dsimp only; split <;> simp
@[simp] theorem bumpArith_mgr (die p i n : Nat) (s : State) :
    (bumpArith die p i n s).mgr = s.mgr := by
  unfold bumpArith; dsimp only; split <;> simp
@[simp] theorem bumpArith_sec (die p i n : Nat) (s : State) :
    (bumpArith die p i n s).sec = s.sec := by
  unfold bumpArith; dsimp only; split <;> simp
@[simp] theorem bumpArith_mtr (die p i n : Nat) (s : State) :
    (bumpArith die p i n s).mtr = s.mtr := by
  unfold bumpArith; dsimp only; split <;> simp
@[simp] theorem bumpArith_obs (die p i n : Nat) (s : State) :
    (bumpArith die p i n s).obs = s.obs := by
  unfold bumpArith; dsimp only; split <;> simp
@[simp] theorem bumpArith_pow (die p i n : Nat) (s : State) :
    (bumpArith die p i n s).pow = s.pow := by
  unfold bumpArith; dsimp only; split <;> simp
@[simp] theorem bumpArith_elec (die p i n : Nat) (s : State) :
    (bumpArith die p i n s).elec = s.elec := by
  unfold bumpArith; dsimp only; split <;> simp
@[simp] theorem bumpArith_dict (die p i n : Nat) (s : State) :
    (bumpArith die p i n s).dict = s.dict := by
  unfold bumpArith; dsimp only; split <;> simp
@[simp] theorem bumpArith_inForce (die p i n : Nat) (s : State) :
    (bumpArith die p i n s).inForce = s.inForce := by
  unfold bumpArith; dsimp only; split <;> simp
@[simp] theorem bumpArith_out (die p i n : Nat) (s : State) :
    (bumpArith die p i n s).out = s.out := by
  unfold bumpArith; dsimp only; split <;> simp
@[simp] theorem bumpArith_free (die p i n : Nat) (s : State) :
    (bumpArith die p i n s).free = s.free := by
  unfold bumpArith; dsimp only; split <;> simp
@[simp] theorem bumpArith_pending (die p i n : Nat) (s : State) :
    (bumpArith die p i n s).pending = s.pending := by
  unfold bumpArith; dsimp only; split <;> simp

/-! ## A programmable counter -/

@[simp] theorem tally_grade (src n : Nat) (w : Who) (s : State) :
    (tally src n w s).grade = s.grade := rfl
@[simp] theorem tally_time (src n : Nat) (w : Who) (s : State) :
    (tally src n w s).time = s.time := rfl
@[simp] theorem tally_mesh (src n : Nat) (w : Who) (s : State) :
    (tally src n w s).mesh = s.mesh := rfl
@[simp] theorem tally_q (src n : Nat) (w : Who) (s : State) :
    (tally src n w s).q = s.q := rfl
@[simp] theorem tally_conn (src n : Nat) (w : Who) (s : State) :
    (tally src n w s).conn = s.conn := rfl
@[simp] theorem tally_xl (src n : Nat) (w : Who) (s : State) :
    (tally src n w s).xl = s.xl := rfl
@[simp] theorem tally_coll (src n : Nat) (w : Who) (s : State) :
    (tally src n w s).coll = s.coll := rfl
@[simp] theorem tally_ar (src n : Nat) (w : Who) (s : State) :
    (tally src n w s).ar = s.ar := rfl
@[simp] theorem tally_fab (src n : Nat) (w : Who) (s : State) :
    (tally src n w s).fab = s.fab := rfl
@[simp] theorem tally_link (src n : Nat) (w : Who) (s : State) :
    (tally src n w s).link = s.link := rfl
@[simp] theorem tally_mem (src n : Nat) (w : Who) (s : State) :
    (tally src n w s).mem = s.mem := rfl
@[simp] theorem tally_part (src n : Nat) (w : Who) (s : State) :
    (tally src n w s).part = s.part := rfl
@[simp] theorem tally_far (src n : Nat) (w : Who) (s : State) :
    (tally src n w s).far = s.far := rfl
@[simp] theorem tally_mgr (src n : Nat) (w : Who) (s : State) :
    (tally src n w s).mgr = s.mgr := rfl
@[simp] theorem tally_sec (src n : Nat) (w : Who) (s : State) :
    (tally src n w s).sec = s.sec := rfl
@[simp] theorem tally_mtr (src n : Nat) (w : Who) (s : State) :
    (tally src n w s).mtr = s.mtr := rfl
@[simp] theorem tally_pow (src n : Nat) (w : Who) (s : State) :
    (tally src n w s).pow = s.pow := rfl
@[simp] theorem tally_elec (src n : Nat) (w : Who) (s : State) :
    (tally src n w s).elec = s.elec := rfl
@[simp] theorem tally_dict (src n : Nat) (w : Who) (s : State) :
    (tally src n w s).dict = s.dict := rfl
@[simp] theorem tally_inForce (src n : Nat) (w : Who) (s : State) :
    (tally src n w s).inForce = s.inForce := rfl
@[simp] theorem tally_counts (src n : Nat) (w : Who) (s : State) :
    (tally src n w s).counts = s.counts := rfl
@[simp] theorem tally_out (src n : Nat) (w : Who) (s : State) :
    (tally src n w s).out = s.out := rfl
@[simp] theorem tally_free (src n : Nat) (w : Who) (s : State) :
    (tally src n w s).free = s.free := rfl
@[simp] theorem tally_pending (src n : Nat) (w : Who) (s : State) :
    (tally src n w s).pending = s.pending := rfl

@[simp] theorem countLink_grade (link a b : Nat) (s : State) :
    (countLink link a b s).grade = s.grade := rfl
@[simp] theorem countLink_time (link a b : Nat) (s : State) :
    (countLink link a b s).time = s.time := rfl
@[simp] theorem countLink_mesh (link a b : Nat) (s : State) :
    (countLink link a b s).mesh = s.mesh := rfl
@[simp] theorem countLink_q (link a b : Nat) (s : State) :
    (countLink link a b s).q = s.q := rfl
@[simp] theorem countLink_conn (link a b : Nat) (s : State) :
    (countLink link a b s).conn = s.conn := rfl
@[simp] theorem countLink_xl (link a b : Nat) (s : State) :
    (countLink link a b s).xl = s.xl := rfl
@[simp] theorem countLink_coll (link a b : Nat) (s : State) :
    (countLink link a b s).coll = s.coll := rfl
@[simp] theorem countLink_ar (link a b : Nat) (s : State) :
    (countLink link a b s).ar = s.ar := rfl
@[simp] theorem countLink_fab (link a b : Nat) (s : State) :
    (countLink link a b s).fab = s.fab := rfl
@[simp] theorem countLink_link (link a b : Nat) (s : State) :
    (countLink link a b s).link = s.link := rfl
@[simp] theorem countLink_mem (link a b : Nat) (s : State) :
    (countLink link a b s).mem = s.mem := rfl
@[simp] theorem countLink_part (link a b : Nat) (s : State) :
    (countLink link a b s).part = s.part := rfl
@[simp] theorem countLink_far (link a b : Nat) (s : State) :
    (countLink link a b s).far = s.far := rfl
@[simp] theorem countLink_mgr (link a b : Nat) (s : State) :
    (countLink link a b s).mgr = s.mgr := rfl
@[simp] theorem countLink_sec (link a b : Nat) (s : State) :
    (countLink link a b s).sec = s.sec := rfl
@[simp] theorem countLink_mtr (link a b : Nat) (s : State) :
    (countLink link a b s).mtr = s.mtr := rfl
@[simp] theorem countLink_pow (link a b : Nat) (s : State) :
    (countLink link a b s).pow = s.pow := rfl
@[simp] theorem countLink_elec (link a b : Nat) (s : State) :
    (countLink link a b s).elec = s.elec := rfl
@[simp] theorem countLink_dict (link a b : Nat) (s : State) :
    (countLink link a b s).dict = s.dict := rfl
@[simp] theorem countLink_inForce (link a b : Nat) (s : State) :
    (countLink link a b s).inForce = s.inForce := rfl
@[simp] theorem countLink_counts (link a b : Nat) (s : State) :
    (countLink link a b s).counts = s.counts := rfl
@[simp] theorem countLink_out (link a b : Nat) (s : State) :
    (countLink link a b s).out = s.out := rfl
@[simp] theorem countLink_free (link a b : Nat) (s : State) :
    (countLink link a b s).free = s.free := rfl
@[simp] theorem countLink_pending (link a b : Nat) (s : State) :
    (countLink link a b s).pending = s.pending := rfl

/-! ## An event record -/

@[simp] theorem appendRecord_grade (l : List EventRec) (sev code part die : Nat) (d : List Nat) (s : State) :
    (appendRecord l sev code part die d s).grade = s.grade := rfl
@[simp] theorem appendRecord_time (l : List EventRec) (sev code part die : Nat) (d : List Nat) (s : State) :
    (appendRecord l sev code part die d s).time = s.time := rfl
@[simp] theorem appendRecord_mesh (l : List EventRec) (sev code part die : Nat) (d : List Nat) (s : State) :
    (appendRecord l sev code part die d s).mesh = s.mesh := rfl
@[simp] theorem appendRecord_q (l : List EventRec) (sev code part die : Nat) (d : List Nat) (s : State) :
    (appendRecord l sev code part die d s).q = s.q := rfl
@[simp] theorem appendRecord_conn (l : List EventRec) (sev code part die : Nat) (d : List Nat) (s : State) :
    (appendRecord l sev code part die d s).conn = s.conn := rfl
@[simp] theorem appendRecord_xl (l : List EventRec) (sev code part die : Nat) (d : List Nat) (s : State) :
    (appendRecord l sev code part die d s).xl = s.xl := rfl
@[simp] theorem appendRecord_coll (l : List EventRec) (sev code part die : Nat) (d : List Nat) (s : State) :
    (appendRecord l sev code part die d s).coll = s.coll := rfl
@[simp] theorem appendRecord_ar (l : List EventRec) (sev code part die : Nat) (d : List Nat) (s : State) :
    (appendRecord l sev code part die d s).ar = s.ar := rfl
@[simp] theorem appendRecord_fab (l : List EventRec) (sev code part die : Nat) (d : List Nat) (s : State) :
    (appendRecord l sev code part die d s).fab = s.fab := rfl
@[simp] theorem appendRecord_link (l : List EventRec) (sev code part die : Nat) (d : List Nat) (s : State) :
    (appendRecord l sev code part die d s).link = s.link := rfl
@[simp] theorem appendRecord_mem (l : List EventRec) (sev code part die : Nat) (d : List Nat) (s : State) :
    (appendRecord l sev code part die d s).mem = s.mem := rfl
@[simp] theorem appendRecord_part (l : List EventRec) (sev code part die : Nat) (d : List Nat) (s : State) :
    (appendRecord l sev code part die d s).part = s.part := rfl
@[simp] theorem appendRecord_far (l : List EventRec) (sev code part die : Nat) (d : List Nat) (s : State) :
    (appendRecord l sev code part die d s).far = s.far := rfl
@[simp] theorem appendRecord_mgr (l : List EventRec) (sev code part die : Nat) (d : List Nat) (s : State) :
    (appendRecord l sev code part die d s).mgr = s.mgr := rfl
@[simp] theorem appendRecord_sec (l : List EventRec) (sev code part die : Nat) (d : List Nat) (s : State) :
    (appendRecord l sev code part die d s).sec = s.sec := rfl
@[simp] theorem appendRecord_mtr (l : List EventRec) (sev code part die : Nat) (d : List Nat) (s : State) :
    (appendRecord l sev code part die d s).mtr = s.mtr := rfl
@[simp] theorem appendRecord_pow (l : List EventRec) (sev code part die : Nat) (d : List Nat) (s : State) :
    (appendRecord l sev code part die d s).pow = s.pow := rfl
@[simp] theorem appendRecord_elec (l : List EventRec) (sev code part die : Nat) (d : List Nat) (s : State) :
    (appendRecord l sev code part die d s).elec = s.elec := rfl
@[simp] theorem appendRecord_dict (l : List EventRec) (sev code part die : Nat) (d : List Nat) (s : State) :
    (appendRecord l sev code part die d s).dict = s.dict := rfl
@[simp] theorem appendRecord_inForce (l : List EventRec) (sev code part die : Nat) (d : List Nat) (s : State) :
    (appendRecord l sev code part die d s).inForce = s.inForce := rfl
@[simp] theorem appendRecord_out (l : List EventRec) (sev code part die : Nat) (d : List Nat) (s : State) :
    (appendRecord l sev code part die d s).out = s.out := rfl
@[simp] theorem appendRecord_free (l : List EventRec) (sev code part die : Nat) (d : List Nat) (s : State) :
    (appendRecord l sev code part die d s).free = s.free := rfl
@[simp] theorem appendRecord_pending (l : List EventRec) (sev code part die : Nat) (d : List Nat) (s : State) :
    (appendRecord l sev code part die d s).pending = s.pending := rfl

@[simp] theorem record_grade (sev code part die : Nat) (d : List Nat) (s : State) :
    (record sev code part die d s).grade = s.grade := by
  unfold record; dsimp only; (repeat' split) <;> rfl
@[simp] theorem record_time (sev code part die : Nat) (d : List Nat) (s : State) :
    (record sev code part die d s).time = s.time := by
  unfold record; dsimp only; (repeat' split) <;> rfl
@[simp] theorem record_mesh (sev code part die : Nat) (d : List Nat) (s : State) :
    (record sev code part die d s).mesh = s.mesh := by
  unfold record; dsimp only; (repeat' split) <;> rfl
@[simp] theorem record_q (sev code part die : Nat) (d : List Nat) (s : State) :
    (record sev code part die d s).q = s.q := by
  unfold record; dsimp only; (repeat' split) <;> rfl
@[simp] theorem record_conn (sev code part die : Nat) (d : List Nat) (s : State) :
    (record sev code part die d s).conn = s.conn := by
  unfold record; dsimp only; (repeat' split) <;> rfl
@[simp] theorem record_xl (sev code part die : Nat) (d : List Nat) (s : State) :
    (record sev code part die d s).xl = s.xl := by
  unfold record; dsimp only; (repeat' split) <;> rfl
@[simp] theorem record_coll (sev code part die : Nat) (d : List Nat) (s : State) :
    (record sev code part die d s).coll = s.coll := by
  unfold record; dsimp only; (repeat' split) <;> rfl
@[simp] theorem record_ar (sev code part die : Nat) (d : List Nat) (s : State) :
    (record sev code part die d s).ar = s.ar := by
  unfold record; dsimp only; (repeat' split) <;> rfl
@[simp] theorem record_fab (sev code part die : Nat) (d : List Nat) (s : State) :
    (record sev code part die d s).fab = s.fab := by
  unfold record; dsimp only; (repeat' split) <;> rfl
@[simp] theorem record_link (sev code part die : Nat) (d : List Nat) (s : State) :
    (record sev code part die d s).link = s.link := by
  unfold record; dsimp only; (repeat' split) <;> rfl
@[simp] theorem record_mem (sev code part die : Nat) (d : List Nat) (s : State) :
    (record sev code part die d s).mem = s.mem := by
  unfold record; dsimp only; (repeat' split) <;> rfl
@[simp] theorem record_part (sev code part die : Nat) (d : List Nat) (s : State) :
    (record sev code part die d s).part = s.part := by
  unfold record; dsimp only; (repeat' split) <;> rfl
@[simp] theorem record_far (sev code part die : Nat) (d : List Nat) (s : State) :
    (record sev code part die d s).far = s.far := by
  unfold record; dsimp only; (repeat' split) <;> rfl
@[simp] theorem record_mgr (sev code part die : Nat) (d : List Nat) (s : State) :
    (record sev code part die d s).mgr = s.mgr := by
  unfold record; dsimp only; (repeat' split) <;> rfl
@[simp] theorem record_sec (sev code part die : Nat) (d : List Nat) (s : State) :
    (record sev code part die d s).sec = s.sec := by
  unfold record; dsimp only; (repeat' split) <;> rfl
@[simp] theorem record_mtr (sev code part die : Nat) (d : List Nat) (s : State) :
    (record sev code part die d s).mtr = s.mtr := by
  unfold record; dsimp only; (repeat' split) <;> rfl
@[simp] theorem record_pow (sev code part die : Nat) (d : List Nat) (s : State) :
    (record sev code part die d s).pow = s.pow := by
  unfold record; dsimp only; (repeat' split) <;> rfl
@[simp] theorem record_dict (sev code part die : Nat) (d : List Nat) (s : State) :
    (record sev code part die d s).dict = s.dict := by
  unfold record; dsimp only; (repeat' split) <;> rfl
@[simp] theorem record_inForce (sev code part die : Nat) (d : List Nat) (s : State) :
    (record sev code part die d s).inForce = s.inForce := by
  unfold record; dsimp only; (repeat' split) <;> rfl
@[simp] theorem record_out (sev code part die : Nat) (d : List Nat) (s : State) :
    (record sev code part die d s).out = s.out := by
  unfold record; dsimp only; (repeat' split) <;> rfl
@[simp] theorem record_free (sev code part die : Nat) (d : List Nat) (s : State) :
    (record sev code part die d s).free = s.free := by
  unfold record; dsimp only; (repeat' split) <;> rfl
@[simp] theorem record_pending (sev code part die : Nat) (d : List Nat) (s : State) :
    (record sev code part die d s).pending = s.pending := by
  unfold record; dsimp only; (repeat' split) <;> rfl

/-! ## The Pattern Table rebuilt -/

@[simp] theorem rebuildPattern_grade (s : State) :
    (rebuildPattern s).grade = s.grade := rfl
@[simp] theorem rebuildPattern_time (s : State) :
    (rebuildPattern s).time = s.time := rfl
@[simp] theorem rebuildPattern_mesh (s : State) :
    (rebuildPattern s).mesh = s.mesh := rfl
@[simp] theorem rebuildPattern_q (s : State) :
    (rebuildPattern s).q = s.q := rfl
@[simp] theorem rebuildPattern_conn (s : State) :
    (rebuildPattern s).conn = s.conn := rfl
@[simp] theorem rebuildPattern_xl (s : State) :
    (rebuildPattern s).xl = s.xl := rfl
@[simp] theorem rebuildPattern_coll (s : State) :
    (rebuildPattern s).coll = s.coll := rfl
@[simp] theorem rebuildPattern_ar (s : State) :
    (rebuildPattern s).ar = s.ar := rfl
@[simp] theorem rebuildPattern_fab (s : State) :
    (rebuildPattern s).fab = s.fab := rfl
@[simp] theorem rebuildPattern_link (s : State) :
    (rebuildPattern s).link = s.link := rfl
@[simp] theorem rebuildPattern_mem (s : State) :
    (rebuildPattern s).mem = s.mem := rfl
@[simp] theorem rebuildPattern_part (s : State) :
    (rebuildPattern s).part = s.part := rfl
@[simp] theorem rebuildPattern_mgr (s : State) :
    (rebuildPattern s).mgr = s.mgr := rfl
@[simp] theorem rebuildPattern_sec (s : State) :
    (rebuildPattern s).sec = s.sec := rfl
@[simp] theorem rebuildPattern_mtr (s : State) :
    (rebuildPattern s).mtr = s.mtr := rfl
@[simp] theorem rebuildPattern_obs (s : State) :
    (rebuildPattern s).obs = s.obs := rfl
@[simp] theorem rebuildPattern_pow (s : State) :
    (rebuildPattern s).pow = s.pow := rfl
@[simp] theorem rebuildPattern_elec (s : State) :
    (rebuildPattern s).elec = s.elec := rfl
@[simp] theorem rebuildPattern_dict (s : State) :
    (rebuildPattern s).dict = s.dict := rfl
@[simp] theorem rebuildPattern_inForce (s : State) :
    (rebuildPattern s).inForce = s.inForce := rfl
@[simp] theorem rebuildPattern_counts (s : State) :
    (rebuildPattern s).counts = s.counts := rfl
@[simp] theorem rebuildPattern_out (s : State) :
    (rebuildPattern s).out = s.out := rfl
@[simp] theorem rebuildPattern_free (s : State) :
    (rebuildPattern s).free = s.free := rfl
@[simp] theorem rebuildPattern_pending (s : State) :
    (rebuildPattern s).pending = s.pending := rfl

/-! ## Memory -/

@[simp] theorem devWrite_grade (a : Nat) (d : List Byte) (s : State) :
    (devWrite a d s).grade = s.grade := rfl
@[simp] theorem devWrite_time (a : Nat) (d : List Byte) (s : State) :
    (devWrite a d s).time = s.time := rfl
@[simp] theorem devWrite_mesh (a : Nat) (d : List Byte) (s : State) :
    (devWrite a d s).mesh = s.mesh := rfl
@[simp] theorem devWrite_q (a : Nat) (d : List Byte) (s : State) :
    (devWrite a d s).q = s.q := rfl
@[simp] theorem devWrite_conn (a : Nat) (d : List Byte) (s : State) :
    (devWrite a d s).conn = s.conn := rfl
@[simp] theorem devWrite_xl (a : Nat) (d : List Byte) (s : State) :
    (devWrite a d s).xl = s.xl := rfl
@[simp] theorem devWrite_coll (a : Nat) (d : List Byte) (s : State) :
    (devWrite a d s).coll = s.coll := rfl
@[simp] theorem devWrite_ar (a : Nat) (d : List Byte) (s : State) :
    (devWrite a d s).ar = s.ar := rfl
@[simp] theorem devWrite_fab (a : Nat) (d : List Byte) (s : State) :
    (devWrite a d s).fab = s.fab := rfl
@[simp] theorem devWrite_link (a : Nat) (d : List Byte) (s : State) :
    (devWrite a d s).link = s.link := rfl
@[simp] theorem devWrite_mem (a : Nat) (d : List Byte) (s : State) :
    (devWrite a d s).mem = { s.mem with bytes := putBytes s.mem.bytes a d } := rfl
@[simp] theorem devWrite_part (a : Nat) (d : List Byte) (s : State) :
    (devWrite a d s).part = s.part := rfl
@[simp] theorem devWrite_far (a : Nat) (d : List Byte) (s : State) :
    (devWrite a d s).far = s.far := rfl
@[simp] theorem devWrite_mgr (a : Nat) (d : List Byte) (s : State) :
    (devWrite a d s).mgr = s.mgr := rfl
@[simp] theorem devWrite_sec (a : Nat) (d : List Byte) (s : State) :
    (devWrite a d s).sec = s.sec := rfl
@[simp] theorem devWrite_mtr (a : Nat) (d : List Byte) (s : State) :
    (devWrite a d s).mtr = s.mtr := rfl
@[simp] theorem devWrite_obs (a : Nat) (d : List Byte) (s : State) :
    (devWrite a d s).obs = s.obs := rfl
@[simp] theorem devWrite_pow (a : Nat) (d : List Byte) (s : State) :
    (devWrite a d s).pow = s.pow := rfl
@[simp] theorem devWrite_elec (a : Nat) (d : List Byte) (s : State) :
    (devWrite a d s).elec = s.elec := rfl
@[simp] theorem devWrite_dict (a : Nat) (d : List Byte) (s : State) :
    (devWrite a d s).dict = s.dict := rfl
@[simp] theorem devWrite_inForce (a : Nat) (d : List Byte) (s : State) :
    (devWrite a d s).inForce = s.inForce := rfl
@[simp] theorem devWrite_counts (a : Nat) (d : List Byte) (s : State) :
    (devWrite a d s).counts = s.counts := rfl
@[simp] theorem devWrite_out (a : Nat) (d : List Byte) (s : State) :
    (devWrite a d s).out = s.out := rfl
@[simp] theorem devWrite_free (a : Nat) (d : List Byte) (s : State) :
    (devWrite a d s).free = s.free := rfl
@[simp] theorem devWrite_pending (a : Nat) (d : List Byte) (s : State) :
    (devWrite a d s).pending = s.pending := rfl

@[simp] theorem hubWrite_grade (a : Nat) (d : List Byte) (s : State) :
    (hubWrite a d s).grade = s.grade := rfl
@[simp] theorem hubWrite_time (a : Nat) (d : List Byte) (s : State) :
    (hubWrite a d s).time = s.time := rfl
@[simp] theorem hubWrite_mesh (a : Nat) (d : List Byte) (s : State) :
    (hubWrite a d s).mesh = s.mesh := rfl
@[simp] theorem hubWrite_q (a : Nat) (d : List Byte) (s : State) :
    (hubWrite a d s).q = s.q := rfl
@[simp] theorem hubWrite_conn (a : Nat) (d : List Byte) (s : State) :
    (hubWrite a d s).conn = s.conn := rfl
@[simp] theorem hubWrite_xl (a : Nat) (d : List Byte) (s : State) :
    (hubWrite a d s).xl = s.xl := rfl
@[simp] theorem hubWrite_coll (a : Nat) (d : List Byte) (s : State) :
    (hubWrite a d s).coll = s.coll := rfl
@[simp] theorem hubWrite_ar (a : Nat) (d : List Byte) (s : State) :
    (hubWrite a d s).ar = s.ar := rfl
@[simp] theorem hubWrite_fab (a : Nat) (d : List Byte) (s : State) :
    (hubWrite a d s).fab = s.fab := rfl
@[simp] theorem hubWrite_link (a : Nat) (d : List Byte) (s : State) :
    (hubWrite a d s).link = s.link := rfl
@[simp] theorem hubWrite_mem (a : Nat) (d : List Byte) (s : State) :
    (hubWrite a d s).mem = { s.mem with hub := putBytes s.mem.hub a d } := rfl
@[simp] theorem hubWrite_part (a : Nat) (d : List Byte) (s : State) :
    (hubWrite a d s).part = s.part := rfl
@[simp] theorem hubWrite_far (a : Nat) (d : List Byte) (s : State) :
    (hubWrite a d s).far = s.far := rfl
@[simp] theorem hubWrite_mgr (a : Nat) (d : List Byte) (s : State) :
    (hubWrite a d s).mgr = s.mgr := rfl
@[simp] theorem hubWrite_sec (a : Nat) (d : List Byte) (s : State) :
    (hubWrite a d s).sec = s.sec := rfl
@[simp] theorem hubWrite_mtr (a : Nat) (d : List Byte) (s : State) :
    (hubWrite a d s).mtr = s.mtr := rfl
@[simp] theorem hubWrite_obs (a : Nat) (d : List Byte) (s : State) :
    (hubWrite a d s).obs = s.obs := rfl
@[simp] theorem hubWrite_pow (a : Nat) (d : List Byte) (s : State) :
    (hubWrite a d s).pow = s.pow := rfl
@[simp] theorem hubWrite_elec (a : Nat) (d : List Byte) (s : State) :
    (hubWrite a d s).elec = s.elec := rfl
@[simp] theorem hubWrite_dict (a : Nat) (d : List Byte) (s : State) :
    (hubWrite a d s).dict = s.dict := rfl
@[simp] theorem hubWrite_inForce (a : Nat) (d : List Byte) (s : State) :
    (hubWrite a d s).inForce = s.inForce := rfl
@[simp] theorem hubWrite_counts (a : Nat) (d : List Byte) (s : State) :
    (hubWrite a d s).counts = s.counts := rfl
@[simp] theorem hubWrite_out (a : Nat) (d : List Byte) (s : State) :
    (hubWrite a d s).out = s.out := rfl
@[simp] theorem hubWrite_free (a : Nat) (d : List Byte) (s : State) :
    (hubWrite a d s).free = s.free := rfl
@[simp] theorem hubWrite_pending (a : Nat) (d : List Byte) (s : State) :
    (hubWrite a d s).pending = s.pending := rfl

@[simp] theorem devZero_grade (a n : Nat) (s : State) :
    (devZero a n s).grade = s.grade := rfl
@[simp] theorem devZero_time (a n : Nat) (s : State) :
    (devZero a n s).time = s.time := rfl
@[simp] theorem devZero_mesh (a n : Nat) (s : State) :
    (devZero a n s).mesh = s.mesh := rfl
@[simp] theorem devZero_q (a n : Nat) (s : State) :
    (devZero a n s).q = s.q := rfl
@[simp] theorem devZero_conn (a n : Nat) (s : State) :
    (devZero a n s).conn = s.conn := rfl
@[simp] theorem devZero_xl (a n : Nat) (s : State) :
    (devZero a n s).xl = s.xl := rfl
@[simp] theorem devZero_coll (a n : Nat) (s : State) :
    (devZero a n s).coll = s.coll := rfl
@[simp] theorem devZero_ar (a n : Nat) (s : State) :
    (devZero a n s).ar = s.ar := rfl
@[simp] theorem devZero_fab (a n : Nat) (s : State) :
    (devZero a n s).fab = s.fab := rfl
@[simp] theorem devZero_link (a n : Nat) (s : State) :
    (devZero a n s).link = s.link := rfl
@[simp] theorem devZero_part (a n : Nat) (s : State) :
    (devZero a n s).part = s.part := rfl
@[simp] theorem devZero_far (a n : Nat) (s : State) :
    (devZero a n s).far = s.far := rfl
@[simp] theorem devZero_mgr (a n : Nat) (s : State) :
    (devZero a n s).mgr = s.mgr := rfl
@[simp] theorem devZero_sec (a n : Nat) (s : State) :
    (devZero a n s).sec = s.sec := rfl
@[simp] theorem devZero_mtr (a n : Nat) (s : State) :
    (devZero a n s).mtr = s.mtr := rfl
@[simp] theorem devZero_obs (a n : Nat) (s : State) :
    (devZero a n s).obs = s.obs := rfl
@[simp] theorem devZero_pow (a n : Nat) (s : State) :
    (devZero a n s).pow = s.pow := rfl
@[simp] theorem devZero_elec (a n : Nat) (s : State) :
    (devZero a n s).elec = s.elec := rfl
@[simp] theorem devZero_dict (a n : Nat) (s : State) :
    (devZero a n s).dict = s.dict := rfl
@[simp] theorem devZero_inForce (a n : Nat) (s : State) :
    (devZero a n s).inForce = s.inForce := rfl
@[simp] theorem devZero_counts (a n : Nat) (s : State) :
    (devZero a n s).counts = s.counts := rfl
@[simp] theorem devZero_out (a n : Nat) (s : State) :
    (devZero a n s).out = s.out := rfl
@[simp] theorem devZero_free (a n : Nat) (s : State) :
    (devZero a n s).free = s.free := rfl
@[simp] theorem devZero_pending (a n : Nat) (s : State) :
    (devZero a n s).pending = s.pending := rfl

@[simp] theorem mediaError_grade (a : Nat) (s : State) :
    (mediaError a s).grade = s.grade := by
  unfold mediaError; dsimp only; split <;> simp
@[simp] theorem mediaError_time (a : Nat) (s : State) :
    (mediaError a s).time = s.time := by
  unfold mediaError; dsimp only; split <;> simp
@[simp] theorem mediaError_mesh (a : Nat) (s : State) :
    (mediaError a s).mesh = s.mesh := by
  unfold mediaError; dsimp only; split <;> simp
@[simp] theorem mediaError_q (a : Nat) (s : State) :
    (mediaError a s).q = s.q := by
  unfold mediaError; dsimp only; split <;> simp
@[simp] theorem mediaError_conn (a : Nat) (s : State) :
    (mediaError a s).conn = s.conn := by
  unfold mediaError; dsimp only; split <;> simp
@[simp] theorem mediaError_xl (a : Nat) (s : State) :
    (mediaError a s).xl = s.xl := by
  unfold mediaError; dsimp only; split <;> simp
@[simp] theorem mediaError_coll (a : Nat) (s : State) :
    (mediaError a s).coll = s.coll := by
  unfold mediaError; dsimp only; split <;> simp
@[simp] theorem mediaError_ar (a : Nat) (s : State) :
    (mediaError a s).ar = s.ar := by
  unfold mediaError; dsimp only; split <;> simp
@[simp] theorem mediaError_fab (a : Nat) (s : State) :
    (mediaError a s).fab = s.fab := by
  unfold mediaError; dsimp only; split <;> simp
@[simp] theorem mediaError_link (a : Nat) (s : State) :
    (mediaError a s).link = s.link := by
  unfold mediaError; dsimp only; split <;> simp
@[simp] theorem mediaError_part (a : Nat) (s : State) :
    (mediaError a s).part = s.part := by
  unfold mediaError; dsimp only; split <;> simp
@[simp] theorem mediaError_far (a : Nat) (s : State) :
    (mediaError a s).far = s.far := by
  unfold mediaError; dsimp only; split <;> simp
@[simp] theorem mediaError_mgr (a : Nat) (s : State) :
    (mediaError a s).mgr = s.mgr := by
  unfold mediaError; dsimp only; split <;> simp
@[simp] theorem mediaError_sec (a : Nat) (s : State) :
    (mediaError a s).sec = s.sec := by
  unfold mediaError; dsimp only; split <;> simp
@[simp] theorem mediaError_mtr (a : Nat) (s : State) :
    (mediaError a s).mtr = s.mtr := by
  unfold mediaError; dsimp only; split <;> simp
@[simp] theorem mediaError_pow (a : Nat) (s : State) :
    (mediaError a s).pow = s.pow := by
  unfold mediaError; dsimp only; split <;> simp
@[simp] theorem mediaError_dict (a : Nat) (s : State) :
    (mediaError a s).dict = s.dict := by
  unfold mediaError; dsimp only; split <;> simp
@[simp] theorem mediaError_inForce (a : Nat) (s : State) :
    (mediaError a s).inForce = s.inForce := by
  unfold mediaError; dsimp only; split <;> simp
@[simp] theorem mediaError_out (a : Nat) (s : State) :
    (mediaError a s).out = s.out := by
  unfold mediaError; dsimp only; split <;> simp
@[simp] theorem mediaError_free (a : Nat) (s : State) :
    (mediaError a s).free = s.free := by
  unfold mediaError; dsimp only; split <;> simp
@[simp] theorem mediaError_pending (a : Nat) (s : State) :
    (mediaError a s).pending = s.pending := by
  unfold mediaError; dsimp only; split <;> simp

/-! ## The power state -/

@[simp] theorem noteBusy_grade (s : State) :
    (noteBusy s).grade = s.grade := rfl
@[simp] theorem noteBusy_time (s : State) :
    (noteBusy s).time = s.time := rfl
@[simp] theorem noteBusy_mesh (s : State) :
    (noteBusy s).mesh = s.mesh := rfl
@[simp] theorem noteBusy_q (s : State) :
    (noteBusy s).q = s.q := rfl
@[simp] theorem noteBusy_conn (s : State) :
    (noteBusy s).conn = s.conn := rfl
@[simp] theorem noteBusy_xl (s : State) :
    (noteBusy s).xl = s.xl := rfl
@[simp] theorem noteBusy_coll (s : State) :
    (noteBusy s).coll = s.coll := rfl
@[simp] theorem noteBusy_ar (s : State) :
    (noteBusy s).ar = s.ar := rfl
@[simp] theorem noteBusy_fab (s : State) :
    (noteBusy s).fab = s.fab := rfl
@[simp] theorem noteBusy_link (s : State) :
    (noteBusy s).link = s.link := rfl
@[simp] theorem noteBusy_mem (s : State) :
    (noteBusy s).mem = s.mem := rfl
@[simp] theorem noteBusy_part (s : State) :
    (noteBusy s).part = s.part := rfl
@[simp] theorem noteBusy_far (s : State) :
    (noteBusy s).far = s.far := rfl
@[simp] theorem noteBusy_mgr (s : State) :
    (noteBusy s).mgr = s.mgr := rfl
@[simp] theorem noteBusy_sec (s : State) :
    (noteBusy s).sec = s.sec := rfl
@[simp] theorem noteBusy_mtr (s : State) :
    (noteBusy s).mtr = s.mtr := rfl
@[simp] theorem noteBusy_obs (s : State) :
    (noteBusy s).obs = s.obs := rfl
@[simp] theorem noteBusy_pow (s : State) :
    (noteBusy s).pow = { s.pow with idleSince := s.time.now } := rfl
@[simp] theorem noteBusy_elec (s : State) :
    (noteBusy s).elec = s.elec := rfl
@[simp] theorem noteBusy_dict (s : State) :
    (noteBusy s).dict = s.dict := rfl
@[simp] theorem noteBusy_inForce (s : State) :
    (noteBusy s).inForce = s.inForce := rfl
@[simp] theorem noteBusy_counts (s : State) :
    (noteBusy s).counts = s.counts := rfl
@[simp] theorem noteBusy_out (s : State) :
    (noteBusy s).out = s.out := rfl
@[simp] theorem noteBusy_free (s : State) :
    (noteBusy s).free = s.free := rfl
@[simp] theorem noteBusy_pending (s : State) :
    (noteBusy s).pending = s.pending := rfl

@[simp] theorem leaveIdle_grade (s : State) :
    (leaveIdle s).grade = s.grade := by
  unfold leaveIdle; split <;> rfl
@[simp] theorem leaveIdle_time (s : State) :
    (leaveIdle s).time = s.time := by
  unfold leaveIdle; split <;> rfl
@[simp] theorem leaveIdle_mesh (s : State) :
    (leaveIdle s).mesh = s.mesh := by
  unfold leaveIdle; split <;> rfl
@[simp] theorem leaveIdle_q (s : State) :
    (leaveIdle s).q = s.q := by
  unfold leaveIdle; split <;> rfl
@[simp] theorem leaveIdle_conn (s : State) :
    (leaveIdle s).conn = s.conn := by
  unfold leaveIdle; split <;> rfl
@[simp] theorem leaveIdle_xl (s : State) :
    (leaveIdle s).xl = s.xl := by
  unfold leaveIdle; split <;> rfl
@[simp] theorem leaveIdle_coll (s : State) :
    (leaveIdle s).coll = s.coll := by
  unfold leaveIdle; split <;> rfl
@[simp] theorem leaveIdle_ar (s : State) :
    (leaveIdle s).ar = s.ar := by
  unfold leaveIdle; split <;> rfl
@[simp] theorem leaveIdle_fab (s : State) :
    (leaveIdle s).fab = s.fab := by
  unfold leaveIdle; split <;> rfl
@[simp] theorem leaveIdle_link (s : State) :
    (leaveIdle s).link = s.link := by
  unfold leaveIdle; split <;> rfl
@[simp] theorem leaveIdle_mem (s : State) :
    (leaveIdle s).mem = s.mem := by
  unfold leaveIdle; split <;> rfl
@[simp] theorem leaveIdle_part (s : State) :
    (leaveIdle s).part = s.part := by
  unfold leaveIdle; split <;> rfl
@[simp] theorem leaveIdle_far (s : State) :
    (leaveIdle s).far = s.far := by
  unfold leaveIdle; split <;> rfl
@[simp] theorem leaveIdle_mgr (s : State) :
    (leaveIdle s).mgr = s.mgr := by
  unfold leaveIdle; split <;> rfl
@[simp] theorem leaveIdle_sec (s : State) :
    (leaveIdle s).sec = s.sec := by
  unfold leaveIdle; split <;> rfl
@[simp] theorem leaveIdle_mtr (s : State) :
    (leaveIdle s).mtr = s.mtr := by
  unfold leaveIdle; split <;> rfl
@[simp] theorem leaveIdle_obs (s : State) :
    (leaveIdle s).obs = s.obs := by
  unfold leaveIdle; split <;> rfl
@[simp] theorem leaveIdle_elec (s : State) :
    (leaveIdle s).elec = s.elec := by
  unfold leaveIdle; split <;> rfl
@[simp] theorem leaveIdle_dict (s : State) :
    (leaveIdle s).dict = s.dict := by
  unfold leaveIdle; split <;> rfl
@[simp] theorem leaveIdle_inForce (s : State) :
    (leaveIdle s).inForce = s.inForce := by
  unfold leaveIdle; split <;> rfl
@[simp] theorem leaveIdle_counts (s : State) :
    (leaveIdle s).counts = s.counts := by
  unfold leaveIdle; split <;> rfl
@[simp] theorem leaveIdle_out (s : State) :
    (leaveIdle s).out = s.out := by
  unfold leaveIdle; split <;> rfl
@[simp] theorem leaveIdle_free (s : State) :
    (leaveIdle s).free = s.free := by
  unfold leaveIdle; split <;> rfl
@[simp] theorem leaveIdle_pending (s : State) :
    (leaveIdle s).pending = s.pending := by
  unfold leaveIdle; split <;> rfl

/-! ## The dictionary server -/

@[simp] theorem onSession_grade (n : Nat) (f : Session → Session) (s : State) :
    (onSession n f s).grade = s.grade := rfl
@[simp] theorem onSession_time (n : Nat) (f : Session → Session) (s : State) :
    (onSession n f s).time = s.time := rfl
@[simp] theorem onSession_mesh (n : Nat) (f : Session → Session) (s : State) :
    (onSession n f s).mesh = s.mesh := rfl
@[simp] theorem onSession_q (n : Nat) (f : Session → Session) (s : State) :
    (onSession n f s).q = s.q := rfl
@[simp] theorem onSession_conn (n : Nat) (f : Session → Session) (s : State) :
    (onSession n f s).conn = s.conn := rfl
@[simp] theorem onSession_xl (n : Nat) (f : Session → Session) (s : State) :
    (onSession n f s).xl = s.xl := rfl
@[simp] theorem onSession_coll (n : Nat) (f : Session → Session) (s : State) :
    (onSession n f s).coll = s.coll := rfl
@[simp] theorem onSession_ar (n : Nat) (f : Session → Session) (s : State) :
    (onSession n f s).ar = s.ar := rfl
@[simp] theorem onSession_fab (n : Nat) (f : Session → Session) (s : State) :
    (onSession n f s).fab = s.fab := rfl
@[simp] theorem onSession_link (n : Nat) (f : Session → Session) (s : State) :
    (onSession n f s).link = s.link := rfl
@[simp] theorem onSession_mem (n : Nat) (f : Session → Session) (s : State) :
    (onSession n f s).mem = s.mem := rfl
@[simp] theorem onSession_part (n : Nat) (f : Session → Session) (s : State) :
    (onSession n f s).part = s.part := rfl
@[simp] theorem onSession_mgr (n : Nat) (f : Session → Session) (s : State) :
    (onSession n f s).mgr = s.mgr := rfl
@[simp] theorem onSession_sec (n : Nat) (f : Session → Session) (s : State) :
    (onSession n f s).sec = s.sec := rfl
@[simp] theorem onSession_mtr (n : Nat) (f : Session → Session) (s : State) :
    (onSession n f s).mtr = s.mtr := rfl
@[simp] theorem onSession_obs (n : Nat) (f : Session → Session) (s : State) :
    (onSession n f s).obs = s.obs := rfl
@[simp] theorem onSession_pow (n : Nat) (f : Session → Session) (s : State) :
    (onSession n f s).pow = s.pow := rfl
@[simp] theorem onSession_elec (n : Nat) (f : Session → Session) (s : State) :
    (onSession n f s).elec = s.elec := rfl
@[simp] theorem onSession_dict (n : Nat) (f : Session → Session) (s : State) :
    (onSession n f s).dict = s.dict := rfl
@[simp] theorem onSession_inForce (n : Nat) (f : Session → Session) (s : State) :
    (onSession n f s).inForce = s.inForce := rfl
@[simp] theorem onSession_counts (n : Nat) (f : Session → Session) (s : State) :
    (onSession n f s).counts = s.counts := rfl
@[simp] theorem onSession_out (n : Nat) (f : Session → Session) (s : State) :
    (onSession n f s).out = s.out := rfl
@[simp] theorem onSession_free (n : Nat) (f : Session → Session) (s : State) :
    (onSession n f s).free = s.free := rfl
@[simp] theorem onSession_pending (n : Nat) (f : Session → Session) (s : State) :
    (onSession n f s).pending = s.pending := rfl

@[simp] theorem markStored_grade (s : State) :
    (markStored s).grade = s.grade := by
  unfold markStored; split <;> rfl
@[simp] theorem markStored_time (s : State) :
    (markStored s).time = s.time := by
  unfold markStored; split <;> rfl
@[simp] theorem markStored_mesh (s : State) :
    (markStored s).mesh = s.mesh := by
  unfold markStored; split <;> rfl
@[simp] theorem markStored_q (s : State) :
    (markStored s).q = s.q := by
  unfold markStored; split <;> rfl
@[simp] theorem markStored_conn (s : State) :
    (markStored s).conn = s.conn := by
  unfold markStored; split <;> rfl
@[simp] theorem markStored_xl (s : State) :
    (markStored s).xl = s.xl := by
  unfold markStored; split <;> rfl
@[simp] theorem markStored_coll (s : State) :
    (markStored s).coll = s.coll := by
  unfold markStored; split <;> rfl
@[simp] theorem markStored_ar (s : State) :
    (markStored s).ar = s.ar := by
  unfold markStored; split <;> rfl
@[simp] theorem markStored_fab (s : State) :
    (markStored s).fab = s.fab := by
  unfold markStored; split <;> rfl
@[simp] theorem markStored_link (s : State) :
    (markStored s).link = s.link := by
  unfold markStored; split <;> rfl
@[simp] theorem markStored_mem (s : State) :
    (markStored s).mem = s.mem := by
  unfold markStored; split <;> rfl
@[simp] theorem markStored_part (s : State) :
    (markStored s).part = s.part := by
  unfold markStored; split <;> rfl
@[simp] theorem markStored_mgr (s : State) :
    (markStored s).mgr = s.mgr := by
  unfold markStored; split <;> rfl
@[simp] theorem markStored_sec (s : State) :
    (markStored s).sec = s.sec := by
  unfold markStored; split <;> rfl
@[simp] theorem markStored_mtr (s : State) :
    (markStored s).mtr = s.mtr := by
  unfold markStored; split <;> rfl
@[simp] theorem markStored_obs (s : State) :
    (markStored s).obs = s.obs := by
  unfold markStored; split <;> rfl
@[simp] theorem markStored_pow (s : State) :
    (markStored s).pow = s.pow := by
  unfold markStored; split <;> rfl
@[simp] theorem markStored_elec (s : State) :
    (markStored s).elec = s.elec := by
  unfold markStored; split <;> rfl
@[simp] theorem markStored_dict (s : State) :
    (markStored s).dict = s.dict := by
  unfold markStored; split <;> rfl
@[simp] theorem markStored_inForce (s : State) :
    (markStored s).inForce = s.inForce := by
  unfold markStored; split <;> rfl
@[simp] theorem markStored_counts (s : State) :
    (markStored s).counts = s.counts := by
  unfold markStored; split <;> rfl
@[simp] theorem markStored_out (s : State) :
    (markStored s).out = s.out := by
  unfold markStored; split <;> rfl
@[simp] theorem markStored_free (s : State) :
    (markStored s).free = s.free := by
  unfold markStored; split <;> rfl
@[simp] theorem markStored_pending (s : State) :
    (markStored s).pending = s.pending := by
  unfold markStored; split <;> rfl

@[simp] theorem markWaiting_grade (s : State) :
    (markWaiting s).grade = s.grade := by
  unfold markWaiting; split <;> rfl
@[simp] theorem markWaiting_time (s : State) :
    (markWaiting s).time = s.time := by
  unfold markWaiting; split <;> rfl
@[simp] theorem markWaiting_mesh (s : State) :
    (markWaiting s).mesh = s.mesh := by
  unfold markWaiting; split <;> rfl
@[simp] theorem markWaiting_q (s : State) :
    (markWaiting s).q = s.q := by
  unfold markWaiting; split <;> rfl
@[simp] theorem markWaiting_conn (s : State) :
    (markWaiting s).conn = s.conn := by
  unfold markWaiting; split <;> rfl
@[simp] theorem markWaiting_xl (s : State) :
    (markWaiting s).xl = s.xl := by
  unfold markWaiting; split <;> rfl
@[simp] theorem markWaiting_coll (s : State) :
    (markWaiting s).coll = s.coll := by
  unfold markWaiting; split <;> rfl
@[simp] theorem markWaiting_ar (s : State) :
    (markWaiting s).ar = s.ar := by
  unfold markWaiting; split <;> rfl
@[simp] theorem markWaiting_fab (s : State) :
    (markWaiting s).fab = s.fab := by
  unfold markWaiting; split <;> rfl
@[simp] theorem markWaiting_link (s : State) :
    (markWaiting s).link = s.link := by
  unfold markWaiting; split <;> rfl
@[simp] theorem markWaiting_mem (s : State) :
    (markWaiting s).mem = s.mem := by
  unfold markWaiting; split <;> rfl
@[simp] theorem markWaiting_part (s : State) :
    (markWaiting s).part = s.part := by
  unfold markWaiting; split <;> rfl
@[simp] theorem markWaiting_mgr (s : State) :
    (markWaiting s).mgr = s.mgr := by
  unfold markWaiting; split <;> rfl
@[simp] theorem markWaiting_sec (s : State) :
    (markWaiting s).sec = s.sec := by
  unfold markWaiting; split <;> rfl
@[simp] theorem markWaiting_mtr (s : State) :
    (markWaiting s).mtr = s.mtr := by
  unfold markWaiting; split <;> rfl
@[simp] theorem markWaiting_obs (s : State) :
    (markWaiting s).obs = s.obs := by
  unfold markWaiting; split <;> rfl
@[simp] theorem markWaiting_pow (s : State) :
    (markWaiting s).pow = s.pow := by
  unfold markWaiting; split <;> rfl
@[simp] theorem markWaiting_elec (s : State) :
    (markWaiting s).elec = s.elec := by
  unfold markWaiting; split <;> rfl
@[simp] theorem markWaiting_dict (s : State) :
    (markWaiting s).dict = s.dict := by
  unfold markWaiting; split <;> rfl
@[simp] theorem markWaiting_inForce (s : State) :
    (markWaiting s).inForce = s.inForce := by
  unfold markWaiting; split <;> rfl
@[simp] theorem markWaiting_counts (s : State) :
    (markWaiting s).counts = s.counts := by
  unfold markWaiting; split <;> rfl
@[simp] theorem markWaiting_out (s : State) :
    (markWaiting s).out = s.out := by
  unfold markWaiting; split <;> rfl
@[simp] theorem markWaiting_free (s : State) :
    (markWaiting s).free = s.free := by
  unfold markWaiting; split <;> rfl
@[simp] theorem markWaiting_pending (s : State) :
    (markWaiting s).pending = s.pending := by
  unfold markWaiting; split <;> rfl

@[simp] theorem closeAfter_grade (s : State) :
    (closeAfter s).grade = s.grade := by
  unfold closeAfter; split <;> rfl
@[simp] theorem closeAfter_time (s : State) :
    (closeAfter s).time = s.time := by
  unfold closeAfter; split <;> rfl
@[simp] theorem closeAfter_mesh (s : State) :
    (closeAfter s).mesh = s.mesh := by
  unfold closeAfter; split <;> rfl
@[simp] theorem closeAfter_q (s : State) :
    (closeAfter s).q = s.q := by
  unfold closeAfter; split <;> rfl
@[simp] theorem closeAfter_conn (s : State) :
    (closeAfter s).conn = s.conn := by
  unfold closeAfter; split <;> rfl
@[simp] theorem closeAfter_xl (s : State) :
    (closeAfter s).xl = s.xl := by
  unfold closeAfter; split <;> rfl
@[simp] theorem closeAfter_coll (s : State) :
    (closeAfter s).coll = s.coll := by
  unfold closeAfter; split <;> rfl
@[simp] theorem closeAfter_ar (s : State) :
    (closeAfter s).ar = s.ar := by
  unfold closeAfter; split <;> rfl
@[simp] theorem closeAfter_fab (s : State) :
    (closeAfter s).fab = s.fab := by
  unfold closeAfter; split <;> rfl
@[simp] theorem closeAfter_link (s : State) :
    (closeAfter s).link = s.link := by
  unfold closeAfter; split <;> rfl
@[simp] theorem closeAfter_mem (s : State) :
    (closeAfter s).mem = s.mem := by
  unfold closeAfter; split <;> rfl
@[simp] theorem closeAfter_part (s : State) :
    (closeAfter s).part = s.part := by
  unfold closeAfter; split <;> rfl
@[simp] theorem closeAfter_mgr (s : State) :
    (closeAfter s).mgr = s.mgr := by
  unfold closeAfter; split <;> rfl
@[simp] theorem closeAfter_sec (s : State) :
    (closeAfter s).sec = s.sec := by
  unfold closeAfter; split <;> rfl
@[simp] theorem closeAfter_mtr (s : State) :
    (closeAfter s).mtr = s.mtr := by
  unfold closeAfter; split <;> rfl
@[simp] theorem closeAfter_obs (s : State) :
    (closeAfter s).obs = s.obs := by
  unfold closeAfter; split <;> rfl
@[simp] theorem closeAfter_pow (s : State) :
    (closeAfter s).pow = s.pow := by
  unfold closeAfter; split <;> rfl
@[simp] theorem closeAfter_elec (s : State) :
    (closeAfter s).elec = s.elec := by
  unfold closeAfter; split <;> rfl
@[simp] theorem closeAfter_dict (s : State) :
    (closeAfter s).dict = s.dict := by
  unfold closeAfter; split <;> rfl
@[simp] theorem closeAfter_inForce (s : State) :
    (closeAfter s).inForce = s.inForce := by
  unfold closeAfter; split <;> rfl
@[simp] theorem closeAfter_counts (s : State) :
    (closeAfter s).counts = s.counts := by
  unfold closeAfter; split <;> rfl
@[simp] theorem closeAfter_out (s : State) :
    (closeAfter s).out = s.out := by
  unfold closeAfter; split <;> rfl
@[simp] theorem closeAfter_free (s : State) :
    (closeAfter s).free = s.free := by
  unfold closeAfter; split <;> rfl
@[simp] theorem closeAfter_pending (s : State) :
    (closeAfter s).pending = s.pending := by
  unfold closeAfter; split <;> rfl

@[simp] theorem startNext_grade (s : State) :
    (startNext s).grade = s.grade := by
  unfold startNext; split <;> rfl
@[simp] theorem startNext_time (s : State) :
    (startNext s).time = s.time := by
  unfold startNext; split <;> rfl
@[simp] theorem startNext_mesh (s : State) :
    (startNext s).mesh = s.mesh := by
  unfold startNext; split <;> rfl
@[simp] theorem startNext_q (s : State) :
    (startNext s).q = s.q := by
  unfold startNext; split <;> rfl
@[simp] theorem startNext_conn (s : State) :
    (startNext s).conn = s.conn := by
  unfold startNext; split <;> rfl
@[simp] theorem startNext_xl (s : State) :
    (startNext s).xl = s.xl := by
  unfold startNext; split <;> rfl
@[simp] theorem startNext_coll (s : State) :
    (startNext s).coll = s.coll := by
  unfold startNext; split <;> rfl
@[simp] theorem startNext_ar (s : State) :
    (startNext s).ar = s.ar := by
  unfold startNext; split <;> rfl
@[simp] theorem startNext_fab (s : State) :
    (startNext s).fab = s.fab := by
  unfold startNext; split <;> rfl
@[simp] theorem startNext_link (s : State) :
    (startNext s).link = s.link := by
  unfold startNext; split <;> rfl
@[simp] theorem startNext_mem (s : State) :
    (startNext s).mem = s.mem := by
  unfold startNext; split <;> rfl
@[simp] theorem startNext_part (s : State) :
    (startNext s).part = s.part := by
  unfold startNext; split <;> rfl
@[simp] theorem startNext_mgr (s : State) :
    (startNext s).mgr = s.mgr := by
  unfold startNext; split <;> rfl
@[simp] theorem startNext_sec (s : State) :
    (startNext s).sec = s.sec := by
  unfold startNext; split <;> rfl
@[simp] theorem startNext_mtr (s : State) :
    (startNext s).mtr = s.mtr := by
  unfold startNext; split <;> rfl
@[simp] theorem startNext_obs (s : State) :
    (startNext s).obs = s.obs := by
  unfold startNext; split <;> rfl
@[simp] theorem startNext_pow (s : State) :
    (startNext s).pow = s.pow := by
  unfold startNext; split <;> rfl
@[simp] theorem startNext_elec (s : State) :
    (startNext s).elec = s.elec := by
  unfold startNext; split <;> rfl
@[simp] theorem startNext_dict (s : State) :
    (startNext s).dict = s.dict := by
  unfold startNext; split <;> rfl
@[simp] theorem startNext_inForce (s : State) :
    (startNext s).inForce = s.inForce := by
  unfold startNext; split <;> rfl
@[simp] theorem startNext_counts (s : State) :
    (startNext s).counts = s.counts := by
  unfold startNext; split <;> rfl
@[simp] theorem startNext_out (s : State) :
    (startNext s).out = s.out := by
  unfold startNext; split <;> rfl
@[simp] theorem startNext_free (s : State) :
    (startNext s).free = s.free := by
  unfold startNext; split <;> rfl
@[simp] theorem startNext_pending (s : State) :
    (startNext s).pending = s.pending := by
  unfold startNext; split <;> rfl

end Sys2Proof.Machine
end

