-- ==== Sys2Proof/Laws/Ops.lean ====
section
/-! SUPPORT. What each shared operation can do: one law for each, which later proofs cite. -/

namespace Sys2Proof.Machine

/-! ## Outcomes -/

/-- A named object that exists lets the command go on; one that does not stops it; nothing refuses. -/
theorem need_next {ok : Bool} {f : Fault} {t u : State} : need ok f t = .next u ↔ ok = true ∧ t = u := by
  cases ok <;> simp [need]

@[simp] theorem need_true (f : Fault) (t : State) : need true f t = .next t := rfl

@[simp] theorem need_false (f : Fault) (t : State) : need false f t = .fault f := rfl

@[simp] theorem when_true (s t : State) : when_ true s t = t := rfl

@[simp] theorem when_false (s t : State) : when_ false s t = s := rfl

/-- An event that does not occur leaves the state as it is. -/
theorem when_eq (b : Bool) (s t : State) : when_ b s t = if b = true then t else s := rfl

/-! ## A step -/

/-- A step with a command waiting runs it on the queue's rest. -/
theorem step_cons (s : State) (c : Instr) (l : List Instr) (h : s.pending = c :: l) :
    step s = exec c { s with pending := l } := by
  simp only [step, h]

/-! ## Frames -/

theorem sameIn_refl (a : Area) (s : State) : sameIn a s s := by cases a <;> rfl

theorem sameIn_trans {a : Area} {s t u : State} (h : sameIn a s t) (k : sameIn a t u) : sameIn a s u := by
  cases a <;> exact Eq.trans k h

theorem onlyChanges_refl (l : List Area) (s : State) : onlyChanges l s s := fun a _ => sameIn_refl a s

theorem onlyChanges_trans {l : List Area} {s t u : State} (h : onlyChanges l s t) (k : onlyChanges l t u) : onlyChanges l s u :=
  fun a ha => sameIn_trans (h a ha) (k a ha)

/-- A frame, field by field. -/
theorem onlyChanges_iff (l : List Area) (s t : State) : onlyChanges l s t ↔
    (l.contains .grade = false → t.grade = s.grade) ∧
    (l.contains .time = false → t.time = s.time) ∧
    (l.contains .mesh = false → t.mesh = s.mesh) ∧
    (l.contains .q = false → t.q = s.q) ∧
    (l.contains .conn = false → t.conn = s.conn) ∧
    (l.contains .xl = false → t.xl = s.xl) ∧
    (l.contains .coll = false → t.coll = s.coll) ∧
    (l.contains .ar = false → t.ar = s.ar) ∧
    (l.contains .fab = false → t.fab = s.fab) ∧
    (l.contains .link = false → t.link = s.link) ∧
    (l.contains .mem = false → t.mem = s.mem) ∧
    (l.contains .part = false → t.part = s.part) ∧
    (l.contains .far = false → t.far = s.far) ∧
    (l.contains .mgr = false → t.mgr = s.mgr) ∧
    (l.contains .sec = false → t.sec = s.sec) ∧
    (l.contains .mtr = false → t.mtr = s.mtr) ∧
    (l.contains .obs = false → t.obs = s.obs) ∧
    (l.contains .pow = false → t.pow = s.pow) ∧
    (l.contains .elec = false → t.elec = s.elec) ∧
    (l.contains .dict = false → t.dict = s.dict) ∧
    (l.contains .inForce = false → t.inForce = s.inForce) ∧
    (l.contains .counts = false → t.counts = s.counts) ∧
    (l.contains .out = false → t.out = s.out) ∧
    (l.contains .free = false → t.free = s.free) := by
  constructor
  · intro h
    exact ⟨h .grade, h .time, h .mesh, h .q, h .conn, h .xl, h .coll, h .ar, h .fab, h .link, h .mem, h .part, h .far, h .mgr, h .sec, h .mtr, h .obs, h .pow, h .elec, h .dict, h .inForce, h .counts, h .out, h .free⟩
  · rintro ⟨h0, h1, h2, h3, h4, h5, h6, h7, h8, h9, h10, h11, h12, h13, h14, h15, h16, h17, h18, h19, h20, h21, h22, h23⟩ a
    cases a <;> assumption

theorem onlyChanges_mono {l m : List Area} {s t : State} (h : onlyChanges l s t) (hm : ∀ a, l.contains a = true → m.contains a = true) :
    onlyChanges m s t := by
  intro a ha
  apply h
  cases hl : l.contains a with
  | false => rfl
  | true => rw [hm a hl] at ha; exact absurd ha (by decide)

/-! ## The record under way -/

theorem current_running {s : State} {r : Request} {c : Cmd} (h : current s = some (r, c)) :
    ∃ x rest, s.far.running = some x ∧ x.todo = c :: rest ∧ x.waiting = false ∧ x.req = r := by
  unfold current at h
  split at h
  · next x hx =>
    split at h
    · next c' rest hc =>
      cases hw : x.waiting with
      | true => simp [hw] at h
      | false => simp [hw] at h; exact ⟨x, rest, hx, by rw [hc, h.2], hw, h.1⟩
    · simp at h
  · simp at h

/-- What a WRITE that passes the checks of every write does: the entry's own action, and its result ends the record. -/
theorem onWrite_of_writesEntry {s : State} {r : Request} {c : Cmd} {i n : Nat} (h : writesEntry s r c i n = true)
    {first last : Nat} (hf : first ≤ n) (hl : n ≤ last) {p : List Byte → Bool} (hp : p c.data = true)
    (act : Sender → Cmd → State → Nat × State) :
    onWrite s i first last p act = finish (act (senderOf s r) c s).1 [] (act (senderOf s r) c s).2 := by
  simp only [writesEntry, Bool.and_eq_true, beq_iff_eq] at h
  obtain ⟨⟨⟨⟨⟨hc, hs⟩, hw⟩, hi⟩, hn⟩, hm⟩ := h
  unfold onWrite
  simp only [hc, hs, hw, hi, hn, hp, Bool.and_self, beq_self_eq_true, Bool.true_and]
  cases he : entryAt i n with
  | none => simp [he] at hm
  | some e =>
    simp only [he, beq_iff_eq] at hm
    have hb : (first.ble n && n.ble last) = true := by simp [hf, hl]
    simp [hm, hb]

/-- The same where the entry's own function ends the record. -/
theorem onWriteRaw_of_writesEntry {s : State} {r : Request} {c : Cmd} {i n : Nat} (h : writesEntry s r c i n = true)
    {p : List Byte → Bool} (hp : p c.data = true) (act : Sender → Cmd → State → State) :
    onWriteRaw s i n p act = act (senderOf s r) c s := by
  simp only [writesEntry, Bool.and_eq_true, beq_iff_eq] at h
  obtain ⟨⟨⟨⟨⟨hc, hs⟩, hw⟩, hi⟩, hn⟩, hm⟩ := h
  unfold onWriteRaw
  simp only [hc, hs, hw, hi, hn, hp, Bool.and_self, beq_self_eq_true]
  cases he : entryAt i n with
  | none => simp [he] at hm
  | some e =>
    simp only [he, beq_iff_eq] at hm
    simp [hm]

/-- What a READ that its sender may do gives: the entry's own value and change. -/
theorem onRead_of_readsEntry {s : State} {r : Request} {c : Cmd} {i n : Nat} (h : readsEntry s r c i n = true)
    {first last : Nat} (hf : first ≤ n) (hl : n ≤ last) (act : Sender → Cmd → State → Nat × List Byte × State) :
    onRead s i first last act =
      finish (act (senderOf s r) c s).1 (act (senderOf s r) c s).2.1 (act (senderOf s r) c s).2.2 := by
  simp only [readsEntry, Bool.and_eq_true, beq_iff_eq] at h
  obtain ⟨⟨⟨⟨⟨hc, hs⟩, hw⟩, hi⟩, hn⟩, hm⟩ := h
  unfold onRead
  have hb : (first.ble n && n.ble last) = true := by simp [hf, hl]
  simp only [hc, hs, hw, hi, hn, beq_self_eq_true, Bool.true_and, hb]
  cases he : entryAt i n with
  | none => simp [he] at hm
  | some e =>
    simp only [he, Bool.and_eq_true, Bool.or_eq_true, Bool.not_eq_true', beq_iff_eq] at hm
    obtain ⟨⟨h1, h2⟩, h3⟩ := hm
    have h3' : (e.ty != 14 && e.size.blt c.offset) = false := by
      rcases h3 with h | h
      · simp [h]
      · simp [h]
    simp [h1, h2, h3']

end Sys2Proof.Machine
end

