-- ==== Sys2Proof/Tests/Slice0.lean ====
section
/-! SUPPORT. Tests: ill-formed commands that WellFormed refuses, values the manual works out, one step at a time, and a state and operands
that meet the hypotheses of every clause of every statement. -/

set_option Elab.async false

namespace Sys2Proof.Tests

open Sys2Proof Sys2Proof.Machine

/-! ## Small states -/

/-- A word made of fields, each a low bit and a value. -/
def word (n : Nat) (l : List (Nat × Nat)) : BitVec n := BitVec.ofNat n (pack l)

/-- A partition that is Up, its ranges from 0. -/
def part0 : Part :=
  { enabled := true, state := .up, mem := ⟨0, 64⟩, tableSize := 1, regions := ⟨0, 64⟩, flat := ⟨0, 64⟩, wq := ⟨0, 16⟩, cq := ⟨0, 16⟩,
    ctr := ⟨0, 16⟩, quotaEnds := 16, quotaOps := 16, quotaSlices := 4 }

/-- A running device with partition 0 Up. -/
def sUp : State := { part := { parts := [(0, part0)] }, mem := { zeroing := false } }

/-- A descriptor of a queue of partition 0: BURST 1, 64 entries, ring and completion queue 0. -/
def qDesc : BitVec 256 := word 256 [(248, 1)]

/-- Partition 0 with completion queue 0 and a work queue 0 in a state. -/
def sQ (q : WorkQueue) : State :=
  { sUp with q := { wqs := [(0, { q with desc := qDesc })], cqs := [(0, { exists_ := true })] } }

/-- A device whose dictionary server runs one record of session 1. -/
def sRun (c : Cmd) (priv part : Nat) (s : State) : State :=
  { s with far := { s.far with
      sessions := [(1, { priv := priv, part := part, path := .segment, epoch := 0, key := 0, counter := 0, lastFrame := 0 })],
      running := some { req := ⟨.segment, 1, 1, 1, false, [c], none⟩, todo := [c] } } }

/-- The request of that record. -/
def rq (c : Cmd) : Request := ⟨.segment, 1, 1, 1, false, [c], none⟩

/-- A WRITE record of little-endian bytes. -/
def wr (i n size v : Nat) : Cmd := ⟨0x02, i, n, 0, size, leBytes size v⟩

/-- A READ record. -/
def rd (i n len : Nat) : Cmd := ⟨0x01, i, n, 0, len, []⟩

/-- Every test of a list holds. -/
def all (l : List Bool) : Bool := l.all id

/-! ## WellFormed refuses each kind of object that does not exist, and takes the last that does -/

theorem test_wf_port : (Instr.signalDetected 24).wf = false ∧ (Instr.signalDetected 23).wf = true := by decide
theorem test_wf_partition : (Instr.pauseWq 12 0).wf = false ∧ (Instr.pauseWq 11 0).wf = true := by decide
theorem test_wf_meshLink : (Instr.meshLinkOutOfService 18).wf = false ∧ (Instr.meshLinkOutOfService 17).wf = true := by decide
theorem test_wf_island : (Instr.distributionWordArrival 208 0).wf = false ∧ (Instr.distributionWordArrival 207 0).wf = true := by decide
theorem test_wf_accelPort : (Instr.accelLossTimer 8).wf = false ∧ (Instr.accelLossTimer 7).wf = true := by decide
theorem test_wf_engineDie : (Instr.scrub 8 0 0).wf = false ∧ (Instr.scrub 7 0 0).wf = true := by decide
theorem test_wf_portDie : (Instr.queueSample 4).wf = false ∧ (Instr.queueSample 3).wf = true := by decide
theorem test_wf_rail : (Instr.powerGoodAsserted 18).wf = false ∧ (Instr.powerGoodAsserted 17).wf = true := by decide
theorem test_wf_managementCore : (Instr.mcWatchdog 4).wf = false ∧ (Instr.mcWatchdog 3).wf = true := by decide

/-! ## Steps, time and memory (01) -/

theorem witness_EmptyQueueLetsTimePass :
    ({} : State).pending = [] ∧ ({} : State).time.aon = none ∧ ({ time := { aon := some (5, 3) } } : State).pending = [] ∧ ({} : State).link.barWait = [] :=
  ⟨rfl, rfl, rfl, rfl⟩

/-- Step 30,517 of the always-on island's clock has not come after 30,517 ns; the next has, a whole number of ns late. -/
theorem test_aonSteps : aonSteps 30517 = 0 ∧ aonSteps 30518 = 30517 ∧ aonSteps 1000000000 = 1000000000 := by decide

theorem witness_StepKeepsMemoryCanonical :
    memoryCanonical (devWrite 8 [1, 0, 2] {}) ∧ (devWrite 8 [1, 0, 2] {}).mem.bytes = [(8, 1), (10, 2)] := ⟨⟨by decide, by decide⟩, by decide⟩

/-- Link 0 leaves both its dies a link; with links 5, 13 and 10 out, link 4 is the last of port die 0x12 and of engine die 2. -/
theorem witness_MeshLinkLeavesService : all [
    hubUp {}, linkServes {} 0, linkServes {} 17, hasLink (linkOut 0 {}) 0x10, hasLink (linkOut 0 {}) 0,
    (let s : State := { mesh := { out := [5, 13, 10] } }
     all [linkServes s 4, !hasLink (linkOut 4 s) 0x12, !hasLink (linkOut 4 s) 2]),
    (let c : Carried := { src := hubCode, dst := 0, pkt := { hdr := 0, payload := [], crc := 0 } }
     let s : State := { mesh := { switching := true, held := [c] } }
     all [hubUp s, s.mesh.carry == [], hubUp { s with mesh := { s.mesh with carry := [c] } },
       ((meshRoute { s with mesh := { s.mesh with switching := false } } hubCode 0).getD []).all (dieUp s),
       (meshRoute { s with mesh := { s.mesh with switching := false } } hubCode 0).isSome])] = true := by decide +kernel

theorem witness_DistributionWordCorrectsIslands : all [
    serving {}, ({} : State).time.now ≤ 1024, ({} : State).time.lastWord + 1024 ≤ 1024, populated {} (dieOfIsland 207),
    (2000 : Int).natAbs ≤ 2000, 2000 < (-2001 : Int).natAbs] = true := by decide +kernel

theorem witness_CommandsLeaveTheQueue : exec .standbySynchronised {} = .next {} := rfl

theorem witness_WrittenBytesReadBack : memoryCanonical {} := ⟨by decide, by decide⟩

/-! ## Queues (03) -/

/-- A queue in a state, one entry fetched. -/
def q1 (st : QState) (w : Wqe) : WorkQueue := { state := st, producer := 1, fetched := [(0, w)] }

theorem witness_WorkQueueCommandsAct : all [
    queueWindowOpen sUp 0,
    (let s := { sUp with q := { cqs := [(0, { exists_ := true })] } }
     all [queueWindowOpen s 0, wqValid s 15 && ownsWq s 0 15 && !wqLive (wqOf s 15) && wqDescCheck s 0 15 qDesc == resDone]),
    [QState.idle, .running, .waiting, .paused, .draining, .error].all fun st =>
      queueWindowOpen (sQ { state := st }) 0 && ownLiveWq (sQ { state := st }) 0 0,
    [QState.idle, .paused, .error].all fun st => st.settled && wqDescCheck (sQ { state := st }) 0 0 qDesc == resDone,
    [QState.running, .waiting, .draining].all fun st => !st.settled,
    !ownLiveWq sUp 0 0, lowDesc (BitVec.ofNat 512 qDesc.toNat) == qDesc, Desc.part qDesc == 0] = true := by decide +kernel

theorem witness_CompletionQueueAndCounterCommandsAct : all [
    queueWindowOpen sUp 0,
    cqValid sUp 15 && ownsCq sUp 0 15 && !(cqOf sUp 15).exists_ && Desc.part 0 == 0 && Desc.logSize 0 != 15 && !Nat.blt 2047 (Desc.vector 0),
    (let s := sQ { state := .idle }
     all [queueWindowOpen s 0, cqValid s 0 && ownsCq s 0 0 && (cqOf s 0).exists_, boundTo s 0 ≠ []]),
    (let s := sQ {}
     all [cqValid s 0 && ownsCq s 0 0 && (cqOf s 0).exists_, boundTo s 0 = []]),
    cqValid sUp 15 && ownsCtr sUp 0 15 && (tget sUp.q.ctrs 15).isNone && Desc.part 0 == 0,
    (let s := { sUp with q := { ctrs := [(15, {})] } }
     all [cqValid s 15 && ownsCtr s 0 15 && (tget s.q.ctrs 15).isSome, !(cqValid s 14 && ownsCtr s 0 14 && (tget s.q.ctrs 14).isSome)]),
    (let s := { sUp with q := { windows := [(0, { word := controlWord resPending 3 0 })] } }
     all [running s, (partOf s 0).state = .up, windowPending s 0]),
    (partOf { part := { parts := [(0, { state := .resetting })] } } 0).state = .resetting, (partOf {} 11).state = .off] = true := by
  decide +kernel

/-- The cases of R88 past the ring, at the ring's end, stale by 0 and by 2^31. -/
theorem witness_DoorbellCasesInOrder : all [
    [QState.idle, .running, .draining, .error].all fun st => all [running (sQ { state := st }), wqLive (wqOf (sQ { state := st }) 0),
      doorbellReach (sQ { state := st }) (.host 0) 0 0 = .yes],
    (let s := sQ { state := .idle }
     all [0 < sub32 65 (wqOf s 0).producer, sub32 65 (wqOf s 0).producer < 2 ^ 31, Desc.size (wqOf s 0).desc < sub32 65 (wqOf s 0).consumer,
       sub32 64 (wqOf s 0).consumer ≤ Desc.size (wqOf s 0).desc, sub32 0 (wqOf s 0).producer = 0,
       2 ^ 31 ≤ sub32 (2 ^ 31) (wqOf s 0).producer])] = true := by decide +kernel

theorem witness_PushAreaAndHeadWrites : all [
    (let s := sQ { state := .idle }
     all [running s, wqLive (wqOf s 0), doorbellReach s (.host 0) 0 0 = .yes]),
    (let s := { sUp with q := { cqs := [(0, { exists_ := true, written := 3, head := 1 })] } }
     all [running s, (cqOf s 0).exists_, doorbellReach s .hub 0 0 = .yes,
       sub32 3 (cqOf s 0).head ≤ sub32 (cqOf s 0).written (cqOf s 0).head,
       sub32 (cqOf s 0).written (cqOf s 0).head < sub32 4 (cqOf s 0).head])] = true := by decide +kernel

/-- Region 0 of partition 0, its device memory from 0 in a page the look-aside holds. -/
def sMem (q : WorkQueue) : State :=
  { sQ q with xl := {
      regions := [(0, word 256 [(128, 2 ^ 20), (94, 1), (83, 0x3F), (0, 1)])], ctxs := [(0, { root := some 0, walkEn := true })],
      look := [{ die := 0, part := 0, pasid := 0, va := 0, span := 2 ^ 21, page := 2 ^ 21, target := 1, port := 0, out := 0, regions := [0] }] } }

/-- A local buffer of partition 0 in key 0 is there and whole. -/
def spanGood (s : State) (a n : Nat) (r : Need) : Bool :=
  match localSpan 0 0 0 0 a n r anyTarget true s with
  | (.ok ps, s1) => (badOffset s1 ps 0).isNone && !ps.isEmpty
  | _ => false

theorem witness_QueuesFetchFenceAndWait : all [
    (let s := sMem { state := .idle }
     all [running s, wqLive (wqOf s 0), (wqOf s 0).state ≠ .error, spanGood s (64 * 60) 256 .read, spanGood s 0 256 .read]),
    -- entry 0, that is next, and entry 1 behind it
    [(0, 1), (0, 3999), (0, 4000), (1, 4000)].all fun (c, n) =>
      let s0 := sMem { state := .running, producer := 2, refetches := [(c, (n, 0))] }
      let s := { s0 with time := { now := 250 } }
      all [running s, (wqOf s 0).state = .running, tget (wqOf s 0).refetches c == some (n, 0),
        sub32 c (wqOf s 0).consumer < (wqOf s 0).posted, tget (wqOf s 0).fetched c == none, due s 0 250, spanGood s (64 * c) 64 .read],
    Wqe.phase (word 512 [(511, 1)]) = ownerPhase 0 0, Wqe.phase 0 ≠ ownerPhase 0 0,
    (let w : Wqe := word 512 [(511, 1), (501, 1)]
     let s := sQ (q1 .running w)
     all [(wqOf s 0).next = some w, Wqe.fence w, (wqOf s 0).posted ≠ 0, (wqOf s 0).ops = []]),
    (let w : Wqe := word 512 [(511, 1), (488, 0x18), (344, 1), (256, 1)]
     let s := { sQ { q1 .waiting w with waitSince := some 0 } with time := { now := 64000 } }
     let t := { s with q := { s.q with ctrs := [(0, { value := 1 })] } }
     let full := setCq 0 (fun c => { c with reserved := 65536 }) s
     all [running s, (wqOf s 0).state = .waiting, (wqOf s 0).holds, nextWqe s 0 = some w, Wqe.waitTimeout w = 1, !conditionHolds s w,
       slotFree s (wqOf s 0), !slotFree full (wqOf full 0), (wqOf full 0).holds,
       nextWqe t 0 = some w, conditionHolds t w])] = true := by decide +kernel

theorem witness_QueuesPauseDrainAndFault : all [
    (let s := sQ { state := .waiting, pausing := true }
     all [running s, (wqOf s 0).pausing, (wqOf s 0).state = .waiting, (wqOf s 0).ops = []]),
    [false, true].all fun b =>
      let s := sQ { state := .draining, pausing := b }
      all [(wqOf s 0).state = .draining, (wqOf s 0).ops = [], (wqOf s 0).pausing == b, (cqOf s 0).exists_, !(cqOf s 0).error],
    [none, some 0, some 1].all fun x =>
      let s : State := { time := { now := 1000000000 }, q := { ctrs := [(0, { mirrorKey := 1, dropAt := x })] } }
      all [running s, (tget s.q.ctrs 0).isSome]] = true := by decide +kernel

/-- A privileged queue whose next entry is `w`, with an open end of partition 0 to endpoint 1. -/
def sOp (w : Wqe) : State :=
  let s := sMem (q1 .running w)
  { s with q := { s.q with wqs := tmod s.q.wqs 0 fun q => { q with desc := word 256 [(248, 1), (239, 1)] }, ctrs := [(0, {})] },
           conn := { holdoff := none, cached := [0], ends := [(0, { state := .open_, peerEp := 1, localEp := 0 })] } }

/-- An entry of an opcode to endpoint 1, with other fields. -/
def wqe (o : Nat) (l : List (Nat × Nat)) : Wqe := word 512 ([(511, 1), (488, o), (464, 1)] ++ l)

theorem witness_QueueEngineRunsTheOpcode :
    ([(opNop, []), (opWait, []), (opPut, []), (opPut, [(192, 64)]), (opGet, []), (opGet, [(192, 64)]), (opPutAcc, [(484, 1), (480, 1), (192, 64)]),
      (opPutAcc, [(484, opRound), (480, 3), (497, 1), (192, 3072)]),
      (opPutNotify, []), (opNotify, []), (opFadd, []), (opCswap, []), (opCopyIn, []), (opCopyOut, []), (opTableUpdate, [(192, 64)]),
      (opInvalidate, [(224, 2)]), (opInvalidate, [(224, 3)])].all fun (o, l) =>
        takesWqe (sOp (wqe o l)) 0 (wqe o l) && !holdsNow (takeTurn 0 (leaveIdle (sOp (wqe o l)))) 0 (wqe o l)) = true := by decide +kernel

/-! ## Connections (04) -/

/-- Partition 0 of a device at COORD 0 with connection end 5 in the cache. -/
def sE (e : End) : State :=
  { sUp with conn := { holdoff := none, ends := [(5, e)], cached := [5], epochs := [(0, 0), (5, 7)] }, dict := [(dkey 0x3001 2, [0, 0])],
             time := { now := 2000000000 } }

/-- A descriptor of a connection of partition 0: spray mode, rate. -/
def cDesc (spray rate : Nat) : BitVec 512 := word 512 [(242, spray), (184, 0x11), (32, rate)]

/-- A packet comes over the mesh to a die. -/
def onMesh (dst : Nat) (p : Packet) (s : State) : State :=
  { s with mesh := { s.mesh with carry := [{ src := fpCode 0, dst := dst, pkt := p }] } }

/-- A setup packet of words for a handle and epoch, its trailer right or not. -/
def setupPk (kind h ep : Nat) (ws : List Nat) (good : Bool := true) : Packet :=
  let b := setupBytes ws
  let p := mkPacket {} { peerEp := 9, peerHandle := h, epoch := ep } { kind := kind, tc := 0, length := b.length, plen := b.length } 0 b
  if good then p else { p with crc := p.crc + 1 }

/-- The hub hears a setup packet and its check holds. -/
def hearsNow (kind : Nat) (same : Packet → Bool) (p : Packet) (s : State) : Bool := (takeSetup kind same (onMesh hubCode p s)).any (·.1)

theorem witness_ConnectionWindowCommandsAct : all [
    (let s := sE {}
     all [connWindowOpen s 0, ConnDesc.part (lowDesc (cDesc 2 0)) = 0, ConnDesc.spray (lowDesc (cDesc 2 0)) ≠ 3,
       ConnDesc.spray (lowDesc (cDesc 3 0)) = 3, ConnDesc.part (lowDesc (word 512 [(236, 1)])) ≠ 0, dieUp s (dieOfEnd 0), coord s = some 0,
       partEndsOn s (dieOfEnd 0) 0 < (partOf s 0).quotaEnds, (freeHandle s (dieOfEnd 0)).isSome, 8 ≤ dieOfEnd (8 * 2 ^ 17),
       coord { s with dict := [] } = none, connWindowOpen { s with dict := [] } 0]),
    (let s := { sE {} with part := { parts := [(0, { part0 with quotaEnds := 1 })] } }
     all [connWindowOpen s 0, (partOf s 0).quotaEnds ≤ partEndsOn s (dieOfEnd 0) 0]),
    [CState.connecting, .open_, .broken, .closing].all fun st =>
      let e : End := { state := st }
      all [connWindowOpen (sE e) 0, ownEnd (sE e) 0 5 e, opsOn (sE e) 5 = []],
    (let e : End := { state := .open_ }
     let s := { sE e with q := { wqs := [(0, { state := .running, ops := [{ idx := 0, wqe := wqe opPut [], handle := 5 }] })] } }
     all [connWindowOpen s 0, ownEnd s 0 5 e, opsOn s 5 ≠ []]),
    -- no end is the partition's: an end of another partition
    (tget (sE { state := .open_, part := 1 }).conn.ends 5).any fun e => !(e.part == 0)] = true := by decide +kernel

theorem witness_ConnectionEndsChangeState : all [
    (let s := sE { state := .connecting }
     all [hearsNow kConnectAck (ackSays 5 3 8 9) (setupPk kConnectAck 5 8 [3, 9]) s,
       hearsNow kConnectNak (nakSays 5 true) (setupPk kConnectNak 5 0 [resNoResource]) s,
       hearsNow kConnectNak (nakSays 5 false) (setupPk kConnectNak 5 0 [resRefused]) s,
       (takeSetup kConnectAck (ackSays 5 3 8 9) (onMesh hubCode (setupPk kConnectAck 5 8 [3, 9] false) s)).any fun x => !x.1]),
    [0, 3, 4].all fun n =>
      let s := sE { state := .connecting, tries := n, tryFor := 10000000 }
      all [running s, inCache s 5, due s 0 (tgetD s.conn.ends 5 {}).tryFor, (tgetD s.conn.ends 5 {}).state = .connecting],
    [false, true].all fun b => [0, 3, 4].all fun n =>
      let s := sE { state := .closing, epoch := 7, tries := n, closeWait := b, tryFor := 10000000 }
      all [(tgetD s.conn.ends 5 {}).state = .closing, due s 0 (tgetD s.conn.ends 5 {}).tryFor,
        hearsNow kCloseAck (fun q => Hdr.handle q.hdr == 5) (setupPk kCloseAck 5 7 []) s,
        hearsNow kReset (resetSays 5 7) (setupPk kReset 5 7 []) s],
    (let s := sE { state := .open_, epoch := 7 }
     all [running s, opsOn s 5 = [], s.coll.groups = [], hearsNow kReset (resetSays 5 7) (setupPk kReset 5 7 []) s]),
    (let s0 := sE { state := .open_, initiator := false, epoch := 7, orphanFor := 1000000000 }
     let s := { s0 with conn := { s0.conn with arrivals := [(arrKey 5 1, {})] } }
     all [running s, hasOpenArrival s 5, due s 0 (tgetD s.conn.ends 5 {}).orphanFor, inCache s 5,
       hearsNow kCloseReq (closeSays 5 0x10 3 7) (setupPk kCloseReq 5 7 [0x10, 3]) s,
       hearsNow kCloseReq (closeSays 5 0x10 3 6) (setupPk kCloseReq 5 6 [0x10, 3]) s])] = true := by decide +kernel

/-- A request of endpoint 0x10 for endpoint 9 in partition 0's domain 1. -/
def req (ep : Nat) (t : Option Nat) : SetupReq :=
  { fromEp := 0x10, fromHandle := 3, toEp := 9, target := t, epoch := ep, domain := 1, pasid := 0, part := 0, spray := 0, mgmt := false, psn := 9 }

/-- The hub hears a request. -/
def hearsReq (r : SetupReq) (s : State) : Bool := hearsNow kConnectReq (fun q => reqOf q == r) (setupPk kConnectReq 0 0 (reqWords r)) s

set_option maxRecDepth 20000 in
theorem witness_SetupServiceAnswers : all [
    (let s := sE { state := .open_, initiator := false, peerEp := 0x10, peerHandle := 3, reqEpoch := 1 }
     all [running s, (coord s).isSome, isOwn s 9, hearsReq (req 1 none) s, (madeBy s (req 1 none)).isSome, hearsReq (req 2 none) s,
       madeBy s (req 2 none) = none, targetPartition (leaveIdle s) (req 2 none) = none, hearsReq (req 2 (some 5)) s,
       madeBy s (req 2 (some 5)) = none, !isEdge 5,
       (tget s.conn.ends 5).any fun e => !e.initiator && e.isOpen && e.peerEp == 0x10 && e.peerHandle == 3,
       hearsReq { req 1 none with toEp := 0x19 } s, !isOwn s 0x19]),
    -- a fresh request that reaches partition 0: accepted, or past its quota
    [16, 0].all fun n =>
      let s := { sE {} with part := { parts := [(0, { part0 with quotaEnds := n, domain := 1 })] } }
      let s := { s with conn := { s.conn with ends := [] } }
      all [hearsReq (req 1 none) s, targetPartition s (req 1 none) == some 0, partUp s 0,
        (freeHandle s (targetDie s 9) (some 3)).isSome, (partOf s 0).quotaEnds = n, partEndsOn s (targetDie s 9) 0 = 0]] = true := by
  decide +kernel

theorem witness_ConnectionTimersAct : all [
    (let s : State := { time := { now := 5000000 } }
     all [running s, s.conn.holdoff = some 5000000]),
    (let s0 := sE { state := .open_ }
     let s := { s0 with conn := { s0.conn with cached := [] } }
     all [running s, !inCache s 5]),
    (let e : End := { state := .open_, hold := some 1999999999, holdFor := 1000000, holdStart := some 0, holdLimit := 1000000000 }
     let s := sE e
     all [inCache s 5, underHold s e, due s 0 e.holdLimit, due s e.lastSent (cfg s 0x4101 9 * us + 1)]),
    [0, 1].all fun m => [500, 400000, 800000].all fun r => [none, some r].all fun set =>
      let e : End := { state := .open_, pacedSent := true, marked := m, total := 1, window := 65536, rate := r, rateSet := set }
      let s := sE e
      all [!underHold s e, due s e.lastUpdate (max e.srtt 4000), cfg s 0x4101 2 ≤ e.rateSet.getD e.rate, cfg s 0x4101 2 ≤ rateLimit s e,
        e.rateSet.getD e.rate ≤ rateLimit s e]] = true := by
  decide +kernel

/-- A packet of a kind and PSN for end 5 with the end's epoch 7, its trailer right or not. -/
def pk (kind op psn epoch sent : Nat) (payload : List Byte) (good : Bool := true) (more : List (Nat × Nat) := []) : Packet :=
  let h : BitVec 320 := word 320 ([(318, 2), (314, kind), (298, op), (262, 5), (246, epoch), (214, psn), (90, sent)] ++ more)
  { hdr := h, payload := payload, crc := trailer h 0 payload + (if good then 0 else 1) }

/-- An end with epoch 7 that has delivered through 100. -/
def eRx (initiator : Bool) : End := { state := .open_, initiator := initiator, epoch := 7, recvThrough := 100, bitmap := 2 }

/-- A packet is next on the mesh to the die of its end, and suits the end. -/
def suitsNow (p : Packet) (kind : Nat) (e : End) (s : State) : Bool :=
  (reaches p (onMesh (edCode 0) p s)).isSome && reachesEnd (onMesh (edCode 0) p s) p kind e

/-- It has come, its trailer checks, and its PSN is new to the end. -/
def comesNow (p : Packet) (kind : Nat) (e : End) (s : State) : Bool :=
  suitsNow p kind e s && trailerChecks p && (reaches p (onMesh (edCode 0) p s)).any fun t => isNew (received t 5) p e

theorem witness_PacketsAreClassified : all [
    [(false, kData, 1), (false, kRequest, 2), (true, kResponse, 2), (false, kWithdraw, 1)].all fun (i, k, o) =>
      comesNow (pk k o 101 7 2000000000 []) k (eRx i) (sE (eRx i)),
    [kAck, kHold, kNack].all fun k => [true, false].all fun good =>
      let p := pk k 0 0 7 0 [0, 0, 0, 0, 1, 0, 0, 0] good
      all [trailerChecks p == good, suitsNow p k (eRx true) (sE (eRx true)), field p.payload 4 1 = 1],
    -- delivered-through itself, one in the bitmap, the edges of reach, of the stale span and of the duplicate span
    [100, 102, 356, 357, 65636, 65637, 4294901860, 4294901861].all fun psn => suitsNow (pk kData 1 psn 7 0 []) kData (eRx false) (sE (eRx false)),
    sub32 100 100 = 0, flag (eRx false).bitmap (102 - 101), newAt (eRx false) 356, 256 < sub32 357 100, sub32 65636 100 ≤ 65536,
    65536 < sub32 65637 100, sub32 4294901860 100 < 2 ^ 32 - 65535, 2 ^ 32 - 65535 ≤ sub32 4294901861 100,
    -- too old once alignment is known, by 1 ns; never while the device is FREE
    (let s : State := { sE (eRx false) with time := { now := 2000000000, state := .aligned } }
     all [tooOld s (pk kData 1 101 7 1994999999 []).hdr, !tooOld s (pk kData 1 101 7 1995000000 []).hdr,
       !tooOld (sE (eRx false)) (pk kData 1 101 7 1994999999 []).hdr]),
    !trailerChecks (pk kData 1 101 7 0 [] false),
    (let p := pk kData 1 101 6 0 []
     all [Hdr.kind p.hdr = kData, !isEdge (handleOf p.hdr), opcodeFits kData (Hdr.opcode p.hdr), Hdr.epoch p.hdr ≠ 7,
       (reaches p (onMesh (edCode 0) p (sE (eRx false)))).isSome, (sE (eRx false)).conn.holdoff = none, ({} : State).conn.holdoff.isSome]),
    !(End.takes { eRx false with state := .connecting }), End.takes (eRx false),
    (let s := sE (eRx false)
     !inCache { s with conn := { s.conn with cached := [] } } 5),
    [7, 14, 15].all fun k =>
      let p := pk k 0 0 0 0 []
      Hdr.kind p.hdr == k && (reaches p (onMesh (edCode 0) p (sE {}))).isSome] = true := by decide +kernel

theorem witness_AcceptedPsnIsNotNewAgain : all [
    newAt (eRx false) 101, newAt (eRx false) 356, !newAt (eRx false) 102, !newAt (eRx false) 100, sub32 102 100 ≤ 256] = true := by decide +kernel

theorem witness_SendHalvesSendAndResend : all [
    (let d : Desc := { kind := kData, plen := 4, body := [1, 2, 3, 4] }
     let e : End := { state := .open_, toSend := [d], acked := 0xFFFFFFFF }
     let s := sE e
     all [running s, inCache s 5, sourceFault s d = none, maySend s 5 e d]),
    (let d : Desc := { kind := kData, src := [⟨0, 64, 1, 0, 4096, 4096, 0, 0, 0⟩] }
     let u : Unacked := { psn := 9, desc := d, sent := 0 }
     let s0 := sE { state := .open_, toSend := [d], unacked := [u] }
     let s := { s0 with mem := { bad := [64], zeroing := false } }
     all [(sourceFault s d).isSome, (badOffset s d.src 0).isSome]),
    [7, 8].all fun n =>
      let e : End := { state := .open_, unacked := [{ psn := 9, desc := { kind := kData }, sent := 0, timer := 64000, resends := n }] }
      let s := sE e
      all [overdue s e ≠ [], counting s e, cfg s 0x4100 3 = 8, !isEdge 5],
    (let e : End := { state := .open_, initiator := false, doneQ := [⟨1, 0, 0, 0⟩], ackPending := 1, ackFor := 2000 }
     let s := sE e
     all [e.doneQ ≠ [], due s e.doneSince 500, e.ackPending ≠ 0, due s e.ackSince e.ackFor]),
    -- answers: an ACK, a HOLD under one and without, a NACK of each reason with the packet it names
    (let u : Unacked := { psn := 9, desc := { kind := kData, plen := 1, body := [5] }, sent := 0, timer := 64000 }
     let e : End := { eRx true with unacked := [u] }
     let s := sE e
     all [suitsNow (pk kAck 0 0 7 0 (leBytes 8 9)) kAck e s, trailerChecks (pk kAck 0 0 7 0 (leBytes 8 9)),
       suitsNow (pk kHold 0 0 7 0 []) kHold e s, !underHold s e, underHold s { e with hold := some 2000000000, holdFor := 64000 },
       [1, 2].all fun r => let p := pk kNack 0 0 7 0 (leBytes 4 9 ++ leBytes 4 r)
         suitsNow p kNack e s && field p.payload 4 1 == r && (e.unacked.find? fun x => x.psn == field p.payload 0 4).isSome,
       sourceFault s u.desc = none, pathState s false u.desc.src == .go])] = true := by decide +kernel

/-- Target end 5 with an arrival record of operation 1. -/
def sArr (a : Arrival) : State :=
  let s := sE { eRx false with nextPsn := 1, paths := [.memory 0] }
  { s with conn := { s.conn with arrivals := [(arrKey 5 1, a)] }, q := { ctrs := [(0, {})] } }

theorem witness_TargetsCompleteOperations : all [
    (let a : Arrival := { opcode := opFadd, reqPsn := 100, noteDue := true, body := [0] }
     all [running (sArr a), inCache (sArr a) 5, fullyArrived (sArr a) 5 1 (eRx false) a, isAtomic a.opcode]),
    (let a : Arrival := { opcode := opPut }
     all [fullyArrived (sArr a) 5 1 (eRx false) a, !isAtomic a.opcode, !a.xpath, !a.noteDue, !collective a.opcode]),
    (let a : Arrival := { opcode := opPut, xpath := true, paths := [.memory 0] }
     all [fullyArrived (sArr a) 5 1 (eRx false) a, a.paths ≠ []]),
    [false, true].all fun x =>
      let a : Arrival := { opcode := opPutNotify, noteDue := true, reqPsn := 100, xpath := x, body := [0] }
      fullyArrived (sArr a) 5 1 (eRx false) a && (endOf (sArr a) 5).paths ≠ [],
    [1, 2].all fun n =>
      let a : Arrival := { opcode := opPut, xpath := true, flush := some n }
      tget (sArr a).conn.arrivals (arrKey 5 1) == some a,
    [none, some (0, stRemoteRights, 0)].all fun low =>
      let a : Arrival := { opcode := opNotify, complete := true, noteDue := true, flush := some 0, reqPsn := 100, low := low, body := [] }
      all [inOrder (eRx false) a.reqPsn, earlierDone (sArr a) 5 1 a.reqPsn],
    (let a : Arrival := { opcode := opNotify, complete := true, noteDue := true, flush := some 0, body := requestBody (wqe opNotify [(160, 0)]) 0 0 1 }
     let s := { sArr a with xl := (sMem {}).xl, q := { ctrs := [(0, {})] } }
     (noteCheck (dieOfEnd 5) { eRx false with localEp := 8 } a.body s).1 = stOk)] = true := by decide +kernel

/-- An initiator with one operation of queue 0 in flight on end 5. -/
def sIni (o : Op) (e : End) : State :=
  { sE e with q := { wqs := [(0, { state := .running, desc := qDesc, ops := [o] })], cqs := [(0, { exists_ := true })] }, xl := (sMem {}).xl }

/-- A target end whose remote key 0 names device memory from 0, all rights. -/
def sTgt : State := { sE { eRx false with localEp := 8 } with xl := (sMem {}).xl }

/-- A PUT of four bytes to address 64: LENGTH 4, RADDR 64. -/
def putPk : Packet := pk kData opPut 101 7 2000000000 [1, 2, 3, 4] true [(154, 4)]

theorem witness_PacketsOfOperations : all [
    -- a PUT that is placed, and one whose key does not exist
    (let e : End := { eRx false with localEp := 8 }
     let s := sTgt
     let h := putPk.hdr
     let u := touch 5 (received s 5)
     let (o, s1) := tileOutcome 5 e h (openArrival 5 h (frameXpath h) none u)
     let bad := { s with xl := {} }
     all [comesNow putPk kData e s, recordFree u 5 (Hdr.opnum h), o.status = 0, pathState s1 true (packetPieces h o 4) == .go,
       (storePieces (packetPieces h o 4) [1, 2, 3, 4] s1).1 = 4, comesNow putPk kData e bad,
       (tileOutcome 5 e h (openArrival 5 h (frameXpath h) none (touch 5 (received bad 5)))).1.status ≠ 0]),
    -- a NOTIFY, an atomic, a GET, a withdrawal
    (let e : End := { eRx false with localEp := 8 }
     let s := sTgt
     let p := fun (op n : Nat) => pk kRequest op 101 7 2000000000 (List.replicate 40 0) true [(154, n)]
     let u := touch 5 (received s 5)
     all [[opNotify, opFadd].all fun op => comesNow (p op 8) kRequest e s, !atomicWaits 5 e opFadd (List.replicate 40 0) u,
       comesNow (p opGet 8) kRequest e s,
       (match remoteCheck 5 e 0 0 8 Region.read true (openArrival 5 (p opGet 8).hdr false none u) with
        | (.inr ps, s1) => pathState s1 false ps == .go
        | _ => false),
       comesNow (pk kWithdraw opPut 101 7 2000000000 (List.replicate 16 0)) kWithdraw e s]),
    -- at an initiator: GET data, a done record
    (let t : Tile := { off := 0, len := 4, st := .holding, loc := [⟨0, 64, 1, 0, 4096, 4096, 0, 0, 0⟩] }
     let o : Op := { idx := 0, wqe := wqe opGet [(192, 4)], len := 4, handle := 5, tiles := [t] }
     let e := eRx true
     let s := sIni o e
     let p := pk kResponse opGet 101 7 2000000000 [1, 2, 3, 4]
     let d := pk kResponse 0 101 7 2000000000 (List.replicate 16 0)
     let s' := sIni { o with wqe := wqe opPut [(192, 4)] } e
     all [comesNow p kResponse e s, (opByNum s 5 0).isSome, (tileAt o 0).isSome, arrivalsOn s (dieOfEnd 5) < 65536,
       pathState s true t.loc == .go, (storePieces t.loc p.payload s).1 = 4,
       comesNow d kResponse e s', (donesOf d.payload).length = 1, (opByNum s' 5 0).isSome])] = true := by decide +kernel

/-! ## Translation and completion (05) -/

/-- A translation of part of a span answers pieces. -/
def xlates (s : State) (va len : Nat) : Bool :=
  match xlate 0 0 0 0 (tgetD s.xl.regions 0 0) true va len s with
  | (.ok ps, _) => !ps.isEmpty
  | _ => false

theorem witness_TranslationStaysInsideThePartition : xlates (sMem {}) 4096 8192 = true := by decide +kernel

/-- A queue with one operation in flight. -/
def sIn (o : Op) : State := sMem { state := .running, ops := [o] }

/-- An invalidation of scope 2 of partition 0 in its second step. -/
def inv0 : Inval :=
  { wq := 0, idx := 0, part := 0, scope := 2, pasid := 0, va := 0, len := 4096, region := 0, since := 0, step := 2, held := [], paths := [] }

theorem witness_WalksAndInvalidationsGoOn : all [
    (let s := sIn { idx := 0, wqe := wqe opPut [], tiles := [{ off := 0, len := 64 }] }
     let s := queueWalk (0, 0, 0) s
     all [running s, walkRuns s (0, 0, 0), (findOp s 0 0).isSome, (wqOf s 0).ops.all fun o => o.result.isNone && o.tiles.any fun t => t.off == 0 && t.st == .walking]),
    (let p : Piece := ⟨4100, 64, 2, 0, 0, 4096, 0, 0, 0⟩
     let o : Op := { idx := 0, wqe := wqe opPut [], tiles := [{ off := 0, len := 64, st := .holding, loc := [p] }] }
     let s := sIn o
     all [findOp s 0 0 = some o, o.tiles.find? (fun t => t.off == 0) = o.tiles.head?, Wqe.opcode o.wqe = opPut]),
    (let i : Inval := { inv0 with held := [.local_ 0 0 0] }
     let s : State := { time := { now := 1000000 }, xl := { invals := [(0, i)] } }
     all [running s, tget s.xl.invals 0 = some i, i.held.all fun h => !stillHeld s h, due s i.since (i.timeout * us)]),
    [false, true].all fun x =>
      let i : Inval := { inv0 with step := 3, paths := if x then [.memory 0] else [] }
      let s := sIn { idx := 0, wqe := wqe opInvalidate [(224, 2), (500, b2n x)] }
      let t := { s with xl := { invals := [(0, i)] } }
      all [running t, tget t.xl.invals 0 = some i, (findOp t 0 0).any fun o => Wqe.xpath o.wqe == x, i.paths.isEmpty == !x]] = true := by decide +kernel

/-- Each scope with an entry it removes and one it leaves. -/
theorem witness_InvalidationEmptiesTheLookAside :
    (let i : Nat → Inval := fun scope => { inv0 with scope := scope }
     let l : Look := { die := 0, part := 0, pasid := 0, va := 0, span := 4096, page := 4096, target := 1, port := 0, out := 0, regions := [0] }
     all [[0, 1, 2].all fun n => (i n).coversVa 0 0 0 4096, [0, 1, 2].all fun n => !(i n).coversVa 1 0 0 4096, l.part = (i 3).part, 0 ∈ l.regions,
       1 ∉ l.regions]) = true := by decide +kernel

theorem witness_OldestOperationEnds :
    ([stOk, stRemoteRights].all fun st =>
      let s := sIn { idx := 0, wqe := wqe opPut [], result := some { status := st } }
      all [running s, (wqOf s 0).ops ≠ [], ringOpen (ungate 0 0 s) (Desc.cq (wqOf s 0).desc), s.q.wqs.all fun x => !x.2.holds]) = true := by decide +kernel

theorem test_decide_lowest :
    decide_ [⟨8192, stRemoteRights, 0⟩, ⟨4096, stXlateRemote, 0x1000⟩] = ⟨stPartial, stXlateRemote, 4096, 0x1000⟩ := by decide

theorem test_tiles : tileSize false 0 (2 ^ 20) = 2 ^ 18 ∧ tilesOf 4096 10000 = [(0, 4096), (4096, 4096), (8192, 1808)] := by decide

theorem witness_LowestFailedOffsetDecides : decide_ [⟨64, stMediaError, 0⟩, ⟨0, stMediaError, 0⟩] = ⟨stMediaError, 0, 0, 0⟩ := by decide

theorem witness_TilesCoverTheOperation : (tilesOf 4096 5000)[1]? = some (4096, 904) := by decide

/-! ## Collectives and schedules (06) -/

/-- A group of the endpoints 8 of two devices, the first this one. -/
def gr2 (st : GState) : Group := { state := st, members := [8, 0x18] }

/-- A device of a shape of two along Z with groups and a collective area. -/
def sG (g : Group) : State :=
  let s := sE {}
  { s with dict := [(dkey 0x3001 1, [1, 0]), (dkey 0x3001 2, [0, 0])], coll := { groups := [(0, g)] }, part := { s.part with collArea := ⟨0, 8⟩ },
           xl := (sMem {}).xl }

/-- A join of rank 0 in region 0. -/
def join0 : Join := { ep := 8, pasid := 0, key := 0, ctr := 0xFFFFFFFF, base := 0, len := 4096 }

/-- The bytes of a GROUP_JOIN record. -/
def joinBytes (len : Nat) : List Byte := leBytes 2 0 ++ leBytes 2 8 ++ leBytes 4 0 ++ leBytes 8 0 ++ leBytes 8 len ++ leBytes 4 0xFFFFFFFF ++ leBytes 4 0

theorem witness_GroupsFormAndDissolve : all [
    (let c := wr 0x5103 0 1 1
     let s := sRun c 3 0xFF (sG (gr2 .free))
     all [writesEntry s (rq c) c 0x5103 0, !membersBad s (groupOf s 0).members, !gen1 s, membersJoined s (groupOf s 0).members,
       (List.range 8).all fun d => decide (collUsed s d + groupUnits s (groupOf s 0).members 0 d ≤ collUnits s d),
       membersBad s [9], !membersJoined { s with part := { s.part with parts := [(0, part0), (1, part0)] }, link := { s.link with accel := [(0, { owner := some 0 }), (1, { owner := some 1 })] } } [0, 1],
       (List.range 8).any fun d => decide (collUnits (sE {}) d < groupUnits (sG (gr2 .free)) [8, 0x18] 0 d)]),
    (let c := wr 0x5103 0 1 2
     all [writesEntry (sRun c 3 0xFF (sG (gr2 .ready))) (rq c) c 0x5103 0, (groupOf (sG {}) 0).state = .free]),
    (let c : Cmd := ⟨0x02, 0x5200, 0, 0, 32, joinBytes 4096⟩
     let s := sRun c 1 0 (sG (gr2 .forming))
     all [writesEntry s (rq c) c 0x5200 0, isOwn s 8, rankOf (groupOf s 0) 8 = some 0, joinPart s (senderOf s (rq c)) 8 0 = 0,
       joinOk s (groupOf s 0) 0 join0, !joinOk s (groupOf s 0) 0 { join0 with len := 2 ^ 21 }]),
    (let c : Cmd := ⟨0x02, 0x5201, 0, 0, 4, leBytes 2 0 ++ leBytes 2 8⟩
     let s := sRun c 1 0 (sG { gr2 .ready with joins := [(0, join0)] })
     all [writesEntry s (rq c) c 0x5201 0, rankOf (groupOf s 0) 8 = some 0, (tget (groupOf s 0).joins 0).any fun j => j.part == 0]),
    [[], [(1, { join0 with ep := 0x18 })]].all fun js =>
      let s := sG { gr2 .forming with homeJoins := js }
      all [running s, isOwn s (homeOf (groupOf s 0)), nth (groupOf s 0).members 0 = join0.ep],
    (let s := sG { gr2 .forming with table := [join0, { join0 with ep := 0x18 }], joins := [(0, join0)] }
     let s := { s with conn := { s.conn with ends := [(5, { state := .open_ })] },
                       coll := { s.coll with groups := tmod s.coll.groups 0 fun x => { x with conns := (connPairs x).map fun y => (y.1 * 2 ^ 16 + y.2, 5) } } }
     all [(groupOf s 0).table.length = (groupOf s 0).n, (groupOf s 0).n = 2, connPairs (groupOf s 0) ≠ [], connsOpen s (groupOf s 0), s.ar.edges = [], edgesOpen s 0, (groupOf s 0).joins.length = (localRanks s (groupOf s 0)).length]),
    (let c : Cmd := ⟨0x02, 0x5111, 0, 0, 8, [2, 0, 2, 0, 1, 0, 0, 0]⟩
     let s := sRun c 3 0xFF (sG (gr2 .ready))
     all [writesEntry s (rq c) c 0x5111 0, writeArray c [] = some [1, 0, 0, 0], isPermutation (groupOf s 0).n (u16s [1, 0, 0, 0]),
       !isPermutation 2 (u16s [1, 0, 1, 0])])] = true := by decide +kernel

/-- A signature of a SHIFT, and of a scheduled run. -/
def sig (k : Nat) : Signature := ⟨k, 0, 0, 0, false, 64, 0, 0, 0⟩

/-- A launch of rank 0. -/
def launch (k : Nat) : Launch := { wq := 0, idx := 0, rank := 0, seq := 0, sig := sig k, since := 0 }

theorem witness_CollectivesAreMatched : all [
    (let w : Wqe := word 512 [(511, 1), (509, 2), (488, opCollStep), (464, 8), (428, 1), (364, 1), (192, 64)]
     let s0 := sG { gr2 .ready with joins := [(0, join0)] }
     let s := { s0 with q := (sMem (q1 .running w)).q }
     all [nextWqe s 0 = some w, issuing s, issuable s 0, hasTurn s 0, collCheck s 0 w = stOk, collCheck { s with coll := {} } 0 w ≠ stOk, !holdsNow s 0 w]),
    (let s := sG (gr2 .ready)
     all [running s, isOwn s (homeOf (groupOf s 0)), (memberDevices (groupOf s 0)).contains (epDev 0x18), readyDevices s (groupOf s 0) = [0, 0x10],
       sub32 0 (groupOf s 0).retired = 1, (groupOf s 0).aborted = [], !s.fab.fenced.contains 0x18,
       List.any (groupOf s 0).members fun x => ({ s with fab := { s.fab with fenced := [0x18] } } : State).fab.fenced.contains x,
       homeOf (groupOf s 0) = epDev 0, epDev 0x10 ≠ homeOf (groupOf s 0)]),
    -- the other device's READY is here already, with the same signature, or another
    (let s := sG { gr2 .ready with readys := [⟨0, 0, sig 1, 0⟩] }
     all [(groupOf s 0).readys.find? (fun r => r.seq == 0) ≠ none, due s 0 ((groupOf s 0).timeout * ms), sig 1 ≠ sig 2, (sig 1).cfgCheck = (sig 2).cfgCheck]),
    [ckShift, ckScheduled].all fun k =>
      let gr := { gr2 .ready with launches := [launch k] }
      let s := sG gr
      all [running s, (groupOf s 0).launches.filter (fun l => l.seq == 0 && !l.hasEnded && !l.started) = [launch k], s.time.now + us ≤ s.time.now + 1000,
        s.coll.groups.find? (fun x => x.2.launches.any fun l => l.wq == 0 && l.idx == 0 && !l.hasEnded && !l.started) = some (0, gr), due s 0 (gr.timeout * ms)],
    (let s := sG { gr2 .ready with joins := [(0, join0)], launches := [{ launch ckShift with hasEnded := true }] }
     all [((groupOf s 0).joins.map (·.1)).filter (fun r => !s.fab.fenced.contains (nth (groupOf s 0).members r)) = [0],
       add32 (groupOf s 0).retired 1 = 0, (launchOf (groupOf s 0) 0 0).any fun l => l.hasEnded,
       (localRanks s (groupOf s 0)).all fun r => ({ s with fab := { s.fab with fenced := [8] } } : State).fab.fenced.contains (nth (groupOf s 0).members r),
       (localRanks s (groupOf s 0)) = [0]])] = true := by decide +kernel

/-- A streaming launch and its operation over 64 bytes, one wait each tile. -/
def sStream : State :=
  let w := wqe opCollStep [(428, 1), (192, 64), (363, 1), (344, 1), (256, 1)]
  let s := sG { gr2 .ready with launches := [{ launch ckShift with started := true }] }
  { s with q := { (sMem { state := .running, ops := [{ idx := 0, wqe := w }] }).q with ctrs := [(0, {})] } }

/-- A resident schedule of one step of rank 0 on die 0, in a run that began at 0. -/
def sRunOf (st : BitVec 256) (r : Run) (m : RunMember) : State :=
  let s := sG { gr2 .ready with joins := [(0, join0)], launches := [launch ckScheduled], table := [join0, { join0 with ep := 0x18 }] }
  { s with q := (sMem { state := .running, ops := [{ idx := 0, wqe := wqe opCollStep [(428, 15), (192, 64)] }] }).q,
           coll := { s.coll with slots := [(0, { state := .resident, steps := [(0, [st])], conns := [(1, 5)], run := some { r with members := [m] } })] } }

theorem witness_SchedulesLoadAndRun : all [
    (let s := sStream
     all [running s, (findOp s 0 0).any fun o => (spanTiles s o.wqe 64)[o.released]? == some (0, 64) && !tileReady s o.wqe o.released &&
         Wqe.stream o.wqe && Wqe.waitTimeout o.wqe != 0 && due s o.lastRelease (Wqe.waitTimeout o.wqe * 64000),
       (launchFor s 0 0).isSome]),
    (let s := { sStream with q := { sStream.q with ctrs := [(0, { value := 1 })] } }
     (findOp s 0 0).any fun o => tileReady s o.wqe o.released),
    [15, 16].all fun n =>
      let c : Cmd := ⟨0x02, 0x5300, 0, 0, 17, leBytes 17 n⟩
      [LoadState.empty, .verifying, .resident, .refused].all fun st =>
        let s := sRun c 2 0xFF { sG {} with coll := { slots := [(15, { state := st })] } }
        all [writesEntry s (rq c) c 0x5300 0, !gen1 s, (tgetD s.coll.slots 15 {}).state = st],
    (let s : State := { sG {} with coll := { slots := [(15, { state := .verifying })] } }
     (tget s.coll.slots 15).any fun x => !x.opening && x.state == .verifying),
    (let c := wr 0x5302 0 1 0
     [none, some { seq := 0, t := 0 }].all fun r =>
       let s := sRun c 2 0xFF { sG {} with coll := { slots := [(0, { state := .resident, run := r })] } }
       all [writesEntry s (rq c) c 0x5302 0, (tget s.coll.slots (ofLe c.data)).any fun x => x.run == r]),
    (let s := sRunOf (word 256 [(220, 9)]) { seq := 0, t := 0 } { rank := 0, wq := 0, idx := 0 }
     all [running s, (stepCtx s 0 0 0).any fun c => !c.r.stopped && Nat.ble (c.r.t + Step.time c.st) s.time.now && !c.r.issued.contains (stepKey 0 0) && turnOf c 0 0]),
    [false, true].all fun b => [sCopy, sSendAcc].all fun o =>
      let r : Run := { seq := 0, t := 0, stopped := b }
      let m : RunMember := { rank := 0, wq := 0, idx := 0, lastDone := true }
      let s := sRunOf (word 256 [(220, o)]) r m
      all [(tget s.coll.slots 0).any fun x => memberQuiet s x { r with members := [m] } m && due s 0 (SHdr.duration x.hdr + (groupOf s x.group).timeout * ms),
        (tget s.coll.slots 0).any fun x => hasReduction x == (o == sSendAcc), (launchOf (groupOf s 0) 0 0).isSome]] = true := by decide +kernel

/-- A step of an operation is issued and not carried out. -/
def fires (s : State) (op : Nat) : Bool :=
  match stepCtx s 0 0 0 with
  | some c => (launchOf (groupOf s c.x.group) c.m.rank c.r.seq).isSome && (tget (groupOf s c.x.group).joins c.m.rank).isSome &&
      (findOp s c.m.wq c.m.idx).isSome && running s && c.r.fired.contains (stepKey 0 0) && Step.op c.st == op
  | none => false

/-- The step of an operation to a peer, in that state. -/
def sStep (op peer src : Nat) : State :=
  sRunOf (word 256 [(220, op), (218, src), (200, peer), (152, 64)]) { seq := 0, t := 0, issued := [stepKey 0 0], fired := [stepKey 0 0] } { rank := 0, wq := 0, idx := 0 }

theorem witness_StepsOfARunAct : all [
    [sSend, sSendAcc].all fun o => fires (sStep o 1 0) o && (endOf (sStep o 1 0) 5).state != .connecting,
    [sSend, sSendAcc, sTreeAcc, sMcast, sLocalAcc, sRound, sWaitCount, sTransform, sCopy].all fun o => fires (sStep o 0 0) o,
    (match stepSource (launch ckScheduled) (wqe opCollStep [(192, 64)]) join0 (word 256 [(152, 64)]) [] (sStep sCopy 0 0) with
     | (.bytes b _, s1) => (match winSpan join0 0 b.length .write s1 with
       | (.ok ps, s2) => pathState s2 true ps == .go && (combineOutput 0 0 0 0 opSum 2 0 1 false false ps b [] s2).1.isNone
       | _ => false)
     | _ => false),
    (match winSpan join0 0 64 .write (sStep sRound 0 0) with
     | (.ok ps, s1) => pathState s1 true ps == .go && (roundArea 8 0 0 0 opSum 3 0 0 0 16 ps s1).1.isNone
     | _ => false),
    !noArray (sStep sTransform 0 0) 0 0, kernelRoom (sStep sTransform 0 0) 0 0, exactFor opSum 3 true] = true := by decide +kernel

/-! ## In-transit arithmetic (07) -/

/-- Half as n 1, d 2, and the least binary32 value; a code of each float format; an MX page. -/
theorem witness_ContributionsAddExactly : all [
    1 * 2 ^ 149 = 2 ^ 148 * 2, 1 * 2 ^ 149 = 1 * 2 ^ 149,
    [fp32, fp16, bf16, e4m3, e5m2].all fun f => match loadFlt f 1 with
      | .fin false _ _ => true
      | _ => false,
    (match loadFlt fp32 1 with
     | .fin _ n d => n * 2 ^ 149 = d
     | _ => false),
    (formatOf 7).isMx, (List.range 16).any fun f => (formatOf f).isMx && 0 < (formatOf f).perUnit] = true := by decide +kernel

theorem witness_ReductionsForgetOrder : all [
    [ExactNum.fin false 1 1, .nan].isPerm [.nan, .fin false 1 1],
    loadFlt fp32 0x7FC00000 = .nan, loadFlt fp32 0x3F800000 ≠ .nan, (ep64Store (wsAdd (.fin false 1 1) {})).isSome,
    (ep64Store (wsAdd .nan {})).isSome, ({} : WideSum).sum = 0] = true := by decide +kernel

/-- The manual's identities of binary32: one is 0x3F800000, 1 + 1 rounds to 0x40000000. -/
theorem test_binary32 : storeFlt fp32 .nearest (combineNum opSum (loadFlt fp32 0x3F800000) (loadFlt fp32 0x3F800000)) = 0x40000000 := by decide +kernel

/-- A tree entry of group 0 with a parent direction, child directions, local members, root endpoint. -/
def treeE (parent children locals root : Nat) : BitVec 128 :=
  word 128 [(112, 0), (110, 1), (107, parent), (101, children), (92, locals), (61, root)]

/-- A descriptor of a local contribution, or multicast, of 64 bytes of binary32. -/
def tDesc (op : Nat) : Desc :=
  { kind := kData, opcode := op, length := 64, plen := 64, body := List.replicate 64 0, form := Form.mkG 0 0 opSum 3 false false false 1 none }

/-- The half of an edge, delivered through 100. -/
def eEdge : End := { state := .open_, initiator := false, recvThrough := 100 }

/-- A slot of port die 0 for tree 0, taken at 0. -/
def slot0 : StoreSlot :=
  { die := 0, group := 0, tree := 0, seq := 0, base := 0, chunk := 0, exact := false, accOp := opSum, accFmt := 3, count := 1, vals := [0], hdr := 0,
    taken := 0, linger := 0 }

/-- Port die 0 with one local item waiting for tree 0, an edge toward the parent or child direction 4, its half Open. -/
def sTree (e : BitVec 128) (op : Nat) (l : List Launch) : State :=
  let s := sG { gr2 .ready with joins := [(0, join0)], launches := l, table := [join0, { join0 with ep := 0x18 }] }
  { s with fab := { trees := [(0, e)], treeCache := [0], treeIn := [(0, [⟨0, 0, 0, 0, tDesc op⟩])] },
           ar := { edges := [(edgeKey 0 0, { tree := 0, dir := 4 })] },
           conn := { s.conn with ends := [(edgeHalf 0, eEdge)] } }

/-- A packet of a kind and opcode on edge 0 of port die 0 with PSN 101. -/
def edgePk (kind op : Nat) (payload : List Byte) (good : Bool := true) (psn : Nat := 101) : Packet :=
  let h : BitVec 320 := word 320 [(318, 2), (314, kind), (308, 2), (298, op), (214, psn), (126, payload.length),
    (0, Form.mkG 0 0 opSum 3 false false false 1 none)]
  { hdr := h, payload := payload, crc := trailer h 0 payload + (if good then 0 else 1) }

/-- A packet is the next on the mesh to a port die, and suits the edge's half. -/
def onEdge (p : Packet) (kind : Nat) (s : State) : Bool :=
  let s := onMesh (fpCode 0) p s
  (reaches p s).isSome && reachesEdge s p kind eEdge && Hdr.edgeDie p.hdr == 0 &&
    (tget s.ar.edges (edgeKey (Hdr.edgeDie p.hdr) (Hdr.edge p.hdr))).map (·.tree) == some 0 && treeCached s 0 0

theorem witness_TreesAdmitForwardAndReplicate : all [
    -- from an edge, to the root here and toward a parent; multicast; new, and a PSN accepted before
    [treeE 7 16 256 8, treeE 4 0 256 0x18].all fun e => [(kData, ocCollAcc), (kWithdraw, ocCollAcc), (kData, ocCollMcast)].all fun (k, o) =>
      let p := edgePk k o (List.replicate 16 0)
      let s := sTree e o [{ launch ckReduce with started := true }]
      all [onEdge p k s, trailerChecks p, !isEdge 0, isEdge (handleOf p.hdr), handleOf p.hdr == edgeHalf 0, newAt eEdge 101, !newAt eEdge 100,
        onEdge (edgePk k o [] true 100) k s, Tree.isRoot e == (edgeToward s 0 0 (Tree.parent e)).isNone,
        (rankOf (groupOf s 0) 8).isSome, !rootWaits s 0 0 p.hdr p.payload, !mcastWaits s 0 0 p.hdr 16],
    -- a path that waits: the channel of the output is being replaced
    (let s0 := sTree (treeE 7 16 256 8) ocCollAcc [{ launch ckReduce with started := true }]
     let s := { s0 with mem := { s0.mem with chans := [(0, { darn := some 0 })] } }
     let p := edgePk kData ocCollAcc (List.replicate 16 0)
     all [rootWaits s 0 0 p.hdr p.payload, mcastWaits s 0 0 p.hdr 16]),
    -- from a member
    [treeE 7 16 256 8, treeE 4 0 256 0x18].all fun e => [ocCollAcc, ocCollMcast].all fun o =>
      let s := sTree e o []
      all [running s, firstWaiting s 0 o == some ⟨0, 0, 0, 0, tDesc o⟩, treeCached s 0 0, sourceFault s (tDesc o) = none,
        pathState s false (tDesc o).src == .go],
    -- a slot that holds the chunk, and one whose exact sum cannot be written
    (let x : StoreSlot := slot0
     let s : State := { ar := { slots := [x] } }
     let c : CollHdr := { base := 0, op := opSum, fmt := 3, exact := false, xpath := false, note := none }
     all [s.ar.slots.find? (fun x => x.holds 0 0 c 0) = some x, s.ar.slots.find? (fun x => x.holds 0 0 c 1) = none,
       slotsOf s 0 < storeSlots, (storeCombine false opSum 3 [0] [0]).isSome, (let v := fun (n d : Nat) => (ep64Store (wsAdd (.fin false n d) {})).getD 0
        (storeCombine true opSum 3 [v 1 1] [v 1 (2 ^ 140)]).isNone),
       due s x.taken x.linger, x.number = 0]),
    (toStore false 3 [0, 0, 0, 0]).isSome, (formatOf 7).isMx,
    (let s0 := sTree (treeE 4 0 256 0x18) ocCollAcc []
     let s := { s0 with ar := { s0.ar with slots := [slot0] } }
     all [running s, s.ar.slots[0]? = some slot0, due s slot0.taken slot0.linger,
       edgeToward s 0 0 (Tree.parent (tgetD s.fab.trees 0 0)) = some (edgeKey 0 0), (endOf s (edgeHalf (edgeKey 0 0))).isOpen]),
    -- an acknowledgement on the edge, its trailer right or not
    [true, false].all fun good =>
      let p := edgePk kAck 0 (leBytes 8 9) good
      all [onEdge p kAck (sTree (treeE 4 0 256 0x18) ocCollAcc []), trailerChecks p == good, p.route = 0]] = true := by
  decide +kernel

/-- A step that runs a kernel over binding 0. -/
def sJob (b : BitVec 512) : State :=
  let s := sStep sTransform 0 0
  { s with ar := { jobs := [⟨0, 0, 0, 0⟩], binds := [(0, b)] } }

theorem witness_KernelsLoadBindAndRun : all [
    [15, 16].all fun k => [LoadState.empty, .verifying, .resident, .refused].all fun st =>
      let c : Cmd := ⟨0x02, 0x5500, 0, 0, 17, leBytes 17 k⟩
      let s := sRun c 2 0xFF { ar := { kernels := [(16, st)] } }
      all [writesEntry s (rq c) c 0x5500 0, !gen1 s, tgetD s.ar.kernels 16 .empty = st],
    (let s := { sMem {} with ar := { kernels := [(16, .verifying)], images := [(16, 0, 0, 64)] } }
     all [running s, tget s.ar.images 16 = some (0, 0, 64), tgetD s.ar.kernels 16 .empty = .verifying]),
    [[], [(0, word 512 [(504, 16)])]].all fun bs =>
      let c := wr 0x5502 0 1 16
      let s := sRun c 2 0xFF { ar := { binds := bs } }
      all [writesEntry s (rq c) c 0x5502 0, bs.all fun b => Bind.kernel b.2 == 16],
    [word 512 [(504, 0)], word 512 [(504, 15), (384, 4096)], word 512 [(504, 16), (448, 16)], word 512 [(504, 16), (448, 65536)],
     word 512 [(504, 1), (500, 12)], word 512 [(504, 1), (384, 8), (352, 0x100)]].all fun b =>
      let c : Cmd := ⟨0x02, 0x5511, 0, 0, 64, leBytes 64 b.toNat⟩
      let s := sRun c 2 0xFF (sMem {})
      all [writesEntry s (rq c) c 0x5511 0, !bindNamed s 0],
    bindKeysOk (sMem {}) (word 512 [(504, 15), (384, 4096)]), !bindKeysOk (sMem {}) (word 512 [(504, 1), (384, 8), (352, 0x100)]),
    bindNamed (sStep sTransform 0 0) 0,
    [word 512 [(504, 1)], word 512 [(504, 16), (448, 16)]].all fun b =>
      match jobCtx (sJob b) 0 0 0 with
      | some (c, l, w, j, _, x) => (match kernelIn 0 c l w j x { idx := 0 } (sJob b) with
        | (.read _ _ _, _) => x == b && running (sJob b)
        | _ => false)
      | none => false,
    jobCtx {} 0 0 0 |>.isNone,
    (match stepSource (launch ckScheduled) (wqe opCollStep [(192, 64)]) { join0 with key := 0x100 } (word 256 [(152, 64)]) [] (sStep sTransform 0 0) with
     | (.fail _, _) => true
     | _ => false)] = true := by decide +kernel

/-! ## Routes, link frames, trees and fences (08) -/

/-- A port trained at 800 Gb/s, its neighbour heard. -/
def upPort : Port := { bring := .trained, rate := 800, heard := some (word 320 [(318, 3), (314, 1), (306, 1)]) }

/-- A device at COORD 0 of a shape with sizes 2, 1, 2, every port of directions 0 and 1 and port 4 trained. -/
def sF : State :=
  let s := sE {}
  { s with dict := [(dkey 0x3001 1, [1, 1]), (dkey 0x3001 2, [0, 0])], fab := { ports := [(0, upPort), (1, upPort), (4, upPort)] } }

/-- A frame of a header for a destination. -/
def frame (l : List (Nat × Nat)) : Frame :=
  { pkt := { hdr := word 320 ([(318, 2), (303, 31)] ++ l), payload := [], crc := 0 }, etherType := 0x88B5, tagged := false, fcsOk := true, size := 64 }

/-- The bytes of a whole frame of a header for a destination. -/
def whole (l : List (Nat × Nat)) (route : Nat := 0) (mgmt : Bool := false) : FrameBytes :=
  ⟨frameBytes 0x88B5 1 2 { hdr := word 320 ([(318, 2), (303, 31)] ++ l), payload := [], crc := 0, route := route }, false, mgmt⟩

/-- `sF` with port 0 changed. -/
def sF0 (f : Port → Port) : State := { sF with fab := { sF.fab with ports := [(0, f upPort), (1, upPort), (4, upPort)] } }

/-- A frame of the bytes passes every check at a port and names another's end, or a tree. -/
def passes (s : State) (b : FrameBytes) : Bool :=
  all [portsRun s, (portOf s 0).isTrained, dieUp s (fpCode 0), frameFault s (readFrame b) = none, !ownFrame s (readFrame b)]

theorem witness_FramesTakeMinimalRoutes : all [
    [0, 1, 2].all fun i => decide (coordOf 0x0010 i < dimSize sF i ∧ coordOf 0x1000 i < dimSize sF i), allMinimal sF 0 0x1000 ≠ [], dimSize sF 2 ≤ 12,
    portsRun sF, (portOf sF 0).isTrained, dieUp sF (fpCode 0),
    frameFault sF { frame [] with fcsOk := false } = some dropMalformed, frameFault sF { frame [] with size := 63 } = some dropMalformed,
    frameFault sF { frame [] with size := 4159 } = some dropMalformed, frameFault sF { frame [] with tagged := true } = some dropForeign,
    cfg sF 0x3000 1 = 0x88B5, frameFault sF (frame [(308, 3)]) = some dropMalformed,
    all [frameFault { sF with dict := [] } (frame []) = some dropUnassigned, frameFault sF (frame [(282, 0x2000)]) = some dropDest,
    frameFault sF { frame [] with pkt := { (frame []).pkt with hdr := word 320 [(318, 2), (282, 0x1000)] } } = some dropTtl],
    (let s := sF0 fun p => { p with heldOut := 1 }
     all [passes s (whole [(282, 0x1008)]), (portOf s 0).heldOut ≠ 0]),
    (let s := sF0 fun p => { p with fenced := true }
     all [passes s (whole [(282, 0x1008)]), (portOf s 0).fenced, passes s (whole [(282, 0x1008)] 0 true)]),
    passes sF (whole [(282, 8)]), isOwn sF 8, passes sF (whole [(282, 0x1008)]), !isOwn sF 0x1008,
    (let s := { sF with fab := { sF.fab with fenced := [8] } }
     all [passes s (whole [(282, 8)]), s.fab.fenced.contains 8]),
    passes sF (whole [(308, 2)]), !edgeKnown sF (readFrame (whole [(308, 2)])).pkt.hdr,
    (let s := { sF with fab := { sF.fab with trees := [(0, 0)] }, ar := { edges := [(edgeKey 0 0, { tree := 0, dir := 0 })] } }
     all [passes s (whole [(308, 2)]), edgeKnown s (readFrame (whole [(308, 2)])).pkt.hdr]),
    [0x1008, 8].all fun ep =>
      let b := whole [(308, 1), (282, ep)]
      all [passes sF b, sourceRouted (readFrame b).pkt, routeDir (readFrame b).pkt = none], torusSize sF ≤ 512,
    (let s := { sF with dict := [(dkey 0x3001 1, [0xBB, 0xB]), (dkey 0x3001 2, [0, 0])] }
     all [passes s (whole [(308, 1), (282, 0x1008)]), decide (512 < torusSize s)]),
    (let b := whole [(308, 1), (282, 0x1008), (30, 1)]
     all [passes sF b, sourceRouted (readFrame b).pkt, routeDir (readFrame b).pkt ≠ none]),
    ([{ hdr := word 320 [(318, 2)], payload := [], crc := 5 }, { hdr := word 320 [(318, 1)], payload := [], crc := 5, route := 7 }] : List Packet).all fun p =>
      decide (p.payload.length = payloadLen p.hdr ∧ (Hdr.ver p.hdr = 1 ∨ p.route = 0)),
    (let p : Packet := { hdr := (frame [(282, 8)]).pkt.hdr, payload := [], crc := 0 }
     (match meshRoute sF (fpCode 0) (takerOf p) with
      | some r => all [r.all (dieUp sF), !sF.mesh.switching, !setupFull sF]
      | none => false)),
    (let q : Queued := { pkt := (frame [(282, 0x1008)]).pkt, size := 64 }
     let s := { sF with fab := { sF.fab with waiting := [(0, [q])] } }
     all [(tgetD s.fab.waiting 0 [])[0]? = some q, firstInHold (tgetD s.fab.waiting 0 []) 0 q,
       (match choices s 0 q with
        | .inr cs => !cs.isEmpty && (withRoom s q cs).isSome
        | .inl _ => false),
       (match choices { s with fab := { s.fab with ports := [] } } 0 q with
        | .inl _ => true
        | .inr _ => false)]),
    (let q : Queued := { pkt := (frame [(282, 0x1008)]).pkt, size := 64 }
     let l := landUpTo 1 [q, q]
     all [l[1]? = some q, !firstInHold l 1 q]),
    [0, 1].all fun k => decide (coordOf 0x1000 (k / 2) < dimSize sF (k / 2))] = true := by decide +kernel

/-- An ANNOUNCE of a neighbour's port at coordinates. -/
def ann (port : Nat) (valid open_ : Nat) : BitVec 320 := word 320 [(318, 3), (314, 1), (312, 2), (307, port), (306, valid), (305, open_), (280, 0x100)]

theorem witness_CoordinatesTreesAndFences : all [
    running sF, (portOf sF 0).isTrained, due sF (portOf sF 0).lastAnnounce (100 * ms), Hdr.ver (ann 1 1 1) = 3, Hdr.kind (ann 1 1 1) = 1,
    cfg sF 0x3000 1 < 2 ^ 16, cfg sF 0x3001 3 ≤ 1, (coord sF).any (· < 2 ^ 16), powered sF 0, !powered sF 2,
    !isManager sF, coord { sF with dict := [] } = none, Hdr.port (ann 1 1 1) = partner 0, Hdr.gen (ann 1 1 1) = 2, Hdr.coordValid (ann 1 1 1), Hdr.open_ (ann 1 1 1),
    [0, 0x10, 0x8000 + 16 * 12, 0xFFFF, 1, 0xC0].all fun v =>
      let c := wr 0x3001 2 2 v
      writesEntry (sRun c 3 0xFF {}) (rq c) c 0x3001 2,
    coordOf 0xC0 2 = 12, coordOf 0xB0 2 = 11, fabricQuiet {}, !fabricQuiet (sE { state := .open_ }),
    (let s : State := { fab := { trees := [(3, treeE 7 0 1 8)] } }
     all [(tget s.fab.trees 3).isSome, !treeCached s 0 3]),
    [(3, 7), (1, 6), (1, 7), (0, 0)].all fun (k, par) =>
      let c : Cmd := ⟨0x02, 0x3011, 0, 0, 16, leBytes 16 (word 128 [(110, k), (107, par)]).toNat⟩
      writesEntry (sRun c 3 0xFF {}) (rq c) c 0x3011 0,
    fld (treeE 7 0 1 8) 111 110 ≠ 0, (groupOf (sG (gr2 .ready)) 0).state = .ready,
    [0, 1].all fun a =>
      let c : Cmd := ⟨0x02, 0x3020, 0, 0, 4, [0x10, 0, 1, BitVec.ofNat 8 a]⟩
      all [writesEntry (sRun c 3 0xFF {}) (rq c) c 0x3020 0, field c.data 3 1 = a, field c.data 2 1 ≤ 1],
    isManager { mgr := { role := 1 } },
    (let s := { sF with fab := { sF.fab with ports := [(0, { upPort with heard := some (ann 1 1 1) })] } }
     all [running s, toward s 0 (epDev 5)]),
    (tget (sE { state := .open_, peerEp := 5 }).conn.ends 5).any fun e => e.initiator && !e.mgmt && e.isOpen && (fencedBy 5 false).contains e.peerEp] = true := by
  decide +kernel

/-! ## Ports (09) -/

/-- Port 0 of that device, at a time. -/
def sP (q : Port) (now : Nat) (d : Tab (List Byte) := []) : State :=
  let s := sF
  { s with fab := { s.fab with ports := [(0, q), (1, upPort)] }, time := { now := now }, dict := d ++ s.dict }

theorem witness_PortsComeUpRetrainAndDarn : all [
    [Bring.down, .signal, .negotiated, .linkTrained, .retrain, .trained].all fun b => [false, true].all fun w =>
      let s := sP { upPort with bring := b, wornNoStock := w, retrainFails := 1 } 1500000000;
      all [portUp s 0, (portOf s 0).bring = b, powered s 0, !s.elec.clocksOut.contains 0, match stepBound s 0 with
        | some x => due s (portOf s 0).stepAt x
        | none => true],
    cfgPort sF 0 0x3101 1 = 0, cfgPort (sP upPort 0 [(dkey 0x3101 1 1, [2])]) 0 0x3101 1 ≠ 0,
    [0, 1, 2].all fun n =>
      let s := sP { upPort with wearRow := if n == 0 then [] else [(3, n)] } 0;
      all [portUp s 0, (portOf s 0).isTrained, nth [0, 0, 0, 10000001] 0 ≤ cfg s 0x3102 2, cfg s 0x3102 2 < nth [0, 0, 0, 10000001] 3,
        nth [0, 0, 0, 10000000] 3 ≤ cfg s 0x3102 2, tgetD (portOf s 0).wearRow 3 0 = n, cfg s 0x3102 1 ≠ 0, stockOf s 0 = [24, 25]],
    [(23, 3), (24, 0), (0, 4)].all fun (p, l) =>
      let c : Cmd := ⟨0x02, 0x3102, 3, 0, 2, [BitVec.ofNat 8 p, BitVec.ofNat 8 l]⟩
      all [writesEntry (sRun c 3 0xFF sF) (rq c) c 0x3102 3, field c.data 0 1 = p, field c.data 1 1 = l],
    stockOf { fab := { stock := [(0, [])] } } 0 = [],
    (let c := wr 0x3101 1 1 2
     writesEntry (sRun c 2 0xFF sF) (rq c) c 0x3101 1)] = true := by decide +kernel

/-- A gate list of `n` entries of a duration, as the setting's bytes. -/
def gates (n d : Nat) : List Byte := (List.replicate n (leBytes 4 d ++ [15, 0, 0, 0])).flatten

theorem witness_PausesShapersAndGates : all [
    [0, 1, 2].all fun m =>
      let s := sP { upPort with paused := [(7, ⟨5, 0⟩)], xoff := [(7, 0)], hold := [(7, 49153)] } 1000000000 [(dkey 0x3103 1 1, [BitVec.ofNat 8 m])];
      all [portUp s 0, (portOf s 0).isTrained, cfgPort s 0 0x3103 1 = m, (tget (portOf s 0).paused 7).isSome, due s 0 (cfgPort s 0 0x3103 5 * ms),
        due s 0 (pauseTime 800 0xFFFF / 2), cfgPort s 0 0x3103 4 < tgetD (portOf s 0).hold 7 0],
    bit (cfgPort sF 0 0x3103 2) 7, bit 0x80 7, !bit 0x7F 7,
    (let s := sP upPort 1024 [(dkey 0x3201 4 1, [232, 3, 0, 0])];
     all [s.time.now % 1024 = 0, (portOf s 0).refillAt ≠ some 1024, (shaperRate s 0 2).isSome, shaperRate s 0 3 = none]),
    (let s := sP { upPort with gatePending := some ([⟨15, 1000⟩], 0, 7) } 7;
     all [portUp s 0, (portOf s 0).gatePending = some ([⟨15, 1000⟩], 0, 7)]),
    [(1, 1000, true), (1, 999, false), (16, 64, true), (16, 63, false), (256, 39062, true), (257, 64, false), (1, 10000000, true), (1, 10000001, false)].all
      fun (n, d, good) =>
        let c := wr 0x3302 2 1 1
        let s := sRun c 3 0xFF (sP upPort 0 [(dkey 0x3301 0 1, gates n d)]);
        let l := gateEntries (cfgBytes s (dkey 0x3301 0 1) 0 0)
        all [writesEntry s (rq c) c 0x3302 2, selOf s 1 (dkey 0x3100 0) = 0,
          good == (!l.isEmpty && Nat.ble l.length 256 && (l.all fun e => Nat.ble 64 e.duration) && Nat.ble 1000 (cycleOf l) && Nat.ble (cycleOf l) 10000000)],
    cfgPort sF 0 0x3302 1 = (portOf sF 0).gateBase, tc1Windows (gateEntries (gates 1 1000000)) = tc1Windows (portOf sF 0).gateList,
    tc1Windows (gateEntries (gates 1 1000)) ≠ tc1Windows (portOf sF 0).gateList] = true := by decide +kernel

theorem witness_TimeFollowsTheSystemManager : all [
    serves sF 0, portLive sF 0, (portOf sF 0).lastSyncTx = none, (portOf sF 0).lastPdelayTx = none,
    (let s := sP { upPort with lastSyncTx := some 0, lastPdelayTx := some 0 } 62500000;
     all [due s 0 7812500, due s 0 62500000]),
    [Align.acquiring, .aligned, .holdover].all fun a => [14, 15].all fun n =>
      let s := { sF with time := { now := 10000000, state := a, upstream := some 0, within := n } }
      let s1 := { s with time := { s.time with neighbour := tset s.time.neighbour 0 .aligned, hops := tset s.time.hops 0 1 } }
      all [portUp s 0, (portOf s 0).isTrained, (portOf s 0).heldOut = 0, !isManager s, s.time.upstream = some 0, chooseUpstream s1 = some 0],
    (1000001 : Int).natAbs > 1000000, (-1000 : Int).natAbs ≤ 1000, 5000 < (5001 : Int).natAbs, cfgPort sF 0 0x3101 3 = 0,
    (let s : State := { time := { now := 23437500, state := .aligned } }
     all [running s, !isManager s, due s s.time.lastSync 23437500]),
    (let s : State := { time := { now := 600000000000, state := .holdover } }
     due s s.time.holdSince (cfg s 0x3400 6 * ms)),
    (let s : State := { time := { now := sec }, dict := [(dkey 0x3400 7, [1])] }
     all [s.time.now % sec = 0, s.time.ppsAt ≠ some sec, cfg s 0x3400 7 = 1]),
    [none, some (5, 0)].all fun x =>
      let s : State := { time := { now := sec + 1, setPending := x }, dict := [(dkey 0x3400 8, [1])], mgr := { role := 1 } }
      all [running s, s.pow.state = .active, isManager s, cfg s 0x3400 8 ≠ 0, due s 0 (100 * ms)],
    (let c := wr 0x3400 10 8 5
     writesEntry (sRun c 3 0xFF {}) (rq c) c 0x3400 10),
    (let s : State := { time := { now := sec, setPending := some (5, 0) }, mgr := { role := 1 } }
     all [running s, isManager s, cfg s 0x3400 8 = 0, s.time.now % sec = 0, due s 0 (100 * ms)])] = true := by decide +kernel

/-- A frame of a class queued at a priority. -/
def qd (prio : Nat) : Queued := { pkt := (frame [(312, prio / 2)]).pkt, prio := prio, size := 64 }

theorem witness_FramesLeaveInOrder : all [
    [upPort, { upPort with pfcOut := [(7, 0xFFFF)] }, { upPort with egress := [qd 2] }, { upPort with egress := [qd 0] }, { upPort with egress := [qd 4] },
     { upPort with egress := [qd 6], lastBulk := 2 }].all fun q =>
      let s := sP q 1000;
      all [portUp s 0, (portOf s 0).isTrained, !(portOf s 0).stopped, (portOf s 0).busyUntil ≤ 1000],
    (classHead (sP { upPort with egress := [qd 2] } 1000) 0 1).isSome, (classHead (sP { upPort with egress := [qd 0] } 1000) 0 0).isSome,
    (let q := { upPort with egress := [qd 4] }
     all [(classHead (sP q 1000) 0 2).isSome, (bulkTurn (sP q 1000) 0 6 q).isSome, tgetD q.lastPrio 2 5 / 2 = 2, q.lastBulk = 3, (qd 4).size ≤ 4166,
       1 ≤ cfgPort (sP q 1000) 0 0x3201 1, 1 ≤ cfgPort (sP q 1000) 0 0x3201 2]),
    (bulkTurn (sP upPort 1000) 0 6 upPort).isNone,
    shaped { upPort with shapers := [(2, 1000)] } 2, Hdr.rmode (qd 0).pkt.hdr ≠ 2,
    (let s := sP upPort 1024;
     all [running s, dieUp s (fpCode 0), s.time.now % 1024 = 0, tget s.fab.sampledAt 0 ≠ some 1024, (List.range 6).all fun k => sampleMask s k == 0]),
    (let s := sP upPort 1024 [(dkey 0x3500 0, 1 :: List.replicate 23 0)];
     all [(List.range 6).all fun j => sampleMask s j == (if j == 0 then 2 ^ 0 else 0), !(addSample 0 0 0 true { s with xl := {} }).1]),
    (let c := rd 0x3510 0 64
     readsEntry (sRun c 3 0xFF sF) (rq c) c 0x3510 0),
    (let s : State := { pow := { state := .standby }, dict := [(dkey 0x2001 1, [2, 0])] }
     all [wakeReceivers s, alwaysOn s, wakeArmed s 1, bits (0xAC * 2 ^ 16 + cfg s 0x3600 1) 23 16 = 0xAC, bits (0xAC * 2 ^ 16 + cfg s 0x3600 1) 15 0 = cfg s 0x3600 1]),
    [23, 24].all fun p =>
      let c : Cmd := ⟨0x02, 0x3600, 2, 0, 3, [BitVec.ofNat 8 p, 5, 0]⟩
      all [writesEntry (sRun c 3 0xFF sF) (rq c) c 0x3600 2, field c.data 0 1 = p]] = true := by decide +kernel

/-! ## Edrad links, functions and accelerator ports (10) -/

/-- Link 0 of a running device in a state, bound to partition 0 and accelerator ports 0 and 1. -/
def sK (e : Edrad) (now : Nat := 0) : State :=
  { sUp with time := { now := now }, link := {
      edrad := [(0, e)], boundParts := [(0, [0])],
      accel := [(0, { owner := some 0, bound := 1, up := true }), (1, { owner := some 0, bound := 1, byHost := true, isolated := true })] } }

/-- A flit of header fields and no payload, its CRC whole. -/
def flitOf (l : List (Nat × Nat)) : Flit :=
  let f : Flit := { hdr := word 64 l, payload := [], crc := 0, corrected := 0, uncorrectable := 0 }
  { f with crc := flitCrc f }

theorem flitCrc_ignores_crc (f : Flit) (x : BitVec 64) : flitCrc { f with crc := x } = flitCrc f := rfl

/-- Every such flit is whole. -/
theorem witness_EdradLinksReplayAndTrain_crc (l : List (Nat × Nat)) : (flitOf l).uncorrectable = 0 ∧ flitCrc (flitOf l) = (flitOf l).crc := by
  unfold flitOf
  exact ⟨rfl, flitCrc_ignores_crc _ _⟩

theorem witness_EdradLinksReplayAndTrain_flits :
    (let s := sK { state := .active, recvSeq := 7, replay := [1, 2], resends := 4 }
     let e := edradOf s 0
     let ahead := fun f => (FlitHdr.seq (Flit.hdr f) + 4096 - (e.recvSeq + 1) % 4096) % 4096
     let next := flitOf [(60, 1), (48, 8)]
     let dup := flitOf [(60, 2), (48, 7)]
     let skip := flitOf [(60, 1), (48, 9)]
     let far := flitOf [(60, 1), (48, 8 + 2047)]
     let ack := flitOf [(36, 1), (35, 1)]
     all [running s, dieUp s (atCode 0), e.state = .active, ({ next with uncorrectable := 1 } : Flit).uncorrectable ≠ 0,
       ahead next = 0, 2047 < ahead dup, ahead skip = 1, ahead far = 2047, FlitHdr.type dup.hdr = 2,
       FlitHdr.type ack.hdr = 0, FlitHdr.ackValid ack.hdr, e.replay.contains (FlitHdr.ack ack.hdr), FlitHdr.nak (flitOf [(34, 1)]).hdr,
       2 < FlitHdr.type (flitOf [(60, 3)]).hdr]) = true := by decide +kernel

theorem witness_EdradLinksReplayAndTrain_links : all [
    !(sK {}).elec.clocksOut.contains 0, (edradOf (sK {}) 0).step = 0,
    [(2, false, 10 * ms), (3, false, 40 * ms), (4, false, 1 * ms), (5, false, 100 * us), (2, true, 1 * ms)].all fun (n, f, b) =>
      let s := sK { state := .training, step := n, fast := f, fastFails := 1 } b
      all [trainBound (edradOf s 0) = some b, due s (edradOf s 0).stepAt b],
    [none, some 3].all fun p => (edradOf (sK { state := .outage, step := 5, peerEpoch := p, replay := [1, 2] }) 0).peerEpoch = p,
    boundPorts (sK {}) 0 = [0, 1], (accelOf (sK {}) 1).byHost] = true := by decide +kernel

/-- A held request may have waited as long as the host's completion timeout, whatever that is. -/
theorem witness_EdradLinksReplayAndTrain_late (link : Nat) :
    due (sK { state := .outage, step := 5, card := { held := [(1, 0)] } } (max (10 * ms) (Config.hostTimeout link))) 0
      (max (10 * ms) (Config.hostTimeout link)) = true := by
  simp [due, sK]

theorem witness_HostDomainsResetAndTheCardAnswers : all [
    (let s := { sK { state := .active } with link := { (sK { state := .active }).link with hdr := [(0, 2)] } }
     (tget s.link.hdr 0).isSome),
    tget (sK { state := .active }).link.hdr 0 = none, boundParts (sK {}) 0 = [0], boundPorts (sK {}) 1 = [],
    (let s := sK { state := .outage, everActive := true } (20 * ms)
     all [(edradOf s 0).everActive, due s (edradOf s 0).outageAt ((edradOf s 0).lossMs * ms)]),
    (let s := sK { state := .active, sleeping := true, card := { lost := false } }
     all [running s, dieUp s (atCode 0), (edradOf s 0).state = .active, !(edradOf s 0).card.lost, (edradOf s 0).sleeping, funcPart s 0 0 = some 0]),
    (accelOf (sK {}) ((9 - 1) % 8)).bound = 0 + 1,
    [0, 1, 2].all fun v =>
      let c : Cmd := ⟨0x02, 0x6002, 5, 0, 1, [BitVec.ofNat 8 v]⟩
      all [writesEntry (sRun c 3 0xFF (sK {})) (rq c) c 0x6002 5, ofLe c.data = v],
    (let s := sK { state := .idle, card := { lost := false } }
     all [(edradOf s 0).state = .idle, dieUp s (atCode 0), s.pow.state = .active]),
    (let s0 := sK { state := .idle }
     let s := { s0 with pow := { s0.pow with state := .standby }, dict := [(dkey 0x2001 1, [4, 0])] }
     all [dieUp s (atCode 0), alwaysOn s, wakeArmed s 2])] = true := by decide +kernel

/-- Partition 0 with its data range in device memory and link 0 bound. -/
def sBar : State := sK { state := .active }

theorem witness_FunctionsAndAcceleratorPorts : all [
    running sBar, (partOf sBar 0).enabled, partUp (leaveIdle sBar) 0, (boundParts sBar 0 ++ boundParts sBar 1).contains 0,
    (let s1 := leaveIdle sBar
     let b := (dataRange s1 0).1
     let n := (dataRange s1 0).2
     all [0 < n, !withdrawn s1 b, !withdrawn s1 (b + n - 1), !memWaits s1 b, firstBadRead s1 b 64 = none,
       firstBadRead { s1 with mem := { s1.mem with bad := [b / 64] } } b 64 ≠ none, memWaits { s1 with mem := { s1.mem with zeroing := true } } b,
       firstBadWrite s1 b 1 = none, b % 8 = 0, (b + 4) % 8 ≠ 0]),
    running sBar, dieUp sBar (atCode 0), (accelOf sBar 0).up, !(accelOf sBar 0).isolated, (accelOf sBar 0).bound = 0 + 1,
    (let t := { sBar with link := { sBar.link with funcs := [(18, { base := 0x1000, limit := 0x1FFF }), (0, { base := 0x3000, limit := 0x3FFF })] } }
     all [peerPort t 0 0 0x1000 = some 1, peerPort t 0 0 0x1FFF = some 1, peerPort t 0 0 0x2000 = none, peerPort t 0 0 0x3000 = none,
       (tgetD t.link.funcs 0 {}).holds 0x3FFF, !(tgetD t.link.funcs 0 {}).holds 0x4000]),
    (let x : Accel := { owner := some 0, bound := 1, downAt := some 0 }
     let t := { sBar with link := { sBar.link with accel := [(0, x)] }, time := { now := 20 * ms } }
     all [(accelOf t 0).downAt = some 0, due t 0 ((accelOf t 0).lossMs * ms), !(accelOf t 0).isolated, !(accelOf t 0).lowPower,
       (accelOf t 0).owner.isSome, !(accelOf t 0).up]),
    (let x : Accel := { owner := some 0, bound := 1, bifurcated := true }
     let t := { sBar with link := { sBar.link with accel := [(0, x)], barWait := [(0, 8, .read 4)] } }
     all [(accelOf t 0).bifurcated, !(accelOf t 0).upB, t.link.barWait.any fun y => y.1 == 0, t.link.barWait = [(0, 8, .read 4)],
       (barAct 0 (dataRange (leaveIdle sBar) 0).1 (.read 4) sBar).isSome,
       (barAct 0 (dataRange (leaveIdle sBar) 0).1 (.read 4) { sBar with mem := { sBar.mem with zeroing := true } }).isNone]),
    (let t := { sBar with link := { sBar.link with accel := [(0, { owner := some 0, up := true })], funcs := [(0, { base := 0x3000, limit := 0x3FFF })] } }
     all [(accelOf t 0).bound = 0, (accelOf t 0).owner = some 0, (tgetD t.link.funcs 0 {}).holds 0x3000, (List.range 12).all fun p => !(tgetD t.link.funcs p {}).holds 0x4000])] = true := by decide +kernel

/-! ## Device memory (11) -/

/-- Die 0 over seven channels: slot 3 has failed. -/
def sSeven : State := { sUp with mem := { zeroing := false, seven := [0], chans := [(3, { dead := true })], dropped := [(0, 3)], spareUsed := [0] } }

theorem witness_AddressesHaveOnePlace : all [
    ({} : State).mem.seven = [], (0 : Nat) % 4096 = 0, 0 / frameSize = (frameSize - 1) / frameSize,
    sSeven.mem.seven.contains (memDie sSeven 0), ((List.range 8).filter fun k => !(chanOf sSeven (memDie sSeven 0) k).dead).length = 7,
    deviceFrames {} = 8 * 19074, withdrawn sSeven (8 * frameSize * 16514), !withdrawn sSeven (8 * frameSize * 16513)] = true := by decide +kernel

/-- A device whose blocks are worn at their first correction and darned by themselves. -/
def sWear : State := { sUp with dict := [(dkey 0x2401 2, [1, 0, 0, 0]), (dkey 0x2401 4, [1])] }

theorem witness_MemoryCorrectsRemapsAndDarns : all [
    memPowered sUp, 0 / frameSize < deviceFrames sUp, dieUp sUp (memDie sUp 0), remapsOf sUp 0 < 65536, tget sUp.mem.remaps 0 = none,
    cfg sWear 0x2401 2 ≤ (window sWear (24 * hour) (tgetD sWear.mem.blockCorr 0 [])).length, cfg sWear 0x2401 4 ≠ 0,
    (window sUp (24 * hour) (tgetD sUp.mem.blockCorr 0 [])).length < cfg sUp 0x2401 2,
    (let s := { sUp with mem := { sUp.mem with scrubAt := [(0, scrubUnits - 1)] } }
     tgetD s.mem.scrubAt 0 0 + 1 = scrubUnits),
    (let s := { sUp with mem := { sUp.mem with remaps := [(5, .copying)] } }
     all [tget s.mem.remaps 5 = some .copying, remapsOf s (memDie s (4096 * 5)) ≤ 65536]),
    !(chanOf sUp 0 7).dead, !sUp.elec.held, spareFree sUp 0, !spareFree sSeven 0, !spareFree sSeven 1, spareFree sSeven 2, sUp.pow.boot = 0,
    ({ sUp with pow := { boot := 2 } } : State).pow.boot ≠ 0, dieUp { sUp with pow := { boot := 2 } } 0,
    [(7, 7), (8, 0), (0, 8)].all fun (d, k) =>
      let c : Cmd := ⟨0x02, 0x2401, 5, 0, 2, [BitVec.ofNat 8 d, BitVec.ofNat 8 k]⟩
      all [writesEntry (sRun c 3 0xFF sUp) (rq c) c 0x2401 5, field c.data 0 1 = d, field c.data 1 1 = k, dieUp sUp 7],
    [78, 79].all fun k =>
      let s := { sUp with mem := { sUp.mem with chans := [(0, { darn := some k })] } }
      (chanOf s 0 0).darn = some k,
    (let s := { sUp with mem := { bytes := [(0, 1)], hub := [(0, 1)], bad := [0], remaps := [(0, .lost), (1, .pool)] } }
     all [memPowered s, s.mem.zeroing, tget s.mem.remaps 0 = some .lost, tget s.mem.remaps 1 = some .pool])] = true := by decide +kernel

/-! ## Partitions and slices (12) -/

/-- Partition 0 with a reset under way. -/
def sReset (key : Nat) (r : PReset) (now : Nat := 0) : State :=
  { sUp with time := { now := now }, part := { parts := [(0, { part0 with slices := [5], resets := [(key, r)] })] } }

theorem witness_PartitionsAndSlicesReset : all [
    [(0, 1), (11, 2), (12, 1)].all fun (p, a) =>
      let c : Cmd := ⟨0x02, 0x7010, 0, 0, 2, [BitVec.ofNat 8 p, BitVec.ofNat 8 a]⟩
      all [writesEntry (sRun c 3 0xFF sUp) (rq c) c 0x7010 0, field c.data 1 1 = a, field c.data 0 1 = p],
    (partOf sUp 0).state ≠ .off, (partOf sUp 11).state = .off, tget (partOf sUp 0).resets 0 = none,
    (tget (partOf (sReset 0 {}) 0).resets 0).isSome, Tab.wf (sQ {}).q.wqs,
    [0, 6].all fun k =>
      let s := sReset k { trigger := 1, paths := [.memory 0, .edrad 0] } (200 * us)
      all [resetsRun s, (tget (partOf s 0).resets k).any fun r => r.step == 3 && due s r.stepAt (r.drain * us), pathActive s (.memory 0)],
    [0, 6].all fun k => [false, true].all fun d =>
      let s := sReset k { step := 5, trigger := 1, zero := d, destroy := d } 0
      all [running s, (tget (partOf s 0).resets k).any fun r => r.step == 5 && r.flushes == 0 && r.trigger != 0],
    tableBytes sUp 0 = 4194304, (dataRange sUp 0).1 + (dataRange sUp 0).2 = tableBase sUp 0,
    [(0, 5, 1), (0, 5, 2), (0, 5, 3), (0, 6, 1), (0, 6, 2), (0, 0, 3), (12, 5, 1), (0, 2 ^ 20, 1), (11, 2 ^ 20 - 1, 1)].all fun (p, pasid, a) =>
      let c : Cmd := ⟨0x02, 0x7020, 0, 0, 6, [BitVec.ofNat 8 p] ++ leBytes 4 pasid ++ [BitVec.ofNat 8 a]⟩
      all [[1, 2, 3].all fun pv => writesEntry (sRun c pv 0 sUp) (rq c) c 0x7020 0, field c.data 0 1 = p, field c.data 1 4 = pasid, field c.data 5 1 = a,
        (senderOf (sRun c 1 0 sUp) (rq c)).priv = 1, (senderOf (sRun c 1 0 sUp) (rq c)).part = 0],
    (let s := sReset 9 {}
     all [isSlice s 0 5, !isSlice s 0 6, isSlice s 0 0, partUp sUp 0, (partOf s 0).slices.length + 1 < (partOf s 0).quotaSlices, !sliceNamed s 0 5,
       slicesHeld s < 16384]),
    (let s := { sUp with part := { parts := [(0, { part0 with quotaSlices := 1 })] } }
     (partOf s 0).quotaSlices ≤ (partOf s 0).slices.length + 1),
    (let s := { sUp with part := { parts := [(0, { part0 with slices := [5] })] }, xl := { regions := [(0, word 256 [(96, 5), (0, 1)])] } }
     all [partUp s 0, sliceNamed s 0 5])] = true := by decide +kernel

/-! ## Farnen, the dictionary, managers (13)

The value of a keyed check is open, so a witness that needs one names it. -/

/-- A well-formed frame of one record. -/
def fr (ty session counter : Nat) (c : Cmd) : FarnenFrame :=
  { magic := 0x4E46, version := 1, type := ty, length := 52 + (c.data.length + 3) / 4 * 4, session := session, counter := counter, transaction := 9,
    cmds := [c], tag := 0 }

/-- A device with session 1 open at counter 4, whose last response was to transaction 9. -/
def sOpen : State :=
  let s := sRun (rd 0x1000 1 8) 3 0xFF sUp
  { s with far := { s.far with running := none, sessions := tmod s.far.sessions 1 fun x => { x with counter := 4, kept := some ⟨1, 4, 9, [], none⟩ } } }

theorem witness_FarnenRequestsRunInOrder_tags (x : Session) (f : FarnenFrame) :
    Config.cmac x.key (frameBody f) = ({ f with tag := Config.cmac x.key (frameBody f) } : FarnenFrame).tag ∧
    Config.cmac x.key (frameBody f) ≠ ({ f with tag := Config.cmac x.key (frameBody f) + 1 } : FarnenFrame).tag := by
  refine ⟨rfl, ?_⟩
  show Config.cmac x.key (frameBody f) ≠ Config.cmac x.key (frameBody f) + 1
  generalize Config.cmac x.key (frameBody f) = t
  bv_omega

theorem witness_FarnenRequestsRunInOrder : all [
    serving sOpen, [FPath.segment, .mailbox 0, .accelMailbox 0, .fabric, .sideband].all (pathOpen sOpen),
    (let f := fr 1 1 5 (rd 0x1000 1 8)
     all [frameForm f, !frameForm { f with length := 53 }, !frameForm { f with magic := 0 }, f.type = 1, f.session ≠ 0,
       (tget sOpen.far.sessions 1).any fun x => x.counter < f.counter && x.kept == some ⟨1, 4, 9, [], none⟩]),
    frameForm (fr 3 0 0 (wr 0x1000 1 8 1)), tget sOpen.far.sessions 2 = none, sOpen.far.running = none, sOpen.far.queue = [],
    (let s := { sOpen with far := { sOpen.far with queue := List.replicate 64 (rq (rd 0x1000 1 8)) } }
     all [64 ≤ s.far.queue.length, serving s]),
    (let s := { sOpen with far := { sOpen.far with mailboxes := [(0, { running := true })] } }
     all [(tgetD s.far.mailboxes 0 {}).running, !(tgetD sOpen.far.mailboxes 0 {}).running]),
    (let c := rd 0x1000 1 8
     (sRun c 3 0xFF sUp).far.running.any fun r => r.todo == [c] && !r.stored && !r.closeMgmt && !r.req.notice && r.req.path == .segment),
    [(1, 11, 0), (1, 0, 7), (2, 0, 0), (4, 0, 3), (0, 0, 0), (5, 0, 0)].all fun (pv, p, e) =>
      let c : Cmd := ⟨cOpen, 0, 0, 0, 22, [BitVec.ofNat 8 pv, BitVec.ofNat 8 p] ++ leBytes 4 e ++ List.replicate 16 0⟩
      let s0 := sRun c 3 0xFF { sUp with mgr := { epoch := 5 } }
      let r : Request := { rq c with session := 0, path := .mailbox 0 }
      let s := { s0 with far := { s0.far with running := some { req := r, todo := [c] } } }
      all [runsCode s r c cOpen, c.data.length = 22, field c.data 0 1 = pv, field c.data 1 1 = p, field c.data 2 4 = e,
        ownMailbox r.path 0, !ownMailbox r.path 11, s.mgr.epoch = 5, s.far.sessions.length < 64, s.sec.randomOk, s.far.nextSession ≠ 0],
    [0, 1].all fun n =>
      let c : Cmd := ⟨cClose, 0, 0, 0, 0, []⟩
      let s0 := sRun c 3 0xFF sUp
      let r := { rq c with session := n }
      runsCode { s0 with far := { s0.far with running := some { req := r, todo := [c] } } } r c cClose,
    (let c : Cmd := ⟨5, 0, 0, 0, 0, []⟩
     all [current (sRun c 3 0xFF sUp) = some (rq c, c), !(([1, 2, 3, 4, 0x10, 0x11, 0x30, 0x31, 0x32, 0x33, 0x34] : List Nat).contains c.code)]),
    (let s := { sOpen with time := { now := 3600 * sec }, far := { sOpen.far with sessions := tmod sOpen.far.sessions 1 fun x =>
       { x with staged := some { key := dkey 0x9000 2, total := 34, data := [], last := 0 } } } }
     all [serving s, due s 0 (cfg s 0x9100 1 * sec), due s 0 (10 * sec), (tget s.far.sessions 1).any fun x => x.lastFrame == 0 && x.staged.isSome])] = true := by
  decide +kernel

theorem witness_EntriesAreReadWrittenAndStored : all [
    [rd 0x1000 1 8, { rd 0x1000 1 8 with offset := 9 }, rd 0x9040 2 1, rd 0x9030 1 4, rd 0x0001 0 1].all fun c =>
      all [runsCode (sRun c 3 0xFF sUp) (rq c) c cRead, !readHasRow c.index c.sub],
    (entryAt 0x1000 1).any fun e => e.access != 2 && e.ty != 14, (entryAt 0x9040 2).any fun e => e.access == 2, entryAt 0x0001 0 = none,
    (entryAt 0x9030 1).any fun e => reach ⟨1, 3, 0xFF, .segment⟩ e 1 true && !reach ⟨1, 2, 0xFF, .segment⟩ e 1 true,
    [0, 1, 2, 3, 4].all fun p => decide ((Sender.priv ⟨1, p, 0, .segment⟩) = p),
    (entryAt 0x7030 1).any fun e => perPartition e.index && decide (e.priv ≤ 4),
    [wr 0x0001 0 1 0, wr 0x1000 1 8 0, wr 0x9100 1 4 0xFFFFFFFF, wr 0x9100 1 3 60].all fun c =>
      all [runsCode (sRun c 3 0xFF sUp) (rq c) c cWrite, !writeHasRow c.index c.sub, !actionHasRow c.index c.sub c.data],
    (entryAt 0x1000 1).any fun e => e.access == 0, (entryAt 0x9100 1).any fun e => all [!lengthFits e (wr 0x9100 1 3 60), lengthFits e (wr 0x9100 1 4 0), !inRange e (wr 0x9100 1 4 0)],
    [(0x3700, 1, 1, 2), (0x3701, 1, 2, 0x10), (0x7000, 1, 2, 3), (0x9100, 1, 4, 60), (0x7011, 1, 4, 200), (0x2000, 3, 4, 50), (0x2000, 4, 4, 100),
      (0x2200, 1, 1, 95), (0x2200, 2, 2, 850), (0x8200, 3, 1, 4)].all fun (i, n, k, v) =>
        let c := wr i n k v
        all [writesEntry (sRun c 3 0xFF sUp) (rq c) c i n, (sRun c 3 0xFF sUp).far.running.all fun x => x.todo == [c]],
    [(0x1000, 1, cDescribe), (1, 0, cDescribe), (0, 0, cNext)].all fun (i, n, k) =>
      let c : Cmd := ⟨k, i, n, 0, 0, []⟩
      runsCode (sRun c 3 0xFF sUp) (rq c) c k,
    (let s := { sUp with far := { sUp.far with commitDue := true, held := [(.segment, ⟨1, 1, 1, [], none⟩)] } }
     all [commitReady s, commitCount s ≠ m32 - 1]),
    (let s := { sUp with far := { sUp.far with commitDue := true, bankA := { count := m32 - 1, good := true } } }
     all [commitReady s, commitCount s = m32 - 1])] = true := by decide +kernel

/-- A manager with standby 0x10 and three witnesses, one second on. -/
def sMgr (role : Nat) : State :=
  { sF with time := { now := 10 * sec }, mgr := { role := role, witnesses := [1, 2, 3], standbySync := true, journal := [⟨7, 1, 2, [], 0, false⟩] },
            dict := [(dkey 0x3700 1, [1]), (dkey 0x3701 1, [0x10, 0]), (dkey 0x3701 2, leBytes 2 0x20 ++ List.replicate 6 0)] ++ sF.dict,
            inForce := [(dkey 0x3700 1, [1])], fab := { sF.fab with firstTrained := some 0, ports := [] } }

theorem witness_ManagersBeatAndFailOver : all [
    running (sMgr 0), configuredManager (sMgr 0), (sMgr 0).mgr.role = 0, sinceTrained (sMgr 0) (300 * ms), !heardCoord (sMgr 0),
    (let s := { sMgr 0 with dict := [] }
     all [coord s = none, sinceTrained s (10 * sec), !s.fab.noManagerSaid]),
    due (sMgr 1) (sMgr 1).mgr.lastBeat (cfg (sMgr 1) 0x3702 1 * ms), due (sMgr 1) (sMgr 1).mgr.since (lossSpan (sMgr 1)), !majority (sMgr 1),
    (subManagers (sMgr 1)).contains 0x20, due (sMgr 2) (sMgr 2).mgr.heard (lossSpan (sMgr 2)), (sMgr 2).mgr.query = none,
    current (sMgr 0) = none, managerSession (sMgr 0) = none, standbyOf (sMgr 1) = some 0x10,
    (let s := { sMgr 2 with mgr := { (sMgr 2).mgr with query := some 0 } }
     all [s.mgr.query.isSome, decide (2 ≤ s.mgr.witnesses.length), 3 < 2 * ([false, false].filter fun h => !h).length,
       ¬ 3 < 2 * ([true, false].filter fun h => !h).length]),
    (let c : Cmd := ⟨0x02, 0x3702, 3, 0, 1, [1]⟩
     all [writesEntry (sRun c 3 0xFF (sMgr 1)) (rq c) c 0x3702 3, writesEntry (sRun c 3 0xFF sUp) (rq c) c 0x3702 3, standbyOf sUp = none]),
    (sMgr 1).mgr.journal.all fun j => j.seq == 7 && !j.acked && due (sMgr 1) j.sentAt (1 * ms)] = true := by decide +kernel

/-! ## Keys, images, measurement (14) -/

/-- A device whose owner slots 0 and 1 are active. -/
def sOwned : State := { sUp with sec := { slots := [(4, { state := 1, digest := 5 }), (5, { state := 1, digest := 6 })], ownerEver := true } }

/-- A staged record that completes in one piece. -/
def st (i n : Nat) (d : List Byte) : Cmd := ⟨0x02, i, n, 0, d.length, d⟩

/-- The head of an image of kind 1 for slot 0 of the owner, with a body of no bytes. -/
def imgHead : List Byte :=
  leBytes 128 (pack [(992, 0x57465A4B), (984, 1), (976, 1), (968, 1), (960, 0), (944, 3)])

theorem witness_KeysSlotsAndImages : all [
    [0, 1].all fun n =>
      let c := rd 0x9030 2 484
      let s0 := sRun c 3 0xFF sUp
      let r : Request := { rq c with session := n, path := .mailbox 0 }
      let s := { s0 with far := { s0.far with running := some { req := r, todo := [c] } } }
      all [runsCode s r c cRead, !s.sec.recovery, trustedPath r.path, (senderOf s r).priv == 3 || r.session == 0, !s.sec.provisioned],
    (let c := wr 0x9030 4 1 1
     writesEntry (sRun c 3 0xFF sUp) (rq c) c 0x9030 4),
    [(4, 4, true), (56, 4, true), (56, 8, false)].all fun (o, n, fits) =>
      let c : Cmd := ⟨0x02, 0x9030, 1, o, n, List.replicate n 0⟩
      all [writesEntry (sRun c 3 0xFF sUp) (rq c) c 0x9030 1, o ≠ 0, (Nat.ble (o + n) 60) == fits],
    (let c : Cmd := ⟨0x02, 0x9030, 1, 0, 64, leBytes 2 15 ++ leBytes 2 4 ++ List.replicate 60 0⟩
     all [writesEntry (sRun c 3 0xFF sUp) (rq c) c 0x9030 1, arrayCount c.data = 15]),
    [0, 3, 4].all fun k =>
      let d : List Byte := [BitVec.ofNat 8 k] ++ List.replicate 32 0 ++ [0xFF]
      let c := st 0x9000 2 d
      let s0 := sRun c 3 0xFF sUp
      let r : Request := { rq c with path := .sideband }
      let s := { s0 with far := { s0.far with running := some { req := r, todo := [c] } } }
      all [completesStaged s r c 0x9000 2 34 d, field d 33 1 = 0xFF, field d 0 1 = k, (keySlot s 1 k).state = 0 || 3 < k, !s.sec.ownerEver, trustedPath r.path],
    (let d : List Byte := [2] ++ List.replicate 32 0 ++ List.replicate 2421 0
     let c : Cmd := ⟨0x02, 0x9000, 2, 34, 2420, d.drop 34⟩
     let s := onSession 1 (fun x => { x with staged := some { key := dkey 0x9000 2, total := 2454, data := d.take 34, last := 0 } }) (sRun c 3 0xFF sOwned)
     all [completesStaged s (rq c) c 0x9000 2 2454 d, (keySlot s 1 2).state = 0, slotActive s 1 (field d 33 1)]),
    (let d : List Byte := [1, 0, 1] ++ List.replicate 2420 0
     let c := st 0x9000 3 d
     all [completesStaged (sRun c 3 0xFF sOwned) (rq c) c 0x9000 3 2423 d, slotActive (sRun c 3 0xFF sOwned) 1 1]),
    [0, 1].all fun v =>
      let c := wr 0x9000 4 1 v
      all [writesEntry (sRun c 3 0xFF sUp) (rq c) c 0x9000 4, writesEntry (sRun c 3 0xFF sOwned) (rq c) c 0x9000 4, (List.range 4).all fun k => !slotActive sUp 1 k],
    fld (imageHead imgHead) 1023 992 = 0x57465A4B, headOk (imageHead imgHead) 1 4096, Head.bindId (imageHead imgHead) = 0,
    slotActive sOwned (Head.cls (imageHead imgHead)) (Head.slot (imageHead imgHead)),
    [(1, 0), (5, 1), (0, 0), (6, 0), (1, 2)].all fun (k, b) =>
      let c : Cmd := st 0x9010 2 ([BitVec.ofNat 8 k] ++ List.replicate 16 0)
      let e : Cmd := st 0x9010 3 [BitVec.ofNat 8 k, BitVec.ofNat 8 b]
      all [writesEntry (sRun c 3 0xFF sUp) (rq c) c 0x9010 2, !verifying (sRun c 3 0xFF sUp) k, !(sRun c 3 0xFF sUp).sec.recovery,
        writesEntry (sRun e 3 0xFF sUp) (rq e) e 0x9010 3, field e.data 1 1 = b],
    (let s := { sUp with sec := { banks := [(2, { state := 1, data := [] })] } }
     all [verifying s 1, (bankOf s 1 0).state = 1, serving s, !verifyImage s 1 (bankOf s 1 0).data]),
    (let d : List Byte := [1, 0, 0, 0] ++ leBytes 4 4096 ++ slice imgHead 0 4096
     let c : Cmd := ⟨0x02, 0x9010, 2, 4096, 8, d.drop 4096⟩
     let s0 := { sUp with sec := { recovery := true } }
     let s := onSession 1 (fun x => { x with staged := some { key := dkey 0x9010 2, total := 4104, data := d.take 4096, last := 0 } }) (sRun c 3 0xFF s0)
     all [completesStaged s (rq c) c 0x9010 2 (8 + field d 4 4) d, s.sec.recovery, !verifying s 1, (d.drop 8).length = 4096 + fld (imageHead (d.drop 8)) 911 880]),
    (let c := wr 0x9010 5 1 1
     let s := { sUp with sec := { banks := [(2, { state := 4, svn := 3 })] } }
     all [writesEntry (sRun c 3 0xFF s) (rq c) c 0x9010 5, (runningBank s 1).any fun b => b.svn == 3, (runningBank sUp 1).isNone])] = true := by
  decide +kernel

theorem witness_MeasurementsAttestAndUnlock : all [
    [7, 8, 15, 16].all fun m =>
      let c := st 0x9020 2 ([BitVec.ofNat 8 m] ++ List.replicate 32 0)
      all [writesEntry (sRun c 3 0xFF sUp) (rq c) c 0x9020 2, field c.data 0 1 = m],
    (let c := st 0x9020 3 (List.replicate 34 0)
     let s := sRun c 3 0xFF sUp
     all [writesEntry s (rq c) c 0x9020 3, (tget s.far.sessions 1).isSome, s.sec.randomOk, s.sec.reportCount ≠ m64 - 1]),
    (let c := rd 0x9040 1 32
     all [readsEntry (sRun c 3 0xFF sUp) (rq c) c 0x9040 1, (tget (sRun c 3 0xFF sUp).far.sessions 1).isSome]),
    [0, 60 * sec].all fun t =>
      let d : List Byte := [2, 0] ++ List.replicate 2420 0
      let c := st 0x9040 2 d
      let s := onSession 1 (fun x => { x with nonce := some ([], 0) }) (sRun c 3 0xFF { sUp with time := { now := t } })
      all [completesStaged s (rq c) c 0x9040 2 2422 d, field d 0 1 = 2, (due s 0 (60 * sec)) == (t != 0), serving s,
        !s.sec.ownerExclusive, completesStaged { s with sec := { s.sec with ownerExclusive := true } } (rq c) c 0x9040 2 2422 d]] = true := by decide +kernel

/-! ## The metering die (15) -/

/-- A frame of the feed with partition 0 Up. -/
def fd (epoch number time : Nat) : Feed := ⟨epoch, number, time, false, 1 :: List.replicate 11 0, List.replicate 12 7, List.replicate 12 0, true⟩

/-- A metering die after a frame at 5 ms. -/
def sMtr (x : MtrSt) : State := { sUp with time := { now := 5 * ms }, mtr := { x with last := some (fd 1 1 (5 * ms)) } }

/-- A record with a sequence number. -/
def mrec (seq : Nat) (c : Bool) : MRecord := ⟨0, 0, seq, 0, 0, 0, 0, 0, 0, 0, 0, 0, 0, [], [], c⟩

theorem witness_TheMeterMeasuresSignsAndSeals : all [
    hubUp (sMtr {}), (sMtr {}).pow.boot = 0, (sMtr {}).pow.warm = 0, (sMtr {}).time.now % ms = 0, (sMtr {}).mtr.powered,
    !slotsFull (sMtr {}), (sMtr { records := [mrec 0 false] }).mtr.records.getLast?.isSome,
    (let s := sMtr {}
     all [(fd 1 2 (6 * ms)).time < boundary s, boundary s = 900 * sec, (fd 1 2 (900 * sec)).time = boundary s, !s.mtr.feedLoss,
       (fd 2 0 (6 * ms)).crcOk, !({ fd 1 2 0 with crcOk := false } : Feed).crcOk]),
    100 * ms ≤ (sMtr {}).mtr.clock + (Sensed.mk (100 * ms) [] 0).dt - (sMtr {}).mtr.lastFrameAt,
    elapsedDue (sMtr { feedLoss := true }) (900 * sec), !elapsedDue (sMtr { feedLoss := true }) (900 * sec - 1),
    60 * sec ≤ (sMtr {}).mtr.clock + 60 * sec - (sMtr {}).mtr.snapshotAt, !(sMtr { powered := false }).mtr.powered,
    serving (sMtr {}), current (sMtr {}) = none, (sMtr { bootWait := true }).mtr.bootWait,
    (let s := { sMtr { statusAsked := some 0, bootWait := true } with time := { now := sec } }
     all [serving s, s.mtr.statusAsked = some 0, due s 0 sec, (partOf s 0).enabled]),
    (let c := rd 0xA010 1 2932
     all [readsEntry (sRun c 4 0xFF (sMtr { records := [mrec 0 false] })) (rq c) c 0xA010 1,
       selOf (sRun c 4 0xFF (sMtr { records := [mrec 0 false] })) 1 (dkey 0xA010 0) = 0,
       (recordOf (sMtr { records := [mrec 0 false] }) 0).isSome, (recordOf (sMtr {}) 0).isNone]),
    (sMtr { sealOpen := true, pending := [(1, 60)] }).mtr.pending = [(1, 60)],
    [(1, 59), (1, 60), (1, 3600), (1, 3601), (2, 9), (3, 9)].all fun (a, v) =>
      let c := st 0xA030 0 ([BitVec.ofNat 8 a] ++ leBytes 4 v ++ List.replicate 16 0)
      let s := sRun c 4 0xFF (sMtr { sealOpen := true })
      all [writesEntry s (rq c) c 0xA030 0, field c.data 0 1 = a, field c.data 1 4 = v, s.mtr.powered, s.mtr.sealOpen,
        a == 1 || (deviceBytes (field c.data 5 4) (field c.data 9 8) (field c.data 17 4) s).1.isNone]] = true := by decide +kernel

/-- ENERGY_SHARE of R485: with no bytes the energy is shared by active time alone; else half by time and half by bytes. -/
theorem test_energyShare : energyShare 1000000 1 4 0 0 = 250 ∧ energyShare 1000000 1 4 3 4 = 500 ∧ energyShare 1000000 0 0 3 4 = 0 := by decide

/-! ## Counters, samples and records (16) -/

/-- A device with counter 3, histogram 1 and the FIFO of die 0 owned by partition 0. -/
def sObs : State :=
  { sUp with obs := { pctr := [(3, { owner := 0 })], hist := [(1, { owner := 0, kind := 1 })], sfifo := [(0, { owner := 0, words := List.replicate 8 5 })],
                      bw := [(2, { sent := 5, peakSent := 3 })], events := [⟨4, 0x2110, 1, 0, 0, 0, false, 0, []⟩] } }

theorem witness_CountersSampleAndRecord : all [
    (let c : Cmd := ⟨0x02, 0x8010, 1, 11 * 3, 11, 0 :: List.replicate 10 0⟩
     all [c.offset = 11 * 3, c.length = 11, writesEntry (sRun c 1 0 sObs) (rq c) c 0x8010 1, (elementsOf c 11 64).isSome, ownerReach ⟨1, 1, 0, .segment⟩ 0,
       !ownerReach ⟨1, 1, 1, .segment⟩ 0, (pctrOf sObs 0 3).owner = 0]),
    (let c : Cmd := ⟨0x02, 0x8011, 8, 8 * 63, 8, List.replicate 8 0⟩
     all [writesEntry (sRun c 2 0xFF sObs) (rq c) c 0x8011 8, c.sub ≤ engineDies sObs, engineDies { sObs with grade := 0x7204 } < c.sub,
       writesEntry (sRun c 2 0xFF { sObs with grade := 0x7204 }) (rq c) c 0x8011 8]),
    (let c : Cmd := ⟨0x02, 0x8011, 1, 8 * 63, 16, List.replicate 16 0⟩
     all [writesEntry (sRun c 2 0xFF sObs) (rq c) c 0x8011 1, elementsOf c 8 64 = none]),
    [11, 12, 0xFF].all fun o =>
      let c : Cmd := ⟨0x02, 0x8013, 1, 3, 1, [BitVec.ofNat 8 o]⟩
      all [writesEntry (sRun c 3 0xFF sObs) (rq c) c 0x8013 1, elementsOf c 1 64 = some [(3, [BitVec.ofNat 8 o])]],
    (let c := rd 0x8012 1 569
     readsEntry (sRun c 1 0 sObs) (rq c) c 0x8012 1),
    [1024, 1025, 2048].all fun v =>
      let c := wr 0x8020 1 4 v
      all [writesEntry (sRun c 3 0xFF sObs) (rq c) c 0x8020 1, ofLe c.data = v],
    (let c := rd 0x8021 0 1348
     all [readsEntry (sRun c 3 0xFF sObs) (rq c) c 0x8021 0, (tget sObs.obs.bw 2).isSome]),
    (let s := { sObs with time := { now := 1048576 } }
     all [running s, s.time.now % 1024 = 0, s.obs.bwPending = none, due s s.obs.bwStart s.obs.bwLen]),
    (let s := { sObs with time := { now := 2048 }, obs := { sObs.obs with bwPending := some 2048 } }
     all [s.obs.bwPending = some 2048, 2048 ≤ s.time.now, running s]),
    [(0, 0), (0, 1), (0xFF, 0xFF), (3, 0), (3, 3), (2, 0xFF)].all fun (pv, o) =>
      let c : Cmd := ⟨0x02, 0x8030, 1, 6, 6, [BitVec.ofNat 8 o] ++ List.replicate 5 0⟩
      all [pv == 0 || pv == 0xFF || writesEntry (sRun c pv 0xFF sObs) (rq c) c 0x8030 1, elementsOf c 6 4 = some [(1, c.data)], field c.data 0 1 = o,
        (histOf sObs 0 1).owner = 0, histOk sObs 0 o 0 0, !histOk sObs 0 o 9 0],
    histOk sObs 0 0 1 0, dieOfWq 0 = 0, ownsWq sObs 0 0, histOk sObs 0 0 2 0, !histOk sObs 0 0 3 0,
    [63, 64, 1024, 1088].all fun n =>
      let c := rd 0x8041 1 n
      all [readsEntry (sRun c 1 0 sObs) (rq c) c 0x8041 1, readsEntry (sRun c 1 3 sObs) (rq c) c 0x8041 1,
        (tgetD (sRun c 1 0 sObs).obs.sfifo 0 {}).owner = 0],
    (let c := rd 0x8041 1 64
     let s := { sObs with obs := { sObs.obs with sfifo := [(0, { owner := 0, readPtr := (1, 2), words := [5, 6] })] } }
     all [readsEntry (sRun c 1 0 s) (rq c) c 0x8041 1, !(tgetD (sRun c 1 0 s).obs.sfifo 0 {}).agrees, (tgetD sObs.obs.sfifo 0 {}).agrees]),
    cfg sUp 0x8200 3 ≤ 4, (sUp).obs.events.length < 16384, cfg { sUp with dict := [(dkey 0x8200 3, [3])] } 0x8200 3 = 3,
    (let c := rd 0x8203 0 1284
     all [readsEntry (sRun c 1 0 sObs) (rq c) c 0x8203 0, eventsFor sObs ⟨1, 1, 0, .segment⟩ ≠ []]),
    (let c := wr 0x8204 0 8 3
     all [writesEntry (sRun c 3 0xFF sObs) (rq c) c 0x8204 0, (sRun c 3 0xFF sObs).obs.events.all fun e => Nat.blt 3 e.seq]),
    ({ sUp with obs := { copying := some [], copyWaits := true } } : State).obs.copying = some []] = true := by decide +kernel

/-- A recorder with every place taken by records of one severity. -/
theorem witness_CountersSampleAndRecord_full (e : EventRec) (s : State) :
    16384 ≤ ({ s with obs := { s.obs with events := List.replicate 16384 e } } : State).obs.events.length := by
  show 16384 ≤ (List.replicate 16384 e).length
  rw [List.length_replicate]

/-- Bins of R502: 0, then powers of two, the last from 16,384 on. -/
theorem test_binOf : [0, 1, 2, 3, 4, 16383, 16384, 99999].map binOf = [0, 1, 2, 2, 3, 14, 15, 15] := by decide +kernel

/-! ## Power states and resets (17) -/

/-- A device in a power state. -/
def sPow (p : PowSt) (now : Nat := 0) : State := { sUp with pow := p, time := { now := now } }

theorem witness_PowerStatesAreEnteredAndLeft : all [
    [1, 2, 3].all fun v =>
      let c := wr 0x2000 2 1 v
      all [writesEntry (sRun c 3 0xFF sUp) (rq c) c 0x2000 2, ofLe c.data = v, awake (sRun c 3 0xFF sUp), deviceIdle (sRun c 3 0xFF sUp),
        !entryBusy (sRun c 3 0xFF sUp), entryBusy (sRun c 3 0xFF { sUp with mgr := { role := 1 } }),
        writesEntry (sRun c 3 0xFF { sUp with mgr := { role := 1 } }) (rq c) c 0x2000 2],
    !deviceIdle (sQ { ops := [{ idx := 0, wqe := 0 }] }), !deviceIdle { sUp with conn := { waitFill := [{ src := 0, dst := 0, pkt := { hdr := 0, payload := [], crc := 0 } }] } },
    entryBusy { sUp with fab := { ports := [(3, { bring := .retrain, trigger := 2 })] } }, !entryBusy { sUp with fab := { ports := [(3, { bring := .retrain, trigger := 3 })] } },
    railPopulated (sPow {}) 0, !railPopulated { sUp with grade := 0x7202 } 3,
    (let s := { sPow {} (50 * us) with dict := [(dkey 0x2000 3, [50, 0, 0, 0])] }
     all [running s, s.pow.state = .active, cfg s 0x2000 3 ≠ 0, deviceIdle s, due s s.pow.idleSince (cfg s 0x2000 3 * us)]),
    (sPow { state := .idle }).pow.state = .idle,
    [2, 3].all fun t => (List.range 9).all fun k =>
      let s := { sPow { state := .entering, target := t, step := k + 1 } ms with link := (sK { state := .active }).link }
      all [hubUp s, s.pow.state = .entering, inFlightOps s = 0, partsDrained s, linksAsleep s, due s s.pow.stepAt ms, (accelOf s 0).up,
        s.pow.latch = none, !timerPast s, !s.pow.warmAfter, !wakeArmed s 3 || cfg s 0x2001 2 == 0, partUp s 0, tget (partOf s 0).resets 0 = none],
    inFlightOps (sQ { ops := [{ idx := 0, wqe := 0 }] }) ≠ 0,
    (let s := sReset 0 {}
     !partsDrained s),
    (let s := { sK { state := .active, sleeping := true } with pow := { state := .entering, step := 4 } }
     all [!linksAsleep s, !due s s.pow.stepAt ms]),
    (sPow { state := .entering, target := 2, step := 9, latch := some (3, 1) }).pow.latch = some (3, 1),
    (let s := { sQ { ops := [{ idx := 0, wqe := 0 }] } with pow := { state := .entering, target := 2, step := 2 }, time := { now := sec } }
     all [running s, inFlightOps s ≠ 0, due s s.pow.stepAt (cfg s 0x2000 4 * ms)]),
    [PowerState.standby, .sleep, .entering, .leaving].all fun st => all [alwaysOn (sPow { state := st }), !(sPow { state := st }).pow.stuck],
    (let s := { sPow { state := .standby } 7 with dict := [(dkey 0x2001 2, leBytes 8 7)] }
     all [alwaysOn s, cfg s 0x2001 2 = 7, cfg s 0x2001 2 ≤ s.time.now, !s.pow.timerDone]),
    (let s := { sPow { state := .standby } 7 with dict := [(dkey 0x2001 2, leBytes 8 7), (dkey 0x2001 1, [8, 0])] }
     wakeArmed s 3),
    [2, 3].all fun t => [1, 2, 3, 4].all fun g => [0, 1].all fun a =>
      let s := sPow { state := .leaving, target := t, stage := g, attempts := a } (300 * ms)
      all [hubUp s, s.pow.state = .leaving, missingRails s = [], !s.mem.zeroing, due s s.pow.stageAt (stageBound s), !s.sec.recovery],
    missingRails { sPow { state := .leaving, stage := 1 } with elec := { pgLost := [0] } } ≠ [],
    (sPow { state := .leaving, target := 3, stage := 3, warmAfter := true }).pow.warmAfter] = true := by decide +kernel

theorem witness_ResetsLoseKeepAndBoot : all [
    !({ sUp with elec := { coldN := false } } : State).elec.coldN, missingRails { sUp with elec := { coldN := false } } = [],
    missingRails { sUp with elec := { coldN := false, pgLost := [9] } } ≠ [],
    [1, 2, 3, 4, 5, 6].all fun b => all [hubUp (sPow { boot := b }), (sPow { boot := b }).elec.bootselS = 0, !(sPow { boot := b }).sec.recovery],
    [3, 4].all fun b => ({ sUp with elec := { bootselS := b } } : State).elec.bootselS = b,
    (hubOrder (sPow { boot := 4 })).head? = some 0,
    (let s := { sPow { boot := 4 } with sec := { banks := [(2, { state := 2 }), (3, { state := 2 })] } }
     (hubOrder s).all fun b => !verifyImage s 1 (bankOf s 1 b).data),
    [0, 1].all fun v =>
      let c := wr 0x2002 1 1 v
      all [writesEntry (sRun c 3 0xFF sUp) (rq c) c 0x2002 1, ofLe c.data = v],
    (sPow {}).pow.warm = 0, (sPow {}).pow.boot = 0, (sPow { warm := 1 }).pow.warm ≠ 0,
    [PowerState.active, .idle, .standby, .sleep, .entering].all fun st => all [hubUp (sPow { state := st }), (sPow { state := st }).elec.warmN],
    awake (sPow {}), serving (sPow {}), !(sPow {}).elec.pwrdn,
    [none, some (5 * sec)].all fun x =>
      let s := sPow { watchdogAt := x } (14 * sec)
      all [serving s, match s.pow.watchdogAt with
        | some t => !due s t (10 * sec)
        | none => true],
    due (sPow { watchdogAt := some 0 } (10 * sec)) 0 (10 * sec),
    [1, 2, 3, 4, 5, 6].all fun w => all [hubUp (sPow { warm := w }), partsDrained (sPow { warm := w }), (sPow { warm := w }).obs.copying = none,
      !(sPow { warm := w }).far.commitDue, !(sPow { warm := w }).sec.recovery, partUp (sPow { warm := w }) 0, (sPow { warm := w }).mem.chans = []],
    (let s := { sPow { warm := 4 } with elec := { warmN := false } }
     all [hubUp s, !s.elec.warmN]),
    (let s := { sPow { warm := 3 } with elec := { pwrdn := true } }
     all [hubUp s, s.elec.pwrdn])] = true := by decide +kernel

/-! ## Units, rails and temperatures (17, 18) -/

theorem witness_UnitsDarnAndRailsAct : all [
    clusterStock sUp 7, sUp.pow.clustersOut = [], !clusterStock { sUp with pow := { clusterSpare := [(0, 2)] } } 0,
    [(0, 4), (7, 0), (8, 0), (0, 5)].all fun (d, k) =>
      let c := st 0x2003 4 [BitVec.ofNat 8 d, BitVec.ofNat 8 k]
      all [writesEntry (sRun c 3 0xFF sUp) (rq c) c 0x2003 4, field c.data 0 1 = d, field c.data 1 1 = k, dieUp sUp 7],
    (let s := { sUp with pow := { clusterDarn := [8 * 7 + 4] } }
     all [running s, !clusterAsked s, dieUp s 7, s.pow.clusterDarn.contains (8 * 7 + 4)]),
    (let c := wr 0x2003 5 1 16
     all [writesEntry (sRun c 3 0xFF sUp) (rq c) c 0x2003 5, (sRun c 3 0xFF sUp).pow.coreSpare = none, (sRun c 3 0xFF sUp).pow.coreDarn = none]),
    (let s := sPow { coreDarn := some (16, 0) } (100 * ms)
     all [running s, s.pow.coreDarn = some (16, 0), due s 0 (100 * ms)]),
    running sUp, dieUp sUp 7, cfg { sUp with dict := [(dkey 0x2003 1, [1])] } 0x2003 1 ≠ 0, tget sUp.pow.unitCe (32 * 7 + 4) = none, 0 ≤ cfg sUp 0x2003 2,
    dieCodes.all fun d => dieUp sUp d, sUp.pow.sramEntered = [], sUp.pow.sramCe = [],
    (let t : Tile := { off := 0, len := 64 }
     let s := sQ { ops := [{ idx := 0, wqe := 0 }, { idx := 1, wqe := 0, tiles := [t] }] }
     all [(findOp s 0 0).any fun o => o.result.isNone && o.tiles.isEmpty, (findOp s 0 1).any fun o => o.result.isNone && !o.tiles.isEmpty]),
    linkServes sUp 17, tgetD sUp.mesh.repairs (8 * 17 + 7) 0 < 4, 4 ≤ tgetD ({ sUp with mesh := { repairs := [(8 * 17 + 7, 4)] } } : State).mesh.repairs (8 * 17 + 7) 0,
    (List.range 18).all fun r => railWatched sUp r,
    [(7, true), (8, false), (11, true)].all fun (r, b) => railWatched (sPow { state := .sleep, target := 3 }) r == (b && r == 11),
    (let s := { sUp with elec := { waitPg := true, pgLost := [9] } }
     all [s.elec.waitPg, missingRails s = [9]]),
    hubUp sUp, sUp.elec.clocksOut = [], ({ sUp with elec := { clocksOut := [3] } } : State).elec.clocksOut.contains 3, hubUp { sUp with elec := { clocksOut := [3] } },
    sUp.elec.tempsAt = none, due { sUp with time := { now := 10 * us } } 0 (10 * us), serving sUp,
    (domains sUp) = [0, 1, 2, 3, 4, 5, 6, 7, 8], eighthsOf sUp 8 ≤ 8, throttleTj sUp ≤ (1040 : Int)] = true := by decide +kernel

/-- An array may have spares left, or none, whatever it was made with. -/
theorem witness_UnitsDarnAndRailsAct_spares (a : Nat) :
    tgetD sUp.pow.sramUsed a 0 < Config.sramSpares a ∧
    Config.sramSpares a ≤ tgetD ({ sUp with pow := { sramUsed := [(a, Config.sramSpares a)] } } : State).pow.sramUsed a 0 := by
  constructor
  · show 0 < _
    simp [Config.sramSpares]
  · simp [tgetD, tget]

/-- Limits of R392: half above 95 °C until 90 °C, a quarter above 100 °C until 95 °C. -/
theorem test_memLimit : [memLimit 0 950, memLimit 0 951, memLimit 2 901, memLimit 2 900, memLimit 0 1001, memLimit 4 951, memLimit 4 950] = [0, 2, 2, 0, 4, 4, 2] := by
  decide

/-! ## The manual's worked examples -/

/-- The device of the example of chapter 13: a KZ-7202 at GENERATION 5. -/
def s72 : State := { grade := 0x7202, far := { patternGen := 5 } }

/-- The bytes of its entries, kind by kind, as the example gives them. -/
theorem test_patternLengths_example :
    [(identityEntry s72).length, (dieCodes.flatMap (dieEntry s72)).length, (((List.range 18).flatMap (meshEntry s72))).length,
      ((List.range 24).flatMap (portEntry s72)).length, ((List.range (engineDies s72)).flatMap (engineEntry s72)).length,
      ((List.range 17).flatMap (channelEntry s72 0)).length, ((List.range (engineDies s72)).flatMap fun d => [1, 2, 3, 4].flatMap (rangeEntry d)).length,
      ((registerBlocks s72).flatMap blockEntry).length, (spareEntries s72).length, (withdrawnEntries s72).length]
      = [32, 300, 216, 384, 32, 204, 128, 180, 160, 0] := by decide +kernel

theorem test_islandLengths_example :
    ((presentDies s72).flatMap fun c => (List.range (islandsOf c)).map fun k => (islandEntry s72 c k).length) = List.replicate 118 12 := by decide +kernel

/-- The shares of the example of R485, in J of 612,000. -/
theorem test_energyShare_example :
    [(900, 3), (900, 1), (300, 2)].map (fun (a, b) => energyShare 612000000 a 2100 b 6) = [284142, 182142, 145714] := by decide +kernel

/-- The send half of the example of R155, before its first update. -/
def exampleEnd : End := { rate := 400000, rtts := [(0, 6000)], delays := [(0, 1000)], total := 10, srtt := 6000, rttValid := true }

/-- Its four intervals: rates in Mb/s and windows. -/
theorem test_bellows_example :
    (let e1 := bellows sUp { exampleEnd with marked := 4 }
     let e2 := bellows sUp { e1 with marked := 1, total := 10, lastDecrease := none }
     let e3 := bellows sUp { e2 with maxDelay := some 4000, lastDecrease := none }
     let e4 := bellows sUp { e3 with maxDelay := some 2200, lastDecrease := none }
     [e1, e2, e3, e4].map fun e => (e.rate, e.window)) = [(320000, 74), (304000, 70), (278667, 64), (281167, 65)] := by decide +kernel

/-- The timers of the example of R144, in ns. -/
theorem test_timers_example :
    ([0, 1, 4, 7, 8].map fun k => timerOf sUp { exampleEnd with srtt := 8000 } k)
      = [8000, 16000, 128000, 1024000, 1024000] := by decide +kernel

/-- The MXFP4 block of the example of R235: scale 126, 3.2 saturates to 6.0, -0.05 rounds to -0. -/
theorem test_block_example :
    (let b := formBlockOf (formatOf 0xA) .nearest 0 (.fin false 16 5 :: .fin true 1 20 :: List.replicate 30 ExactNum.zero)
     all [b.scale = 126, b.codes.take 3 = [7, 8, 0], !b.saturated]) = true := by decide +kernel

/-- The exact sum of the example of R239: BF16 2^30, 1.0 and -2^30 in any order leave 1.0. -/
theorem test_exactSum_example :
    [[0x4E80, 0x3F80, 0xCE80], [0xCE80, 0x4E80, 0x3F80], [0x3F80, 0xCE80, 0x4E80]].all (fun l =>
      storeFlt bf16 .nearest (wsValue 1 (l.foldl (fun w c => wsAdd (loadFlt bf16 c) w) (wsOf []))) == 0x3F80) = true := by decide +kernel

/-- The reads of the example of R507: VALID_BYTES and REMAINING. -/
theorem test_fifo_example :
    (let f : Sfifo := { words := (List.range 16).map (BitVec.ofNat 64) }
     let r1 := readWord f
     let r2 := readWord r1.2
     let r3 := readWord r2.2
     let r4 := readWord r3.2
     [r1, r2, r3, r4].map fun r => (field r.1 56 1, field r.1 60 4)) = [(56, 9), (56, 2), (16, 0), (0, 0)] := by decide +kernel

end Sys2Proof.Tests
end

section
/-! SUPPORT. Writes of device memory: what every address then reads, and that nothing else changes. -/

namespace Sys2Proof.Machine

/-- Each address of the span reads the byte written there, every other address reads as before. -/
theorem getByte_devWrite (a : Nat) (d : List Byte) (s : State) (x : Nat) :
    getByte (devWrite a d s).mem.bytes x = if a ≤ x ∧ x < a + d.length then d.getD (x - a) 0 else getByte s.mem.bytes x := by
  rw [devWrite_mem]
  split
  · next h =>
    obtain ⟨i, rfl⟩ := Nat.exists_eq_add_of_le h.1
    have hi : i < d.length := by omega
    rw [getByte_putBytes_inside _ _ _ _ hi]
    simp [hi]
  · next h => exact getByte_putBytes_outside _ _ _ _ (by omega)

theorem memoryCanonical_devWrite {s : State} (a : Nat) (d : List Byte) (h : memoryCanonical s) : memoryCanonical (devWrite a d s) :=
  ⟨devWrite_wf a d s h.1, h.2⟩

theorem onlyChanges_devWrite (a : Nat) (d : List Byte) (s : State) : onlyChanges [.mem] s (devWrite a d s) := by
  simp [onlyChanges_iff]

/-- Settles O7: byte by byte through the span, with the frame of a write to device memory. -/
theorem writtenBytesReadBack : Obligations.WrittenBytesReadBack := by
  intro s a d h
  exact ⟨memoryCanonical_devWrite a d h, getByte_devWrite a d s, onlyChanges_devWrite a d s⟩

/-- Settles O1: a step takes its command off the front of the queue, and that is the state with the queue's rest. -/
theorem stepRunsTheFrontCommand : Obligations.StepRunsTheFrontCommand := fun _ c rest => step_cons _ c rest rfl

end Sys2Proof.Machine
end

section
/-! SUPPORT. Which commands answer a next state. -/

namespace Sys2Proof.Machine

/-- An outcome is a next state. -/
def goesOn (r : Res) : Bool :=
  match r with
  | .next _ => true
  | _ => false

theorem goesOn_iff (r : Res) : goesOn r = true ↔ ∃ t, r = .next t := by
  cases r <;> simp [goesOn]

/-- A command that names objects goes on where they exist. -/
theorem goesOn_need (ok : Bool) (f : Fault) (t : State) : goesOn (need ok f t) = ok := by
  cases ok <;> rfl

/-- The commands that name a numbered object go on where it exists; all others go on from every state. -/
theorem goesOn_exec (c : Instr) (s : State) : goesOn (exec c s) = c.wf := by
  cases c
  case meshLinkOutOfService | distributionWordArrival | createWq | modifyWq | pauseWq | resumeWq | resetWq | destroyWq | createCq | destroyCq |
      createCounter | setCounter | destroyCounter | readWq | queueCommandReserved | connect | close | reestablish | modifyConn | readConn |
      connCommandReserved | storeAdmission | mcastReplicate | announceTimer | announce | fabricFrameArrival | frameEnqueue | frameTransmit |
      treeEntryFill | signalDetected | autonegComplete | linkTrainingComplete | portTrained | bringupTimeout | uncorrectableBurst |
      alignmentLoss | fastRetrainDone | fastRetrainFail | laneWearWindow | pfcFrame | pauseExpiry | pfcRefresh | pauseWatchdog | shaperRefill |
      gateEntryStart | gateChangeover | syncTimer | pdelayTimer | ptpMessage | queueSample | wakePattern | flit | edradSignalDetect |
      edradTrainingStepDone | edradTrainingTimeout | edradLinkLoss | credit | linkParams | portStatus | settings | hostReset | resetNotice |
      wake | sleepReq | sleepAck | hostLossTimer | edradWakeBurst | slotControlPower | functionLevelReset | bar4Access | acceleratorRequest |
      acceleratorLinkDown | accelLossTimer | acceleratorLinkUp | scrub | channelFail | darnSegmentDone | refresh | partitionDrained |
      resetDrain | partitionResetDone | mcWatchdog | clusterDarn | selftest | sramCorrection | meshWireDarn | powerGoodLost | refclkLoss |
      refclkRestored | regulatorFault | powerGoodAsserted | hostRequest =>
    exact goesOn_need _ _ _
  all_goals rfl

/-- Settles O4, command by command: `wf` is the condition each command tests. -/
theorem wellFormedCommandsComplete : Obligations.WellFormedCommandsComplete := by
  intro c s
  rw [← goesOn_iff, goesOn_exec]

end Sys2Proof.Machine
end

section
/-! SUPPORT. No operation and no command touches the queue of waiting commands: one law for each, in the order of the model. -/

namespace Sys2Proof.Machine

/-! ## Outcomes and control flow -/

/-- An outcome that is a next state has the queue of waiting commands of `s`. -/
def keepsQueue (s : State) (r : Res) : Prop := ∀ t, r = .next t → t.pending = s.pending

@[simp] theorem keepsQueue_next (s t : State) : keepsQueue s (.next t) ↔ t.pending = s.pending := by simp [keepsQueue]

@[simp] theorem keepsQueue_need (s t : State) (ok : Bool) (f : Fault) :
    keepsQueue s (need ok f t) ↔ (ok = true → t.pending = s.pending) := by
  cases ok <;> simp [keepsQueue]

@[simp] theorem when_pending (b : Bool) (s t : State) : (when_ b s t).pending = if b = true then t.pending else s.pending := by
  cases b <;> rfl

@[simp] theorem ite_pending (c : Prop) [Decidable c] (s t : State) :
    (if c then s else t).pending = if c then s.pending else t.pending := apply_ite State.pending c s t

@[simp] theorem ite_snd_pending {α : Type} (c : Prop) [Decidable c] (x y : α × State) :
    (if c then x else y).2.pending = if c then x.2.pending else y.2.pending := apply_ite (fun z : α × State => z.2.pending) c x y

@[simp] theorem foldl_pending {α : Type} (f : State → α → State) (hf : ∀ s a, (f s a).pending = s.pending) (l : List α) (s : State) :
    (l.foldl f s).pending = s.pending := by
  induction l generalizing s with
  | nil => rfl
  | cons a l ih => rw [List.foldl_cons, ih, hf]

@[simp] theorem foldl_snd_pending {α β : Type} (f : β × State → α → β × State) (hf : ∀ x a, (f x a).2.pending = x.2.pending)
    (l : List α) (x : β × State) : (l.foldl f x).2.pending = x.2.pending := by
  induction l generalizing x with
  | nil => rfl
  | cons a l ih => rw [List.foldl_cons, ih, hf]

theorem pending_of_pair {α : Type} {x : α × State} {a : α} {t : State} (h : x = (a, t)) : t.pending = x.2.pending := by rw [h]

/-! ## Device memory -/

@[simp] theorem repairWhere_pending (whole : Nat → Nat → Bool) (s : State) : (repairWhere whole s).pending = s.pending := rfl
@[simp] theorem repairUnits_pending (a n : Nat) (s : State) : (repairUnits a n s).pending = s.pending := rfl
@[simp] theorem zeroMem_pending (a n : Nat) (s : State) : (zeroMem a n s).pending = s.pending := rfl

@[simp] theorem hubStore_pending (a : Nat) (d : List Byte) (s : State) : (hubStore a d s).2.pending = s.pending := by
  unfold hubStore; split <;> simp

@[simp] theorem devStore_pending (a : Nat) (d : List Byte) (s : State) : (devStore a d s).2.pending = s.pending := by
  unfold devStore; split <;> simp

/-! ## Translation, and what leaves by the Edrad links -/

@[simp] theorem lookEnter_pending (die p pasid idx : Nat) (m : Map) (s : State) : (lookEnter die p pasid idx m s).pending = s.pending := rfl
@[simp] theorem noteRegion_pending (l : Look) (idx : Nat) (s : State) : (noteRegion l idx s).pending = s.pending := rfl

@[simp] theorem regionAt_pending (die idx : Nat) (s : State) : (regionAt die idx s).2.pending = s.pending := by
  unfold regionAt; split <;> simp

@[simp] theorem xlatePage_pending (die p pasid idx : Nat) (r : BitVec 256) (va : Nat) (mayWalk : Bool) (s : State) :
    (xlatePage die p pasid idx r va mayWalk s).2.pending = s.pending := by
  unfold xlatePage
  grind [tally_pending, bumpXlate_pending, mediaError_pending, lookEnter_pending, noteRegion_pending]

@[simp] theorem xlateSpan_pending (die p pasid idx : Nat) (r : BitVec 256) (mayWalk : Bool) (n m k : Nat) (s : State) :
    (xlateSpan die p pasid idx r mayWalk n m k s).2.pending = s.pending := by
  fun_induction xlateSpan die p pasid idx r mayWalk n m k s <;> grind [xlatePage_pending]

@[simp] theorem xlate_pending (die p pasid idx : Nat) (r : BitVec 256) (mayWalk : Bool) (va len : Nat) (s : State) :
    (xlate die p pasid idx r mayWalk va len s).2.pending = s.pending := by simp [xlate]

@[simp] theorem localSpan_pending (die p pasid key va len : Nat) (n : Need) (fits : Nat → Bool) (mayWalk : Bool) (s : State) :
    (localSpan die p pasid key va len n fits mayWalk s).2.pending = s.pending := by
  unfold localSpan
  grind [tally_pending, bumpXlate_pending, regionAt_pending, xlate_pending]

@[simp] theorem countEdrad_pending (link i n : Nat) (s : State) : (countEdrad link i n s).pending = s.pending := rfl
@[simp] theorem sendIdle_pending (link : Nat) (nak : Bool) (s : State) : (sendIdle link nak s).pending = s.pending := rfl
@[simp] theorem resendFlits_pending (link : Nat) (seqs : List Nat) (s : State) : (resendFlits link seqs s).pending = s.pending := rfl
@[simp] theorem sendFlits_pending (link type n : Nat) (s : State) : (sendFlits link type n s).pending = s.pending := rfl

@[simp] theorem sendMessage_pending (link code : Nat) (args : List Nat) (s : State) : (sendMessage link code args s).pending = s.pending := by
  simp [sendMessage]

@[simp] theorem sendTlp_pending (link : Nat) (x : HostTlp) (s : State) : (sendTlp link x s).pending = s.pending := by
  simp [sendTlp]

@[simp] theorem drainOutbound_pending (link : Nat) (n : Nat) (s : State) : (drainOutbound link n s).pending = s.pending := by
  fun_induction drainOutbound link n s <;> simp_all

@[simp] theorem toHost_pending (link : Nat) (x : HostTlp) (s : State) : (toHost link x s).pending = s.pending := by simp [toHost]
@[simp] theorem writeHost_pending (p : Piece) (strict : Bool) (d : List Byte) (s : State) :
    (writeHost p strict d s).pending = s.pending := by simp [writeHost]

@[simp] theorem sendFlushes_pending (ps : List FlushPath) (s : State) : (sendFlushes ps s).pending = s.pending := by
  unfold sendFlushes
  grind [State.emit_pending, toHost_pending, foldl_pending]

@[simp] theorem raiseMsix_pending (p v : Nat) (s : State) : (raiseMsix p v s).pending = s.pending := by
  unfold raiseMsix
  grind [toHost_pending]

@[simp] theorem noteAccess_pending (writing : Bool) (p : Piece) (n : Nat) (s : State) :
    (noteAccess writing p n s).pending = s.pending := by simp [noteAccess]
@[simp] theorem noteReads_pending (ps : List Piece) (s : State) : (noteReads ps s).pending = s.pending := by simp [noteReads]

@[simp] theorem storeWith_pending (strict : Bool) (l : List Piece) (l1 : List Byte) (s : State) :
    (storeWith strict l l1 s).2.pending = s.pending := by
  fun_induction storeWith strict l l1 s <;> grind [State.emit_pending, hubStore_pending, devStore_pending, writeHost_pending, noteAccess_pending]

@[simp] theorem storePieces_pending (ps : List Piece) (d : List Byte) (s : State) :
    (storePieces ps d s).2.pending = s.pending := by simp [storePieces]
@[simp] theorem writePieces_pending (ps : List Piece) (d : List Byte) (s : State) : (writePieces ps d s).pending = s.pending := by simp [writePieces]

/-! ## Work queues, completion queues and counters -/

@[simp] theorem raiseCq_pending (cq : Nat) (s : State) : (raiseCq cq s).pending = s.pending := by simp [raiseCq]
@[simp] theorem countWaiting_pending (wq : Nat) (s : State) : (countWaiting wq s).pending = s.pending := by simp [countWaiting]

@[simp] theorem endNext_pending (wq st : Nat) (s : State) : (endNext wq st s).pending = s.pending := by
  unfold endNext
  grind [setWq_pending, setCq_pending, countWaiting_pending]

@[simp] theorem abandonWaits_pending (n : Nat) (s : State) : (abandonWaits n s).pending = s.pending := by
  fun_induction abandonWaits n s <;> simp_all

@[simp] theorem settleWaits_pending (s : State) : (settleWaits s).pending = s.pending := by simp [settleWaits]
@[simp] theorem toDraining_pending (wq cause : Nat) (s : State) : (toDraining wq cause s).pending = s.pending := by simp [toDraining]
@[simp] theorem decideOp_pending (wq idx : Nat) (r : Result) (s : State) : (decideOp wq idx r s).pending = s.pending := by simp [decideOp]
@[simp] theorem cqError_pending (cq : Nat) (s : State) : (cqError cq s).pending = s.pending := by simp [cqError]

@[simp] theorem writeCqe_pending (cq : Nat) (e : Cqe) (s : State) : (writeCqe cq e s).pending = s.pending := by
  unfold writeCqe
  grind [tally_pending, localSpan_pending, writePieces_pending, setCq_pending, cqError_pending]

@[simp] theorem signalCq_pending (cq : Nat) (s : State) : (signalCq cq s).pending = s.pending := by simp [signalCq]
@[simp] theorem postCqe_pending (cq : Nat) (e : Cqe) (signal : Bool) (s : State) : (postCqe cq e signal s).pending = s.pending := by simp [postCqe]
@[simp] theorem releaseSlot_pending (cq : Nat) (s : State) : (releaseSlot cq s).pending = s.pending := rfl

@[simp] theorem dropMirror_pending (ctr : Nat) (s : State) : (dropMirror ctr s).pending = s.pending := by
  unfold dropMirror; split <;> simp

@[simp] theorem writeMirror_pending (ctr : Nat) (s : State) : (writeMirror ctr s).pending = s.pending := by
  unfold writeMirror
  grind [localSpan_pending, writePieces_pending, dropMirror_pending]

@[simp] theorem setCounter_pending (ctr v : Nat) (s : State) : (setCounter ctr v s).pending = s.pending := by simp [setCounter]

@[simp] theorem addCounter_pending (ctr n : Nat) (s : State) : (addCounter ctr n s).pending = s.pending := by
  unfold addCounter; split <;> simp

@[simp] theorem queueControl_keepsQueue (s : State) (p code obj : Nat) (desc : Option (BitVec 512)) (act : State → Nat × State)
    (hact : ∀ t, (act t).2.pending = t.pending) : keepsQueue s (queueControl s p code obj desc act) := by
  simp only [queueControl, keepsQueue_need]
  cases desc <;> (intro _; repeat' split) <;> simp [hact]

@[simp] theorem withWq_pending (s : State) (p obj : Nat) (act : WorkQueue → Nat × State) (hact : ∀ a, (act a).2.pending = s.pending) :
    (withWq s p obj act).2.pending = s.pending := by simp [withWq, hact]
@[simp] theorem execCreateWq_keepsQueue (p obj : Nat) (desc : BitVec 512) (s : State) :
    keepsQueue s (execCreateWq p obj desc s) := by simp [execCreateWq]
@[simp] theorem execModifyWq_keepsQueue (p obj : Nat) (desc : BitVec 512) (s : State) :
    keepsQueue s (execModifyWq p obj desc s) := by simp [execModifyWq]

@[simp] theorem execPauseWq_keepsQueue (p obj : Nat) (s : State) : keepsQueue s (execPauseWq p obj s) :=
  queueControl_keepsQueue _ _ _ _ _ _ fun _ => withWq_pending _ _ _ _ fun _ => by split <;> rfl

@[simp] theorem answerPause_pending (p obj res : Nat) (s : State) : (answerPause p obj res s).pending = s.pending := rfl
@[simp] theorem execPauseEffective_keepsQueue (wq : Nat) (s : State) : keepsQueue s (execPauseEffective wq s) := by simp [execPauseEffective]
@[simp] theorem execResumeWq_keepsQueue (p obj : Nat) (s : State) : keepsQueue s (execResumeWq p obj s) := by simp [execResumeWq]
@[simp] theorem execResetWq_keepsQueue (p obj : Nat) (s : State) : keepsQueue s (execResetWq p obj s) := by simp [execResetWq]
@[simp] theorem freeWq_pending (wq : Nat) (s : State) : (freeWq wq s).pending = s.pending := by simp [freeWq]
@[simp] theorem execDestroyWq_keepsQueue (p obj : Nat) (s : State) : keepsQueue s (execDestroyWq p obj s) := by simp [execDestroyWq]
@[simp] theorem execCreateCq_keepsQueue (p obj : Nat) (desc : BitVec 512) (s : State) :
    keepsQueue s (execCreateCq p obj desc s) := by simp [execCreateCq]
@[simp] theorem execDestroyCq_keepsQueue (p obj : Nat) (s : State) : keepsQueue s (execDestroyCq p obj s) := by simp [execDestroyCq]
@[simp] theorem execCreateCounter_keepsQueue (p obj : Nat) (desc : BitVec 512) (s : State) :
    keepsQueue s (execCreateCounter p obj desc s) := by simp [execCreateCounter]
@[simp] theorem withCtr_pending (s : State) (p obj : Nat) (act : Nat × State) (hact : act.2.pending = s.pending) :
    (withCtr s p obj act).2.pending = s.pending := by simp [withCtr, hact]
@[simp] theorem execSetCounter_keepsQueue (p obj : Nat) (desc : BitVec 512) (s : State) :
    keepsQueue s (execSetCounter p obj desc s) := by simp [execSetCounter]
@[simp] theorem destroyCounter_pending (ctr : Nat) (s : State) : (destroyCounter ctr s).pending = s.pending := by simp [destroyCounter]
@[simp] theorem execDestroyCounter_keepsQueue (p obj : Nat) (s : State) : keepsQueue s (execDestroyCounter p obj s) := by simp [execDestroyCounter]

@[simp] theorem execReadWq_keepsQueue (p obj : Nat) (s : State) : keepsQueue s (execReadWq p obj s) :=
  queueControl_keepsQueue _ _ _ _ _ _ fun _ => withWq_pending _ _ _ _ fun _ => rfl

@[simp] theorem execQueueCommandReserved_keepsQueue (p code obj : Nat) (s : State) :
    keepsQueue s (execQueueCommandReserved p code obj s) := by simp [execQueueCommandReserved]

@[simp] theorem countIgnored_pending (p : Nat) (r : Reach) (s : State) : (countIgnored p r s).pending = s.pending := by
  unfold countIgnored; split <;> simp

@[simp] theorem refuseDoorbell_pending (wq : Nat) (s : State) : (refuseDoorbell wq s).pending = s.pending := by
  unfold refuseDoorbell
  grind [tally_pending, toDraining_pending]

@[simp] theorem acceptDoorbell_pending (wq tail pushed : Nat) (s : State) : (acceptDoorbell wq tail pushed s).pending = s.pending := rfl
@[simp] theorem ringDoorbell_pending (wq tail pushed : Nat) (s : State) :
    (ringDoorbell wq tail pushed s).pending = s.pending := by simp [ringDoorbell]

@[simp] theorem execWqDoorbell_keepsQueue (v : Via) (wq tail pushed : Nat) (s : State) : keepsQueue s (execWqDoorbell v wq tail pushed s) := by
  simp only [execWqDoorbell, keepsQueue_next]
  repeat' split
  all_goals simp

@[simp] theorem execPushAreaWrite_keepsQueue (v : Via) (wq slot : Nat) (w : Wqe) (whole : Bool) (s : State) :
    keepsQueue s (execPushAreaWrite v wq slot w whole s) := by simp [execPushAreaWrite]

@[simp] theorem execCqDoorbell_keepsQueue (v : Via) (cq head : Nat) (arm : Bool) (s : State) : keepsQueue s (execCqDoorbell v cq head arm s) := by
  simp only [execCqDoorbell, keepsQueue_next]
  repeat' split
  all_goals simp

@[simp] theorem noteBad_pending (ps : List Piece) (s : State) : (noteBad ps s).pending = s.pending := by
  unfold noteBad; split <;> simp

@[simp] theorem execRingFetchReturn_keepsQueue (wq first : Nat) (entries : List Wqe) (refused : Bool) (s : State) :
    keepsQueue s (execRingFetchReturn wq first entries refused s) := by
  simp only [execRingFetchReturn, keepsQueue_next]
  grind [localSpan_pending, noteReads_pending, setWq_pending, toDraining_pending, noteBad_pending, when_pending]

@[simp] theorem execEntryRefetch_keepsQueue (wq : Nat) (w : RingEntry) (s : State) : keepsQueue s (execEntryRefetch wq w s) := by
  simp only [execEntryRefetch, keepsQueue_next]
  grind [tally_pending, localSpan_pending, noteReads_pending, setWq_pending, toDraining_pending, noteBad_pending, when_pending]

@[simp] theorem execFenceRelease_keepsQueue (wq : Nat) (s : State) : keepsQueue s (execFenceRelease wq s) := by simp [execFenceRelease]
@[simp] theorem execCqWriteFault_keepsQueue (cq : Nat) (s : State) : keepsQueue s (execCqWriteFault cq s) := by simp [execCqWriteFault]
@[simp] theorem execMirrorWriteDropped_keepsQueue (ctr : Nat) (s : State) :
    keepsQueue s (execMirrorWriteDropped ctr s) := by simp [execMirrorWriteDropped]
@[simp] theorem execDrainComplete_keepsQueue (wq : Nat) (s : State) : keepsQueue s (execDrainComplete wq s) := by simp [execDrainComplete]

/-! ## The mesh -/

@[simp] theorem waitAt_pending (die : Nat) (q : Queued) (s : State) : (waitAt die q s).pending = s.pending := rfl

@[simp] theorem embark_pending (c : Carried) (s : State) : (embark c s).pending = s.pending := by
  unfold embark
  repeat' split
  all_goals simp

@[simp] theorem landFrames_pending (p : Nat → Bool) (s : State) : (landFrames p s).pending = s.pending := rfl
@[simp] theorem toMesh_pending (c : Carried) (s : State) : (toMesh c s).pending = s.pending := by simp [toMesh]

theorem meshTake_pending {dst : Nat} {good : Packet → Bool} {s : State} {x : Packet × State} (h : meshTake dst good s = some x) :
    x.2.pending = s.pending := by
  obtain ⟨_, _, rfl⟩ := Option.map_eq_some_iff.mp h
  rfl

@[simp] theorem sendOut_pending (src : Nat) (pkt : Packet) (spray : Nat) (mgmt : Bool) (die : Option Nat) (s : State) :
    (sendOut src pkt spray mgmt die s).pending = s.pending := by simp [sendOut]

/-! ## Connection ends -/

@[simp] theorem nextEpoch_pending (h : Nat) (s : State) : (nextEpoch h s).pending = s.pending := rfl
@[simp] theorem touch_pending (h : Nat) (s : State) : (touch h s).pending = s.pending := by simp [touch]
@[simp] theorem unwait_pending (h : Nat) (s : State) : (unwait h s).pending = s.pending := rfl
@[simp] theorem fillCache_pending (h : Nat) (s : State) : (fillCache h s).pending = s.pending := rfl
@[simp] theorem uncache_pending (h : Nat) (s : State) : (uncache h s).pending = s.pending := rfl
@[simp] theorem leaveBy_pending (die dir : Nat) (pkt : Packet) (s : State) : (leaveBy die dir pkt s).pending = s.pending := rfl
@[simp] theorem sendFrom_pending (h : Nat) (d : Desc) (psn : Nat) (payload : List Byte) (s : State) :
    (sendFrom h d psn payload s).pending = s.pending := by simp [sendFrom]
@[simp] theorem sendControl_pending (h kind tc : Nat) (body : List Byte) (s : State) :
    (sendControl h kind tc body s).pending = s.pending := by simp [sendControl]
@[simp] theorem sendAck_pending (h : Nat) (immediate : Bool) (s : State) : (sendAck h immediate s).pending = s.pending := by simp [sendAck]
@[simp] theorem ackable_pending (h n : Nat) (s : State) : (ackable h n s).pending = s.pending := by simp [ackable]
@[simp] theorem ungate_pending (h opnum : Nat) (s : State) : (ungate h opnum s).pending = s.pending := by simp [ungate]
@[simp] theorem queueRequest_pending (h : Nat) (d : Desc) (s : State) : (queueRequest h d s).pending = s.pending := rfl
@[simp] theorem queueResponse_pending (h : Nat) (d : Desc) (s : State) : (queueResponse h d s).pending = s.pending := rfl
@[simp] theorem endOpsWith_pending (h cause : Nat) (s : State) : (endOpsWith h cause s).pending = s.pending := by simp [endOpsWith]
@[simp] theorem endTransfersOn_pending (h cause : Nat) (s : State) : (endTransfersOn h cause s).pending = s.pending := rfl
@[simp] theorem breakEnd_pending (h cause : Nat) (s : State) : (breakEnd h cause s).pending = s.pending := by simp [breakEnd]
@[simp] theorem dropArrivals_pending (h : Nat) (s : State) : (dropArrivals h s).pending = s.pending := rfl
@[simp] theorem freeEnd_pending (h : Nat) (s : State) : (freeEnd h s).pending = s.pending := rfl
@[simp] theorem sendConn_pending (kind dest handle epoch : Nat) (mgmt : Bool) (ws : List Nat) (s : State) :
    (sendConn kind dest handle epoch mgmt ws s).pending = s.pending := by simp [sendConn]

theorem takeSetup_pending {kind : Nat} {same : Packet → Bool} {s : State} {x : Bool × State} (h : takeSetup kind same s = some x) :
    x.2.pending = s.pending := by
  obtain ⟨_, hy, rfl⟩ := Option.map_eq_some_iff.mp h
  exact meshTake_pending hy

@[simp] theorem atHub_pending (kind : Nat) (same : Packet → Bool) (act : State → State) (s : State)
    (hact : ∀ t, (act t).pending = t.pending) : (atHub kind same act s).pending = s.pending := by
  unfold atHub
  split
  · rfl
  · split
    · next h => simpa [hact] using takeSetup_pending h
    · next h => exact takeSetup_pending h
    · rfl

@[simp] theorem sendReset_pending (e : End) (s : State) : (sendReset e s).pending = s.pending := by simp [sendReset]
@[simp] theorem sendCloseReq_pending (h : Nat) (s : State) : (sendCloseReq h s).pending = s.pending := by simp [sendCloseReq]
@[simp] theorem closeIfIdle_pending (h : Nat) (s : State) : (closeIfIdle h s).pending = s.pending := by simp [closeIfIdle]
@[simp] theorem closeTarget_pending (h : Nat) (s : State) : (closeTarget h s).pending = s.pending := by simp [closeTarget]

/-! ## The queue engine -/

@[simp] theorem startRound_pending (die : Nat) (s : State) : (startRound die s).pending = s.pending := rfl
@[simp] theorem takeTurn_pending (wq : Nat) (s : State) : (takeTurn wq s).pending = s.pending := by simp [takeTurn]
@[simp] theorem enterWaiting_pending (wq : Nat) (s : State) : (enterWaiting wq s).pending = s.pending := rfl
@[simp] theorem loseItem_pending (die : Nat) (s : State) : (loseItem die s).pending = s.pending := rfl
@[simp] theorem sampleIssue_pending (die p wq : Nat) (w : Wqe) (s : State) : (sampleIssue die p wq w s).2.pending = s.pending := by simp [sampleIssue]
@[simp] theorem comparePointers_pending (die : Nat) (s : State) : (comparePointers die s).pending = s.pending := by simp [comparePointers]
@[simp] theorem sampleEnd_pending (wq : Nat) (o : Op) (status : Nat) (s : State) :
    (sampleEnd wq o status s).pending = s.pending := by simp [sampleEnd]
@[simp] theorem putInFlight_pending (wq : Nat) (w : Wqe) (len handle opnum : Nat) (s : State) :
    (putInFlight wq w len handle opnum s).pending = s.pending := by simp [putInFlight]

@[simp] theorem issueWith_pending (check : State → Nat → Wqe → Nat) (s : State) (wq : Nat) (pick : Wqe → Bool) (act : Wqe → Nat → State → State)
    (hact : ∀ a b t, (act a b t).pending = t.pending) : (issueWith check s wq pick act).pending = s.pending := by
  unfold issueWith; split <;> simp [hact]

@[simp] theorem issue_pending (s : State) (wq : Nat) (pick : Wqe → Bool) (act : Wqe → Nat → State → State)
    (hact : ∀ a b t, (act a b t).pending = t.pending) : (issue s wq pick act).pending = s.pending := by simp [issue, hact]

@[simp] theorem issueDone_pending (wq : Nat) (w : Wqe) (idx : Nat) (s : State) : (issueDone wq w idx s).pending = s.pending := by simp [issueDone]
@[simp] theorem execNop_keepsQueue (wq : Nat) (s : State) : keepsQueue s (execNop wq s) := by simp [execNop]

@[simp] theorem keyChecks_pending (s : State) (wq : Nat) (w : Wqe) : (keyChecks s wq w).2.pending = s.pending := by
  unfold keyChecks
  grind [regionAt_pending]

@[simp] theorem countRefused_pending (wq c : Nat) (s : State) : (countRefused wq c s).pending = s.pending := by simp [countRefused]

@[simp] theorem tileSpan_pending (wq : Nat) (key va len : Nat) (mayWalk : Bool) (s : State) :
    (tileSpan wq key va len mayWalk s).2.pending = s.pending := by
  unfold tileSpan
  grind [regionAt_pending, xlate_pending]

@[simp] theorem countFault_pending (wq : Nat) (t : Trans) (s : State) : (countFault wq t s).pending = s.pending := by
  unfold countFault; split <;> simp

@[simp] theorem readyTile_pending (wq : Nat) (w : Wqe) (off len : Nat) (mayWalk : Bool) (s : State) :
    (readyTile wq w off len mayWalk s).2.pending = s.pending := by
  unfold readyTile
  grind [tileSpan_pending, countFault_pending]

@[simp] theorem queueTile_pending (s : State) (wq : Nat) (o : Op) (t : Tile) : (queueTile s wq o t).pending = s.pending := by
  unfold queueTile
  grind [queueRequest_pending, foldl_pending]

@[simp] theorem withdrawTile_pending (s : State) (wq : Nat) (o : Op) (off len status addr : Nat) :
    (withdrawTile s wq o off len status addr).pending = s.pending := by simp [withdrawTile]
@[simp] theorem setTile_pending (wq idx off : Nat) (f : Tile → Tile) (s : State) : (setTile wq idx off f s).pending = s.pending := rfl
@[simp] theorem queueWalk_pending (x : Nat × Nat × Nat) (s : State) : (queueWalk x s).pending = s.pending := by simp [queueWalk]

@[simp] theorem startTile_pending (wq idx off : Nat) (mayWalk : Bool) (s : State) : (startTile wq idx off mayWalk s).pending = s.pending := by
  unfold startTile
  grind [onOp_pending, readyTile_pending, queueTile_pending, withdrawTile_pending, setTile_pending, queueWalk_pending]

@[simp] theorem startTiles_pending (wq idx : Nat) (s : State) : (startTiles wq idx s).pending = s.pending := by
  unfold startTiles; split <;> simp

@[simp] theorem withTiles_pending (wq idx : Nat) (s : State) : (withTiles wq idx s).pending = s.pending := rfl
@[simp] theorem takeOpnum_pending (h : Nat) (s : State) : (takeOpnum h s).2.pending = s.pending := rfl

@[simp] theorem issueConn_pending (wq : Nat) (w : Wqe) (idx : Nat) (s : State) : (issueConn wq w idx s).pending = s.pending := by
  unfold issueConn
  grind [decideOp_pending, touch_pending, queueRequest_pending, putInFlight_pending, keyChecks_pending, countRefused_pending, startTiles_pending,
      withTiles_pending, takeOpnum_pending]

@[simp] theorem issueMove_pending (wq : Nat) (w : Wqe) (idx : Nat) (s : State) : (issueMove wq w idx s).pending = s.pending := by simp [issueMove]
@[simp] theorem execPut_keepsQueue (wq : Nat) (s : State) : keepsQueue s (execPut wq s) := by simp [execPut]
@[simp] theorem execGet_keepsQueue (wq : Nat) (s : State) : keepsQueue s (execGet wq s) := by simp [execGet]
@[simp] theorem execPutNotify_keepsQueue (wq : Nat) (s : State) : keepsQueue s (execPutNotify wq s) := by simp [execPutNotify]
@[simp] theorem execPutAcc_keepsQueue (wq : Nat) (s : State) : keepsQueue s (execPutAcc wq s) := by simp [execPutAcc]
@[simp] theorem execPutAccRound_keepsQueue (wq : Nat) (s : State) : keepsQueue s (execPutAccRound wq s) := by simp [execPutAccRound]
@[simp] theorem execNotify_keepsQueue (wq : Nat) (s : State) : keepsQueue s (execNotify wq s) := by simp [execNotify]
@[simp] theorem execAtomicFadd_keepsQueue (wq : Nat) (s : State) : keepsQueue s (execAtomicFadd wq s) := by simp [execAtomicFadd]
@[simp] theorem execAtomicCswap_keepsQueue (wq : Nat) (s : State) : keepsQueue s (execAtomicCswap wq s) := by simp [execAtomicCswap]
@[simp] theorem bumpCopy_pending (p i n : Nat) (s : State) : (bumpCopy p i n s).pending = s.pending := by simp [bumpCopy]
@[simp] theorem issueCopy_pending (wq : Nat) (w : Wqe) (idx : Nat) (s : State) : (issueCopy wq w idx s).pending = s.pending := by simp [issueCopy]
@[simp] theorem execCopyIn_keepsQueue (wq : Nat) (s : State) : keepsQueue s (execCopyIn wq s) := by simp [execCopyIn]
@[simp] theorem execCopyOut_keepsQueue (wq : Nat) (s : State) : keepsQueue s (execCopyOut wq s) := by simp [execCopyOut]

@[simp] theorem copyTile_pending (wq idx : Nat) (w : Wqe) (t : Tile) (ext : List Byte) (s : State) :
    (copyTile wq idx w t ext s).pending = s.pending := by
  unfold copyTile
  grind [mediaError_pending, noteReads_pending, storePieces_pending, onOp_pending, setTile_pending, bumpCopy_pending]

@[simp] theorem copyTiles_pending (wq idx : Nat) (w : Wqe) (l : List Tile) (l1 : List Byte) (s : State) :
    (copyTiles wq idx w l l1 s).pending = s.pending := by
  fun_induction copyTiles wq idx w l l1 s <;> simp_all

@[simp] theorem execHostReadRefused_keepsQueue (wq idx off : Nat) (s : State) : keepsQueue s (execHostReadRefused wq idx off s) := by
  simp only [execHostReadRefused, keepsQueue_next]
  repeat' split
  all_goals simp

@[simp] theorem execWalkComplete_keepsQueue (wq idx off : Nat) (s : State) :
    keepsQueue s (execWalkComplete wq idx off s) := by unfold execWalkComplete; split <;> simp
@[simp] theorem execWait_keepsQueue (wq : Nat) (s : State) : keepsQueue s (execWait wq s) := by simp [execWait]
@[simp] theorem execWaitConditionMet_keepsQueue (wq : Nat) (s : State) : keepsQueue s (execWaitConditionMet wq s) := by simp [execWaitConditionMet]
@[simp] theorem execWaitTimeout_keepsQueue (wq : Nat) (s : State) : keepsQueue s (execWaitTimeout wq s) := by simp [execWaitTimeout]
@[simp] theorem applyRecord_pending (p : Nat) (r : BitVec 512) (s : State) : (applyRecord p r s).pending = s.pending := by simp [applyRecord]

@[simp] theorem applyRecords_pending (p : Nat) (n : Nat) (l : List (BitVec 512)) (s : State) : (applyRecords p n l s).2.pending = s.pending := by
  fun_induction applyRecords p n l s <;> grind [mediaError_pending, applyRecord_pending]

@[simp] theorem listPieces_pending (wq : Nat) (key : Nat) (n m k : Nat) (s : State) : (listPieces wq key n m k s).2.2.pending = s.pending := by
  fun_induction listPieces wq key n m k s <;> grind [tileSpan_pending, countFault_pending]

@[simp] theorem issueUpdate_pending (wq : Nat) (ext : List Byte) (w : Wqe) (idx : Nat) (s : State) :
    (issueUpdate wq ext w idx s).pending = s.pending := by
  unfold issueUpdate
  grind [bumpXlate_pending, mediaError_pending, regionAt_pending, noteReads_pending, decideOp_pending, putInFlight_pending, applyRecords_pending,
      listPieces_pending]

@[simp] theorem execTableUpdate_keepsQueue (wq : Nat) (ext : List Byte) (s : State) :
    keepsQueue s (execTableUpdate wq ext s) := by simp [execTableUpdate]
@[simp] theorem removeCached_pending (i : Inval) (s : State) : (removeCached i s).pending = s.pending := rfl
@[simp] theorem endInval_pending (n : Nat) (i : Inval) (s : State) : (endInval n i s).pending = s.pending := by simp [endInval]
@[simp] theorem issueInval_pending (wq : Nat) (w : Wqe) (idx : Nat) (s : State) : (issueInval wq w idx s).pending = s.pending := by simp [issueInval]
@[simp] theorem execInvalidate_keepsQueue (wq : Nat) (s : State) : keepsQueue s (execInvalidate wq s) := by simp [execInvalidate]
@[simp] theorem execInvalidateDrained_keepsQueue (inv : Nat) (s : State) :
    keepsQueue s (execInvalidateDrained inv s) := by unfold execInvalidateDrained; split <;> simp

@[simp] theorem resendWithdrawn_pending (h psn : Nat) (s : State) : (resendWithdrawn h psn s).pending = s.pending := by
  unfold resendWithdrawn
  grind [setEnd_pending, sendFrom_pending]

@[simp] theorem withdrawRest_pending (h opnum off len status : Nat) (addr : Nat → Nat) (s : State) :
    (withdrawRest h opnum off len status addr s).pending = s.pending := by
  unfold withdrawRest
  grind [setEnd_pending, queueRequest_pending, queueResponse_pending, resendWithdrawn_pending, foldl_pending]

@[simp] theorem withdrawTree_pending (wq idx : Nat) (p : Desc → Bool) (status : Nat) (addr : Desc → Nat) (s : State) :
    (withdrawTree wq idx p status addr s).pending = s.pending := by simp [withdrawTree]
@[simp] theorem withdrawAsk_pending (h opnum : Nat) (t : Tile) (status addr : Nat) (s : State) :
    (withdrawAsk h opnum t status addr s).pending = s.pending := by simp [withdrawAsk]
@[simp] theorem endHeldTile_pending (wq : Nat) (o : Op) (t : Tile) (st : Nat) (ps : List Piece) (page : List Piece → Nat → Nat) (s : State) :
    (endHeldTile wq o t st ps page s).pending = s.pending := by simp [endHeldTile]

@[simp] theorem squashTile_pending (i : Inval) (x : HeldTile) (s : State) : (squashTile i x s).pending = s.pending := by
  unfold squashTile
  repeat' split
  all_goals simp

@[simp] theorem execInvalTimeout_keepsQueue (inv : Nat) (s : State) :
    keepsQueue s (execInvalTimeout inv s) := by unfold execInvalTimeout; split <;> simp
@[simp] theorem execInvalidateSquashDone_keepsQueue (inv : Nat) (s : State) :
    keepsQueue s (execInvalidateSquashDone inv s) := by unfold execInvalidateSquashDone; split <;> simp
@[simp] theorem endEntry_pending (wq : Nat) (q : WorkQueue) (o : Op) (r : Result) (s : State) :
    (endEntry wq q o r s).pending = s.pending := by simp [endEntry]
@[simp] theorem finishOp_pending (wq : Nat) (o : Op) (r : Result) (s : State) : (finishOp wq o r s).pending = s.pending := by simp [finishOp]

/-! ## Groups -/

@[simp] theorem setLaunches_pending (g : Nat) (f : List Launch → List Launch) (s : State) : (setLaunches g f s).pending = s.pending := rfl
@[simp] theorem setTransfers_pending (g : Nat) (f : List Transfer → List Transfer) (s : State) : (setTransfers g f s).pending = s.pending := rfl
@[simp] theorem winSpan_pending (j : Join) (off len : Nat) (n : Need) (s : State) : (winSpan j off len n s).2.pending = s.pending := by simp [winSpan]
@[simp] theorem addRunCounter_pending (slot rank ctr : Nat) (s : State) : (addRunCounter slot rank ctr s).pending = s.pending := rfl

@[simp] theorem addArrival_pending (gr : Group) (rank : Nat) (s : State) : (addArrival gr rank s).pending = s.pending := by
  unfold addArrival; split <;> simp

@[simp] theorem freshArea_pending (g rank seq : Nat) (s : State) : (freshArea g rank seq s).pending = s.pending := by simp [freshArea]

@[simp] theorem addCounts_pending (g rank count : Nat) (n m : Nat) (s : State) : (addCounts g rank count n m s).pending = s.pending := by
  fun_induction addCounts g rank count n m s <;> simp_all

@[simp] theorem addRecords_pending (g rank : Nat) (n : Nat) (l : List WideSum) (s : State) : (addRecords g rank n l s).pending = s.pending := by
  fun_induction addRecords g rank n l s <;> simp_all

@[simp] theorem countMisses_pending (die n : Nat) (s : State) : (countMisses die n s).pending = s.pending := rfl
@[simp] theorem onAreaDies_pending (ep k n : Nat) (f : Nat → Nat → State → State) (s : State) (hf : ∀ a b t, (f a b t).pending = t.pending) :
    (onAreaDies ep k n f s).pending = s.pending := by simp [onAreaDies, hf]
@[simp] theorem accumulate_pending (ep p g rank fmt off count : Nat) (isPartial : Bool) (d : List Byte) (s : State) :
    (accumulate ep p g rank fmt off count isPartial d s).pending = s.pending := by simp [accumulate]

@[simp] theorem storeSpans_pending (ps : List Piece) (l : List (Nat × List Byte)) (s : State) : (storeSpans ps l s).2.pending = s.pending := by
  fun_induction storeSpans ps l s <;> grind [storePieces_pending]

@[simp] theorem combineOutput_pending (die p g rank op fmt off count : Nat) (isPartial zeroFirst : Bool) (ps : List Piece) (d ext : List Byte)
    (s : State) : (combineOutput die p g rank op fmt off count isPartial zeroFirst ps d ext s).2.pending = s.pending := by simp [combineOutput]

@[simp] theorem roundArea_pending (ep p g rank op fmt seq area first n : Nat) (ps : List Piece) (s : State) :
    (roundArea ep p g rank op fmt seq area first n ps s).2.pending = s.pending := by simp [roundArea]
@[simp] theorem settleColl_pending (g wq idx : Nat) (s : State) : (settleColl g wq idx s).pending = s.pending := by simp [settleColl]

@[simp] theorem endTransfer_pending (g handle opnum status off addr : Nat) (s : State) :
    (endTransfer g handle opnum status off addr s).pending = s.pending := by
  unfold endTransfer; split <;> simp

@[simp] theorem endStep_pending (g wq idx : Nat) (r : Result) (s : State) : (endStep g wq idx r s).pending = s.pending := by simp [endStep]
@[simp] theorem mismatch_pending (g wq idx : Nat) (s : State) : (mismatch g wq idx s).pending = s.pending := by simp [mismatch]

/-! ## The end of operations -/

@[simp] theorem holdTile_pending (wq idx off len : Nat) (ps : List Piece) (s : State) : (holdTile wq idx off len ps s).pending = s.pending := rfl

@[simp] theorem putTile_pending (h : Nat) (l : Launch) (j : Join) (d : Desc) (src off n : Nat) (s : State) :
    (putTile h l j d src off n s).pending = s.pending := by
  unfold putTile
  grind [queueRequest_pending, winSpan_pending, holdTile_pending, foldl_pending]

@[simp] theorem sendOp_pending (g h : Nat) (l : Launch) (w : Wqe) (dest opcode src dst len : Nat) (step : Bool) (mk : Nat → Desc)
    (tile : Join → Desc → Nat → Nat → State → State) (s : State) (htile : ∀ a b c d t, (tile a b c d t).pending = t.pending) :
    (sendOp g h l w dest opcode src dst len step mk tile s).pending = s.pending := by
  unfold sendOp; split <;> simp [htile]

@[simp] theorem sendPut_pending (g : Nat) (l : Launch) (w : Wqe) (dest base len : Nat) (note : Bool) (s : State) :
    (sendPut g l w dest base len note s).pending = s.pending := by
  unfold sendPut; split <;> simp

@[simp] theorem joinTree_pending (g tree : Nat) (l : Launch) (fmt : Nat) (d : Desc) (s : State) :
    (joinTree g tree l fmt d s).pending = s.pending := rfl
@[simp] theorem collReceived_pending (g rank seq off n : Nat) (low : Option (Nat × Nat × Nat)) (paths : List FlushPath) (s : State) :
    (collReceived g rank seq off n low paths s).pending = s.pending := rfl

@[simp] theorem treeTile_pending (g tree : Nat) (l : Launch) (j : Join) (fmt : Nat) (d : Desc) (at_ off n : Nat) (s : State) :
    (treeTile g tree l j fmt d at_ off n s).pending = s.pending := by
  unfold treeTile
  grind [winSpan_pending, holdTile_pending, joinTree_pending, collReceived_pending, foldl_pending]

@[simp] theorem sendTree_pending (g tree : Nat) (l : Launch) (w : Wqe) (opcode src base len : Nat) (note : Bool) (s : State) :
    (sendTree g tree l w opcode src base len note s).pending = s.pending := by
  unfold sendTree; split <;> simp

@[simp] theorem noteMember_pending (g : Nat) (l : Launch) (k : Nat) (s : State) : (noteMember g l k s).pending = s.pending := by simp [noteMember]
@[simp] theorem setTreeOp_pending (g : Nat) (l : Launch) (base : Nat) (x : Option TreeOp) (s : State) :
    (setTreeOp g l base x s).pending = s.pending := rfl

@[simp] theorem treeWhole_pending (g : Nat) (l : Launch) (base : Nat) (xpath : Bool) (o : TreeOp) (s : State) :
    (treeWhole g l base xpath o s).pending = s.pending := by
  unfold treeWhole; split <;> simp

@[simp] theorem treeFlushed_pending (g rank base : Nat) (s : State) : (treeFlushed g rank base s).pending = s.pending := by
  unfold treeFlushed
  grind [noteMember_pending, setTreeOp_pending]

@[simp] theorem keepOwn_pending (g : Nat) (l : Launch) (ts : List OwnTile) (s : State) : (keepOwn g l ts s).pending = s.pending := rfl
@[simp] theorem selfCopy_pending (g : Nat) (l : Launch) (w : Wqe) (off dst len : Nat) (note : Bool) (s : State) :
    (selfCopy g l w off dst len note s).pending = s.pending := by simp [selfCopy]
@[simp] theorem addFenced_pending (g : Nat) (l : Launch) (i : RedItem) (s : State) : (addFenced g l i s).pending = s.pending := by
  unfold addFenced; split <;> simp

@[simp] theorem roundItem_pending (g : Nat) (j : Join) (l : Launch) (i : RedItem) (s : State) : (roundItem g j l i s).pending = s.pending := by
  unfold roundItem
  grind [winSpan_pending, roundArea_pending, collReceived_pending, addFenced_pending]

@[simp] theorem collProgress_pending (g : Nat) (l : Launch) (s : State) : (collProgress g l s).pending = s.pending := by
  unfold collProgress
  grind [setLaunches_pending, sendTree_pending, roundItem_pending, foldl_pending]

@[simp] theorem progressAt_pending (g rank seq : Nat) (s : State) : (progressAt g rank seq s).pending = s.pending := by
  unfold progressAt; split <;> simp

@[simp] theorem makeList_pending (die p : Nat) (eps : List Nat) (s : State) : (makeList die p eps s).2.pending = s.pending := rfl

@[simp] theorem readOwn_pending (j : Join) (x : OwnTile) (ext : List Byte) (s : State) : (readOwn j x ext s).2.pending = s.pending := by
  unfold readOwn
  grind [mediaError_pending, noteReads_pending, winSpan_pending]

@[simp] theorem moveOwn_pending (g : Nat) (l : Launch) (j : Join) (x : OwnTile) (ext : List Byte) (s : State) :
    (moveOwn g l j x ext s).2.pending = s.pending := by
  unfold moveOwn
  split
  · rfl
  · next h => cases x.acc <;> simp [pending_of_pair h]
  · next h =>
    have ht := pending_of_pair h
    split
    · dsimp only
      split
      · simp [ht]
      · split
        · next hw =>
          have hw := pending_of_pair hw
          split
          · rfl
          · dsimp only
            split <;> simp [hw, ht]
        · next hw => simp [pending_of_pair hw, ht]
        · rfl
    · split
      · next hw =>
        have hw := pending_of_pair hw
        split
        · rfl
        · simp [hw, ht]
        · dsimp only
          split <;> simp [hw, ht]
      · next hw => simp [pending_of_pair hw, ht]
      · rfl

@[simp] theorem moveAll_pending (g : Nat) (l : Launch) (j : Join) (l1 : List OwnTile) (l2 : List Byte) (s : State) :
    (moveAll g l j l1 l2 s).pending = s.pending := by
  fun_induction moveAll g l j l1 l2 s <;> grind [setLaunches_pending, moveOwn_pending]

@[simp] theorem moveLaunch_pending (wq idx : Nat) (ext : List Byte) (s : State) : (moveLaunch wq idx ext s).pending = s.pending := by
  unfold moveLaunch
  repeat' split
  all_goals simp

@[simp] theorem decideColl_pending (wq idx : Nat) (s : State) : (decideColl wq idx s).pending = s.pending := by
  unfold decideColl
  repeat' split
  all_goals simp

@[simp] theorem endOldest_pending (wq idx : Nat) (r : Result) (s : State) : (endOldest wq idx r s).pending = s.pending := by
  unfold endOldest; split <;> simp

@[simp] theorem completeOp_pending (wq idx : Nat) (ext : List Byte) (s : State) : (completeOp wq idx ext s).pending = s.pending := by
  unfold completeOp
  split
  · rfl
  · split
    · rfl
    · extract_lets copying t
      have ht : t.pending = s.pending := by simp [t]
      clear_value t
      repeat' split
      all_goals simp [ht]

@[simp] theorem execOperationCompletion_keepsQueue (wq idx : Nat) (ext : List Byte) (s : State) :
    keepsQueue s (execOperationCompletion wq idx ext s) := by simp [execOperationCompletion]

/-! ## Keys -/

@[simp] theorem extendMeasure_pending (m : Nat) (d : BitVec 256) (s : State) : (extendMeasure m d s).pending = s.pending := rfl

/-! ## Connection commands and set-up -/

@[simp] theorem answerConn_pending (p res code h : Nat) (s : State) : (answerConn p res code h s).pending = s.pending := by simp [answerConn]

@[simp] theorem connControl_keepsQueue (s : State) (p code obj : Nat) (desc : Option (BitVec 512)) (act : State → Nat × Nat × State)
    (hact : ∀ t, (act t).2.2.pending = t.pending) : keepsQueue s (connControl s p code obj desc act) := by
  simp only [connControl, keepsQueue_need]
  cases desc <;> (intro _; repeat' split) <;> simp [hact]

@[simp] theorem newEnd_pending (e : End) (rate : Nat) (s : State) : (newEnd e rate s).2.pending = s.pending := rfl
@[simp] theorem addEnd_pending (h : Nat) (e : End) (s : State) : (addEnd h e s).pending = s.pending := rfl
@[simp] theorem nak_pending (r : SetupReq) (res : Nat) (s : State) : (nak r res s).pending = s.pending := by simp [nak]
@[simp] theorem askSetup_pending (r : SetupReq) (s : State) : (askSetup r s).pending = s.pending := by simp [askSetup]
@[simp] theorem sendConnectReq_pending (h : Nat) (s : State) : (sendConnectReq h s).pending = s.pending := by simp [sendConnectReq]

@[simp] theorem execConnect_keepsQueue (p obj : Nat) (desc : BitVec 512) (s : State) : keepsQueue s (execConnect p obj desc s) :=
  connControl_keepsQueue _ _ _ _ _ _ fun _ => by
    dsimp only
    repeat' split
    all_goals simp

@[simp] theorem withEndOf_pending (s : State) (p h : Nat) (act : End → Nat × Nat × State) (hact : ∀ a, (act a).2.2.pending = s.pending) :
    (withEndOf s p h act).2.2.pending = s.pending := by
  unfold withEndOf
  repeat' split
  all_goals simp [hact]

@[simp] theorem answerOpen_pending (e : End) (h res : Nat) (s : State) : (answerOpen e h res s).pending = s.pending := by simp [answerOpen]
@[simp] theorem toClosing_pending (h : Nat) (s : State) : (toClosing h s).pending = s.pending := rfl

@[simp] theorem execClose_keepsQueue (p obj : Nat) (s : State) : keepsQueue s (execClose p obj s) :=
  connControl_keepsQueue _ _ _ _ _ _ fun _ => withEndOf_pending _ _ _ _ fun _ => by split <;> simp

@[simp] theorem execReestablish_keepsQueue (p obj : Nat) (s : State) : keepsQueue s (execReestablish p obj s) :=
  connControl_keepsQueue _ _ _ _ _ _ fun _ => withEndOf_pending _ _ _ _ fun _ => by split <;> simp

@[simp] theorem execModifyConn_keepsQueue (p obj : Nat) (desc : BitVec 512) (s : State) : keepsQueue s (execModifyConn p obj desc s) :=
  connControl_keepsQueue _ _ _ _ _ _ fun _ => withEndOf_pending _ _ _ _ fun _ => by dsimp only; split <;> rfl

@[simp] theorem execReadConn_keepsQueue (p obj : Nat) (s : State) : keepsQueue s (execReadConn p obj s) :=
  connControl_keepsQueue _ _ _ _ _ _ fun _ => withEndOf_pending _ _ _ _ fun _ => rfl

@[simp] theorem execConnCommandReserved_keepsQueue (p code obj : Nat) (s : State) :
    keepsQueue s (execConnCommandReserved p code obj s) := by simp [execConnCommandReserved]
@[simp] theorem ackReq_pending (r : SetupReq) (h epoch psn : Nat) (s : State) : (ackReq r h epoch psn s).pending = s.pending := by simp [ackReq]
@[simp] theorem acceptEnd_pending (h : Nat) (e : End) (r : SetupReq) (s : State) : (acceptEnd h e r s).pending = s.pending := by simp [acceptEnd]

@[simp] theorem freshConnect_pending (r : SetupReq) (s : State) : (freshConnect r s).pending = s.pending := by
  unfold freshConnect
  grind [nak_pending, acceptEnd_pending]

@[simp] theorem serveReq_pending (r : SetupReq) (s : State) : (serveReq r s).pending = s.pending := by
  unfold serveReq
  repeat' split
  all_goals simp

@[simp] theorem execConnectReq_keepsQueue (r : SetupReq) (s : State) : keepsQueue s (execConnectReq r s) := by simp [execConnectReq]
@[simp] theorem closeConns_pending (hs : List Nat) (s : State) : (closeConns hs s).pending = s.pending := by simp [closeConns]

@[simp] theorem settleSlot_pending (n : Nat) (s : State) : (settleSlot n s).pending = s.pending := by
  unfold settleSlot; split <;> simp

@[simp] theorem refuseSlot_pending (n : Nat) (s : State) : (refuseSlot n s).pending = s.pending := by
  unfold refuseSlot; split <;> simp

@[simp] theorem connectFails_pending (h res : Nat) (s : State) : (connectFails h res s).pending = s.pending := by
  unfold connectFails
  grind [record_pending, uncache_pending, answerOpen_pending, refuseSlot_pending]

@[simp] theorem connectAck_pending (h peerHandle epoch psn : Nat) (s : State) : (connectAck h peerHandle epoch psn s).pending = s.pending := by
  unfold connectAck
  grind [setEnd_pending, setEpoch_pending, answerOpen_pending, settleSlot_pending]

@[simp] theorem execConnectAck_keepsQueue (h peerHandle epoch psn : Nat) (s : State) :
    keepsQueue s (execConnectAck h peerHandle epoch psn s) := by simp [execConnectAck]
@[simp] theorem execConnectNak_keepsQueue (h : Nat) (noResource : Bool) (s : State) :
    keepsQueue s (execConnectNak h noResource s) := by simp [execConnectNak]
@[simp] theorem execConnectTimeout_keepsQueue (h : Nat) (s : State) : keepsQueue s (execConnectTimeout h s) := by simp [execConnectTimeout]
@[simp] theorem execCloseReq_keepsQueue (h fromEp fromHandle epoch : Nat) (s : State) :
    keepsQueue s (execCloseReq h fromEp fromHandle epoch s) := by simp [execCloseReq]
@[simp] theorem closeEnds_pending (h res : Nat) (s : State) : (closeEnds h res s).pending = s.pending := by simp [closeEnds]
@[simp] theorem execCloseAck_keepsQueue (h : Nat) (s : State) : keepsQueue s (execCloseAck h s) := by simp [execCloseAck]
@[simp] theorem execCloseTimeout_keepsQueue (h : Nat) (s : State) : keepsQueue s (execCloseTimeout h s) := by simp [execCloseTimeout]
@[simp] theorem execOrphanTimeout_keepsQueue (h : Nat) (s : State) : keepsQueue s (execOrphanTimeout h s) := by simp [execOrphanTimeout]
@[simp] theorem execEpochHoldoffEnd_keepsQueue (s : State) : keepsQueue s (execEpochHoldoffEnd s) := by simp [execEpochHoldoffEnd]
@[simp] theorem execConnectionFill_keepsQueue (h : Nat) (bad : Bool) (s : State) :
    keepsQueue s (execConnectionFill h bad s) := by simp [execConnectionFill]

/-! ## Send halves -/

@[simp] theorem countSent_pending (die p : Nat) (d : Desc) (own : Bool) (n : Nat) (s : State) :
    (countSent die p d own n s).pending = s.pending := by simp [countSent]
@[simp] theorem countPlaced_pending (die p tc n : Nat) (s : State) : (countPlaced die p tc n s).pending = s.pending := by simp [countPlaced]

@[simp] theorem countRound_pending (h : Nat) (d : Desc) (ext : List Byte) (s : State) : (countRound h d ext s).pending = s.pending := by
  unfold countRound; split <;> simp

@[simp] theorem failSource_pending (h : Nat) (d : Desc) (off status : Nat) (s : State) :
    (failSource h d off status s).pending = s.pending := by simp [failSource]
@[simp] theorem cutHead_pending (h : Nat) (d : Desc) (k : Nat) (s : State) : (cutHead h d k s).pending = s.pending := rfl

@[simp] theorem failTree_pending (g : Nat) (d : Desc) (status : Nat) (s : State) : (failTree g d status s).pending = s.pending := by
  unfold failTree
  repeat' split
  all_goals simp

@[simp] theorem faultSource_pending (h : Nat) (d : Desc) (fresh : Bool) (f : Nat × Option Nat) (s : State) :
    (faultSource h d fresh f s).pending = s.pending := by
  unfold faultSource
  repeat' split
  all_goals simp

@[simp] theorem sendNew_pending (h : Nat) (d : Desc) (rest : List Desc) (ext : List Byte) (s : State) :
    (sendNew h d rest ext s).pending = s.pending := by simp [sendNew]

@[simp] theorem execSendPacket_keepsQueue (h : Nat) (ext : List Byte) (s : State) : keepsQueue s (execSendPacket h ext s) := by
  simp only [execSendPacket, keepsQueue_next]
  repeat' split
  all_goals simp

@[simp] theorem execSourceReadError_keepsQueue (h : Nat) (psn : Option Nat) (s : State) : keepsQueue s (execSourceReadError h psn s) := by
  simp only [execSourceReadError, keepsQueue_next]
  repeat' split
  all_goals simp

@[simp] theorem resendOne_pending (h : Nat) (u : Unacked) (count hop : Bool) (ext : List Byte) (s : State) :
    (resendOne h u count hop ext s).pending = s.pending := by
  unfold resendOne; split <;> simp

@[simp] theorem resendAll_pending (h : Nat) (count hop : Bool) (l : List Unacked) (l1 : List Byte) (s : State) :
    (resendAll h count hop l l1 s).pending = s.pending := by
  fun_induction resendAll h count hop l l1 s <;> simp_all

@[simp] theorem settleMember_pending (g : Nat) (d : Desc) (s : State) : (settleMember g d s).pending = s.pending := by simp [settleMember]

@[simp] theorem edgeDone_pending (h : Nat) (d : Desc) (s : State) : (edgeDone h d s).pending = s.pending := by
  unfold edgeDone
  repeat' split
  all_goals simp

@[simp] theorem edgeLost_pending (h : Nat) (d : Desc) (s : State) : (edgeLost h d s).pending = s.pending := by
  unfold edgeLost
  grind [collReceived_pending, settleMember_pending]

@[simp] theorem breakEdge_pending (h : Nat) (s : State) : (breakEdge h s).pending = s.pending := by simp [breakEdge]
@[simp] theorem queueEdge_pending (h : Nat) (d : Desc) (s : State) : (queueEdge h d s).pending = s.pending := by simp [queueEdge]
@[simp] theorem giveUp_pending (h : Nat) (s : State) : (giveUp h s).pending = s.pending := by simp [giveUp]
@[simp] theorem execRetransmitTimer_keepsQueue (h : Nat) (edge : Bool) (ext : List Byte) (s : State) :
    keepsQueue s (execRetransmitTimer h edge ext s) := by simp [execRetransmitTimer]
@[simp] theorem settlePuts_pending (h : Nat) (s : State) : (settlePuts h s).pending = s.pending := by simp [settlePuts]
@[simp] theorem settleGets_pending (h : Nat) (s : State) : (settleGets h s).pending = s.pending := rfl
@[simp] theorem takeAcked_pending (h : Nat) (p : Unacked → Bool) (s : State) : (takeAcked h p s).pending = s.pending := by simp [takeAcked]
@[simp] theorem takeAck_pending (h : Nat) (a : AckBody) (ext : List Byte) (s : State) : (takeAck h a ext s).pending = s.pending := by simp [takeAck]
@[simp] theorem takeHold_pending (h : Nat) (s : State) : (takeHold h s).pending = s.pending := rfl
@[simp] theorem execHoldLimit_keepsQueue (h : Nat) (s : State) : keepsQueue s (execHoldLimit h s) := by simp [execHoldLimit]
@[simp] theorem execBellowsUpdate_keepsQueue (h : Nat) (s : State) : keepsQueue s (execBellowsUpdate h s) := by simp [execBellowsUpdate]
@[simp] theorem execSendHalfIdle_keepsQueue (h : Nat) (s : State) : keepsQueue s (execSendHalfIdle h s) := by simp [execSendHalfIdle]

/-! ## Receive halves -/

@[simp] theorem sendNack_pending (h psn reason : Nat) (s : State) : (sendNack h psn reason s).pending = s.pending := by simp [sendNack]
@[simp] theorem sendHold_pending (h : Nat) (s : State) : (sendHold h s).pending = s.pending := by simp [sendHold]
@[simp] theorem noteNew_pending (h : Nat) (hdr : Hdr) (plen : Nat) (held : Bool) (s : State) :
    (noteNew h hdr plen held s).pending = s.pending := by simp [noteNew]

@[simp] theorem answerReset_pending (h epoch : Nat) (s : State) : (answerReset h epoch s).pending = s.pending := by
  unfold answerReset; split <;> simp

@[simp] theorem checkFailed_pending (h psn : Nat) (nack : Bool) (s : State) : (checkFailed h psn nack s).pending = s.pending := by simp [checkFailed]

theorem reaches_pending {p : Packet} {s t : State} (h : reaches p s = some t) : t.pending = s.pending := by
  obtain ⟨_, hy, rfl⟩ := Option.map_eq_some_iff.mp h
  exact meshTake_pending hy

theorem awaitFill_pending (p : Packet) (h : Nat) (taken s : State) (ht : taken.pending = s.pending) :
    (awaitFill p h taken s).pending = s.pending := by
  simp only [awaitFill]; split
  · exact ht
  · rfl

theorem classify_pending {p : Packet} {kind h : Nat} {e : End} {act : Nat → End → Hdr → State → Option State} {s t : State}
    (hact : ∀ {h e hdr s t}, act h e hdr s = some t → t.pending = s.pending) (hc : classify p kind h e act s = some t) :
    t.pending = s.pending := by
  simp only [classify] at hc
  repeat' split at hc
  case isTrue.isFalse => simpa using hact hc
  case isFalse.isFalse.isTrue.isFalse.isFalse => simpa using hact hc
  all_goals obtain rfl := Option.some.inj hc; simp

@[simp] theorem arrive_pending (s : State) (p : Packet) (kind : Nat) (act : Nat → End → Hdr → State → Option State)
    (hact : ∀ {h e hdr s t}, act h e hdr s = some t → t.pending = s.pending) : (arrive s p kind act).pending = s.pending := by
  simp only [arrive]
  split
  · rfl
  · split
    · rfl
    · next t ht =>
      have ht := reaches_pending ht
      repeat' split
      case h_2.isFalse.isFalse.isFalse e _ _ _ _ =>
        cases hc : classify p kind (handleOf p.hdr) e act (bumpFixed (dieOfEnd (handleOf p.hdr)) 5 1 (leaveIdle t)) with
        | none => rfl
        | some u => simpa [ht] using classify_pending hact hc
      all_goals simp [ht, awaitFill_pending]

@[simp] theorem hubRegion_pending (idx : Nat) (s : State) : (hubRegion idx s).2.pending = s.pending := by simp [hubRegion]
@[simp] theorem countXlate_pending (e : End) (die i : Nat) (s : State) : (countXlate e die i s).pending = s.pending := by simp [countXlate]
@[simp] theorem regionOf_pending (e : End) (die key : Nat) (s : State) : (regionOf e die key s).2.pending = s.pending := by simp [regionOf]

@[simp] theorem remoteCheck_pending (h : Nat) (e : End) (key va len : Nat) (right : BitVec 256 → Bool) (aligned : Bool) (s : State) :
    (remoteCheck h e key va len right aligned s).2.pending = s.pending := by
  unfold remoteCheck
  grind [tally_pending, xlate_pending, countXlate_pending, regionOf_pending]

@[simp] theorem openArrival_pending (h : Nat) (hdr : Hdr) (xpath : Bool) (note : Option Nat) (s : State) :
    (openArrival h hdr xpath note s).pending = s.pending := by
  unfold openArrival
  grind

@[simp] theorem checkTile_pending (h : Nat) (e : End) (hdr : Hdr) (s : State) : (checkTile h e hdr s).2.pending = s.pending := by
  unfold checkTile
  grind [winSpan_pending, remoteCheck_pending]

@[simp] theorem tileOutcome_pending (h : Nat) (e : End) (hdr : Hdr) (s : State) : (tileOutcome h e hdr s).2.pending = s.pending := by
  unfold tileOutcome
  grind [setArrival_pending, checkTile_pending]

@[simp] theorem placePayload_pending (h : Nat) (e : End) (hdr : Hdr) (ps : List Piece) (d ext : List Byte) (s : State) :
    (placePayload h e hdr ps d ext s).2.pending = s.pending := by
  unfold placePayload
  grind [tally_pending, bumpArith_pending, mediaError_pending, noteReads_pending, storePieces_pending, freshArea_pending, accumulate_pending,
      storeSpans_pending, combineOutput_pending]

@[simp] theorem collLanded_pending (h : Nat) (hdr : Hdr) (n : Nat) (low : Option (Nat × Nat × Nat)) (paths : List FlushPath) (s : State) :
    (collLanded h hdr n low paths s).pending = s.pending := by
  unfold collLanded
  grind [collReceived_pending, progressAt_pending]

@[simp] theorem noteArrival_pending (h : Nat) (hdr : Hdr) (t0 placed refused plen : Nat) (f : TileOutcome → TileOutcome) (low : Option
    (Nat × Nat × Nat)) (paths : List FlushPath) (gated : Bool) (s : State) :
    (noteArrival h hdr t0 placed refused plen f low paths gated s).pending = s.pending := by simp [noteArrival]

@[simp] theorem countPieces_pending (h : Nat) (e : End) (tc : Nat) (l : List Piece) (n : Nat) (s : State) :
    (countPieces h e tc l n s).pending = s.pending := by
  fun_induction countPieces h e tc l n s <;> simp_all

@[simp] theorem refuseData_pending (h : Nat) (hdr : Hdr) (t : TileOutcome) (plen : Nat) (gated : Bool) (s : State) :
    (refuseData h hdr t plen gated s).pending = s.pending := by simp [refuseData]

@[simp] theorem placeData_pending (p : Packet) (ext : List Byte) (h : Nat) (e : End) (hdr : Hdr) (t : TileOutcome) (ps : List Piece) (gated : Bool)
    (s : State) : (placeData p ext h e hdr t ps gated s).pending = s.pending := by simp [placeData]

@[simp] theorem takeData_pending (p : Packet) (ext : List Byte) (h : Nat) (e : End) (hdr : Hdr) (s : State) :
    (takeData p ext h e hdr s).pending = s.pending := by
  unfold takeData
  grind [sendHold_pending, openArrival_pending, tileOutcome_pending, noteArrival_pending, refuseData_pending, placeData_pending]

@[simp] theorem execDataPacket_keepsQueue (p : Packet) (ext : List Byte) (s : State) :
    keepsQueue s (execDataPacket p ext s) := by simp [execDataPacket]

@[simp] theorem takeGet_pending (b : List Byte) (h : Nat) (e : End) (hdr : Hdr) (s : State) : (takeGet b h e hdr s).pending = s.pending := by
  unfold takeGet
  grind [queueResponse_pending, noteNew_pending, remoteCheck_pending, setArrival_pending, openArrival_pending, foldl_pending]

@[simp] theorem atomicCheck_pending (h : Nat) (e : End) (op : Nat) (b : List Byte) (s : State) :
    (atomicCheck h e op b s).2.pending = s.pending := by simp [atomicCheck]
@[simp] theorem takeRequest_pending (p : Packet) (h : Nat) (e : End) (hdr : Hdr) (s : State) :
    (takeRequest p h e hdr s).pending = s.pending := by simp [takeRequest]
@[simp] theorem execRequestPacket_keepsQueue (p : Packet) (s : State) : keepsQueue s (execRequestPacket p s) := by simp [execRequestPacket]
@[simp] theorem sendDone_pending (h : Nat) (s : State) : (sendDone h s).pending = s.pending := by simp [sendDone]
@[simp] theorem addDone_pending (h : Nat) (d : Done) (s : State) : (addDone h d s).pending = s.pending := by simp [addDone]
@[simp] theorem execDoneBatchTimer_keepsQueue (h : Nat) (s : State) : keepsQueue s (execDoneBatchTimer h s) := by simp [execDoneBatchTimer]
@[simp] theorem execAckDelay_keepsQueue (h : Nat) (s : State) : keepsQueue s (execAckDelay h s) := by simp [execAckDelay]
@[simp] theorem finishArrival_pending (h opnum : Nat) (d : Done) (s : State) :
    (finishArrival h opnum d s).pending = s.pending := by simp [finishArrival]

@[simp] theorem atomicWrite_pending (op : Nat) (b : List Byte) (ps : List Piece) (new : Nat) (s : State) :
    (atomicWrite op b ps new s).pending = s.pending := by
  unfold atomicWrite
  repeat' split
  all_goals simp

@[simp] theorem performAtomic_pending (h opnum : Nat) (e : End) (a : Arrival) (ext : List Byte) (s : State) :
    (performAtomic h opnum e a ext s).pending = s.pending := by
  unfold performAtomic
  grind [mediaError_pending, sendFlushes_pending, noteReads_pending, setEnd_pending, setArrival_pending, atomicCheck_pending,
      finishArrival_pending, atomicWrite_pending]

@[simp] theorem collNote_pending (e : End) (a : Arrival) (s : State) : (collNote e a s).pending = s.pending := by
  unfold collNote
  repeat' split
  all_goals simp

@[simp] theorem afterFlush_pending (h opnum : Nat) (s : State) : (afterFlush h opnum s).pending = s.pending := by
  unfold afterFlush
  grind [setArrival_pending, finishArrival_pending, collNote_pending]

@[simp] theorem execOperationFullyArrived_keepsQueue (h opnum : Nat) (ext : List Byte) (s : State) :
    keepsQueue s (execOperationFullyArrived h opnum ext s) := by unfold execOperationFullyArrived; split <;> simp

@[simp] theorem noteCheck_pending (die : Nat) (e : End) (b : List Byte) (s : State) : (noteCheck die e b s).2.pending = s.pending := by
  unfold noteCheck
  grind [regionOf_pending]

@[simp] theorem execNotificationApply_keepsQueue (h opnum : Nat) (s : State) : keepsQueue s (execNotificationApply h opnum s) := by
  simp only [execNotificationApply, keepsQueue_next]
  split <;> simp

@[simp] theorem execFlushingReadReturn_keepsQueue (f : FlushOf) (s : State) : keepsQueue s (execFlushingReadReturn f s) := by
  simp only [execFlushingReadReturn, keepsQueue_next]
  repeat' split
  all_goals simp

@[simp] theorem decideGet_pending (wq idx : Nat) (s : State) : (decideGet wq idx s).pending = s.pending := by
  unfold decideGet; split <;> simp

theorem takeGetData_pending {p : Packet} {h : Nat} {e : End} {hdr : Hdr} {s : State} {u : State} (hu : takeGetData p h e hdr s = some u) :
    u.pending = s.pending := by
  simp only [takeGetData] at hu
  grind [storePieces_pending, onOp_pending, setTile_pending, countPlaced_pending, sendHold_pending, noteNew_pending, decideGet_pending]

@[simp] theorem takeDone_pending (h : Nat) (d : Done) (s : State) : (takeDone h d s).pending = s.pending := by
  unfold takeDone
  grind [storePieces_pending, decideOp_pending, onOp_pending, endTransfer_pending, takeAcked_pending]

theorem takeResponse_pending {p : Packet} {h : Nat} {e : End} {hdr : Hdr} {s t : State} (ht : takeResponse p h e hdr s = some t) :
    t.pending = s.pending := by
  simp only [takeResponse] at ht
  split at ht
  · obtain ⟨u, hu, rfl⟩ := Option.map_eq_some_iff.mp ht
    simpa using takeGetData_pending hu
  · split at ht
    · cases ht
    · obtain rfl := Option.some.inj ht
      simp

@[simp] theorem execResponsePacket_keepsQueue (p : Packet) (s : State) : keepsQueue s (execResponsePacket p s) := by
  simp only [execResponsePacket, keepsQueue_next]
  grind [arrive_pending, takeResponse_pending]

@[simp] theorem arriveAck_pending (p : Packet) (ext : List Byte) (s : State) : (arriveAck p ext s).pending = s.pending := by simp [arriveAck]
@[simp] theorem execAckPacket_keepsQueue (p : Packet) (ext : List Byte) (s : State) : keepsQueue s (execAckPacket p ext s) := by simp [execAckPacket]
@[simp] theorem execTreeEdgeAck_keepsQueue (hdr : BitVec 320) (payload : List Byte) (crc : BitVec 32) (ext : List Byte) (s : State) :
    keepsQueue s (execTreeEdgeAck hdr payload crc ext s) := by simp [execTreeEdgeAck]

@[simp] theorem takeNack_pending (h : Nat) (e : End) (psn reason : Nat) (ext : List Byte) (s : State) :
    (takeNack h e psn reason ext s).pending = s.pending := by
  unfold takeNack
  repeat' split
  all_goals simp

@[simp] theorem execNackPacket_keepsQueue (p : Packet) (ext : List Byte) (s : State) :
    keepsQueue s (execNackPacket p ext s) := by simp [execNackPacket]
@[simp] theorem execHoldPacket_keepsQueue (p : Packet) (s : State) : keepsQueue s (execHoldPacket p s) := by simp [execHoldPacket]

@[simp] theorem takeWithdraw_pending (p : Packet) (h : Nat) (e : End) (hdr : Hdr) (s : State) : (takeWithdraw p h e hdr s).pending = s.pending := by
  unfold takeWithdraw
  grind [closeIfIdle_pending, setTile_pending, sendHold_pending, noteNew_pending, openArrival_pending, noteArrival_pending, decideGet_pending]

@[simp] theorem execWithdraw_keepsQueue (p : Packet) (s : State) : keepsQueue s (execWithdraw p s) := by simp [execWithdraw]

@[simp] theorem execReservedKindDrop_keepsQueue (p : Packet) (s : State) : keepsQueue s (execReservedKindDrop p s) := by
  simp only [execReservedKindDrop, keepsQueue_next]
  grind [reaches_pending]

/-! ## The dictionary server -/

@[simp] theorem spoilBank_pending (s : State) : (spoilBank s).pending = s.pending := rfl

@[simp] theorem dropStaged_pending (num : Nat) (s : State) : (dropStaged num s).pending = s.pending := by
  unfold dropStaged
  repeat' split
  all_goals simp

@[simp] theorem closeSession_pending (num : Nat) (s : State) : (closeSession num s).pending = s.pending := by simp [closeSession]
@[simp] theorem mailboxAnswer_pending (p : Nat) (r : Response) (s : State) : (mailboxAnswer p r s).pending = s.pending := by simp [mailboxAnswer]

@[simp] theorem respond_pending (path : FPath) (r : Response) (s : State) : (respond path r s).pending = s.pending := by
  unfold respond
  repeat' split
  all_goals simp

@[simp] theorem closeManagement_pending (s : State) : (closeManagement s).pending = s.pending := by simp [closeManagement]
@[simp] theorem endRequest_pending (r : Running) (s : State) : (endRequest r s).pending = s.pending := by simp [endRequest]

@[simp] theorem finish_pending (res : Nat) (data : List Byte) (s : State) : (finish res data s).pending = s.pending := by
  unfold finish
  repeat' split
  all_goals simp

@[simp] theorem finishWaiting_pending (res : Nat) (s : State) : (finishWaiting res s).pending = s.pending := by
  unfold finishWaiting; split <;> simp

@[simp] theorem onWrite_pending (s : State) (i first last : Nat) (p : List Byte → Bool) (act : Sender → Cmd → State → Nat × State)
    (hact : ∀ a b t, (act a b t).2.pending = t.pending) : (onWrite s i first last p act).pending = s.pending := by
  unfold onWrite
  repeat' split
  all_goals simp [hact]

@[simp] theorem onWriteRaw_pending (s : State) (i n : Nat) (p : List Byte → Bool) (act : Sender → Cmd → State → State)
    (hact : ∀ a b t, (act a b t).pending = t.pending) : (onWriteRaw s i n p act).pending = s.pending := by
  unfold onWriteRaw
  repeat' split
  all_goals simp [hact]

@[simp] theorem onRead_pending (s : State) (i first last : Nat) (act : Sender → Cmd → State → Nat × List Byte × State)
    (hact : ∀ a b t, (act a b t).2.2.pending = t.pending) : (onRead s i first last act).pending = s.pending := by
  unfold onRead
  repeat' split
  all_goals simp [hact]

/-! ## Groups and collectives -/

@[simp] theorem useUnits_pending (take : Bool) (members : List Nat) (accElems : Nat) (s : State) :
    (useUnits take members accElems s).pending = s.pending := by simp [useUnits]
@[simp] theorem createGroup_pending (g : Nat) (s : State) : (createGroup g s).2.pending = s.pending := by simp [createGroup]
@[simp] theorem execGroupCmdCreate_keepsQueue (s : State) : keepsQueue s (execGroupCmdCreate s) := by simp [execGroupCmdCreate]

@[simp] theorem unloadSlot_pending (n : Nat) (s : State) : (unloadSlot n s).pending = s.pending := by
  unfold unloadSlot; split <;> simp

@[simp] theorem deleteGroup_pending (g : Nat) (s : State) : (deleteGroup g s).2.pending = s.pending := by simp [deleteGroup]
@[simp] theorem execGroupCmdDelete_keepsQueue (s : State) : keepsQueue s (execGroupCmdDelete s) := by simp [execGroupCmdDelete]

@[simp] theorem execGroupJoin_keepsQueue (s : State) : keepsQueue s (execGroupJoin s) := by
  simp only [execGroupJoin, keepsQueue_next]
  grind [State.emit_pending, setGroup_pending, onWrite_pending]

@[simp] theorem leaveMember_pending (g rank : Nat) (s : State) : (leaveMember g rank s).pending = s.pending := by simp [leaveMember]

@[simp] theorem execGroupLeave_keepsQueue (s : State) : keepsQueue s (execGroupLeave s) := by
  simp only [execGroupLeave, keepsQueue_next]
  grind [onWrite_pending, leaveMember_pending]

@[simp] theorem execJoinArrival_keepsQueue (g rank : Nat) (j : Join) (s : State) :
    keepsQueue s (execJoinArrival g rank j s) := by simp [execJoinArrival]

@[simp] theorem openColl_pending (g slot1 rank peer : Nat) (s : State) : (openColl g slot1 rank peer s).2.pending = s.pending := by
  unfold openColl
  grind [newEnd_pending, addEnd_pending, sendConnectReq_pending]

@[simp] theorem openAll_pending (g slot1 : Nat) (have_ : Tab Nat) (l : List (Nat × Nat)) (s : State) :
    (openAll g slot1 have_ l s).2.2.pending = s.pending := by
  fun_induction openAll g slot1 have_ l s <;> grind [closeConns_pending, openColl_pending]

@[simp] theorem addEdge_pending (key g tree dir : Nat) (s : State) : (addEdge key g tree dir s).pending = s.pending := rfl

@[simp] theorem openEdges_pending (g : Nat) (s : State) : (openEdges g s).pending = s.pending := by
  unfold openEdges
  grind [record_pending, addEdge_pending, foldl_pending]

@[simp] theorem execMemberTable_keepsQueue (g : Nat) (table : List Join) (s : State) :
    keepsQueue s (execMemberTable g table s) := by simp [execMemberTable]

@[simp] theorem sendReady_pending (g seq : Nat) (s : State) : (sendReady g seq s).pending = s.pending := by
  unfold sendReady
  grind [State.emit_pending, setGroup_pending]

@[simp] theorem openEdge_pending (x : Nat × Nat × Nat × Nat) (s : State) : (openEdge x s).pending = s.pending := by
  unfold openEdge
  grind [newEnd_pending]

@[simp] theorem execGroupReady_keepsQueue (g : Nat) (edges : List (Nat × Nat × Nat × Nat)) (s : State) : keepsQueue s (execGroupReady g edges s) := by
  simp only [execGroupReady, keepsQueue_next]
  repeat' split
  all_goals simp

@[simp] theorem execPermTable_keepsQueue (s : State) : keepsQueue s (execPermTable s) := by
  simp only [execPermTable, keepsQueue_next]
  grind [onWrite_pending]

@[simp] theorem registerLaunch_pending (wq : Nat) (w : Wqe) (idx : Nat) (s : State) : (registerLaunch wq w idx s).pending = s.pending := by
  unfold registerLaunch
  grind [bumpColl_pending, decideOp_pending, putInFlight_pending, setLaunches_pending, endStep_pending, mismatch_pending, sendReady_pending]

@[simp] theorem execCollStep_keepsQueue (wq : Nat) (s : State) : keepsQueue s (execCollStep wq s) := by simp [execCollStep]
@[simp] theorem sendAbort_pending (g seq : Nat) (fenced : Bool) (s : State) : (sendAbort g seq fenced s).pending = s.pending := rfl

@[simp] theorem judgeReady_pending (g seq : Nat) (s : State) : (judgeReady g seq s).pending = s.pending := by
  unfold judgeReady
  grind [State.emits_pending, record_pending, setGroup_pending, sendAbort_pending]

@[simp] theorem execReady_keepsQueue (g dev seq : Nat) (sig : Signature) (s : State) : keepsQueue s (execReady g dev seq sig s) := by simp [execReady]
@[simp] theorem execCoordinatorTimeout_keepsQueue (g seq : Nat) (s : State) :
    keepsQueue s (execCoordinatorTimeout g seq s) := by simp [execCoordinatorTimeout]

@[simp] theorem sendSpan_pending (g : Nat) (l : Launch) (w : Wqe) (note : Bool) (x : Nat × Nat) (s : State) :
    (sendSpan g l w note x s).pending = s.pending := by
  unfold sendSpan
  grind [sendPut_pending, sendTree_pending, selfCopy_pending]

@[simp] theorem sendItem_pending (g : Nat) (l : Launch) (w : Wqe) (i : RedItem) (s : State) : (sendItem g l w i s).pending = s.pending := by
  unfold sendItem; split <;> simp

@[simp] theorem startMember_pending (g : Nat) (l : Launch) (s : State) : (startMember g l s).pending = s.pending := by
  unfold startMember; split <;> simp

@[simp] theorem startDynamic_pending (g seq : Nat) (s : State) : (startDynamic g seq s).pending = s.pending := by
  unfold startDynamic
  grind [bumpColl_pending, setLaunches_pending, endStep_pending, progressAt_pending, startMember_pending, foldl_pending]

@[simp] theorem armRun_pending (g seq t : Nat) (s : State) : (armRun g seq t s).pending = s.pending := by
  unfold armRun
  grind [State.emit_pending, bumpColl_pending, setLaunches_pending, freshArea_pending, foldl_pending]

@[simp] theorem retire_pending (g seq : Nat) (s : State) : (retire g seq s).pending = s.pending := by simp [retire]
@[simp] theorem execStart_keepsQueue (g seq t src : Nat) (s : State) : keepsQueue s (execStart g seq t src s) := by simp [execStart]
@[simp] theorem dropRun_pending (g seq : Nat) (s : State) : (dropRun g seq s).pending = s.pending := rfl
@[simp] theorem abortSeq_pending (g seq : Nat) (fenced : Bool) (s : State) : (abortSeq g seq fenced s).pending = s.pending := by simp [abortSeq]
@[simp] theorem execAbort_keepsQueue (g seq : Nat) (fenced : Bool) (s : State) : keepsQueue s (execAbort g seq fenced s) := by simp [execAbort]

@[simp] theorem execCollStepTimeout_keepsQueue (wq idx : Nat) (s : State) : keepsQueue s (execCollStepTimeout wq idx s) := by
  simp only [execCollStepTimeout, keepsQueue_next]
  repeat' split
  all_goals simp

@[simp] theorem execSequenceRetired_keepsQueue (g : Nat) (s : State) : keepsQueue s (execSequenceRetired g s) := by simp [execSequenceRetired]

@[simp] theorem resetColl_pending (e : End) (s : State) : (resetColl e s).pending = s.pending := by
  unfold resetColl
  repeat' split
  all_goals simp

@[simp] theorem execResetPacket_keepsQueue (h epoch : Nat) (s : State) : keepsQueue s (execResetPacket h epoch s) := by
  simp only [execResetPacket, keepsQueue_next]
  grind [endOpsWith_pending, breakEnd_pending, atHub_pending, closeEnds_pending, resetColl_pending]

@[simp] theorem execStreamTileRelease_keepsQueue (wq idx : Nat) (s : State) : keepsQueue s (execStreamTileRelease wq idx s) := by
  simp only [execStreamTileRelease, keepsQueue_next]
  repeat' split
  all_goals simp

@[simp] theorem withdrawSpan_pending (g : Nat) (l : Launch) (w : Wqe) (off len : Nat) (s : State) :
    (withdrawSpan g l w off len s).pending = s.pending := by
  unfold withdrawSpan
  grind [queueRequest_pending, takeOpnum_pending, joinTree_pending]

@[simp] theorem execStreamTileTimeout_keepsQueue (wq idx : Nat) (s : State) : keepsQueue s (execStreamTileTimeout wq idx s) := by
  simp only [execStreamTileTimeout, keepsQueue_next]
  repeat' split
  all_goals simp

/-! ## Memory events -/

@[simp] theorem countMem_pending (die i n : Nat) (s : State) : (countMem die i n s).pending = s.pending := rfl
@[simp] theorem darnChannel_pending (die slot : Nat) (s : State) : (darnChannel die slot s).pending = s.pending := by simp [darnChannel]
@[simp] theorem startDarn_pending (die slot : Nat) (s : State) : (startDarn die slot s).pending = s.pending := by simp [startDarn]
@[simp] theorem wornChannel_pending (die slot : Nat) (s : State) : (wornChannel die slot s).pending = s.pending := by simp [wornChannel]
@[simp] theorem execChannelFail_keepsQueue (die slot : Nat) (s : State) : keepsQueue s (execChannelFail die slot s) := by simp [execChannelFail]
@[simp] theorem execChanDarn_keepsQueue (s : State) : keepsQueue s (execChanDarn s) := by simp [execChanDarn]
@[simp] theorem wornBlock_pending (die b : Nat) (s : State) : (wornBlock die b s).pending = s.pending := by simp [wornBlock]
@[simp] theorem corrected_pending (a pin : Nat) (s : State) : (corrected a pin s).pending = s.pending := by simp [corrected]
@[simp] theorem uncorrectable_pending (a : Nat) (s : State) : (uncorrectable a s).pending = s.pending := by simp [uncorrectable]
@[simp] theorem execMemoryReadError_keepsQueue (a : Nat) (correctable : Bool) (pin : Nat) (s : State) :
    keepsQueue s (execMemoryReadError a correctable pin s) := by simp [execMemoryReadError]
@[simp] theorem execScrub_keepsQueue (die result pin : Nat) (s : State) : keepsQueue s (execScrub die result pin s) := by simp [execScrub]
@[simp] theorem execRemapCopyDone_keepsQueue (b : Nat) (bad : Bool) (s : State) :
    keepsQueue s (execRemapCopyDone b bad s) := by simp [execRemapCopyDone]
@[simp] theorem execDarnSegmentDone_keepsQueue (die slot : Nat) (bad : List Nat) (s : State) :
    keepsQueue s (execDarnSegmentDone die slot bad s) := by unfold execDarnSegmentDone; split <;> simp
@[simp] theorem execRefresh_keepsQueue (die slot bank : Nat) (s : State) : keepsQueue s (execRefresh die slot bank s) := by simp [execRefresh]
@[simp] theorem execMemoryZeroed_keepsQueue (s : State) : keepsQueue s (execMemoryZeroed s) := by simp [execMemoryZeroed]

/-! ## Compiled schedules -/

@[simp] theorem deviceBytes_pending (key addr len : Nat) (s : State) : (deviceBytes key addr len s).2.pending = s.pending := by
  unfold deviceBytes
  grind [localSpan_pending, noteReads_pending]

@[simp] theorem execSchedLoad_keepsQueue (s : State) : keepsQueue s (execSchedLoad s) := by simp [execSchedLoad]

@[simp] theorem paramBlock_pending (b : BitVec 512) (ext : List Byte) (s : State) : (paramBlock b ext s).2.2.pending = s.pending := by
  unfold paramBlock
  grind [localSpan_pending, noteReads_pending]

@[simp] theorem stepsOk_pending (g : Nat) (h : SchedHdr) (routes : List (BitVec 128)) (e : Nat) (l : List StepW) (l1 : List Byte) (s : State) :
    (stepsOk g h routes e l l1 s).2.2.pending = s.pending := by
  fun_induction stepsOk g h routes e l l1 s <;> grind [paramBlock_pending]

@[simp] theorem listsOk_pending (g : Nat) (h : SchedHdr) (routes : List (BitVec 128)) (l : Tab (List StepW)) (l1 : List Byte) (s : State) :
    (listsOk g h routes l l1 s).2.pending = s.pending := by
  fun_induction listsOk g h routes l l1 s <;> grind [stepsOk_pending]

@[simp] theorem execScheduleVerified_keepsQueue (slot : Nat) (ext : List Byte) (s : State) : keepsQueue s (execScheduleVerified slot ext s) := by
  simp only [execScheduleVerified, keepsQueue_next]
  grind [settleSlot_pending, refuseSlot_pending, openAll_pending, deviceBytes_pending, listsOk_pending, setSlot_pending]

@[simp] theorem execSchedUnload_keepsQueue (s : State) : keepsQueue s (execSchedUnload s) := by
  simp only [execSchedUnload, keepsQueue_next]
  grind [onWrite_pending, unloadSlot_pending]

@[simp] theorem noteLate_pending (slot die : Nat) (c : StepCtx) (s : State) : (noteLate slot die c s).pending = s.pending := by simp [noteLate]
@[simp] theorem execChanterStep_keepsQueue (slot die idx : Nat) (s : State) :
    keepsQueue s (execChanterStep slot die idx s) := by unfold execChanterStep; split <;> simp

@[simp] theorem fireStep_pending (slot die idx op : Nat) (s : State) (act : StepCtx → Launch → Wqe → Join → State → Bool × State)
    (hact : ∀ c l w j t, (act c l w j t).2.pending = t.pending) : (fireStep slot die idx op s act).pending = s.pending := by
  unfold fireStep
  split
  · rfl
  · dsimp only
    split
    · split <;> simp [hact]
    · rfl

@[simp] theorem stepSource_pending (l : Launch) (w : Wqe) (j : Join) (x : StepW) (ext : List Byte) (s : State) :
    (stepSource l w j x ext s).2.pending = s.pending := by
  unfold stepSource
  grind [drawBytes_pending, mediaError_pending, noteReads_pending, winSpan_pending]

@[simp] theorem failStep_pending (g : Nat) (l : Launch) (off st : Nat) (s : State) : (failStep g l off st s).pending = s.pending := rfl

@[simp] theorem toOutput_pending (g : Nat) (l : Launch) (j : Join) (off : Nat) (d : List Byte) (s : State) :
    (toOutput g l j off d s).2.pending = s.pending := by
  unfold toOutput
  grind [storePieces_pending, winSpan_pending, collReceived_pending]

@[simp] theorem areaPackets_pending (d : Desc) (off n : Nat) (send : Desc → State → State) (s : State)
    (hsend : ∀ a t, (send a t).pending = t.pending) : (areaPackets d off n send s).pending = s.pending := by simp [areaPackets, hsend]

@[simp] theorem stepSend_pending (opcode : Nat) (c : StepCtx) (l : Launch) (w : Wqe) (s : State) :
    (stepSend opcode c l w s).2.pending = s.pending := by
  unfold stepSend
  grind [queueRequest_pending, putTile_pending, sendOp_pending, failStep_pending, areaPackets_pending]

@[simp] theorem ownNote_pending (slot : Nat) (c : StepCtx) (good : Bool) (s : State) :
    (ownNote slot c good s).pending = s.pending := by simp [ownNote]

@[simp] theorem ownCopy_pending (slot : Nat) (c : StepCtx) (l : Launch) (w : Wqe) (j : Join) (ext : List Byte) (s : State) :
    (ownCopy slot c l w j ext s).2.pending = s.pending := by
  unfold ownCopy
  grind [stepSource_pending, failStep_pending, toOutput_pending, ownNote_pending]

@[simp] theorem ownAcc_pending (slot die : Nat) (c : StepCtx) (l : Launch) (w : Wqe) (j : Join) (ext : List Byte) (s : State) :
    (ownAcc slot die c l w j ext s).2.pending = s.pending := by
  unfold ownAcc
  grind [winSpan_pending, accumulate_pending, combineOutput_pending, collReceived_pending, stepSource_pending, failStep_pending, ownNote_pending]

@[simp] theorem execSend_keepsQueue (slot die idx : Nat) (ext : List Byte) (s : State) :
    keepsQueue s (execSend slot die idx ext s) := by simp [execSend]
@[simp] theorem execSendAcc_keepsQueue (slot die idx : Nat) (ext : List Byte) (s : State) :
    keepsQueue s (execSendAcc slot die idx ext s) := by simp [execSendAcc]

@[simp] theorem stepTree_pending (opcode : Nat) (c : StepCtx) (l : Launch) (w : Wqe) (j : Join) (s : State) :
    (stepTree opcode c l w j s).2.pending = s.pending := by
  unfold stepTree
  grind [joinTree_pending, treeTile_pending, areaPackets_pending, foldl_pending]

@[simp] theorem execTreeAcc_keepsQueue (slot die idx : Nat) (s : State) : keepsQueue s (execTreeAcc slot die idx s) := by simp [execTreeAcc]
@[simp] theorem execMcast_keepsQueue (slot die idx : Nat) (s : State) : keepsQueue s (execMcast slot die idx s) := by simp [execMcast]
@[simp] theorem execLocalAcc_keepsQueue (slot die idx : Nat) (ext : List Byte) (s : State) :
    keepsQueue s (execLocalAcc slot die idx ext s) := by simp [execLocalAcc]

@[simp] theorem execRound_keepsQueue (slot die idx : Nat) (s : State) : keepsQueue s (execRound slot die idx s) := by
  simp only [execRound, keepsQueue_next]
  grind [winSpan_pending, roundArea_pending, collReceived_pending, fireStep_pending, failStep_pending, ownNote_pending]

@[simp] theorem execWaitCount_keepsQueue (slot die idx : Nat) (s : State) : keepsQueue s (execWaitCount slot die idx s) := by
  simp only [execWaitCount, keepsQueue_next]
  grind [setMember_pending, fireStep_pending]

@[simp] theorem execRunCounterReached_keepsQueue (slot rank : Nat) (s : State) :
    keepsQueue s (execRunCounterReached slot rank s) := by simp [execRunCounterReached]
@[simp] theorem execTransform_keepsQueue (slot die idx : Nat) (s : State) : keepsQueue s (execTransform slot die idx s) := by simp [execTransform]
@[simp] theorem execCopy_keepsQueue (slot die idx : Nat) (ext : List Byte) (s : State) :
    keepsQueue s (execCopy slot die idx ext s) := by simp [execCopy]

@[simp] theorem execRunTimeout_keepsQueue (slot : Nat) (s : State) : keepsQueue s (execRunTimeout slot s) := by
  simp only [execRunTimeout, keepsQueue_next]
  repeat' split
  all_goals simp

@[simp] theorem execMemberComplete_keepsQueue (slot rank : Nat) (s : State) : keepsQueue s (execMemberComplete slot rank s) := by
  simp only [execMemberComplete, keepsQueue_next]
  repeat' split
  all_goals simp

/-! ## The tree stores and kernels -/

@[simp] theorem absorbRoot_pending (t : BitVec 128) (rank : Nat) (hdr : Hdr) (d ext : List Byte) (s : State) :
    (absorbRoot t rank hdr d ext s).pending = s.pending := by
  unfold absorbRoot
  extract_lets g c full was
  split
  · rfl
  · next l j _ =>
    rcases rootSpan hdr d with ⟨off, n⟩
    dsimp -zeta only
    extract_lets fail lost fresh counted placed note
    have hlost (st a : Nat) (u : State) : (lost st a u).pending = u.pending := by simp [lost, fail]
    have hcounted : counted.pending = s.pending := by simp [counted, fresh]
    have hplaced : placed.pending = s.pending := by
      simp only [placed]
      split
      · simp [hlost, fresh]
      · split
        · simp [hcounted]
        · split
          · next hw =>
            have hw := pending_of_pair hw
            split
            · simp [hlost, hw, hcounted]
            · split <;> simp [fail, hw, hcounted]
          · next hw => simp [hlost, pending_of_pair hw, hcounted]
          · next hw => simp [pending_of_pair hw, hcounted]
    clear_value placed
    simp only [progressAt_pending, note]
    split <;> simp [hplaced]

@[simp] theorem landMcast_pending (g rank : Nat) (hdr : Hdr) (d : List Byte) (s : State) : (landMcast g rank hdr d s).pending = s.pending := by
  unfold landMcast
  grind [storePieces_pending, winSpan_pending, collReceived_pending, setTreeOp_pending, treeWhole_pending, countPlaced_pending]

@[simp] theorem takeChunk_pending (die tree : Nat) (hdr : Hdr) (k : Chunk) (s : State) : (takeChunk die tree hdr k s).2.pending = s.pending := by
  unfold takeChunk
  grind [bump_pending, raise_pending]

@[simp] theorem forwardSlot_pending (x : StoreSlot) (s : State) : (forwardSlot x s).pending = s.pending := by
  unfold forwardSlot; split <;> simp

@[simp] theorem forwardFull_pending (die : Nat) (s : State) : (forwardFull die s).pending = s.pending := by simp [forwardFull]

@[simp] theorem admitAll_pending (die tree : Nat) (p : Packet) (s : State) : (admitAll die tree p s).2.2.pending = s.pending := by
  simp only [admitAll]
  split
  · rfl
  · exact foldl_snd_pending _ (fun _ _ => by simp) _ _

theorem takeContribution_pending {p : Packet} {die tree : Nat} {t : BitVec 128} {ext : List Byte} {h : Nat} {hdr : Hdr} {s u : State}
    (hu : takeContribution p die tree t ext h hdr s = some u) : u.pending = s.pending := by
  simp only [takeContribution] at hu
  repeat' split at hu
  all_goals obtain rfl := Option.some.inj hu; simp

theorem takeMcast_pending {p : Packet} {die tree : Nat} {t : BitVec 128} {h : Nat} {hdr : Hdr} {s u : State}
    (hu : takeMcast p die tree t h hdr s = some u) : u.pending = s.pending := by
  simp only [takeMcast] at hu
  split at hu <;> obtain rfl := Option.some.inj hu <;> simp

@[simp] theorem byEdge_pending (die op : Nat) (p : Packet) (s : State) (act : Nat → BitVec 128 → Nat → Hdr → State → Option State)
    (hact : ∀ {tree t h hdr s u}, act tree t h hdr s = some u → u.pending = s.pending) : (byEdge die op p s act).pending = s.pending := by
  simp only [byEdge]
  split
  · rfl
  · refine arrive_pending _ _ _ _ fun {h e hdr s u} hu => ?_
    split at hu
    · cases hu; rfl
    · split at hu
      · cases hu; rfl
      · split at hu
        · exact hact hu
        · cases hu

@[simp] theorem dropWaiting_pending (die : Nat) (i : TreeItem) (s : State) : (dropWaiting die i s).pending = s.pending := rfl
@[simp] theorem cutItem_pending (die : Nat) (i : TreeItem) (k : Nat) (s : State) : (cutItem die i k s).pending = s.pending := rfl

@[simp] theorem faultItem_pending (die : Nat) (i : TreeItem) (f : Nat × Option Nat) (s : State) : (faultItem die i f s).pending = s.pending := by
  unfold faultItem
  repeat' split
  all_goals simp

@[simp] theorem byMember_pending (die op : Nat) (ext : List Byte) (s : State) (act : TreeItem → BitVec 128 → Packet → State → Option State)
    (hact : ∀ {i t p s u}, act i t p s = some u → u.pending = s.pending) : (byMember die op ext s act).pending = s.pending := by
  unfold byMember
  repeat' split
  case h_2.isFalse.isTrue | h_2.isFalse.isFalse =>
    dsimp only
    split
    · next h => simp [hact h]
    · rfl
  all_goals simp

@[simp] theorem enterContribution_pending (die : Nat) (ext : List Byte) (s : State) : (enterContribution die ext s).pending = s.pending := by
  unfold enterContribution
  grind [queueEdge_pending, absorbRoot_pending, forwardFull_pending, admitAll_pending, byMember_pending, foldl_pending]

@[simp] theorem enterMcast_pending (die : Nat) (ext : List Byte) (s : State) : (enterMcast die ext s).pending = s.pending := by simp [enterMcast]

@[simp] theorem execStoreAdmission_keepsQueue (die : Nat) (arriving : Option Packet) (ext : List Byte) (s : State) :
    keepsQueue s (execStoreAdmission die arriving ext s) := by
  simp only [execStoreAdmission, keepsQueue_need]
  intro _
  split
  · rfl
  · split
    · exact byEdge_pending _ _ _ _ _ takeContribution_pending
    · simp

@[simp] theorem execAdmitLinger_keepsQueue (i : Nat) (s : State) : keepsQueue s (execAdmitLinger i s) := by unfold execAdmitLinger; split <;> simp

@[simp] theorem execMcastReplicate_keepsQueue (die : Nat) (arriving : Option Packet) (ext : List Byte) (s : State) :
    keepsQueue s (execMcastReplicate die arriving ext s) := by
  simp only [execMcastReplicate, keepsQueue_need]
  intro _
  split
  · rfl
  · split
    · exact byEdge_pending _ _ _ _ _ takeMcast_pending
    · simp

@[simp] theorem execKernelLoad_keepsQueue (s : State) : keepsQueue s (execKernelLoad s) := by simp [execKernelLoad]
@[simp] theorem execKernelUnload_keepsQueue (s : State) : keepsQueue s (execKernelUnload s) := by simp [execKernelUnload]
@[simp] theorem execKernelBind_keepsQueue (s : State) : keepsQueue s (execKernelBind s) := by simp [execKernelBind]
@[simp] theorem dropJob_pending (slot die idx : Nat) (s : State) : (dropJob slot die idx s).pending = s.pending := rfl

@[simp] theorem statePieces_pending (die : Nat) (b : BitVec 512) (n : Need) (s : State) : (statePieces die b n s).2.pending = s.pending := by
  unfold statePieces
  grind [localSpan_pending]

@[simp] theorem endJob_pending (slot die idx rank : Nat) (s : State) : (endJob slot die idx rank s).pending = s.pending := by simp [endJob]

@[simp] theorem kernelIn_pending (die : Nat) (c : StepCtx) (l : Launch) (w : Wqe) (j : Join) (b : BitVec 512) (x : Invocation) (s : State) :
    (kernelIn die c l w j b x s).2.pending = s.pending := by
  unfold kernelIn
  grind [noteReads_pending, paramBlock_pending, stepSource_pending, statePieces_pending]

@[simp] theorem execKernelDone_keepsQueue (slot die idx : Nat) (input params state : List Byte) (s : State) :
    keepsQueue s (execKernelDone slot die idx input params state s) := by
  simp only [execKernelDone, keepsQueue_next]
  split
  · simp
  · split
    · rfl
    · split
      · rfl
      · next hk => simp [pending_of_pair hk]
      · next hk =>
        split
        · rfl
        · simp [pending_of_pair hk]

@[simp] theorem stopKernel_pending (slot die cause : Nat) (stops : BitVec 512 → Nat → KernelRun → Bool) (x : Invocation) (s : State) :
    (stopKernel slot die cause stops x s).pending = s.pending := by
  unfold stopKernel
  grind [State.emit_pending, drawBytes_pending, bumpArith_pending, record_pending, writePieces_pending, toOutput_pending, statePieces_pending,
      endJob_pending, kernelIn_pending]

@[simp] theorem execKernelBudgetExceeded_keepsQueue (slot die : Nat) (job : Invocation) (s : State) :
    keepsQueue s (execKernelBudgetExceeded slot die job s) := by simp [execKernelBudgetExceeded]
@[simp] theorem execKernelFault_keepsQueue (slot die : Nat) (job : Invocation) (s : State) :
    keepsQueue s (execKernelFault slot die job s) := by simp [execKernelFault]

/-! ## Frames, coordinates, trees and fences -/

@[simp] theorem countRoute_pending (die i : Nat) (s : State) : (countRoute die i s).pending = s.pending := rfl
@[simp] theorem announce_pending (p : Nat) (s : State) : (announce p s).pending = s.pending := by simp [announce]
@[simp] theorem announceAll_pending (s : State) : (announceAll s).pending = s.pending := by simp [announceAll]
@[simp] theorem execAnnounceTimer_keepsQueue (port : Nat) (s : State) : keepsQueue s (execAnnounceTimer port s) := by simp [execAnnounceTimer]

@[simp] theorem judgePort_pending (p : Nat) (s : State) : (judgePort p s).pending = s.pending := by
  unfold judgePort; split <;> simp

@[simp] theorem noteHwm_pending (p tc : Nat) (s : State) : (noteHwm p tc s).pending = s.pending := rfl

@[simp] theorem unqueue_pending (p : Nat) (keep : Queued → Bool) (s : State) : (unqueue p keep s).pending = s.pending := by
  unfold unqueue
  grind [setPort_pending, waitAt_pending, noteHwm_pending, foldl_pending]

@[simp] theorem countPfc_pending (p prio i n : Nat) (s : State) : (countPfc p prio i n s).pending = s.pending := rfl

@[simp] theorem endPause_pending (p prio : Nat) (s : State) : (endPause p prio s).pending = s.pending := by
  unfold endPause; split <;> simp

@[simp] theorem stopPort_pending (p : Nat) (b : Bring) (s : State) : (stopPort p b s).pending = s.pending := by simp [stopPort]
@[simp] theorem bringDown_pending (p : Nat) (s : State) : (bringDown p s).pending = s.pending := by simp [bringDown]
@[simp] theorem clearPort_pending (p : Nat) (s : State) : (clearPort p s).pending = s.pending := by simp [clearPort]
@[simp] theorem judgePorts_pending (s : State) : (judgePorts s).pending = s.pending := by simp [judgePorts]
@[simp] theorem setCoord_pending (c : Nat) (s : State) : (setCoord c s).pending = s.pending := rfl
@[simp] theorem takeCoord_pending (p : Nat) (h : BitVec 320) (s : State) : (takeCoord p h s).pending = s.pending := by simp [takeCoord]
@[simp] theorem execAnnounce_keepsQueue (port : Nat) (hdr : BitVec 320) (mac : Nat) (s : State) :
    keepsQueue s (execAnnounce port hdr mac s) := by simp [execAnnounce]
@[simp] theorem execCoord_keepsQueue (s : State) : keepsQueue s (execCoord s) := by simp [execCoord]
@[simp] theorem enqueue_pending (die : Nat) (q : Queued) (x : Choice) (s : State) : (enqueue die q x s).pending = s.pending := by simp [enqueue]
@[simp] theorem sendPause_pending (p prio time : Nat) (s : State) : (sendPause p prio time s).pending = s.pending := rfl
@[simp] theorem judgeHold_pending (p prio : Nat) (s : State) : (judgeHold p prio s).pending = s.pending := by simp [judgeHold]
@[simp] theorem addHold_pending (p prio n : Nat) (s : State) : (addHold p prio n s).pending = s.pending := by simp [addHold]
@[simp] theorem subHold_pending (p prio n : Nat) (s : State) : (subHold p prio n s).pending = s.pending := by simp [subHold]
@[simp] theorem generationEvent_pending (p : Nat) (s : State) : (generationEvent p s).pending = s.pending := by simp [generationEvent]

@[simp] theorem transit_pending (p : Nat) (q : Queued) (s : State) : (transit p q s).pending = s.pending := by
  unfold transit
  grind [waitAt_pending, countRoute_pending, countPfc_pending, enqueue_pending, addHold_pending]

@[simp] theorem deliver_pending (die : Nat) (pkt : Packet) (s : State) : (deliver die pkt s).pending = s.pending := by simp [deliver]

@[simp] theorem execFabricFrameArrival_keepsQueue (port : Nat) (b : FrameBytes) (s : State) : keepsQueue s (execFabricFrameArrival port b s) := by
  simp only [execFabricFrameArrival]
  repeat' split
  all_goals simp

@[simp] theorem leaveHold_pending (die i : Nat) (l : List Queued) (q : Queued) (s : State) : (leaveHold die i l q s).pending = s.pending := by
  unfold leaveHold; split <;> simp

@[simp] theorem execFrameEnqueue_keepsQueue (die i : Nat) (s : State) : keepsQueue s (execFrameEnqueue die i s) := by
  simp only [execFrameEnqueue]
  repeat' split
  all_goals simp

@[simp] theorem execTreeEntryFill_keepsQueue (die tree : Nat) (s : State) : keepsQueue s (execTreeEntryFill die tree s) := by simp [execTreeEntryFill]
@[simp] theorem execTreeEntry_keepsQueue (s : State) : keepsQueue s (execTreeEntry s) := by simp [execTreeEntry]
@[simp] theorem fenceCmd_pending (action : Nat) (s : State) : (fenceCmd action s).pending = s.pending := by simp [fenceCmd]
@[simp] theorem execFenceCmdFence_keepsQueue (s : State) : keepsQueue s (execFenceCmdFence s) := by simp [execFenceCmdFence]
@[simp] theorem execFenceCmdUnfence_keepsQueue (s : State) : keepsQueue s (execFenceCmdUnfence s) := by simp [execFenceCmdUnfence]
@[simp] theorem fenceGroup_pending (g : Nat) (eps : List Nat) (s : State) : (fenceGroup g eps s).pending = s.pending := by simp [fenceGroup]

@[simp] theorem dropFenced_pending (eps : List Nat) (s : State) : (dropFenced eps s).pending = s.pending := by
  unfold dropFenced
  grind [dropArrivals_pending, foldl_pending]

@[simp] theorem execFenceNotice_keepsQueue (ep : Nat) (device fence : Bool) (s : State) : keepsQueue s (execFenceNotice ep device fence s) := by
  simp only [execFenceNotice, keepsQueue_next]
  grind [leaveIdle_pending, setPort_pending, breakEnd_pending, unqueue_pending, fenceGroup_pending, dropFenced_pending, when_pending, foldl_pending]

/-! ## Partitions and slices -/

@[simp] theorem refusalRecords_pending (s : State) (p : Nat) (t : State) : (refusalRecords s p t).pending = t.pending := by simp [refusalRecords]
@[simp] theorem applyBinding_pending (s t : State) : (applyBinding s t).pending = t.pending := by simp [applyBinding]
@[simp] theorem applyPartitions_pending (s : State) : (applyPartitions s).pending = s.pending := by simp [applyPartitions]
@[simp] theorem partitionsUp_pending (s : State) : (partitionsUp s).pending = s.pending := rfl
@[simp] theorem squashInvals_pending (p : Nat) (s : State) : (squashInvals p s).pending = s.pending := by simp [squashInvals]

@[simp] theorem dropTagged_pending (wq : Nat) (q : WorkQueue) (s : State) : (dropTagged wq q s).pending = s.pending := by
  unfold dropTagged
  grind [setSfifo_pending, loseItem_pending, foldl_pending]

@[simp] theorem dropMembers_pending (gone : List Nat) (s : State) : (dropMembers gone s).pending = s.pending := by
  unfold dropMembers
  grind [State.emit_pending, foldl_pending]

@[simp] theorem freeQueues_pending (p key : Nat) (s : State) : (freeQueues p key s).pending = s.pending := by simp [freeQueues]
@[simp] theorem resetEnd_pending (h : Nat) (s : State) : (resetEnd h s).pending = s.pending := by simp [resetEnd]
@[simp] theorem resetEnds_pending (p key : Nat) (s : State) : (resetEnds p key s).pending = s.pending := by simp [resetEnds]
@[simp] theorem resetJoins_pending (p key : Nat) (s : State) : (resetJoins p key s).pending = s.pending := by simp [resetJoins]

@[simp] theorem endPending_pending (p : Nat) (s : State) : (endPending p s).pending = s.pending := by
  unfold endPending
  grind [setWindow_pending, answerConn_pending]

@[simp] theorem beginReset_pending (p key trigger : Nat) (zero destroy : Bool) (s : State) :
    (beginReset p key trigger zero destroy s).pending = s.pending := by simp [beginReset]
@[simp] theorem startReset_pending (p key trigger : Nat) (zero destroy : Bool) (s : State) :
    (startReset p key trigger zero destroy s).pending = s.pending := by simp [startReset]

@[simp] theorem flushReset_pending (p key squashed : Nat) (s : State) : (flushReset p key squashed s).pending = s.pending := by
  unfold flushReset; split <;> simp

@[simp] theorem execPartitionDrained_keepsQueue (p key : Nat) (s : State) :
    keepsQueue s (execPartitionDrained p key s) := by simp [execPartitionDrained]
@[simp] theorem execResetDrain_keepsQueue (p key left : Nat) (s : State) : keepsQueue s (execResetDrain p key left s) := by simp [execResetDrain]
@[simp] theorem clearXlate_pending (p key : Nat) (s : State) : (clearXlate p key s).pending = s.pending := by simp [clearXlate]

@[simp] theorem endWaiting_pending (p key : Nat) (s : State) : (endWaiting p key s).pending = s.pending := by
  unfold endWaiting
  repeat' split
  all_goals simp

@[simp] theorem scopeDefaults_pending (p key : Nat) (s : State) : (scopeDefaults p key s).pending = s.pending := by simp [scopeDefaults]

@[simp] theorem endHostReset_pending (link : Nat) (s : State) : (endHostReset link s).pending = s.pending := by
  unfold endHostReset; split <;> simp

@[simp] theorem endReset_pending (p key : Nat) (r : PReset) (s : State) : (endReset p key r s).pending = s.pending := by simp [endReset]
@[simp] theorem execPartitionResetDone_keepsQueue (p key : Nat) (s : State) :
    keepsQueue s (execPartitionResetDone p key s) := by unfold execPartitionResetDone; split <;> simp
@[simp] theorem partCmd_pending (action : Nat) (s : State) : (partCmd action s).pending = s.pending := by simp [partCmd]
@[simp] theorem execPartCmdReset_keepsQueue (s : State) : keepsQueue s (execPartCmdReset s) := by simp [execPartCmdReset]
@[simp] theorem execPartCmdResetZero_keepsQueue (s : State) : keepsQueue s (execPartCmdResetZero s) := by simp [execPartCmdResetZero]
@[simp] theorem execSliceCmdCreate_keepsQueue (s : State) : keepsQueue s (execSliceCmdCreate s) := by simp [execSliceCmdCreate]
@[simp] theorem sliceReset_pending (action : Nat) (s : State) : (sliceReset action s).pending = s.pending := by simp [sliceReset]
@[simp] theorem execSliceCmdReset_keepsQueue (s : State) : keepsQueue s (execSliceCmdReset s) := by simp [execSliceCmdReset]
@[simp] theorem execSliceCmdDestroy_keepsQueue (s : State) : keepsQueue s (execSliceCmdDestroy s) := by simp [execSliceCmdDestroy]

/-! ## Wake sources -/

@[simp] theorem startWake_pending (source port : Nat) (latched : Bool) (s : State) : (startWake source port latched s).pending = s.pending := rfl

@[simp] theorem raiseWake_pending (b port : Nat) (s : State) : (raiseWake b port s).pending = s.pending := by
  unfold raiseWake
  repeat' split
  all_goals simp

/-! ## Edrad links, partition functions and accelerator ports -/

@[simp] theorem onEdrad_keepsQueue (link : Nat) (ok : Edrad → Bool) (s : State) (act : State → State) (hact : ∀ t, (act t).pending = t.pending) :
    keepsQueue s (onEdrad link ok s act) := by simp [onEdrad, hact]
@[simp] theorem startFast_pending (link : Nat) (s : State) : (startFast link s).pending = s.pending := rfl
@[simp] theorem startOutage_pending (link : Nat) (s : State) : (startOutage link s).pending = s.pending := by simp [startOutage]
@[simp] theorem takeLinkAck_pending (link ack : Nat) (s : State) : (takeLinkAck link ack s).pending = s.pending := by simp [takeLinkAck]
@[simp] theorem takeLinkNak_pending (link : Nat) (s : State) : (takeLinkNak link s).pending = s.pending := by simp [takeLinkNak]
@[simp] theorem execFlit_keepsQueue (link : Nat) (f : Flit) (s : State) : keepsQueue s (execFlit link f s) := by simp [execFlit]
@[simp] theorem execCredit_keepsQueue (link ph pd nh nd : Nat) (s : State) : keepsQueue s (execCredit link ph pd nh nd s) := by simp [execCredit]

@[simp] theorem execEdradSignalDetect_keepsQueue (link : Nat) (s : State) : keepsQueue s (execEdradSignalDetect link s) :=
  onEdrad_keepsQueue _ _ _ _ fun _ => by simp

@[simp] theorem execEdradTrainingStepDone_keepsQueue (link : Nat) (s : State) :
    keepsQueue s (execEdradTrainingStepDone link s) := by simp [execEdradTrainingStepDone]
@[simp] theorem execEdradTrainingTimeout_keepsQueue (link : Nat) (s : State) :
    keepsQueue s (execEdradTrainingTimeout link s) := by simp [execEdradTrainingTimeout]

@[simp] theorem execEdradLinkLoss_keepsQueue (link : Nat) (s : State) : keepsQueue s (execEdradLinkLoss link s) :=
  onEdrad_keepsQueue _ _ _ _ fun _ => by simp

@[simp] theorem cardLost_pending (link : Nat) (s : State) : (cardLost link s).pending = s.pending := rfl
@[simp] theorem isolate_pending (e : Nat) (byHost : Bool) (s : State) : (isolate e byHost s).pending = s.pending := rfl

@[simp] theorem hostReset_pending (link trigger : Nat) (s : State) : (hostReset link trigger s).pending = s.pending := by
  unfold hostReset
  grind [setEdrad_pending, sendMessage_pending, startReset_pending, endHostReset_pending, cardLost_pending, isolate_pending, foldl_pending]

@[simp] theorem execHostReset_keepsQueue (link cause : Nat) (s : State) : keepsQueue s (execHostReset link cause s) := by simp [execHostReset]
@[simp] theorem execHostLossTimer_keepsQueue (link : Nat) (s : State) : keepsQueue s (execHostLossTimer link s) := by simp [execHostLossTimer]
@[simp] theorem execHostDomainReset_keepsQueue (s : State) : keepsQueue s (execHostDomainReset s) := by simp [execHostDomainReset]
@[simp] theorem linkActive_pending (link lastSeq : Nat) (credits : List Nat) (s : State) :
    (linkActive link lastSeq credits s).pending = s.pending := by simp [linkActive]

@[simp] theorem execLinkParams_keepsQueue (link epoch lastSeq : Nat) (credits : List Nat) (s : State) :
    keepsQueue s (execLinkParams link epoch lastSeq credits s) :=
  onEdrad_keepsQueue _ _ _ _ fun _ => by
    split
    · split <;> simp
    · simp

@[simp] theorem execPortStatus_keepsQueue (link dev : Nat) (up : Bool) (speed width errors : Nat) (s : State) :
    keepsQueue s (execPortStatus link dev up speed width errors s) :=
  onEdrad_keepsQueue _ _ _ _ fun _ => by simp

@[simp] theorem execSettings_keepsQueue (link : Nat) (isPort : Bool) (n bus base limit command acs : Nat) (pasidEn relaxed : Bool)
    (msix : List (Nat × Nat × Nat × Nat)) (s : State) :
    keepsQueue s (execSettings link isPort n bus base limit command acs pasidEn relaxed msix s) :=
  onEdrad_keepsQueue _ _ _ _ fun _ => by
    dsimp only
    split
    · simp
    · split
      · rfl
      · exact foldl_pending _ (fun _ _ => by simp) _ _

@[simp] theorem execResetNotice_keepsQueue (link : Nat) (s : State) : keepsQueue s (execResetNotice link s) := by simp [execResetNotice]
@[simp] theorem execWake_keepsQueue (link : Nat) (fromDevice : Bool) (s : State) : keepsQueue s (execWake link fromDevice s) := by simp [execWake]

@[simp] theorem execSleepReq_keepsQueue (link : Nat) (s : State) : keepsQueue s (execSleepReq link s) :=
  onEdrad_keepsQueue _ _ _ _ fun _ => by simp

@[simp] theorem execSleepAck_keepsQueue (link : Nat) (s : State) : keepsQueue s (execSleepAck link s) :=
  onEdrad_keepsQueue _ _ _ _ fun _ => by simp

@[simp] theorem execEdradWakeBurst_keepsQueue (link : Nat) (s : State) : keepsQueue s (execEdradWakeBurst link s) := by
  simp only [execEdradWakeBurst]
  repeat' split
  all_goals simp

@[simp] theorem execSlotControlPower_keepsQueue (link : Nat) (s : State) :
    keepsQueue s (execSlotControlPower link s) := by simp [execSlotControlPower]
@[simp] theorem execHostRequest_keepsQueue (link id : Nat) (s : State) : keepsQueue s (execHostRequest link id s) := by simp [execHostRequest]
@[simp] theorem execFunctionLevelReset_keepsQueue (p : Nat) (s : State) :
    keepsQueue s (execFunctionLevelReset p s) := by simp [execFunctionLevelReset]
@[simp] theorem logAer_pending (p : Nat) (s : State) : (logAer p s).pending = s.pending := rfl
@[simp] theorem hostBytesOf_pending (p n : Nat) (s : State) : (hostBytesOf p n s).pending = s.pending := rfl

@[simp] theorem barServe_pending (p a : Nat) (o : BarOp) (s : State) : (barServe p a o s).pending = s.pending := by
  unfold barServe
  grind [State.emit_pending, mediaError_pending, noteAccess_pending, storePieces_pending, hostBytesOf_pending]

@[simp] theorem barRefuse_pending (p : Nat) (o : BarOp) (s : State) : (barRefuse p o s).pending = s.pending := by
  unfold barRefuse; split <;> simp

/-- An access waits, is not performed, is not performed and logged, or is served (R361, R388). -/
theorem barAct_cases (p a : Nat) (o : BarOp) (s : State) : barAct p a o s = none ∨ barAct p a o s = some (barRefuse p o s) ∨
    barAct p a o s = some (barRefuse p o (logAer p s)) ∨ barAct p a o s = some (barServe p a o s) := by
  simp only [barAct]
  repeat' split
  all_goals simp

theorem barAct_pending {p a : Nat} {o : BarOp} {s t : State} (h : barAct p a o s = some t) : t.pending = s.pending := by
  rcases barAct_cases p a o s with hc | hc | hc | hc <;> rw [hc] at h <;> cases h <;> simp

@[simp] theorem barTurn_pending (s : State) (x : Nat × Nat × BarOp) : (barTurn s x).pending = s.pending := by
  simp only [barTurn]
  split
  · rfl
  · cases h : barAct x.1 x.2.1 x.2.2 s with
    | none => rfl
    | some t => exact barAct_pending h

@[simp] theorem serveBars_pending (s : State) : (serveBars s).pending = s.pending := by simp [serveBars]
@[simp] theorem execBar4Access_keepsQueue (p a : Nat) (o : BarOp) (s : State) : keepsQueue s (execBar4Access p a o s) := by simp [execBar4Access]
@[simp] theorem onAccel_keepsQueue (e : Nat) (ok : Accel → Bool) (s : State) (act : State → State) (hact : ∀ t, (act t).pending = t.pending) :
    keepsQueue s (onAccel e ok s act) := by simp [onAccel, hact]

@[simp] theorem execAcceleratorRequest_keepsQueue (e a : Nat) (s : State) : keepsQueue s (execAcceleratorRequest e a s) :=
  onAccel_keepsQueue _ _ _ _ fun _ => by
    dsimp only
    split
    · simp
    · split <;> rfl

@[simp] theorem reportPort_pending (e : Nat) (second : Bool) (s : State) : (reportPort e second s).pending = s.pending := by simp [reportPort]
@[simp] theorem execAcceleratorLinkDown_keepsQueue (e : Nat) (second : Bool) (s : State) :
    keepsQueue s (execAcceleratorLinkDown e second s) := by simp [execAcceleratorLinkDown]
@[simp] theorem execAccelLossTimer_keepsQueue (e : Nat) (s : State) : keepsQueue s (execAccelLossTimer e s) := by simp [execAccelLossTimer]
@[simp] theorem execAcceleratorLinkUp_keepsQueue (e : Nat) (second : Bool) (speed width : Nat) (flit : Bool) (s : State) :
    keepsQueue s (execAcceleratorLinkUp e second speed width flit s) := by simp [execAcceleratorLinkUp]

/-! ## Ports and time -/

@[simp] theorem countPort_pending (p i n : Nat) (s : State) : (countPort p i n s).pending = s.pending := rfl
@[simp] theorem fastRetrain_pending (p trigger : Nat) (s : State) : (fastRetrain p trigger s).pending = s.pending := by simp [fastRetrain]
@[simp] theorem onPort_keepsQueue (p : Nat) (ok : Port → Bool) (s : State) (act : State → State) (hact : ∀ t, (act t).pending = t.pending) :
    keepsQueue s (onPort p ok s act) := by simp [onPort, hact]

@[simp] theorem execSignalDetected_keepsQueue (port : Nat) (s : State) : keepsQueue s (execSignalDetected port s) :=
  onPort_keepsQueue _ _ _ _ fun _ => by simp

@[simp] theorem execAutonegComplete_keepsQueue (port rate : Nat) (s : State) : keepsQueue s (execAutonegComplete port rate s) :=
  onPort_keepsQueue _ _ _ _ fun _ => by simp

@[simp] theorem execLinkTrainingComplete_keepsQueue (port : Nat) (s : State) : keepsQueue s (execLinkTrainingComplete port s) := by
  unfold execLinkTrainingComplete
  exact onPort_keepsQueue _ _ _ _ fun _ => by simp

@[simp] theorem execPortTrained_keepsQueue (port : Nat) (s : State) : keepsQueue s (execPortTrained port s) := by simp [execPortTrained]
@[simp] theorem execBringupTimeout_keepsQueue (port : Nat) (s : State) : keepsQueue s (execBringupTimeout port s) := by simp [execBringupTimeout]
@[simp] theorem execRate_keepsQueue (s : State) : keepsQueue s (execRate s) := by simp [execRate]
@[simp] theorem execUncorrectableBurst_keepsQueue (port : Nat) (s : State) :
    keepsQueue s (execUncorrectableBurst port s) := by simp [execUncorrectableBurst]
@[simp] theorem execAlignmentLoss_keepsQueue (port : Nat) (s : State) : keepsQueue s (execAlignmentLoss port s) := by simp [execAlignmentLoss]
@[simp] theorem execFastRetrainDone_keepsQueue (port : Nat) (s : State) : keepsQueue s (execFastRetrainDone port s) := by simp [execFastRetrainDone]
@[simp] theorem execFastRetrainFail_keepsQueue (port : Nat) (s : State) : keepsQueue s (execFastRetrainFail port s) := by simp [execFastRetrainFail]

@[simp] theorem darnLane_pending (p lane core : Nat) (s : State) : (darnLane p lane core s).pending = s.pending := by
  unfold darnLane
  grind [record_pending, rebuildPattern_pending, setPort_pending, fastRetrain_pending]

@[simp] theorem wornLane_pending (p lane : Nat) (s : State) : (wornLane p lane s).pending = s.pending := by
  unfold wornLane
  grind [record_pending, setPort_pending, darnLane_pending]

@[simp] theorem execLaneWearWindow_keepsQueue (port corrected uncorrectable : Nat) (errors ratios : List Nat) (s : State) :
    keepsQueue s (execLaneWearWindow port corrected uncorrectable errors ratios s) := by simp [execLaneWearWindow]

@[simp] theorem execLaneDarn_keepsQueue (s : State) : keepsQueue s (execLaneDarn s) := by
  simp only [execLaneDarn, keepsQueue_next]
  grind [onWrite_pending, darnLane_pending]

@[simp] theorem endPast_pending (p prio : Nat) (s : State) : (endPast p prio s).pending = s.pending := by
  unfold endPast; split <;> simp

@[simp] theorem takePause_pending (p prio t : Nat) (s : State) : (takePause p prio t s).pending = s.pending := by simp [takePause]

@[simp] theorem execPfcFrame_keepsQueue (port : Nat) (pause : Bool) (mask : Nat) (times : List Nat) (s : State) :
    keepsQueue s (execPfcFrame port pause mask times s) :=
  onPort_keepsQueue _ _ _ _ fun _ => by
    dsimp only
    split
    · split <;> exact foldl_pending _ (fun _ _ => by simp) _ _
    · exact foldl_pending _ (fun _ _ => by simp) _ _

@[simp] theorem execPauseExpiry_keepsQueue (port prio : Nat) (s : State) : keepsQueue s (execPauseExpiry port prio s) := by simp [execPauseExpiry]

@[simp] theorem execPfcRefresh_keepsQueue (port prio : Nat) (s : State) : keepsQueue s (execPfcRefresh port prio s) := by
  unfold execPfcRefresh
  exact onPort_keepsQueue _ _ _ _ fun _ => by simp

@[simp] theorem execPauseWatchdog_keepsQueue (port prio : Nat) (s : State) :
    keepsQueue s (execPauseWatchdog port prio s) := by simp [execPauseWatchdog]

@[simp] theorem execGateEntryStart_keepsQueue (port : Nat) (s : State) : keepsQueue s (execGateEntryStart port s) :=
  onPort_keepsQueue _ _ _ _ fun _ => by simp

@[simp] theorem execGateCommit_keepsQueue (s : State) : keepsQueue s (execGateCommit s) := by simp [execGateCommit]

@[simp] theorem execGateChangeover_keepsQueue (port : Nat) (s : State) : keepsQueue s (execGateChangeover port s) := by
  unfold execGateChangeover
  exact onPort_keepsQueue _ _ _ _ fun _ => by simp

@[simp] theorem execShaperRefill_keepsQueue (port : Nat) (s : State) : keepsQueue s (execShaperRefill port s) :=
  onPort_keepsQueue _ _ _ _ fun t => by
    refine (foldl_pending _ (fun _ _ => ?_) _ _).trans (setPort_pending _ _ t)
    split <;> rfl

@[simp] theorem startFrame_pending (p : Nat) (x : Queued) (q : Port) (s : State) : (startFrame p x q s).pending = s.pending := by simp [startFrame]
@[simp] theorem startPtp_pending (p kind : Nat) (s : State) : (startPtp p kind s).pending = s.pending := rfl

@[simp] theorem execFrameTransmit_keepsQueue (port : Nat) (s : State) : keepsQueue s (execFrameTransmit port s) :=
  onPort_keepsQueue _ _ _ _ fun _ => by
    dsimp only
    split
    · simp
    · split <;> simp

@[simp] theorem stepTime_pending (t : Nat) (s : State) : (stepTime t s).pending = s.pending := rfl
@[simp] theorem queuePtp_pending (p kind : Nat) (s : State) : (queuePtp p kind s).pending = s.pending := rfl

@[simp] theorem execSyncTimer_keepsQueue (port : Nat) (s : State) : keepsQueue s (execSyncTimer port s) := by
  unfold execSyncTimer
  exact onPort_keepsQueue _ _ _ _ fun _ => by simp

@[simp] theorem execPdelayTimer_keepsQueue (port : Nat) (s : State) : keepsQueue s (execPdelayTimer port s) := by
  unfold execPdelayTimer
  exact onPort_keepsQueue _ _ _ _ fun _ => by simp

@[simp] theorem rechoose_pending (s : State) : (rechoose s).pending = s.pending := by simp [rechoose]

@[simp] theorem takeSync_pending (p : Nat) (offset : Int) (s : State) : (takeSync p offset s).pending = s.pending := by
  unfold takeSync
  grind [stepTime_pending]

@[simp] theorem judgeXoff_pending (p delay : Nat) (s : State) : (judgeXoff p delay s).pending = s.pending := by simp [judgeXoff]
@[simp] theorem execPtpMessage_keepsQueue (port kind : Nat) (offset : Int) (delay state hops : Nat) (s : State) :
    keepsQueue s (execPtpMessage port kind offset delay state hops s) := by simp [execPtpMessage]
@[simp] theorem execSyncLoss_keepsQueue (s : State) : keepsQueue s (execSyncLoss s) := by simp [execSyncLoss]
@[simp] theorem execHoldoverLimit_keepsQueue (s : State) : keepsQueue s (execHoldoverLimit s) := by simp [execHoldoverLimit]
@[simp] theorem execPpsSecond_keepsQueue (s : State) : keepsQueue s (execPpsSecond s) := by simp [execPpsSecond]

@[simp] theorem execPpsIn_keepsQueue (s : State) : keepsQueue s (execPpsIn s) := by
  simp only [execPpsIn, keepsQueue_next]
  repeat' split
  all_goals simp

@[simp] theorem execTimeSet_keepsQueue (s : State) : keepsQueue s (execTimeSet s) := by simp [execTimeSet]

@[simp] theorem execTimeSetStep_keepsQueue (s : State) : keepsQueue s (execTimeSetStep s) := by
  unfold execTimeSetStep
  split
  · rw [keepsQueue_next, when_pending, stepTime_pending]; exact ite_self _
  · simp

@[simp] theorem ringWrite_pending (key addr : Nat) (d : List Byte) (s : State) : (ringWrite key addr d s).2.pending = s.pending := by
  unfold ringWrite
  grind [localSpan_pending, storePieces_pending]

@[simp] theorem addSample_pending (die p prio : Nat) (ok : Bool) (s : State) :
    (addSample die p prio ok s).2.pending = s.pending := by simp [addSample]
@[simp] theorem clearMask_pending (die : Nat) (s : State) : (clearMask die s).pending = s.pending := rfl

@[simp] theorem execQueueSample_keepsQueue (die : Nat) (s : State) : keepsQueue s (execQueueSample die s) := by
  simp [execQueueSample]

@[simp] theorem execHwm_keepsQueue (s : State) : keepsQueue s (execHwm s) := by
  simp only [execHwm, keepsQueue_next]
  grind [setPort_pending, onRead_pending]

@[simp] theorem execWakePattern_keepsQueue (port slots : Nat) (s : State) : keepsQueue s (execWakePattern port slots s) := by simp [execWakePattern]
@[simp] theorem execWakeSend_keepsQueue (s : State) : keepsQueue s (execWakeSend s) := by simp [execWakeSend]

/-! ## The manager -/

@[simp] theorem answerNotice_pending (code dest : Nat) (args : List Nat) (s : State) : (answerNotice code dest args s).pending = s.pending := by
  unfold answerNotice
  repeat' split
  all_goals simp

@[simp] theorem byNotice_pending (code : Nat) (ok : Bool) (s : State) (act : State → State) (hact : ∀ t, (act t).pending = t.pending) :
    (byNotice code ok s act).pending = s.pending := by
  unfold byNotice; split <;> simp [hact]

@[simp] theorem closeOldSessions_pending (epoch : Nat) (s : State) : (closeOldSessions epoch s).pending = s.pending := by simp [closeOldSessions]
@[simp] theorem learnEpoch_pending (epoch id : Nat) (s : State) : (learnEpoch epoch id s).pending = s.pending := by simp [learnEpoch]
@[simp] theorem becomeManager_pending (s : State) : (becomeManager s).pending = s.pending := by simp [becomeManager]
@[simp] theorem execManagerElectionTimer_keepsQueue (s : State) : keepsQueue s (execManagerElectionTimer s) := by simp [execManagerElectionTimer]
@[simp] theorem execNoManagerTimer_keepsQueue (s : State) : keepsQueue s (execNoManagerTimer s) := by simp [execNoManagerTimer]
@[simp] theorem execHeartbeatTimer_keepsQueue (s : State) : keepsQueue s (execHeartbeatTimer s) := by simp [execHeartbeatTimer]
@[simp] theorem execHeartbeat_keepsQueue (src epoch id role : Nat) (witnesses : List Nat) (s : State) :
    keepsQueue s (execHeartbeat src epoch id role witnesses s) := by simp [execHeartbeat]
@[simp] theorem execHeartbeatAck_keepsQueue (src : Nat) (s : State) : keepsQueue s (execHeartbeatAck src s) := by simp [execHeartbeatAck]
@[simp] theorem execManagerStop_keepsQueue (s : State) : keepsQueue s (execManagerStop s) := by simp [execManagerStop]
@[simp] theorem execSubmanagerLoss_keepsQueue (c : Nat) (s : State) : keepsQueue s (execSubmanagerLoss c s) := by simp [execSubmanagerLoss]
@[simp] theorem execManagerLoss_keepsQueue (s : State) : keepsQueue s (execManagerLoss s) := by simp [execManagerLoss]
@[simp] theorem execLossQuery_keepsQueue (src : Nat) (s : State) : keepsQueue s (execLossQuery src s) := by simp [execLossQuery]

@[simp] theorem sendJournal_pending (j : Journal) (s : State) : (sendJournal j s).pending = s.pending := by
  unfold sendJournal; split <;> simp

@[simp] theorem takeOver_pending (s : State) : (takeOver s).pending = s.pending := by simp [takeOver]
@[simp] theorem execLossQueryDecided_keepsQueue (answers : List Bool) (handed : Bool) (s : State) :
    keepsQueue s (execLossQueryDecided answers handed s) := by simp [execLossQueryDecided]
@[simp] theorem execTakeover_keepsQueue (epoch id : Nat) (s : State) : keepsQueue s (execTakeover epoch id s) := by simp [execTakeover]

@[simp] theorem execFailover_keepsQueue (s : State) : keepsQueue s (execFailover s) := by
  simp only [execFailover, keepsQueue_next]
  grind [State.emit_pending, onWrite_pending, announceAll_pending, rechoose_pending, sendJournal_pending, foldl_pending]

@[simp] theorem execJournal_keepsQueue (seq target key : Nat) (data : List Byte) (ack : Bool) (s : State) :
    keepsQueue s (execJournal seq target key data ack s) := by simp [execJournal]
@[simp] theorem execJournalAckTimeout_keepsQueue (seq : Nat) (s : State) :
    keepsQueue s (execJournalAckTimeout seq s) := by simp [execJournalAckTimeout]
@[simp] theorem execStandbySynchronised_keepsQueue (s : State) : keepsQueue s (execStandbySynchronised s) := by simp [execStandbySynchronised]

/-! ## Mesh links and dies -/

@[simp] theorem handled_pending (die eps : Nat) (s : State) : (handled die eps s).pending = s.pending := by simp [handled]
@[simp] theorem loseEngine_pending (die : Nat) (s : State) : (loseEngine die s).pending = s.pending := by simp [loseEngine]

@[simp] theorem losePorts_pending (die : Nat) (s : State) : (losePorts die s).pending = s.pending := by
  simp [losePorts, losePorts.countDrops]

@[simp] theorem loseAttach_pending (die : Nat) (s : State) : (loseAttach die s).pending = s.pending := by
  unfold loseAttach
  grind [isolate_pending, hostReset_pending, handled_pending, foldl_pending]

@[simp] theorem loseTraffic_pending (die : Nat) (s : State) : (loseTraffic die s).pending = s.pending := rfl
@[simp] theorem failDie_pending (die : Nat) (s : State) : (failDie die s).pending = s.pending := by simp [failDie]
@[simp] theorem linkOut_pending (link : Nat) (s : State) : (linkOut link s).pending = s.pending := by simp [linkOut]
@[simp] theorem execMeshLinkOutOfService_keepsQueue (link : Nat) (s : State) :
    keepsQueue s (execMeshLinkOutOfService link s) := by simp [execMeshLinkOutOfService]
@[simp] theorem execMeshRouteSwitch_keepsQueue (s : State) : keepsQueue s (execMeshRouteSwitch s) := by simp [execMeshRouteSwitch]
@[simp] theorem execDistributionWord_keepsQueue (t : Nat) (s : State) : keepsQueue s (execDistributionWord t s) := by simp [execDistributionWord]
@[simp] theorem execDistributionWordArrival_keepsQueue (island : Nat) (off : Int) (s : State) :
    keepsQueue s (execDistributionWordArrival island off s) := by simp [execDistributionWordArrival]

/-! ## Keys, owners, images and measurements -/

@[simp] theorem countSec_pending (i : Nat) (s : State) : (countSec i s).pending = s.pending := rfl

@[simp] theorem onStaged_pending (s : State) (i n : Nat) (len : List Byte → Option Nat) (piece : List Byte → State → State)
    (act : Sender → List Byte → State → Nat × State) (hpiece : ∀ d t, (piece d t).pending = t.pending)
    (hact : ∀ w d t, (act w d t).2.pending = t.pending) : (onStaged s i n len piece act).pending = s.pending := by
  unfold onStaged
  split
  · split
    · split
      · dsimp only
        split
        · simp
        · repeat' split
          all_goals simp [hpiece, hact]
      · simp
    · rfl
  · rfl

@[simp] theorem execKeyExport_keepsQueue (s : State) : keepsQueue s (execKeyExport s) := by unfold execKeyExport; split <;> simp
@[simp] theorem execProvisionDone_keepsQueue (s : State) : keepsQueue s (execProvisionDone s) := by simp [execProvisionDone]

@[simp] theorem execKeyEpoch_keepsQueue (s : State) : keepsQueue s (execKeyEpoch s) := by
  simp only [execKeyEpoch, keepsQueue_next]
  grind [markStored_pending, onWrite_pending]

@[simp] theorem burnSlot_pending (cls slot : Nat) (k : KeySlot) (s : State) : (burnSlot cls slot k s).pending = s.pending := rfl
@[simp] theorem enroll_pending (slot : Nat) (d : BitVec 256) (s : State) : (enroll slot d s).pending = s.pending := by simp [enroll]
@[simp] theorem execOwnerEnroll_keepsQueue (s : State) : keepsQueue s (execOwnerEnroll s) := by simp [execOwnerEnroll]
@[simp] theorem execSlotRevoke_keepsQueue (s : State) : keepsQueue s (execSlotRevoke s) := by simp [execSlotRevoke]
@[simp] theorem execOwnerExclusive_keepsQueue (s : State) : keepsQueue s (execOwnerExclusive s) := by simp [execOwnerExclusive]
@[simp] theorem fillBank_pending (kind : Nat) (d : List Byte) (s : State) : (fillBank kind d s).pending = s.pending := rfl
@[simp] theorem imageFromMemory_pending (s : State) : (imageFromMemory s).pending = s.pending := by simp [imageFromMemory]
@[simp] theorem stagePiece_pending (d : List Byte) (s : State) : (stagePiece d s).pending = s.pending := by simp [stagePiece]
@[simp] theorem imageStaged_pending (s : State) : (imageStaged s).pending = s.pending := by simp [imageStaged]
@[simp] theorem execImageWrite_keepsQueue (s : State) : keepsQueue s (execImageWrite s) := by simp [execImageWrite]
@[simp] theorem execImageVerified_keepsQueue (kind bank : Nat) (s : State) :
    keepsQueue s (execImageVerified kind bank s) := by simp [execImageVerified]
@[simp] theorem execImageActivate_keepsQueue (s : State) : keepsQueue s (execImageActivate s) := by simp [execImageActivate]

@[simp] theorem execRollbackCommit_keepsQueue (s : State) : keepsQueue s (execRollbackCommit s) := by
  simp only [execRollbackCommit, keepsQueue_next]
  grind [onWrite_pending]

@[simp] theorem execKernelVerified_keepsQueue (kernel : Nat) (s : State) :
    keepsQueue s (execKernelVerified kernel s) := by unfold execKernelVerified; split <;> simp
@[simp] theorem execMeasureExtend_keepsQueue (s : State) : keepsQueue s (execMeasureExtend s) := by simp [execMeasureExtend]
@[simp] theorem execAttestReq_keepsQueue (s : State) : keepsQueue s (execAttestReq s) := by simp [execAttestReq]

@[simp] theorem execDebugChallenge_keepsQueue (s : State) : keepsQueue s (execDebugChallenge s) := by
  simp only [execDebugChallenge, keepsQueue_next]
  grind [drawBytes_pending, onSession_pending, onRead_pending]

@[simp] theorem execDebugChallengeExpiry_keepsQueue (session : Nat) (s : State) :
    keepsQueue s (execDebugChallengeExpiry session s) := by simp [execDebugChallengeExpiry]

@[simp] theorem execDebugResponse_keepsQueue (s : State) : keepsQueue s (execDebugResponse s) := by
  rw [execDebugResponse, keepsQueue_next]
  refine onStaged_pending _ _ _ _ _ _ (fun _ _ => rfl) fun w d t => ?_
  dsimp only
  split
  · simp
  · split
    · split <;> simp
    · simp

@[simp] theorem execRandomSourceFailure_keepsQueue (s : State) : keepsQueue s (execRandomSourceFailure s) := by simp [execRandomSourceFailure]

/-! ## The meter -/

@[simp] theorem countMeter_pending (i : Nat) (s : State) : (countMeter i s).pending = s.pending := rfl
@[simp] theorem execFeedFrame_keepsQueue (s : State) : keepsQueue s (execFeedFrame s) := by simp [execFeedFrame]
@[simp] theorem newFeed_pending (s : State) : (newFeed s).pending = s.pending := rfl
@[simp] theorem onMetered_pending (f : Metered → Metered) (s : State) : (onMetered f s).pending = s.pending := rfl
@[simp] theorem setMFlag_pending (i : Nat) (s : State) : (setMFlag i s).pending = s.pending := rfl
@[simp] theorem sense_pending (x : Sensed) (s : State) : (sense x s).pending = s.pending := rfl
@[simp] theorem creditFrame_pending (up : Nat → Bool) (dt : Nat) (fabric host : Nat → Nat) (s : State) :
    (creditFrame up dt fabric host s).pending = s.pending := by simp [creditFrame]
@[simp] theorem closeInterval_pending (event : Nat) (s : State) : (closeInterval event s).pending = s.pending := by simp [closeInterval]

@[simp] theorem acceptFrame_pending (f : Feed) (s : State) : (acceptFrame f s).pending = s.pending := by
  unfold acceptFrame
  extract_lets dt due counted gain credited noted flagged
  have hcredited : credited.pending = s.pending := by
    simp only [credited, counted]
    repeat' split
    all_goals simp
  have hflagged : flagged.pending = s.pending := by simp [flagged, noted, hcredited]
  clear_value flagged
  split <;> simp [hflagged]

@[simp] theorem execFeedFrameAccepted_keepsQueue (f : Feed) (x : Sensed) (s : State) :
    keepsQueue s (execFeedFrameAccepted f x s) := by simp [execFeedFrameAccepted]
@[simp] theorem execFeedLoss_keepsQueue (x : Sensed) (s : State) : keepsQueue s (execFeedLoss x s) := by simp [execFeedLoss]
@[simp] theorem execFeedLossIntervalEnd_keepsQueue (x : Sensed) (s : State) :
    keepsQueue s (execFeedLossIntervalEnd x s) := by simp [execFeedLossIntervalEnd]
@[simp] theorem takeSnapshot_pending (s : State) : (takeSnapshot s).pending = s.pending := rfl
@[simp] theorem execMeterSnapshot_keepsQueue (x : Sensed) (s : State) : keepsQueue s (execMeterSnapshot x s) := by simp [execMeterSnapshot]
@[simp] theorem execVmtrBrownOut_keepsQueue (x : Sensed) (s : State) : keepsQueue s (execVmtrBrownOut x s) := by simp [execVmtrBrownOut]
@[simp] theorem execMeterPowerUp_keepsQueue (s : State) : keepsQueue s (execMeterPowerUp s) := by simp [execMeterPowerUp]
@[simp] theorem meterAnswered_pending (s : State) : (meterAnswered s).pending = s.pending := by simp [meterAnswered]

@[simp] theorem execStatus_keepsQueue (s : State) : keepsQueue s (execStatus s) := by
  simp only [execStatus, keepsQueue_next]
  repeat' split
  all_goals simp

@[simp] theorem execMeterStatusTimeout_keepsQueue (s : State) : keepsQueue s (execMeterStatusTimeout s) := by simp [execMeterStatusTimeout]

@[simp] theorem execReadRecord_keepsQueue (s : State) : keepsQueue s (execReadRecord s) := by
  simp only [execReadRecord, keepsQueue_next]
  grind [onRead_pending, setMtr_pending]

@[simp] theorem execSealOpened_keepsQueue (x : Sensed) (s : State) : keepsQueue s (execSealOpened x s) := by simp [execSealOpened]
@[simp] theorem execSealClosed_keepsQueue (x : Sensed) (s : State) : keepsQueue s (execSealClosed x s) := by simp [execSealClosed]
@[simp] theorem sealCmd_pending (action : Nat) (s : State) (ok : List Byte → State → Bool × State) (hok : ∀ a t, (ok a t).2.pending = t.pending) :
    (sealCmd action s ok).pending = s.pending := by simp [sealCmd, hok]
@[simp] theorem execSealCmdInterval_keepsQueue (s : State) : keepsQueue s (execSealCmdInterval s) := by simp [execSealCmdInterval]
@[simp] theorem sealData_pending (d : List Byte) (s : State) : (sealData d s).2.pending = s.pending := by simp [sealData]
@[simp] theorem execSealCmdCalibration_keepsQueue (s : State) : keepsQueue s (execSealCmdCalibration s) := by simp [execSealCmdCalibration]
@[simp] theorem execSealCmdFirmware_keepsQueue (s : State) : keepsQueue s (execSealCmdFirmware s) := by simp [execSealCmdFirmware]

/-! ## Counters, samples and event records -/

@[simp] theorem writeObjects_pending (c : Cmd) (n k : Nat) (s : State) (ok : Nat → List Byte → Nat) (put : Nat → List Byte → State → State)
    (hput : ∀ a b t, (put a b t).pending = t.pending) : (writeObjects c n k s ok put).2.pending = s.pending := by
  unfold writeObjects
  repeat' split
  all_goals simp [hput]

@[simp] theorem execPctrCfg_keepsQueue (s : State) : keepsQueue s (execPctrCfg s) := by
  simp only [execPctrCfg, keepsQueue_next]
  grind [onWrite_pending, setPctr_pending, writeObjects_pending]

@[simp] theorem execPctrValue_keepsQueue (s : State) : keepsQueue s (execPctrValue s) := by
  simp only [execPctrValue, keepsQueue_next]
  grind [onWrite_pending, setPctr_pending, writeObjects_pending]

@[simp] theorem execPctrOwner_keepsQueue (s : State) : keepsQueue s (execPctrOwner s) := by
  simp only [execPctrOwner, keepsQueue_next]
  grind [onWrite_pending, setPctr_pending, writeObjects_pending]

@[simp] theorem execPctrSnap_keepsQueue (s : State) : keepsQueue s (execPctrSnap s) := by
  simp only [execPctrSnap, keepsQueue_next]
  grind [onRead_pending]

@[simp] theorem execBwWindow_keepsQueue (s : State) : keepsQueue s (execBwWindow s) := by simp [execBwWindow]
@[simp] theorem closeWindows_pending (s : State) : (closeWindows s).pending = s.pending := rfl
@[simp] theorem newWindows_pending (t : Nat) (s : State) : (newWindows t s).pending = s.pending := rfl
@[simp] theorem execBwWindowEnd_keepsQueue (s : State) : keepsQueue s (execBwWindowEnd s) := by unfold execBwWindowEnd; split <;> simp
@[simp] theorem execPortBw_keepsQueue (s : State) : keepsQueue s (execPortBw s) := by simp [execPortBw]

@[simp] theorem sampleHist_pending (die i : Nat) (s : State) : (sampleHist die i s).pending = s.pending := by
  unfold sampleHist; split <;> simp

@[simp] theorem execHistogramSample_keepsQueue (s : State) : keepsQueue s (execHistogramSample s) := by simp [execHistogramSample]
@[simp] theorem execHistCfg_keepsQueue (s : State) : keepsQueue s (execHistCfg s) := by simp [execHistCfg]
@[simp] theorem writeSfifoCfg_pending (w : Sender) (c : Cmd) (s : State) : (writeSfifoCfg w c s).2.pending = s.pending := by simp [writeSfifoCfg]

@[simp] theorem execSfifoData_keepsQueue (s : State) : keepsQueue s (execSfifoData s) := by
  simp only [execSfifoData, keepsQueue_next]
  grind [setSfifo_pending, comparePointers_pending, onRead_pending]

@[simp] theorem execEventRecords_keepsQueue (s : State) : keepsQueue s (execEventRecords s) := by
  simp only [execEventRecords, keepsQueue_next]
  grind [onSession_pending, onRead_pending]

@[simp] theorem startCopy_pending (s : State) : (startCopy s).pending = s.pending := by
  unfold startCopy; split <;> simp

@[simp] theorem execEventClear_keepsQueue (s : State) : keepsQueue s (execEventClear s) := by simp [execEventClear]
@[simp] theorem execRecorderCopyDone_keepsQueue (s : State) : keepsQueue s (execRecorderCopyDone s) := by unfold execRecorderCopyDone; split <;> simp

/-! ## Stored entries -/

@[simp] theorem writeBank_pending (s : State) : (writeBank s).pending = s.pending := rfl

@[simp] theorem loadStored_pending (s : State) : (loadStored s).pending = s.pending := by
  unfold loadStored; split <;> simp

@[simp] theorem releaseHeld_pending (f : Response → Response) (s : State) : (releaseHeld f s).pending = s.pending := by simp [releaseHeld]
@[simp] theorem commitStored_pending (s : State) : (commitStored s).pending = s.pending := by simp [commitStored]
@[simp] theorem execStoredCommit_keepsQueue (s : State) : keepsQueue s (execStoredCommit s) := by simp [execStoredCommit]

/-! ## Power states, resets and repair -/

@[simp] theorem lose_pending (s : State) : (lose s).pending = s.pending := rfl
@[simp] theorem dropChannel_pending (die slot : Nat) (s : State) : (dropChannel die slot s).pending = s.pending := rfl

@[simp] theorem dropChannels_pending (s : State) : (dropChannels s).pending = s.pending := by
  unfold dropChannels
  grind [dropChannel_pending, foldl_pending]

@[simp] theorem endDarns_pending (s : State) : (endDarns s).pending = s.pending := by simp [endDarns]
@[simp] theorem withdrawDies_pending (s : State) : (withdrawDies s).pending = s.pending := by simp [withdrawDies]
@[simp] theorem applySram_pending (s : State) : (applySram s).pending = s.pending := by simp [applySram]
@[simp] theorem measureImage_pending (m : Nat) (d : List Byte) (s : State) : (measureImage m d s).pending = s.pending := rfl
@[simp] theorem runBank_pending (kind bank : Nat) (s : State) : (runBank kind bank s).pending = s.pending := rfl

@[simp] theorem startKind_pending (kind : Nat) (l : List Nat) (s : State) : (startKind kind l s).2.pending = s.pending := by
  fun_induction startKind kind l s <;> simp_all

@[simp] theorem startKinds_pending (l : List Nat) (s : State) : (startKinds l s).2.pending = s.pending := by
  fun_induction startKinds l s <;> grind [startKind_pending]

@[simp] theorem enterRecovery_pending (kind : Nat) (s : State) : (enterRecovery kind s).pending = s.pending := by simp [enterRecovery]
@[simp] theorem measureStraps_pending (s : State) : (measureStraps s).pending = s.pending := rfl
@[simp] theorem takeEffect_pending (s : State) : (takeEffect s).pending = s.pending := by simp [takeEffect]
@[simp] theorem endBoot_pending (s : State) : (endBoot s).pending = s.pending := rfl

@[simp] theorem loadRecorder_pending (s : State) : (loadRecorder s).pending = s.pending := by
  unfold loadRecorder
  grind [record_pending]

@[simp] theorem bootRecords_pending (s : State) : (bootRecords s).pending = s.pending := by simp [bootRecords]

@[simp] theorem setVcore_pending (mv : Nat → Nat) (s : State) : (setVcore mv s).pending = s.pending := by
  unfold setVcore
  grind [State.emit_pending, foldl_pending]

@[simp] theorem bootStep5_pending (s : State) : (bootStep5 s).pending = s.pending := by
  unfold bootStep5
  grind [startKinds_pending, enterRecovery_pending, measureStraps_pending, takeEffect_pending, setVcore_pending]

@[simp] theorem coldStep_pending (s : State) : (coldStep s).pending = s.pending := by
  unfold coldStep
  grind [newFeed_pending, loadStored_pending, setPow_pending, startKind_pending, enterRecovery_pending, endBoot_pending, bootRecords_pending,
      bootStep5_pending]

@[simp] theorem execColdBootStep_keepsQueue (s : State) : keepsQueue s (execColdBootStep s) := by simp [execColdBootStep]
@[simp] theorem coldLose_pending (s : State) : (coldLose s).pending = s.pending := by simp [coldLose]
@[simp] theorem startCold_pending (s : State) : (startCold s).pending = s.pending := rfl
@[simp] theorem execColdResetN_keepsQueue (rise gensel mgrEn : Bool) (bootsel : Nat) (s : State) :
    keepsQueue s (execColdResetN rise gensel mgrEn bootsel s) := by simp [execColdResetN]
@[simp] theorem noticeCards_pending (s : State) : (noticeCards s).pending = s.pending := by simp [noticeCards]
@[simp] theorem stopPorts_pending (s : State) : (stopPorts s).pending = s.pending := by simp [stopPorts]
@[simp] theorem startWarm_pending (cause : Nat) (s : State) : (startWarm cause s).pending = s.pending := by simp [startWarm]
@[simp] theorem startPowerDown_pending (s : State) : (startPowerDown s).pending = s.pending := by simp [startPowerDown]
@[simp] theorem drainParts_pending (s : State) : (drainParts s).pending = s.pending := by simp [drainParts]
@[simp] theorem warmLose_pending (s : State) : (warmLose s).pending = s.pending := by simp [warmLose]

@[simp] theorem warmBoot_pending (s : State) : (warmBoot s).pending = s.pending := by
  unfold warmBoot
  grind [startKind_pending, enterRecovery_pending, bootStep5_pending]

@[simp] theorem powerDownDone_pending (s : State) : (powerDownDone s).pending = s.pending := by simp [powerDownDone]

@[simp] theorem warmStep_pending (s : State) : (warmStep s).pending = s.pending := by
  unfold warmStep; split <;> simp

@[simp] theorem execWarmResetStep_keepsQueue (s : State) : keepsQueue s (execWarmResetStep s) := by simp [execWarmResetStep]

@[simp] theorem wakeFor_pending (s : State) : (wakeFor s).pending = s.pending := by
  unfold wakeFor; split <;> simp

@[simp] theorem execWarmResetN_keepsQueue (s : State) : keepsQueue s (execWarmResetN s) := by simp [execWarmResetN]
@[simp] theorem execWarmResetNRise_keepsQueue (s : State) : keepsQueue s (execWarmResetNRise s) := by simp [execWarmResetNRise]
@[simp] theorem execWarmReset_keepsQueue (s : State) : keepsQueue s (execWarmReset s) := by simp [execWarmReset]
@[simp] theorem execPwrdnReqN_keepsQueue (s : State) : keepsQueue s (execPwrdnReqN s) := by simp [execPwrdnReqN]
@[simp] theorem execMcWatchdog_keepsQueue (core : Nat) (s : State) : keepsQueue s (execMcWatchdog core s) := by simp [execMcWatchdog]
@[simp] theorem enterIdle_pending (s : State) : (enterIdle s).pending = s.pending := by simp [enterIdle]
@[simp] theorem powerCmd_pending (v : Nat) (s : State) (act : State → Nat × State) (hact : ∀ t, (act t).2.pending = t.pending) :
    (powerCmd v s act).pending = s.pending := by simp [powerCmd, hact]
@[simp] theorem execPowerCmdIdle_keepsQueue (s : State) : keepsQueue s (execPowerCmdIdle s) := by simp [execPowerCmdIdle]
@[simp] theorem execIdleAfter_keepsQueue (s : State) : keepsQueue s (execIdleAfter s) := by simp [execIdleAfter]
@[simp] theorem execIdleExit_keepsQueue (s : State) : keepsQueue s (execIdleExit s) := by simp [execIdleExit]
@[simp] theorem startEntry_pending (target : Nat) (s : State) : (startEntry target s).pending = s.pending := rfl
@[simp] theorem execPowerCmdStandby_keepsQueue (s : State) : keepsQueue s (execPowerCmdStandby s) := by simp [execPowerCmdStandby]
@[simp] theorem execPowerCmdSleep_keepsQueue (s : State) : keepsQueue s (execPowerCmdSleep s) := by simp [execPowerCmdSleep]
@[simp] theorem askSleep_pending (s : State) : (askSleep s).pending = s.pending := by simp [askSleep]
@[simp] theorem quietAccels_pending (sleep : Bool) (refused : List Nat) (s : State) :
    (quietAccels sleep refused s).pending = s.pending := by simp [quietAccels]
@[simp] theorem quietPorts_pending (sleep : Bool) (s : State) : (quietPorts sleep s).pending = s.pending := by simp [quietPorts]
@[simp] theorem aonTime_pending (s : State) : (aonTime s).pending = s.pending := rfl
@[simp] theorem sleepLose_pending (s : State) : (sleepLose s).pending = s.pending := rfl

@[simp] theorem reachState_pending (s : State) : (reachState s).pending = s.pending := by
  unfold reachState
  extract_lets st saved reached
  have hreached : reached.pending = s.pending := by simp [reached, saved]
  clear_value reached
  split
  · simp [hreached]
  · repeat' split
    all_goals simp [hreached]

@[simp] theorem entryStep_pending (refused : List Nat) (s : State) : (entryStep refused s).pending = s.pending := by
  unfold entryStep; split <;> simp

@[simp] theorem execEntryStepDone_keepsQueue (refused : List Nat) (s : State) :
    keepsQueue s (execEntryStepDone refused s) := by simp [execEntryStepDone]
@[simp] theorem execEntryDrain_keepsQueue (s : State) : keepsQueue s (execEntryDrain s) := by simp [execEntryDrain]
@[simp] theorem execI3cAddressMatch_keepsQueue (addr : Nat) (s : State) : keepsQueue s (execI3cAddressMatch addr s) := by simp [execI3cAddressMatch]
@[simp] theorem execWakeAt_keepsQueue (s : State) : keepsQueue s (execWakeAt s) := by simp [execWakeAt]
@[simp] theorem wakeDone_pending (s : State) : (wakeDone s).pending = s.pending := by simp [wakeDone]

@[simp] theorem resumeStandby_pending (s : State) : (resumeStandby s).pending = s.pending := by
  unfold resumeStandby
  extract_lets ports links accels
  have hports : ports.pending = s.pending := by
    rw [show ports = _ from rfl, foldl_pending _ (fun _ _ => setPort_pending _ _ _)]
  have hlinks : links.pending = s.pending := by
    rw [show links = _ from rfl, foldl_pending _ (fun _ _ => by simp), hports]
  have haccels : accels.pending = s.pending := by
    rw [show accels = _ from rfl, foldl_pending _ (fun _ _ => setAccel_pending _ _ _), hlinks]
  clear_value accels
  simpa using haccels

@[simp] theorem resumeSleep_pending (s : State) : (resumeSleep s).pending = s.pending := by
  unfold resumeSleep
  grind [partitionsUp_pending, startKind_pending, startKinds_pending, enterRecovery_pending, measureStraps_pending, setVcore_pending]

@[simp] theorem stageReady_pending (s : State) : (stageReady s).pending = s.pending := by
  unfold stageReady; split <;> simp

@[simp] theorem execWakeStageReady_keepsQueue (s : State) : keepsQueue s (execWakeStageReady s) := by simp [execWakeStageReady]
@[simp] theorem execWakeStageOverrun_keepsQueue (s : State) : keepsQueue s (execWakeStageOverrun s) := by simp [execWakeStageOverrun]
@[simp] theorem countDarn_pending (i : Nat) (s : State) : (countDarn i s).pending = s.pending := rfl
@[simp] theorem wearCluster_pending (die c : Nat) (s : State) : (wearCluster die c s).pending = s.pending := by simp [wearCluster]
@[simp] theorem clusterDarned_pending (die c : Nat) (s : State) : (clusterDarned die c s).pending = s.pending := by simp [clusterDarned]
@[simp] theorem askCluster_pending (s : State) : (askCluster s).pending = s.pending := by simp [askCluster]
@[simp] theorem execClusterDarn_keepsQueue (die c : Nat) (s : State) : keepsQueue s (execClusterDarn die c s) := by simp [execClusterDarn]
@[simp] theorem askPark_pending (core : Nat) (s : State) : (askPark core s).pending = s.pending := rfl
@[simp] theorem execCoreDarn_keepsQueue (s : State) : keepsQueue s (execCoreDarn s) := by simp [execCoreDarn]
@[simp] theorem execCoreParked_keepsQueue (s : State) : keepsQueue s (execCoreParked s) := by unfold execCoreParked; split <;> simp
@[simp] theorem execCoreParkTimeout_keepsQueue (s : State) : keepsQueue s (execCoreParkTimeout s) := by unfold execCoreParkTimeout; split <;> simp
@[simp] theorem wearCore_pending (core : Nat) (s : State) : (wearCore core s).pending = s.pending := by simp [wearCore]
@[simp] theorem wearArray_pending (die a : Nat) (s : State) : (wearArray die a s).pending = s.pending := by simp [wearArray]
@[simp] theorem clusterWorn_pending (die c : Nat) (s : State) : (clusterWorn die c s).pending = s.pending := by simp [clusterWorn]
@[simp] theorem countUnit_pending (key n : Nat) (s : State) : (countUnit key n s).2.pending = s.pending := rfl
@[simp] theorem execSelftest_keepsQueue (die kind unit errors : Nat) (passed : Bool) (s : State) :
    keepsQueue s (execSelftest die kind unit errors passed s) := by simp [execSelftest]
@[simp] theorem enterSram_pending (die array line : Nat) (s : State) : (enterSram die array line s).pending = s.pending := by simp [enterSram]

@[simp] theorem endByMedia_pending (wq idx : Nat) (s : State) : (endByMedia wq idx s).pending = s.pending := by
  unfold endByMedia; split <;> simp

@[simp] theorem execSramCorrection_keepsQueue (die array line : Nat) (e : SramError) (s : State) :
    keepsQueue s (execSramCorrection die array line e s) := by
  simp only [execSramCorrection]
  repeat' split
  all_goals simp

@[simp] theorem execMeshWireDarn_keepsQueue (link modul dir lane : Nat) (s : State) :
    keepsQueue s (execMeshWireDarn link modul dir lane s) := by simp [execMeshWireDarn]

/-! ## Rails, clocks and temperatures -/

@[simp] theorem countElec_pending (i n : Nat) (s : State) : (countElec i n s).pending = s.pending := rfl
@[simp] theorem railLost_pending (r : Nat) (s : State) : (railLost r s).pending = s.pending := by simp [railLost]
@[simp] theorem execPowerGoodLost_keepsQueue (rail ns : Nat) (s : State) : keepsQueue s (execPowerGoodLost rail ns s) := by simp [execPowerGoodLost]
@[simp] theorem execPowerGoodAsserted_keepsQueue (rail : Nat) (s : State) :
    keepsQueue s (execPowerGoodAsserted rail s) := by simp [execPowerGoodAsserted]
@[simp] theorem fabClockLost_pending (s : State) : (fabClockLost s).pending = s.pending := by simp [fabClockLost]
@[simp] theorem dropAccel_pending (e : Nat) (second : Bool) (s : State) : (dropAccel e second s).pending = s.pending := by simp [dropAccel]
@[simp] theorem pcieClockLost_pending (common : List Nat) (s : State) : (pcieClockLost common s).pending = s.pending := by simp [pcieClockLost]

@[simp] theorem sysClockLost_pending (s : State) : (sysClockLost s).pending = s.pending := by
  unfold sysClockLost; split <;> simp

@[simp] theorem execRefclkLoss_keepsQueue (clk : Nat) (ppm : Int) (common : List Nat) (s : State) :
    keepsQueue s (execRefclkLoss clk ppm common s) := by simp [execRefclkLoss]
@[simp] theorem execRefclkRestored_keepsQueue (clk : Nat) (ppm : Int) (s : State) :
    keepsQueue s (execRefclkRestored clk ppm s) := by simp [execRefclkRestored]
@[simp] theorem readPackage_pending (dt k : Nat) (t : Int) (s : State) : (readPackage dt k t s).pending = s.pending := by simp [readPackage]
@[simp] theorem readDie_pending (k : Nat) (s : State) : (readDie k s).pending = s.pending := by simp [readDie]
@[simp] theorem trip_pending (die : Nat) (s : State) : (trip die s).pending = s.pending := by simp [trip]

@[simp] theorem execTemperatureRead_keepsQueue (temps : List Int) (s : State) : keepsQueue s (execTemperatureRead temps s) := by
  simp only [execTemperatureRead, keepsQueue_next]
  repeat' split
  all_goals simp

@[simp] theorem stepDomain_pending (k : Nat) (s : State) : (stepDomain k s).pending = s.pending := by simp [stepDomain]
@[simp] theorem execThrottleStep_keepsQueue (s : State) : keepsQueue s (execThrottleStep s) := by simp [execThrottleStep]

@[simp] theorem execPowerLimitCheck_keepsQueue (power : Nat) (rails : List (Nat × Nat)) (s : State) :
    keepsQueue s (execPowerLimitCheck power rails s) := by
  simp only [execPowerLimitCheck, keepsQueue_next]
  repeat' split
  all_goals simp

@[simp] theorem execRegulatorFault_keepsQueue (rail status : Nat) (s : State) :
    keepsQueue s (execRegulatorFault rail status s) := by simp [execRegulatorFault]

/-! ## Farnen requests -/

@[simp] theorem countFarnen_pending (i : Nat) (s : State) : (countFarnen i s).pending = s.pending := rfl
@[simp] theorem admitRequest_pending (path : FPath) (f : FarnenFrame) (s : State) :
    (admitRequest path f s).2.pending = s.pending := by simp [admitRequest]

@[simp] theorem takeFrame_pending (path : FPath) (f : FarnenFrame) (s : State) : (takeFrame path f s).2.pending = s.pending := by
  unfold takeFrame
  repeat' split
  all_goals simp

@[simp] theorem execFarnenFrame_keepsQueue (path : FPath) (f : FarnenFrame) (s : State) :
    keepsQueue s (execFarnenFrame path f s) := by simp [execFarnenFrame]
@[simp] theorem execMailboxGo_keepsQueue (part : Nat) (accel : Bool) (vector : Nat) (irqEn go : Bool) (f : FarnenFrame) (s : State) :
    keepsQueue s (execMailboxGo part accel vector irqEn go f s) := by simp [execMailboxGo]
@[simp] theorem execSidebandRequest_keepsQueue (i3c : Bool) (f : FarnenFrame) (s : State) :
    keepsQueue s (execSidebandRequest i3c f s) := by simp [execSidebandRequest]
@[simp] theorem execSidebandRead_keepsQueue (s : State) : keepsQueue s (execSidebandRead s) := by simp [execSidebandRead]

@[simp] theorem onCode_pending (s : State) (code : Nat) (act : Request → Sender → Cmd → State → State)
    (hact : ∀ a b c t, (act a b c t).pending = t.pending) : (onCode s code act).pending = s.pending := by
  unfold onCode; split <;> simp [hact]

@[simp] theorem openSession_pending (w : Sender) (c : Cmd) (s : State) : (openSession w c s).pending = s.pending := by simp [openSession]
@[simp] theorem execOpen_keepsQueue (s : State) : keepsQueue s (execOpen s) := by simp [execOpen]
@[simp] theorem execCloseSession_keepsQueue (s : State) : keepsQueue s (execCloseSession s) := by simp [execCloseSession]
@[simp] theorem execBadCommand_keepsQueue (s : State) : keepsQueue s (execBadCommand s) := by unfold execBadCommand; split <;> simp
@[simp] theorem execSessionIdle_keepsQueue (session : Nat) (s : State) :
    keepsQueue s (execSessionIdle session s) := by unfold execSessionIdle; split <;> simp
@[simp] theorem execStagedRecordTimeout_keepsQueue (session : Nat) (s : State) :
    keepsQueue s (execStagedRecordTimeout session s) := by unfold execStagedRecordTimeout; split <;> simp

@[simp] theorem execRead_keepsQueue (s : State) : keepsQueue s (execRead s) := by
  simp only [execRead, keepsQueue_next]
  grind [finish_pending, onCode_pending]

@[simp] theorem execDescribe_keepsQueue (s : State) : keepsQueue s (execDescribe s) := by
  simp only [execDescribe, keepsQueue_next]
  grind [finish_pending, onCode_pending]

@[simp] theorem execNext_keepsQueue (s : State) : keepsQueue s (execNext s) := by
  simp only [execNext, keepsQueue_next]
  grind [finish_pending, onCode_pending]

@[simp] theorem storeSetting_pending (w : Sender) (e : Entry) (n : Nat) (d : List Byte) (s : State) :
    (storeSetting w e n d s).pending = s.pending := by simp [storeSetting]

@[simp] theorem writeGroup_pending (w : Sender) (s : State) (act : Group → Option Group) : (writeGroup w s act).2.pending = s.pending := by
  unfold writeGroup
  grind

@[simp] theorem groupField_pending (w : Sender) (c : Cmd) (s : State) : (groupField w c s).2.pending = s.pending := by simp [groupField]

@[simp] theorem arrayField_pending (w : Sender) (e : Entry) (c : Cmd) (low high : Nat) (ok : List Byte → Bool) (s : State) :
    (arrayField w e c low high ok s).2.pending = s.pending := by
  unfold arrayField; split <;> simp

@[simp] theorem writeEntry_pending (w : Sender) (e : Entry) (c : Cmd) (s : State) : (writeEntry w e c s).2.pending = s.pending := by simp [writeEntry]

@[simp] theorem execWrite_keepsQueue (s : State) : keepsQueue s (execWrite s) := by
  simp only [execWrite, keepsQueue_next]
  grind [finish_pending, onCode_pending, writeEntry_pending]

/-! ## Every command -/

/-- Each arm of `exec` by the law of its command. -/
theorem exec_keepsQueue (c : Instr) (s : State) : keepsQueue s (exec c s) := by
  unfold exec
  split <;> simp

/-- Settles O3, by the law of each command. -/
theorem commandsLeaveTheQueue : Obligations.CommandsLeaveTheQueue := exec_keepsQueue

end Sys2Proof.Machine
end

section
/-! SUPPORT. What the passing of time does: the tick, PPS_OUT, and the BAR4 accesses that are tried again. -/

namespace Sys2Proof.Machine

/-! ## The areas an access through BAR4 may change -/

/-- The areas a service of BAR4 accesses may change. -/
def barAreas : List Area := [.out, .link, .mem, .obs, .mtr, .counts, .elec]

/-- From `s` to `t` nothing changes but what a service of BAR4 accesses may. -/
abbrev barFrame (s t : State) : Prop := onlyChanges barAreas s t

section
variable {s t : State}

theorem emit_barFrame (o : Out) (h : barFrame s t) : barFrame s (t.emit o) :=
  onlyChanges_trans h (by simp [onlyChanges_iff, barAreas])

theorem emits_barFrame (os : List Out) (h : barFrame s t) : barFrame s (t.emits os) :=
  onlyChanges_trans h (by simp [onlyChanges_iff, barAreas])

theorem setEdrad_barFrame (link : Nat) (f : Edrad → Edrad) (h : barFrame s t) : barFrame s (setEdrad link f t) :=
  onlyChanges_trans h (by simp [onlyChanges_iff, barAreas])

theorem tally_barFrame (src n : Nat) (w : Who) (h : barFrame s t) : barFrame s (tally src n w t) :=
  onlyChanges_trans h (by simp [onlyChanges_iff, barAreas])

theorem countLink_barFrame (link a b : Nat) (h : barFrame s t) : barFrame s (countLink link a b t) :=
  onlyChanges_trans h (by simp [onlyChanges_iff, barAreas])

theorem countEdrad_barFrame (link i n : Nat) (h : barFrame s t) : barFrame s (countEdrad link i n t) :=
  onlyChanges_trans h (by simp [countEdrad, onlyChanges_iff, barAreas])

theorem mediaError_barFrame (a : Nat) (h : barFrame s t) : barFrame s (mediaError a t) :=
  onlyChanges_trans h (by simp [onlyChanges_iff, barAreas])

theorem devWrite_barFrame (a : Nat) (d : List Byte) (h : barFrame s t) : barFrame s (devWrite a d t) :=
  onlyChanges_trans h (by simp [onlyChanges_iff, barAreas])

theorem hubWrite_barFrame (a : Nat) (d : List Byte) (h : barFrame s t) : barFrame s (hubWrite a d t) :=
  onlyChanges_trans h (by simp [onlyChanges_iff, barAreas])

theorem repairUnits_barFrame (a n : Nat) (h : barFrame s t) : barFrame s (repairUnits a n t) :=
  onlyChanges_trans h (by simp [repairUnits, repairWhere, onlyChanges_iff, barAreas])

theorem hostBytesOf_barFrame (p n : Nat) (h : barFrame s t) : barFrame s (hostBytesOf p n t) :=
  onlyChanges_trans h (by simp [hostBytesOf, onlyChanges_iff, barAreas])

theorem logAer_barFrame (p : Nat) (h : barFrame s t) : barFrame s (logAer p t) :=
  onlyChanges_trans h (by simp [logAer, onlyChanges_iff, barAreas])

/-! ## Packets to a host, and the pieces of an access -/

theorem sendTlp_barFrame (link : Nat) (x : HostTlp) (h : barFrame s t) : barFrame s (sendTlp link x t) :=
  emit_barFrame _ (countEdrad_barFrame _ _ _ (emits_barFrame _ (setEdrad_barFrame _ _ (setEdrad_barFrame _ _ h))))

theorem toHost_barFrame (link : Nat) (x : HostTlp) (h : barFrame s t) : barFrame s (toHost link x t) := by
  simp only [toHost]
  split
  · exact h
  · split
    · exact sendTlp_barFrame _ _ h
    · exact setEdrad_barFrame _ _ h

theorem writeHost_barFrame (p : Piece) (strict : Bool) (d : List Byte) (h : barFrame s t) : barFrame s (writeHost p strict d t) := by
  simp only [writeHost]
  split
  · exact toHost_barFrame _ _ h
  · exact toHost_barFrame _ _ (setEdrad_barFrame _ _ h)

theorem noteAccess_barFrame (writing : Bool) (p : Piece) (n : Nat) (h : barFrame s t) : barFrame s (noteAccess writing p n t) := by
  unfold noteAccess
  extract_lets link counted
  have hlink (k m : Nat) {u : State} (hu : barFrame s u) : barFrame s (link k m u) := by
    simp only [link]
    split <;> exact countLink_barFrame _ _ _ hu
  split
  · exact hlink _ _ h
  · split
    · exact tally_barFrame _ _ _ h
    · refine hostBytesOf_barFrame _ _ ?_
      cases writing
      · exact toHost_barFrame _ _ (hlink _ _ h)
      · exact hlink _ _ h

theorem devStore_barFrame (a : Nat) (d : List Byte) (h : barFrame s t) : barFrame s (devStore a d t).2 := by
  unfold devStore
  split
  · exact repairUnits_barFrame _ _ (devWrite_barFrame _ _ h)
  · exact mediaError_barFrame _ (devWrite_barFrame _ _ h)

theorem hubStore_barFrame (a : Nat) (d : List Byte) (h : barFrame s t) : barFrame s (hubStore a d t).2 := by
  unfold hubStore
  split
  · exact repairUnits_barFrame _ _ (hubWrite_barFrame _ _ h)
  · exact mediaError_barFrame _ (hubWrite_barFrame _ _ h)

/-- What the store of one piece does, by where the piece lies. -/
def storeOne (strict : Bool) (p : Piece) (d : List Byte) (s : State) : Nat × State :=
  if p.target == 1 then devStore p.out d s
  else if p.target == 3 then hubStore p.out d s
  else if p.target == 2 then (d.length, writeHost p strict d s)
  else (d.length, s.emit (.write p.target p.port p.out d))

/-- Pieces are stored one by one, each access noted, up to the first that is not stored whole. -/
theorem storeWith_cons (strict : Bool) (p : Piece) (ps : List Piece) (d : List Byte) (s : State) :
    storeWith strict (p :: ps) d s =
      if (d.take p.len).isEmpty then (0, s)
      else
        let x := storeOne strict p (d.take p.len) s
        let u := noteAccess true p x.1 x.2
        if x.1 < (d.take p.len).length then (x.1, u)
        else (x.1 + (storeWith strict ps (d.drop p.len) u).1, (storeWith strict ps (d.drop p.len) u).2) := rfl

theorem storeOne_barFrame (strict : Bool) (p : Piece) (d : List Byte) (h : barFrame s t) : barFrame s (storeOne strict p d t).2 := by
  unfold storeOne
  split
  · exact devStore_barFrame _ _ h
  · split
    · exact hubStore_barFrame _ _ h
    · split
      · exact writeHost_barFrame _ _ _ h
      · exact emit_barFrame _ h

theorem storeWith_barFrame (strict : Bool) (ps : List Piece) (d : List Byte) (h : barFrame s t) : barFrame s (storeWith strict ps d t).2 := by
  induction ps generalizing d t with
  | nil => exact h
  | cons p ps ih =>
    have hp := noteAccess_barFrame true p (storeOne strict p (d.take p.len) t).1 (storeOne_barFrame strict p (d.take p.len) h)
    rw [storeWith_cons]
    dsimp only
    split
    · exact h
    · split
      · exact hp
      · exact ih _ hp

theorem storePieces_barFrame (ps : List Piece) (d : List Byte) (h : barFrame s t) : barFrame s (storePieces ps d t).2 :=
  storeWith_barFrame false ps d h

end

/-! ## One access, and all that wait -/

theorem barServe_barFrame (p a : Nat) (o : BarOp) (s : State) : barFrame s (barServe p a o s) := by
  have h := hostBytesOf_barFrame p (BarOp.len o) (onlyChanges_refl barAreas s)
  cases o with
  | read n =>
    simp only [barServe]
    split
    · exact emit_barFrame _ (mediaError_barFrame _ h)
    · exact emit_barFrame _ (noteAccess_barFrame _ _ _ h)
  | write d => exact storePieces_barFrame _ _ h
  | atomic code size operand compare =>
    simp only [barServe]
    split
    · exact emit_barFrame _ (mediaError_barFrame _ h)
    · exact emit_barFrame _ (storePieces_barFrame _ _ (noteAccess_barFrame _ _ _ h))

theorem barRefuse_barFrame (p : Nat) (o : BarOp) {s t : State} (h : barFrame s t) : barFrame s (barRefuse p o t) := by
  cases o with
  | write d => exact h
  | read n => exact emit_barFrame _ h
  | atomic code size operand compare => exact emit_barFrame _ h

theorem barAct_barFrame {p a : Nat} {o : BarOp} {s t : State} (h : barAct p a o s = some t) : barFrame s t := by
  have href : barFrame s s := onlyChanges_refl _ _
  rcases barAct_cases p a o s with hc | hc | hc | hc <;> rw [hc] at h <;> cases h
  · exact barRefuse_barFrame _ _ href
  · exact barRefuse_barFrame _ _ (logAer_barFrame _ href)
  · exact barServe_barFrame _ _ _ _

theorem barTurn_barFrame (x : Nat × Nat × BarOp) {s t : State} (h : barFrame s t) : barFrame s (barTurn t x) := by
  have hwait : barFrame s { t with link := { t.link with barWait := t.link.barWait ++ [x] } } :=
    onlyChanges_trans h (by simp [onlyChanges_iff, barAreas])
  simp only [barTurn]
  split
  · exact hwait
  · cases hact : barAct x.1 x.2.1 x.2.2 t with
    | none => exact hwait
    | some u => exact onlyChanges_trans h (barAct_barFrame hact)

theorem barTurns_barFrame (l : List (Nat × Nat × BarOp)) {s t : State} (h : barFrame s t) : barFrame s (l.foldl barTurn t) := by
  induction l generalizing t with
  | nil => exact h
  | cons x l ih => exact ih (barTurn_barFrame x h)

theorem serveBars_barFrame (s : State) : barFrame s (serveBars s) := by
  unfold serveBars
  split
  · exact onlyChanges_refl _ _
  · exact barTurns_barFrame _ (by simp [onlyChanges_iff, barAreas])

theorem serveBars_of_none_waiting {s : State} (h : s.link.barWait = []) : serveBars s = s := by simp [serveBars, h]

@[simp] theorem serveBars_time (s : State) : (serveBars s).time = s.time := serveBars_barFrame s .time rfl

/-! ## The tick and PPS_OUT -/

theorem fallPps_onlyChanges (s : State) : onlyChanges [.time, .out] s (fallPps s) := by
  unfold fallPps
  split
  · simp [onlyChanges_iff]
  · exact onlyChanges_refl _ _

@[simp] theorem fallPps_pending (s : State) : (fallPps s).pending = s.pending := by unfold fallPps; split <;> rfl

/-- PPS_OUT is high after the tick where it was high and has not been so for 100 ms; the rest of time stands. -/
theorem fallPps_time (s : State) : (fallPps s).time =
    { s.time with ppsOut := s.time.ppsOut && decide (s.time.now < s.time.ppsOutSince + 100000000) } := by
  unfold fallPps
  split
  · next h =>
    have h : s.time.ppsOut = true ∧ s.time.ppsOutSince + 100000000 ≤ s.time.now := by simpa [due, ms] using h
    simp [h.1, h.2]
  · next h =>
    have h : s.time.ppsOut = true → s.time.now < s.time.ppsOutSince + 100000000 := by simpa [due, ms] using h
    have hp : (s.time.ppsOut && decide (s.time.now < s.time.ppsOutSince + 100000000)) = s.time.ppsOut := by
      cases hp : s.time.ppsOut <;> simp [hp, h]
    rw [hp]

/-- A tick writes the two counts of time and nothing else. -/
theorem tickTime_writes (s : State) : ∃ now aon, tickTime s = { s with time := { s.time with now := now, aon := aon } } := by
  unfold tickTime
  split
  · exact ⟨_, s.time.aon, rfl⟩
  · exact ⟨_, _, rfl⟩

theorem tickTime_onlyChanges (s : State) : onlyChanges [.time] s (tickTime s) := by
  obtain ⟨_, _, h⟩ := tickTime_writes s
  simp [h, onlyChanges_iff]

@[simp] theorem tickTime_pending (s : State) : (tickTime s).pending = s.pending := by
  obtain ⟨_, _, h⟩ := tickTime_writes s
  rw [h]

theorem tickTime_of_running {s : State} (h : s.time.aon = none) :
    tickTime s = { s with time := { s.time with now := (s.time.now + 1) % m64 } } := by
  unfold tickTime; rw [h]

theorem tickTime_of_alwaysOn {s : State} {b n : Nat} (h : s.time.aon = some (b, n)) :
    tickTime s = { s with time := { s.time with now := (b + aonSteps (n + 1)) % m64, aon := some (b, n + 1) } } := by
  unfold tickTime; rw [h]

theorem aonSteps_eq (n : Nat) : aonSteps n = n * 32768 / 1000000000 * 1000000000 / 32768 := rfl

theorem m64_eq : m64 = 2 ^ 64 := rfl

/-- What a tick of time leaves as it was in the time of the device. -/
theorem tickTime_keeps (s : State) : (tickTime s).time.ppsOut = s.time.ppsOut ∧ (tickTime s).time.ppsOutSince = s.time.ppsOutSince ∧
    (tickTime s).time.islands = s.time.islands ∧ (tickTime s).time.state = s.time.state ∧
    (tickTime s).time.setPending = s.time.setPending := by
  obtain ⟨_, _, h⟩ := tickTime_writes s
  simp [h]

theorem idle_time (s : State) : (idle s).time = (fallPps (tickTime s)).time := serveBars_time _

theorem step_nil {s : State} (h : s.pending = []) : step s = .next (idle s) := by simp only [step, h]

/-- Settles O2: the tick writes the counts of time, PPS_OUT falls as `fallPps_time` says, and the BAR4 accesses served
afterwards leave time as it is. -/
theorem emptyQueueLetsTimePass : Obligations.EmptyQueueLetsTimePass := by
  intro s hs
  obtain ⟨hout, hsince, hislands, hstate, hset⟩ := tickTime_keeps s
  have ht : (idle s).time = _ := (idle_time s).trans (fallPps_time (tickTime s))
  have htick : onlyChanges [.time, .out] s (fallPps (tickTime s)) :=
    onlyChanges_trans (onlyChanges_mono (tickTime_onlyChanges s) fun a => by cases a <;> decide) (fallPps_onlyChanges _)
  refine ⟨idle s, step_nil hs, ?_, fun h => ?_, fun b n h => ?_, ?_, ?_, ?_, ?_, fun h => ?_, ?_⟩
  · simp [idle, serveBars_pending, hs]
  · rw [ht, tickTime_of_running h, m64_eq]
    exact ⟨rfl, h⟩
  · rw [ht, tickTime_of_alwaysOn h, aonSteps_eq, m64_eq]
    exact ⟨rfl, rfl⟩
  · simp [ht, hout, hsince]
  · simp [ht, hislands]
  · simp [ht, hstate]
  · simp [ht, hset]
  · rw [idle, serveBars_of_none_waiting]
    · exact htick
    · rw [htick .link rfl, h]
  · exact onlyChanges_trans (onlyChanges_mono htick fun a => by cases a <;> decide)
      (onlyChanges_mono (serveBars_barFrame _) fun a => by cases a <;> decide)

end Sys2Proof.Machine
end

section
/-! SUPPORT. What a die's failure leaves of the mesh and of the memories: one law for each operation, in the order of the model. -/

namespace Sys2Proof.Machine

/-! ## The mesh without the packets it holds -/

/-- The grade, the memories, and of the mesh what its routes are made from: all that no traffic changes. -/
structure MeshBase where
  grade : Nat
  mem : MemSt
  out : List Nat
  usedOut : List Nat
  switching : Bool
  failed : List Nat

def meshBaseOf (grade : Nat) (mem : MemSt) (m : MeshSt) : MeshBase := ⟨grade, mem, m.out, m.usedOut, m.switching, m.failed⟩

/-- That part of a state. It is read off three areas, so that `simp` sees through a write of any other area; laws that hold by
computation are proved by `(rfl)`, which leaves them rewrite rules of their own for use under `foldl_meshBase`. -/
@[simp] abbrev meshBase (s : State) : MeshBase := meshBaseOf s.grade s.mem s.mesh

/-- Packets under way and packets held are not part of it. -/
@[simp] theorem meshBaseOf_packets (g : Nat) (mem : MemSt) (m : MeshSt) (carry held : List Carried) :
    meshBaseOf g mem { m with carry := carry, held := held } = meshBaseOf g mem m := rfl

@[simp] theorem ite_meshBase (c : Prop) [Decidable c] (s t : State) :
    meshBase (if c then s else t) = if c then meshBase s else meshBase t := apply_ite meshBase c s t

@[simp] theorem foldl_meshBase {α : Type} (f : State → α → State) (hf : ∀ s a, meshBase (f s a) = meshBase s) (l : List α) (s : State) :
    meshBase (l.foldl f s) = meshBase s := by
  induction l generalizing s with
  | nil => rfl
  | cons a l ih => rw [List.foldl_cons, ih, hf]

/-! ## Packets set out and are held -/

@[simp] theorem waitAt_meshBase (die : Nat) (q : Queued) (s : State) : meshBase (waitAt die q s) = meshBase s := (rfl)

@[simp] theorem embark_meshBase (c : Carried) (s : State) : meshBase (embark c s) = meshBase s := by
  unfold embark
  split
  · split
    · rfl
    · split
      · exact waitAt_meshBase _ _ _
      · rfl
  · rfl

@[simp] theorem toMesh_meshBase (c : Carried) (s : State) : meshBase (toMesh c s) = meshBase s := by
  unfold toMesh
  split
  · rfl
  · exact embark_meshBase c s

@[simp] theorem sendOut_meshBase (src : Nat) (pkt : Packet) (spray : Nat) (mgmt : Bool) (die : Option Nat) (s : State) :
    meshBase (sendOut src pkt spray mgmt die s) = meshBase s := by simp [sendOut]

/-! ## Work queues -/

@[simp] theorem countWaiting_meshBase (wq : Nat) (s : State) : meshBase (countWaiting wq s) = meshBase s := by simp [countWaiting]

@[simp] theorem endNext_meshBase (wq st : Nat) (s : State) : meshBase (endNext wq st s) = meshBase s := by
  unfold endNext
  dsimp only
  split <;> simp

@[simp] theorem abandonWaits_meshBase (n : Nat) (s : State) : meshBase (abandonWaits n s) = meshBase s := by
  fun_induction abandonWaits n s <;> simp_all

@[simp] theorem settleWaits_meshBase (s : State) : meshBase (settleWaits s) = meshBase s := by simp [settleWaits]
@[simp] theorem setTile_meshBase (wq idx off : Nat) (f : Tile → Tile) (s : State) : meshBase (setTile wq idx off f s) = meshBase s := rfl
@[simp] theorem loseItem_meshBase (die : Nat) (s : State) : meshBase (loseItem die s) = meshBase s := (rfl)

/-! ## Connection ends -/

@[simp] theorem uncache_meshBase (h : Nat) (s : State) : meshBase (uncache h s) = meshBase s := rfl
@[simp] theorem leaveBy_meshBase (die dir : Nat) (pkt : Packet) (s : State) : meshBase (leaveBy die dir pkt s) = meshBase s := rfl
@[simp] theorem freeEnd_meshBase (h : Nat) (s : State) : meshBase (freeEnd h s) = meshBase s := rfl
@[simp] theorem queueRequest_meshBase (h : Nat) (d : Desc) (s : State) : meshBase (queueRequest h d s) = meshBase s := rfl
@[simp] theorem queueResponse_meshBase (h : Nat) (d : Desc) (s : State) : meshBase (queueResponse h d s) = meshBase s := rfl
@[simp] theorem endTransfersOn_meshBase (h cause : Nat) (s : State) : meshBase (endTransfersOn h cause s) = meshBase s := rfl

@[simp] theorem sendFrom_meshBase (h : Nat) (d : Desc) (psn : Nat) (payload : List Byte) (s : State) :
    meshBase (sendFrom h d psn payload s) = meshBase s := by simp [sendFrom]

@[simp] theorem sendConn_meshBase (kind dest handle epoch : Nat) (mgmt : Bool) (ws : List Nat) (s : State) :
    meshBase (sendConn kind dest handle epoch mgmt ws s) = meshBase s := by simp [sendConn]

@[simp] theorem sendReset_meshBase (e : End) (s : State) : meshBase (sendReset e s) = meshBase s := by simp [sendReset]
@[simp] theorem sendCloseReq_meshBase (h : Nat) (s : State) : meshBase (sendCloseReq h s) = meshBase s := by simp [sendCloseReq]
@[simp] theorem closeConns_meshBase (hs : List Nat) (s : State) : meshBase (closeConns hs s) = meshBase s := by simp [closeConns]
@[simp] theorem answerConn_meshBase (p res code h : Nat) (s : State) : meshBase (answerConn p res code h s) = meshBase s := by simp [answerConn]
@[simp] theorem leaveMember_meshBase (g rank : Nat) (s : State) : meshBase (leaveMember g rank s) = meshBase s := by simp [leaveMember]

/-! ## What a withdrawn mapping takes back -/

@[simp] theorem resendWithdrawn_meshBase (h psn : Nat) (s : State) : meshBase (resendWithdrawn h psn s) = meshBase s := by
  unfold resendWithdrawn
  dsimp only
  split <;> simp

@[simp] theorem withdrawRest_meshBase (h opnum off len status : Nat) (addr : Nat → Nat) (s : State) :
    meshBase (withdrawRest h opnum off len status addr s) = meshBase s := by
  unfold withdrawRest
  dsimp only
  split <;> simp

@[simp] theorem withdrawTree_meshBase (wq idx : Nat) (p : Desc → Bool) (status : Nat) (addr : Desc → Nat) (s : State) :
    meshBase (withdrawTree wq idx p status addr s) = meshBase s := by simp [withdrawTree]

@[simp] theorem withdrawAsk_meshBase (h opnum : Nat) (t : Tile) (status addr : Nat) (s : State) :
    meshBase (withdrawAsk h opnum t status addr s) = meshBase s := by simp [withdrawAsk]

@[simp] theorem endHeldTile_meshBase (wq : Nat) (o : Op) (t : Tile) (st : Nat) (ps : List Piece) (page : List Piece → Nat → Nat) (s : State) :
    meshBase (endHeldTile wq o t st ps page s) = meshBase s := by simp [endHeldTile]

@[simp] theorem squashTile_meshBase (i : Inval) (x : HeldTile) (s : State) : meshBase (squashTile i x s) = meshBase s := by
  unfold squashTile
  repeat' split
  all_goals simp

/-! ## Resets of partitions -/

@[simp] theorem squashInvals_meshBase (p : Nat) (s : State) : meshBase (squashInvals p s) = meshBase s := by simp [squashInvals]
@[simp] theorem dropTagged_meshBase (wq : Nat) (q : WorkQueue) (s : State) : meshBase (dropTagged wq q s) = meshBase s := by simp [dropTagged]
@[simp] theorem dropMembers_meshBase (gone : List Nat) (s : State) : meshBase (dropMembers gone s) = meshBase s := by
  unfold dropMembers
  refine foldl_meshBase _ ?_ _ _
  exact fun _ _ => rfl

@[simp] theorem freeQueues_meshBase (p key : Nat) (s : State) : meshBase (freeQueues p key s) = meshBase s := by simp [freeQueues]
@[simp] theorem resetEnd_meshBase (h : Nat) (s : State) : meshBase (resetEnd h s) = meshBase s := by simp [resetEnd]
@[simp] theorem resetEnds_meshBase (p key : Nat) (s : State) : meshBase (resetEnds p key s) = meshBase s := by simp [resetEnds]
@[simp] theorem resetJoins_meshBase (p key : Nat) (s : State) : meshBase (resetJoins p key s) = meshBase s := by simp [resetJoins]

@[simp] theorem endPending_meshBase (p : Nat) (s : State) : meshBase (endPending p s) = meshBase s := by
  unfold endPending
  dsimp only
  split <;> simp

@[simp] theorem beginReset_meshBase (p key trigger : Nat) (zero destroy : Bool) (s : State) :
    meshBase (beginReset p key trigger zero destroy s) = meshBase s := by simp [beginReset]

@[simp] theorem startReset_meshBase (p key trigger : Nat) (zero destroy : Bool) (s : State) :
    meshBase (startReset p key trigger zero destroy s) = meshBase s := by simp [startReset]

/-! ## Resets of a host's domain -/

@[simp] theorem countEdrad_meshBase (link i n : Nat) (s : State) : meshBase (countEdrad link i n s) = meshBase s := rfl
@[simp] theorem sendMessage_meshBase (link code : Nat) (args : List Nat) (s : State) : meshBase (sendMessage link code args s) = meshBase s := (rfl)
@[simp] theorem cardLost_meshBase (link : Nat) (s : State) : meshBase (cardLost link s) = meshBase s := (rfl)
@[simp] theorem isolate_meshBase (e : Nat) (byHost : Bool) (s : State) : meshBase (isolate e byHost s) = meshBase s := (rfl)

@[simp] theorem endHostReset_meshBase (link : Nat) (s : State) : meshBase (endHostReset link s) = meshBase s := by
  unfold endHostReset; split <;> simp

@[simp] theorem hostReset_meshBase (link trigger : Nat) (s : State) : meshBase (hostReset link trigger s) = meshBase s := by simp [hostReset]

/-! ## A port goes down -/

@[simp] theorem noteHwm_meshBase (p tc : Nat) (s : State) : meshBase (noteHwm p tc s) = meshBase s := (rfl)
@[simp] theorem unqueue_meshBase (p : Nat) (keep : Queued → Bool) (s : State) : meshBase (unqueue p keep s) = meshBase s := by simp [unqueue]
@[simp] theorem countPfc_meshBase (p prio i n : Nat) (s : State) : meshBase (countPfc p prio i n s) = meshBase s := rfl

@[simp] theorem endPause_meshBase (p prio : Nat) (s : State) : meshBase (endPause p prio s) = meshBase s := by
  unfold endPause; split <;> simp

@[simp] theorem stopPort_meshBase (p : Nat) (b : Bring) (s : State) : meshBase (stopPort p b s) = meshBase s := by simp [stopPort]
@[simp] theorem bringDown_meshBase (p : Nat) (s : State) : meshBase (bringDown p s) = meshBase s := by simp [bringDown]

/-! ## A die fails (R24) -/

@[simp] theorem handled_meshBase (die eps : Nat) (s : State) : meshBase (handled die eps s) = meshBase s := by simp [handled]
@[simp] theorem loseEngine_meshBase (die : Nat) (s : State) : meshBase (loseEngine die s) = meshBase s := by simp [loseEngine]
@[simp] theorem losePorts_meshBase (die : Nat) (s : State) : meshBase (losePorts die s) = meshBase s := by
  simp [losePorts, losePorts.countDrops]
@[simp] theorem loseAttach_meshBase (die : Nat) (s : State) : meshBase (loseAttach die s) = meshBase s := by simp [loseAttach]
@[simp] theorem loseTraffic_meshBase (die : Nat) (s : State) : meshBase (loseTraffic die s) = meshBase s := rfl

theorem insertNew_of_mem {l : List Nat} {n : Nat} (h : n ∈ l) : insertNew l n = l := by simp [insertNew, h]

theorem mem_insertNew_self (l : List Nat) (n : Nat) : n ∈ insertNew l n := by
  unfold insertNew
  split
  · next h => simpa using h
  · simp

theorem subset_insertNew (l : List Nat) (n : Nat) : l ⊆ insertNew l n := by
  unfold insertNew
  split <;> simp

/-- The dies of the mesh are the engine, port and attach dies and the hub. -/
theorem meshDies_code {die : Nat} (h : die ∈ meshDies) : die < 0x22 ∨ die = hubCode := by
  revert h die
  decide

/-- A die that fails is marked, and what else it takes with it is not of the mesh's routes: only a bridge takes links. -/
theorem failDie_meshBase {die : Nat} (h : die ∈ meshDies) (s : State) :
    meshBase (failDie die s) = { meshBase s with failed := insertNew s.mesh.failed die } := by
  unfold failDie
  split
  · next hf => rw [insertNew_of_mem (by simpa using hf)]; rfl
  · have hm : meshBase (loseTraffic die (rebuildPattern (record 3 0x2002 0xF die [die]
        { s with mesh := { s.mesh with failed := insertNew s.mesh.failed die } }))) =
        { meshBase s with failed := insertNew s.mesh.failed die } := by
      simp; rfl
    dsimp only
    split
    · rw [loseEngine_meshBase, hm]
    · split
      · rw [losePorts_meshBase, hm]
      · split
        · rw [loseAttach_meshBase, hm]
        · next hlow =>
          have hhub : die = hubCode := (meshDies_code h).resolve_left hlow
          simp only [hhub, beq_self_eq_true, if_true]
          rw [handled_meshBase, ← hhub]
          exact hm

end Sys2Proof.Machine
end

section
/-! SUPPORT. A mesh link leaves service, and the recomputed routes come into use (R22 to R24). -/

namespace Sys2Proof.Machine

/-! ## What the mesh's routes are made from -/

theorem meshBase_eq_iff (t : State) (b : MeshBase) : meshBase t = b ↔
    t.grade = b.grade ∧ t.mem = b.mem ∧ t.mesh.out = b.out ∧ t.mesh.usedOut = b.usedOut ∧ t.mesh.switching = b.switching ∧
      t.mesh.failed = b.failed := by
  cases b
  simp [meshBaseOf]

theorem populated_congr {s t : State} (h : t.grade = s.grade) : populated t = populated s := by
  funext code
  simp only [populated, engineDies, h]

theorem dieUp_congr {s t : State} (h : meshBase t = meshBase s) : dieUp t = dieUp s := by
  obtain ⟨hgrade, -, -, -, -, hfailed⟩ := (meshBase_eq_iff _ _).mp h
  funext code
  simp only [dieUp, populated_congr hgrade]
  rw [hfailed]; rfl

theorem linkJoins_congr {s t : State} (h : t.grade = s.grade) : linkJoins t = linkJoins s := by
  funext out a b
  simp only [linkJoins, populated_congr h]

theorem hasLink_congr {s t : State} (hg : t.grade = s.grade) (ho : t.mesh.out = s.mesh.out) : hasLink t = hasLink s := by
  funext die
  simp only [hasLink, linkJoins_congr hg, ho]

theorem meshNear_congr {s t : State} (h : t.grade = s.grade) (out : List Nat) (b n : Nat) : meshNear t out b n = meshNear s out b n := by
  induction n with
  | zero => rfl
  | succ n ih => simp only [meshNear, ih, linkJoins_congr h]

theorem routeOf_congr {s t : State} (h : t.grade = s.grade) (out : List Nat) (b n a : Nat) : routeOf t out b n a = routeOf s out b n a := by
  induction n generalizing a with
  | zero => rfl
  | succ n ih => simp only [routeOf, ih, meshNear_congr h, linkJoins_congr h]

theorem meshRoute_congr {s t : State} (h : meshBase t = meshBase s) (a b : Nat) : meshRoute t a b = meshRoute s a b := by
  obtain ⟨hgrade, -, -, hused, -, -⟩ := (meshBase_eq_iff _ _).mp h
  have hused : t.mesh.usedOut = s.mesh.usedOut := hused
  simp only [meshRoute, hused, meshNear_congr hgrade, routeOf_congr hgrade]

/-! ## A link goes out of service (R24) -/

/-- The link is recorded out of service and the Pattern Table rebuilt, before its dies are looked at. -/
def linkRecorded (link : Nat) (s : State) : State :=
  rebuildPattern (record 3 0x2001 0xF (bgCode (link / 2)) [link / 2, link]
    { s with mesh := { s.mesh with out := insertNew s.mesh.out link, switching := true } })

/-- A die left with no link fails. -/
def judgeDie (s : State) (die : Nat) : State := if hasLink s die then s else failDie die s

/-- The dies a mesh link joins. -/
def linkEnds (link : Nat) : Nat × Nat := (meshLinks[link]?).getD (0, 0)

theorem linkOut_eq (link : Nat) (s : State) :
    linkOut link s = judgeDie (judgeDie (linkRecorded link s) (linkEnds link).1) (linkEnds link).2 := by
  unfold linkOut linkEnds
  generalize (meshLinks[link]?).getD (0, 0) = ends
  rfl

theorem linkEnds_mem {link : Nat} (h : link < 18) : (linkEnds link).1 ∈ meshDies ∧ (linkEnds link).2 ∈ meshDies := by
  revert h link
  decide

theorem judgeDie_of_hasLink {s : State} {die : Nat} (h : hasLink s die = true) : judgeDie s die = s := by simp [judgeDie, h]

theorem linkRecorded_meshBase (link : Nat) (s : State) :
    meshBase (linkRecorded link s) = { meshBase s with out := insertNew s.mesh.out link, switching := true } := by
  simp [linkRecorded]; rfl

/-- To judge a die can but mark it failed, which it does where the die has no link. -/
theorem judgeDie_meshBase {die : Nat} (h : die ∈ meshDies) (s : State) :
    ∃ failed, meshBase (judgeDie s die) = { meshBase s with failed := failed } ∧ s.mesh.failed ⊆ failed ∧
      (hasLink s die = false → die ∈ failed) := by
  cases hl : hasLink s die with
  | true => exact ⟨s.mesh.failed, by rw [judgeDie_of_hasLink hl]; rfl, List.Subset.refl _, fun h => nomatch h⟩
  | false =>
    refine ⟨insertNew s.mesh.failed die, ?_, subset_insertNew _ _, fun _ => mem_insertNew_self _ _⟩
    rw [← failDie_meshBase h]
    simp [judgeDie, hl]

/-- Of the mesh's routes a link that leaves service changes what is out, that a switch is due, and the dies that fail for want of a link. -/
theorem linkOut_meshBase {link : Nat} (h : link < 18) (s : State) :
    ∃ failed, meshBase (linkOut link s) = { meshBase s with out := insertNew s.mesh.out link, switching := true, failed := failed } ∧
      ∀ d, d = (linkEnds link).1 ∨ d = (linkEnds link).2 → hasLink (linkRecorded link s) d = false → d ∈ failed := by
  obtain ⟨ha, hb⟩ := linkEnds_mem h
  obtain ⟨f, hf, -, hfa⟩ := judgeDie_meshBase ha (linkRecorded link s)
  obtain ⟨g, hg, hfg, hgb⟩ := judgeDie_meshBase hb (judgeDie (linkRecorded link s) (linkEnds link).1)
  obtain ⟨hgrade, -, hout, -, -, hfailed⟩ := (meshBase_eq_iff _ _).mp hf
  have hlink := hasLink_congr hgrade hout
  refine ⟨g, ?_, ?_⟩
  · rw [linkOut_eq, hg, hf, linkRecorded_meshBase]
  · rintro d (rfl | rfl) hd
    · exact hfg (hfailed ▸ hfa hd)
    · exact hgb (hlink ▸ hd)

/-- Where both its dies keep a link, the link is recorded and that is all. -/
theorem linkOut_of_linked {link : Nat} {s : State} (ha : hasLink (linkRecorded link s) (linkEnds link).1 = true)
    (hb : hasLink (linkRecorded link s) (linkEnds link).2 = true) : linkOut link s = linkRecorded link s := by
  rw [linkOut_eq, judgeDie_of_hasLink ha, judgeDie_of_hasLink hb]

theorem exec_meshLinkOutOfService {link : Nat} {s : State} (h : link < 18) (hup : hubUp s = true) (hserves : linkServes s link = true) :
    exec (.meshLinkOutOfService link) s = .next (linkOut link s) := by
  have hl : Nat.blt link 18 = true := by simpa using h
  show execMeshLinkOutOfService link s = _
  simp [execMeshLinkOutOfService, hl, hup, hserves]

/-! ## The recomputed routes come into use (R24) -/

theorem embark_onlyChanges (c : Carried) (s : State) : onlyChanges [.mesh, .fab] s (embark c s) := by
  unfold embark
  split
  · split
    · exact onlyChanges_refl _ _
    · split <;> simp [onlyChanges_iff, waitAt]
  · exact onlyChanges_refl _ _

@[simp] theorem embark_held (c : Carried) (s : State) : (embark c s).mesh.held = s.mesh.held := by
  unfold embark
  split
  · split
    · rfl
    · split <;> rfl
  · rfl

theorem embark_carry (c : Carried) (s : State) : s.mesh.carry ⊆ (embark c s).mesh.carry := by
  unfold embark
  split
  · split
    · exact List.Subset.refl _
    · split
      · exact List.Subset.refl _
      · exact List.subset_append_left _ _
  · exact List.Subset.refl _

/-- A packet that is no frame sets out on its route where no die of the route has failed. -/
theorem embark_sets_out {c : Carried} {s : State} {r : List Nat} (hf : c.frame = none) (hr : meshRoute s c.src c.dst = some r)
    (hup : r.all (dieUp s) = true) : { c with route := r } ∈ (embark c s).mesh.carry := by
  simp [embark, hr, hup, hf]

/-- Packets set out one after the other. -/
def embarkAll (l : List Carried) (s : State) : State := l.foldl (fun s c => embark c s) s

theorem embarkAll_cons (c : Carried) (l : List Carried) (s : State) : embarkAll (c :: l) s = embarkAll l (embark c s) := rfl

theorem embarkAll_meshBase (l : List Carried) (s : State) : meshBase (embarkAll l s) = meshBase s :=
  foldl_meshBase _ (fun s c => embark_meshBase c s) l s

theorem embarkAll_onlyChanges (l : List Carried) (s : State) : onlyChanges [.mesh, .fab] s (embarkAll l s) := by
  induction l generalizing s with
  | nil => exact onlyChanges_refl _ _
  | cons c l ih => exact onlyChanges_trans (embark_onlyChanges c s) (ih _)

theorem embarkAll_held (l : List Carried) (s : State) : (embarkAll l s).mesh.held = s.mesh.held := by
  induction l generalizing s with
  | nil => rfl
  | cons c l ih => rw [embarkAll_cons, ih, embark_held]

theorem embarkAll_carry (l : List Carried) (s : State) : s.mesh.carry ⊆ (embarkAll l s).mesh.carry := by
  induction l generalizing s with
  | nil => exact List.Subset.refl _
  | cons c l ih => exact List.Subset.trans (embark_carry c s) (ih _)

/-- Each of the packets sets out on the route it has: those before it change no route. -/
theorem embarkAll_sets_out {l : List Carried} {s : State} {c : Carried} {r : List Nat} (hc : c ∈ l) (hf : c.frame = none)
    (hr : meshRoute s c.src c.dst = some r) (hup : r.all (dieUp s) = true) : { c with route := r } ∈ (embarkAll l s).mesh.carry := by
  induction l generalizing s with
  | nil => cases hc
  | cons d l ih =>
    rw [embarkAll_cons]
    cases hc with
    | head => exact embarkAll_carry _ _ (embark_sets_out hf hr hup)
    | tail _ hc =>
      have hb := embark_meshBase d s
      exact ih hc (by rw [meshRoute_congr hb, hr]) (by rw [dieUp_congr hb, hup])

/-- The routes recomputed last are in use, and nothing is held any more. -/
def routesSwitched (s : State) : State :=
  landFrames (fun _ => true) { s with mesh := { s.mesh with usedOut := s.mesh.out, switching := false, held := [] } }

theorem routesSwitched_onlyChanges (s : State) : onlyChanges [.mesh, .fab] s (routesSwitched s) := by
  simp [onlyChanges_iff, routesSwitched, landFrames]

theorem exec_meshRouteSwitch {s : State} (hup : hubUp s = true) (hs : s.mesh.switching = true) :
    exec .meshRouteSwitch s = .next (if s.mesh.carry = [] then embarkAll s.mesh.held (routesSwitched s) else s) := by
  show execMeshRouteSwitch s = _
  simp [execMeshRouteSwitch, when_eq, hup, hs, embarkAll, routesSwitched]

/-- Settles O8: a link out of service by what it leaves of the mesh's routes, the switch by what each packet held finds when it sets out. -/
theorem meshLinkLeavesService : Obligations.MeshLinkLeavesService := by
  constructor
  · intro s link h hup hserves
    obtain ⟨failed, hbase, hfails⟩ := linkOut_meshBase h s
    have hlink : hasLink (linkOut link s) = hasLink (linkRecorded link s) := by
      obtain ⟨hg, -, ho, -⟩ := (meshBase_eq_iff _ _).mp hbase
      obtain ⟨hg', -, ho', -⟩ := (meshBase_eq_iff _ _).mp (linkRecorded_meshBase link s)
      exact hasLink_congr (hg.trans hg'.symm) (ho.trans ho'.symm)
    obtain ⟨-, hmem, hout, hused, hswitching, hfailed⟩ := (meshBase_eq_iff _ _).mp hbase
    refine ⟨_, exec_meshLinkOutOfService h hup hserves, hout, hswitching, hused, hmem, fun d hd hno => ?_, fun ha hb => ?_⟩
    · rw [hfailed]
      exact hfails d hd (hlink ▸ hno)
    · exact linkOut_of_linked (hlink ▸ ha) (hlink ▸ hb)
  · intro s hup hs
    have hexec := exec_meshRouteSwitch hup hs
    refine ⟨fun hcarry => by rw [hexec, if_neg hcarry], fun hcarry => ?_⟩
    rw [if_pos hcarry] at hexec
    have hbase := embarkAll_meshBase s.mesh.held (routesSwitched s)
    obtain ⟨-, -, -, hused, hswitching, -⟩ := (meshBase_eq_iff _ _).mp hbase
    refine ⟨_, hexec, hused, hswitching, embarkAll_held _ _, fun c hc hf r hr hroute => ?_, fun hheld => ?_,
      onlyChanges_trans (routesSwitched_onlyChanges s) (embarkAll_onlyChanges _ _)⟩
    · rw [meshRoute_congr hbase] at hr
      rw [dieUp_congr hbase] at hroute
      exact ⟨_, embarkAll_sets_out hc hf hr hroute, rfl, rfl, rfl, rfl⟩
    · rw [hheld]
      exact hcarry

end Sys2Proof.Machine
end

section
/-! SUPPORT. The distribution word, and an island's copy of device time when the word reaches it (R27, R28). -/

namespace Sys2Proof.Machine

/-! ## An event record below the fatal severity -/

/-- Only a fatal record asserts ALERT_N: any other changes the recorder and its counts. -/
theorem record_onlyChanges {sev : Nat} (h : sev ≠ 4) (code part die : Nat) (detail : List Nat) (s : State) :
    onlyChanges [.obs, .counts] s (record sev code part die detail s) := by
  have hsev : (sev == 4) = false := by simpa using h
  simp only [record, hsev, Bool.false_eq_true, if_false]
  split
  · exact onlyChanges_refl _ _
  · split
    · simp [onlyChanges_iff]
    · split <;> simp [onlyChanges_iff]

/-! ## One island's copy -/

/-- An island as the state holds it. -/
def islandOf (s : State) (i : Nat) : Island := tgetD s.time.islands i {}

theorem tgetD_islands (s : State) (i : Nat) : tgetD s.time.islands i {} = islandOf s i := rfl

def setIsland (i : Nat) (x : Island) (s : State) : State := { s with time := { s.time with islands := tset s.time.islands i x } }

theorem setIsland_onlyChanges (i : Nat) (x : Island) (s : State) : onlyChanges [.time] s (setIsland i x s) := by
  simp [onlyChanges_iff, setIsland]

theorem islandOf_setIsland (i : Nat) (x : Island) (s : State) : islandOf (setIsland i x s) i = x := tgetD_tset _ _ _ _

theorem islandOf_setIsland_ne {i j : Nat} (h : j ≠ i) (x : Island) (s : State) : islandOf (setIsland i x s) j = islandOf s j := by
  simp [islandOf, setIsland, tgetD_tset_eq, h]

theorem islandOf_congr {s t : State} (h : t.time = s.time) : islandOf t = islandOf s := by
  funext i
  rw [islandOf, h, islandOf]

/-! ## The word -/

/-- The value the last word gives an island, the island's own delay added (ps). -/
def wordValue (s : State) (i : Nat) : Int := ((1000 * s.time.lastWord + (islandOf s i).delay : Nat) : Int)

/-- An island within 2 ns of the word: its copy stands, and it is not suspect. -/
def islandKept (s : State) (i : Nat) (off : Int) : Island := { islandOf s i with suspect := false, copy := wordValue s i - off }

/-- The steps of an island within the last second, with one now. -/
def islandSteps (s : State) (i : Nat) : List Nat := ((islandOf s i).steps.filter fun x => !due s x sec) ++ [s.time.now]

/-- An island that steps has done so more than 16 times within the second. -/
def islandWorn (s : State) (i : Nat) : Bool := Nat.blt 16 (islandSteps s i).length

/-- An island further off: its copy steps to the word. -/
def islandStepped (s : State) (i : Nat) : Island :=
  { islandOf s i with copy := wordValue s i, suspect := true, steps := islandSteps s i, degraded := (islandOf s i).degraded || islandWorn s i }

/-- The step is recorded; the first that degrades the island rebuilds the Pattern Table. -/
def islandStep (s : State) (i : Nat) (off : Int) : State :=
  let t := record 3 0x2003 0xF (dieOfIsland i) [i, (off % (m64 : Int)).toNat] (setIsland i (islandStepped s i) s)
  if islandWorn s i && !(islandOf s i).degraded then rebuildPattern t else t

theorem islandStep_time (s : State) (i : Nat) (off : Int) : (islandStep s i off).time = (setIsland i (islandStepped s i) s).time := by
  unfold islandStep
  dsimp only
  split <;> simp

theorem islandOf_islandStep (s : State) (i : Nat) (off : Int) : islandOf (islandStep s i off) i = islandStepped s i := by
  rw [islandOf_congr (islandStep_time s i off), islandOf_setIsland]

theorem islandOf_islandStep_ne {i j : Nat} (h : j ≠ i) (s : State) (off : Int) : islandOf (islandStep s i off) j = islandOf s j := by
  rw [islandOf_congr (islandStep_time s i off), islandOf_setIsland_ne h]

theorem islandStep_onlyChanges (s : State) (i : Nat) (off : Int) : onlyChanges [.time, .obs, .counts, .far] s (islandStep s i off) := by
  have hset : onlyChanges [.time, .obs, .counts, .far] s (setIsland i (islandStepped s i) s) :=
    onlyChanges_mono (setIsland_onlyChanges _ _ _) fun a => by cases a <;> decide
  have hrec := onlyChanges_trans hset
    (onlyChanges_mono (record_onlyChanges (by decide : 3 ≠ 4) 0x2003 0xF (dieOfIsland i) [i, (off % (m64 : Int)).toNat] _)
      fun a => by cases a <;> decide)
  unfold islandStep
  dsimp only
  split
  · exact onlyChanges_trans hrec (by simp [onlyChanges_iff])
  · exact hrec

theorem exec_distributionWord {s : State} {t : Nat} (hs : serving s = true) (hnow : s.time.now ≤ t) (hword : s.time.lastWord + 1024 ≤ t)
    (ht : t < 2 ^ 64) :
    exec (.distributionWord t) s = .next ({ s with time := { s.time with now := t, lastWord := t } }.emit (.distribution t)) := by
  show execDistributionWord t s = _
  have hm : decide (t < m64) = true := decide_eq_true ht
  simp [execDistributionWord, hs, hnow, hword, hm]

theorem exec_distributionWordArrival {s : State} {i : Nat} (off : Int) (hi : i < 208) (hs : serving s = true)
    (hp : populated s (dieOfIsland i) = true) :
    exec (.distributionWordArrival i off) s =
      .next (if off.natAbs ≤ 2000 then setIsland i (islandKept s i off) s else islandStep s i off) := by
  have hi' : Nat.blt i 208 = true := by simpa using hi
  show execDistributionWordArrival i off s = _
  simp only [execDistributionWordArrival, hi', need_true, hs, hp, Bool.and_self, when_true]
  rfl

/-- Settles O9: the word by its own condition, its arrival by the two cases of the distance. -/
theorem distributionWordCorrectsIslands : Obligations.DistributionWordCorrectsIslands := by
  refine ⟨fun s t => exec_distributionWord, fun s i off hi hs hp => ?_⟩
  have hexec := exec_distributionWordArrival off hi hs hp
  simp only [tgetD_islands]
  by_cases hnear : off.natAbs ≤ 2000
  · have hfar : ¬2000 < off.natAbs := by omega
    rw [if_pos hnear] at hexec
    refine ⟨_, hexec, ?_, ?_, ?_, fun j hj => islandOf_setIsland_ne hj _ _, fun _ => ⟨setIsland_onlyChanges _ _ _, ?_⟩,
      fun h => absurd h hfar⟩
    · rw [islandOf_setIsland]; simp [islandKept, hfar]
    · rw [islandOf_setIsland]; rfl
    · rw [islandOf_setIsland, if_pos hnear]; rfl
    · rw [islandOf_setIsland]; rfl
  · rw [if_neg hnear] at hexec
    refine ⟨_, hexec, ?_, ?_, ?_, fun j hj => islandOf_islandStep_ne hj s off, fun h => absurd h hnear,
      fun _ => ⟨?_, ?_, islandStep_onlyChanges s i off⟩⟩
    · rw [islandOf_islandStep]; simpa [islandStepped] using hnear
    · rw [islandOf_islandStep]; rfl
    · rw [islandOf_islandStep, if_neg hnear, Int.sub_zero]; rfl
    · rw [islandOf_islandStep]; rfl
    · rw [islandOf_islandStep]; simp [islandStepped, islandWorn]

end Sys2Proof.Machine
end

section
/-! SUPPORT. The decision of an operation's outcome from its failed parts, and the cut of an operation into tiles. -/

namespace Sys2Proof.Machine

/-! ## The failed part with the lowest offset -/

theorem lowest_isSome {ps : List FailPart} (h : ps ≠ []) : ∃ p, lowest ps = some p := by
  cases ps with
  | nil => exact absurd rfl h
  | cons p ps =>
    cases hl : lowest ps with
    | none => exact ⟨p, by simp [lowest, hl]⟩
    | some q => by_cases hq : q.off < p.off <;> simp [lowest, hl, hq]

/-- The part taken is one of the parts, and none lies below it. -/
theorem lowest_least {ps : List FailPart} {p : FailPart} (h : lowest ps = some p) : p ∈ ps ∧ ∀ q ∈ ps, p.off ≤ q.off := by
  induction ps generalizing p with
  | nil => simp [lowest] at h
  | cons x ps ih =>
    cases hl : lowest ps with
    | none =>
      have hps : ps = [] := by
        by_contra hne
        obtain ⟨q, hq⟩ := lowest_isSome hne
        simp [hl] at hq
      obtain rfl : x = p := by simpa [lowest, hl] using h
      simp [hps]
    | some y =>
      obtain ⟨hy, hleast⟩ := ih hl
      by_cases hlt : y.off < x.off
      · obtain rfl : y = p := by simpa [lowest, hl, hlt] using h
        exact ⟨List.mem_cons_of_mem _ hy, List.forall_mem_cons.mpr ⟨hlt.le, hleast⟩⟩
      · obtain rfl : x = p := by simpa [lowest, hl, hlt] using h
        have hle : x.off ≤ y.off := Nat.le_of_not_lt hlt
        exact ⟨List.mem_cons_self, List.forall_mem_cons.mpr ⟨le_refl _, fun q hq => hle.trans (hleast q hq)⟩⟩

/-- What that part gives. -/
theorem decide_of_lowest {ps : List FailPart} {p : FailPart} (h : lowest ps = some p) :
    decide_ ps = if p.off = 0 then ⟨p.status, 0, 0, if hasAddr p.status then p.addr else 0⟩
      else ⟨stPartial, p.status, p.off, if hasAddr p.status then p.addr else 0⟩ := by
  simp [decide_, h]

/-- Settles O25: the part `lowest` takes decides, by its offset. -/
theorem lowestFailedOffsetDecides : Obligations.LowestFailedOffsetDecides := by
  refine ⟨rfl, fun ps hne => ?_⟩
  obtain ⟨p, hp⟩ := lowest_isSome hne
  obtain ⟨hmem, hleast⟩ := lowest_least hp
  refine ⟨p, hmem, hleast, fun h => ?_, fun h => ?_, ?_⟩
  · simp [decide_of_lowest hp, h]
  · simp [decide_of_lowest hp, h.ne']
  · rw [decide_of_lowest hp]
    split <;> rfl

/-! ## Tiles -/

/-- A tile is one of the operation where it starts inside it. -/
theorem lt_tileCount {size len i : Nat} (hs : 0 < size) : i < (len + size - 1) / size ↔ i * size < len := by
  rw [Nat.lt_iff_add_one_le, Nat.le_div_iff_mul_le hs, Nat.succ_mul]
  omega

theorem tilesOf_length (size len : Nat) : (tilesOf size len).length = (len + size - 1) / size := by simp [tilesOf]

theorem tilesOf_length_le {size len n : Nat} (hs : 0 < size) : (tilesOf size len).length ≤ n ↔ len ≤ n * size := by
  rw [tilesOf_length, ← Nat.not_lt, lt_tileCount hs, Nat.not_lt]

theorem tilesOf_getElem? {size len i : Nat} {x : Nat × Nat} (hs : 0 < size) :
    (tilesOf size len)[i]? = some x ↔ i * size < len ∧ (i * size, min size (len - i * size)) = x := by
  simp [tilesOf, List.getElem?_map, List.getElem?_eq_some_iff, lt_tileCount hs]

/-- The first n tiles cover the operation up to where the next would start. -/
theorem sum_tiles (size len n : Nat) : ((List.range n).map fun i => min size (len - i * size)).sum = min (n * size) len := by
  induction n with
  | zero => simp
  | succ n ih =>
    rw [List.range_succ, List.map_append, List.sum_append, ih, Nat.succ_mul]
    simp only [List.map_cons, List.map_nil, List.sum_singleton]
    omega

theorem tilesOf_sum {size : Nat} (len : Nat) (hs : 0 < size) : ((tilesOf size len).map Prod.snd).sum = len := by
  have hcover : len ≤ (len + size - 1) / size * size := by
    rw [← tilesOf_length, ← tilesOf_length_le hs]
  calc ((tilesOf size len).map Prod.snd).sum
      = ((List.range ((len + size - 1) / size)).map fun i => min size (len - i * size)).sum := by
        rw [tilesOf, List.map_map]; rfl
    _ = len := by rw [sum_tiles, min_eq_right hcover]

/-- Which of the ten sizes below 4 MiB TILE 0 takes, or 4 MiB. -/
theorem tileSize_zero (len : Nat) :
    (∃ k < 10, tileSize false 0 len = 2 ^ (12 + k) ∧ len ≤ 4 * 2 ^ (12 + k) ∧ ∀ j < k, 4 * 2 ^ (12 + j) < len) ∨
    (tileSize false 0 len = 2 ^ 22 ∧ ∀ j < 10, 4 * 2 ^ (12 + j) < len) := by
  cases hf : (List.range 10).find? fun k => Nat.ble len (4 * 2 ^ (12 + k)) with
  | some k =>
    obtain ⟨hle, hk, hbefore⟩ := List.find?_range_eq_some.mp hf
    refine .inl ⟨k, by simpa using hk, by simp [tileSize, hf], by simpa using hle, fun j hj => ?_⟩
    simpa [← Bool.not_eq_true] using hbefore j hj
  | none =>
    refine .inr ⟨by simp [tileSize, hf], fun j hj => ?_⟩
    simpa using List.find?_eq_none.mp hf j (List.mem_range.mpr hj)

/-- Settles O26: tile by tile, and by the size that TILE 0 takes. -/
theorem tilesCoverTheOperation : Obligations.TilesCoverTheOperation := by
  refine ⟨fun size len hs => ⟨fun i x hx => ?_, tilesOf_sum len hs⟩, fun len hlen => ?_⟩
  · obtain ⟨hi, rfl⟩ := (tilesOf_getElem? hs).mp hx
    refine ⟨rfl, ?_, ?_, ?_⟩ <;> omega
  · have hpos (j : Nat) : 0 < 2 ^ (12 + j) := Nat.two_pow_pos _
    have hmore {k : Nat} (h : ∀ j < k, 4 * 2 ^ (12 + j) < len) (j : Nat) (hj : j < k) : 4 < (tilesOf (2 ^ (12 + j)) len).length := by
      rw [← Nat.not_le, tilesOf_length_le (hpos j), Nat.not_le]
      exact h j hj
    rcases tileSize_zero len with ⟨k, hk, hsize, hfit, hsmaller⟩ | ⟨hsize, hsmaller⟩
    · have h21 : 2 ^ (12 + k) ≤ 2 ^ 21 := Nat.pow_le_pow_right (by decide) (by omega)
      exact ⟨k, hk.le, hsize, fun _ => ⟨(tilesOf_length_le (hpos k)).mpr hfit, hmore hsmaller⟩, fun h => by omega⟩
    · exact ⟨10, le_refl _, hsize, fun h => ⟨(tilesOf_length_le (hpos 10)).mpr (by omega), hmore hsmaller⟩, fun _ => rfl⟩

end Sys2Proof.Machine
end

section
/-! SUPPORT. What the queue engine does with a WQE that it takes, that passes its checks and that no wait holds. -/

namespace Sys2Proof.Machine

/-- The turn is taken, and the WQE does what its operation does once issued. -/
theorem issue_of_takesWqe {s : State} {wq : Nat} {w : Wqe} (htakes : takesWqe s wq w = true) (hfree : holdsNow s wq w = false)
    {pick : Wqe → Bool} (hpick : pick w = true) (act : Wqe → Nat → State → State) :
    issue s wq pick act = act w (wqOf (takeTurn wq (leaveIdle s)) wq).consumer (takeTurn wq (leaveIdle s)) := by
  simp only [takesWqe, Bool.and_eq_true, beq_iff_eq] at htakes
  obtain ⟨⟨⟨⟨hnext, hissuing⟩, hissuable⟩, hturn⟩, hcheck⟩ := htakes
  simp [issue, issueWith, hnext, hissuing, hissuable, hturn, hcheck, hfree, hpick]

/-- A move of length 0 ends at once, any other goes out over its connection (R82). -/
theorem issueMove_eq (wq : Nat) (w : Wqe) : issueMove wq w = (if w.length = 0 then issueDone else issueConn) wq w := by
  funext idx s
  by_cases h : w.length = 0 <;> simp [issueMove, h]

theorem opIs_of {n : Nat} {w : Wqe} (h : w.opcode = n) : opIs n w = true := by simp [opIs, h]

/-- Settles O16: each command picks the WQE of its opcode, and what it then does is its own action. -/
theorem queueEngineRunsTheOpcode : Obligations.QueueEngineRunsTheOpcode := by
  intro s wq w htakes hfree
  have runs {pick : Wqe → Bool} (hpick : pick w = true) (act : Wqe → Nat → State → State) := issue_of_takesWqe htakes hfree hpick act
  have moves {pick : Wqe → Bool} (hpick : pick w = true) : issue s wq pick (issueMove wq) =
      (if w.length = 0 then issueDone else issueConn) wq w (wqOf (takeTurn wq (leaveIdle s)) wq).consumer (takeTurn wq (leaveIdle s)) := by
    rw [runs hpick, issueMove_eq]
  exact ⟨fun h => congrArg _ (runs (by simp [opIs_of h]) _),
    fun h => congrArg _ (runs (opIs_of h) _),
    fun h => congrArg _ (moves (opIs_of h)),
    fun h => congrArg _ (moves (opIs_of h)),
    fun h hround => congrArg _ (moves (by simp [opIs_of h, hround])),
    fun hround => congrArg _ (moves hround),
    fun h => congrArg _ (runs (opIs_of h) _),
    fun h => congrArg _ (runs (opIs_of h) _),
    fun h => congrArg _ (runs (opIs_of h) _),
    fun h => congrArg _ (runs (opIs_of h) _),
    fun h => congrArg _ (runs (opIs_of h) _),
    fun h => congrArg _ (runs (opIs_of h) _),
    fun _ h => congrArg _ (runs (opIs_of h) _),
    fun h _ => congrArg _ (runs (opIs_of h) _)⟩

end Sys2Proof.Machine
end

section
/-! SUPPORT. The queues under the shared operations: what translations, accesses and packets leave of them, what a wait's end changes, and
the way from Running or Waiting to Draining. -/

namespace Sys2Proof.Machine

/-! ## Operations that leave the queues as they are -/

/-- A frame that does not name the queues leaves them as they were. -/
theorem q_of_barFrame {s t : State} (h : barFrame s t) : t.q = s.q := h .q rfl

@[simp] theorem noteAccess_q (writing : Bool) (p : Piece) (n : Nat) (s : State) : (noteAccess writing p n s).q = s.q :=
  q_of_barFrame (noteAccess_barFrame _ _ _ (onlyChanges_refl _ _))

@[simp] theorem noteReads_q (ps : List Piece) (s : State) : (noteReads ps s).q = s.q := by
  induction ps generalizing s with
  | nil => rfl
  | cons p ps ih => exact (ih _).trans (noteAccess_q _ _ _ _)

@[simp] theorem noteReads_time (ps : List Piece) (s : State) : (noteReads ps s).time = s.time := by
  induction ps generalizing s with
  | nil => rfl
  | cons p ps ih => exact (ih _).trans (noteAccess_barFrame _ _ _ (onlyChanges_refl _ _) .time rfl)

@[simp] theorem writePieces_q (ps : List Piece) (d : List Byte) (s : State) : (writePieces ps d s).q = s.q :=
  q_of_barFrame (storeWith_barFrame _ _ _ (onlyChanges_refl _ _))

@[simp] theorem toHost_q (link : Nat) (x : HostTlp) (s : State) : (toHost link x s).q = s.q :=
  q_of_barFrame (toHost_barFrame _ _ (onlyChanges_refl _ _))

@[simp] theorem raiseMsix_q (p v : Nat) (s : State) : (raiseMsix p v s).q = s.q := by
  unfold raiseMsix
  dsimp only
  split
  · split
    · rfl
    · exact toHost_q _ _ _
  · exact toHost_q _ _ _

/-- The areas that a translation may change. -/
def xlateAreas : List Area := [.xl, .mem, .obs, .elec, .counts, .free]

theorem regionAt_onlyChanges (die idx : Nat) (s : State) : onlyChanges xlateAreas s (regionAt die idx s).2 := by
  unfold regionAt
  split
  · exact onlyChanges_refl _ _
  · dsimp only
    split
    · simp [onlyChanges_iff, xlateAreas]
    · split <;> simp [onlyChanges_iff, xlateAreas]

theorem lookEnter_onlyChanges (die p pasid idx : Nat) (m : Map) (s : State) : onlyChanges xlateAreas s (lookEnter die p pasid idx m s) := by
  simp [onlyChanges_iff, xlateAreas, lookEnter]

theorem mediaError_onlyChanges (a : Nat) (s : State) : onlyChanges xlateAreas s (mediaError a s) := by
  simp [onlyChanges_iff, xlateAreas]

theorem xlatePage_onlyChanges (die p pasid idx : Nat) (r : BitVec 256) (va : Nat) (mayWalk : Bool) (s : State) :
    onlyChanges xlateAreas s (xlatePage die p pasid idx r va mayWalk s).2 := by
  have hwalk (n : Nat) :
      onlyChanges xlateAreas s (bumpXlate die p 2 n (tally 0x21 1 { die := die, part := p } (bumpXlate die p 1 1 s))) := by
    simp [onlyChanges_iff, xlateAreas]
  unfold xlatePage
  dsimp only
  split
  · exact onlyChanges_refl _ _
  split
  · exact onlyChanges_refl _ _
  split
  · exact onlyChanges_refl _ _
  split
  · simp [onlyChanges_iff, xlateAreas, noteRegion]
  split
  · exact onlyChanges_refl _ _
  split
  · exact onlyChanges_trans (hwalk _) (lookEnter_onlyChanges _ _ _ _ _ _)
  · exact onlyChanges_trans (hwalk _) (mediaError_onlyChanges _ _)
  · exact hwalk _

theorem xlateSpan_onlyChanges (die p pasid idx : Nat) (r : BitVec 256) (mayWalk : Bool) (fuel va len : Nat) (s : State) :
    onlyChanges xlateAreas s (xlateSpan die p pasid idx r mayWalk fuel va len s).2 := by
  induction fuel generalizing va len s with
  | zero => exact onlyChanges_refl _ _
  | succ fuel ih =>
    have hpage := xlatePage_onlyChanges die p pasid idx r va mayWalk s
    rcases hx : xlatePage die p pasid idx r va mayWalk s with ⟨_ | ⟨m | _ | _⟩, t⟩ <;> rw [hx] at hpage
    case some.map =>
      simp only [xlateSpan, hx]
      split
      · exact onlyChanges_refl _ _
      · generalize (if (m.target == 1) = true then _ else _) = n
        split
        · exact hpage
        · have hrest := onlyChanges_trans hpage (ih (va + n) (len - n) t)
          split <;> next hy => rw [hy] at hrest; exact hrest
    all_goals
      simp only [xlateSpan, hx]
      split
      · exact onlyChanges_refl _ _
      · exact hpage

theorem localSpan_onlyChanges (die p pasid key va len : Nat) (n : Need) (fits : Nat → Bool) (mayWalk : Bool) (s : State) :
    onlyChanges xlateAreas s (localSpan die p pasid key va len n fits mayWalk s).2 := by
  have hregion := regionAt_onlyChanges die (keyIndex key) s
  rcases hr : regionAt die (keyIndex key) s with ⟨_ | r, t⟩ <;> rw [hr] at hregion
  · simp only [localSpan, hr]
    exact hregion
  · have hx := xlateSpan_onlyChanges die p pasid (keyIndex key) r mayWalk (spanFuel len) va len t
    simp only [localSpan, hr]
    split
    · exact onlyChanges_trans hregion (by simp [onlyChanges_iff, xlateAreas])
    · have hboth := onlyChanges_trans hregion hx
      rcases hw : xlateSpan die p pasid (keyIndex key) r mayWalk (spanFuel len) va len t with ⟨_ | _ | _ | _, u⟩ <;>
        rw [hw] at hboth <;> simp only [xlate, hw]
      case fault => exact onlyChanges_trans hboth (by simp [onlyChanges_iff, xlateAreas])
      all_goals exact hboth

@[simp] theorem localSpan_q (die p pasid key va len : Nat) (n : Need) (fits : Nat → Bool) (mayWalk : Bool) (s : State) :
    (localSpan die p pasid key va len n fits mayWalk s).2.q = s.q := localSpan_onlyChanges _ _ _ _ _ _ _ _ _ _ .q rfl

@[simp] theorem localSpan_time (die p pasid key va len : Nat) (n : Need) (fits : Nat → Bool) (mayWalk : Bool) (s : State) :
    (localSpan die p pasid key va len n fits mayWalk s).2.time = s.time := localSpan_onlyChanges _ _ _ _ _ _ _ _ _ _ .time rfl

theorem wqOf_congr {s t : State} (h : t.q = s.q) (wq : Nat) : wqOf t wq = wqOf s wq := by simp [wqOf, h]

theorem cqOf_congr {s t : State} (h : t.q = s.q) (cq : Nat) : cqOf t cq = cqOf s cq := by simp [cqOf, h]

/-! ## What packets leave of the queues -/

@[simp] theorem embark_q (c : Carried) (s : State) : (embark c s).q = s.q := embark_onlyChanges c s .q rfl

@[simp] theorem toMesh_q (c : Carried) (s : State) : (toMesh c s).q = s.q := by
  unfold toMesh
  split
  · rfl
  · exact embark_q _ _

@[simp] theorem sendOut_q (src : Nat) (pkt : Packet) (spray : Nat) (mgmt : Bool) (die : Option Nat) (s : State) :
    (sendOut src pkt spray mgmt die s).q = s.q := by
  unfold sendOut
  split <;> exact toMesh_q _ _

@[simp] theorem sendFrom_q (h : Nat) (d : Desc) (psn : Nat) (payload : List Byte) (s : State) : (sendFrom h d psn payload s).q = s.q := by
  unfold sendFrom
  split
  · rfl
  · simp

@[simp] theorem sendAck_q (h : Nat) (immediate : Bool) (s : State) : (sendAck h immediate s).q = s.q := by simp [sendAck, sendControl]

@[simp] theorem ackable_q (h n : Nat) (s : State) : (ackable h n s).q = s.q := by
  unfold ackable
  split
  · rfl
  · dsimp only
    split <;> simp

@[simp] theorem ungate_q (h opnum : Nat) (s : State) : (ungate h opnum s).q = s.q := by simp [ungate]

/-! ## The next WQE of a queue -/

/-- The instant from which a wait counts is all that noting the next WQE writes. -/
theorem noteNext_eq (s : State) (q : WorkQueue) : ∃ since, noteNext s q = { q with waitSince := since } := by
  unfold noteNext
  split
  · split
    · exact ⟨_, rfl⟩
    · exact ⟨q.waitSince, rfl⟩
  · exact ⟨q.waitSince, rfl⟩

@[simp] theorem noteNext_state (s : State) (q : WorkQueue) : (noteNext s q).state = q.state := by
  obtain ⟨_, h⟩ := noteNext_eq s q; rw [h]

@[simp] theorem noteNext_cause (s : State) (q : WorkQueue) : (noteNext s q).cause = q.cause := by
  obtain ⟨_, h⟩ := noteNext_eq s q; rw [h]

@[simp] theorem noteNext_consumer (s : State) (q : WorkQueue) : (noteNext s q).consumer = q.consumer := by
  obtain ⟨_, h⟩ := noteNext_eq s q; rw [h]

@[simp] theorem noteNext_ops (s : State) (q : WorkQueue) : (noteNext s q).ops = q.ops := by
  obtain ⟨_, h⟩ := noteNext_eq s q; rw [h]

@[simp] theorem noteNext_fetched (s : State) (q : WorkQueue) : (noteNext s q).fetched = q.fetched := by
  obtain ⟨_, h⟩ := noteNext_eq s q; rw [h]

@[simp] theorem noteNext_refetches (s : State) (q : WorkQueue) : (noteNext s q).refetches = q.refetches := by
  obtain ⟨_, h⟩ := noteNext_eq s q; rw [h]

@[simp] theorem stepPast_state (s : State) (q : WorkQueue) : (stepPast s q).state = q.state := noteNext_state _ _
@[simp] theorem stepPast_cause (s : State) (q : WorkQueue) : (stepPast s q).cause = q.cause := noteNext_cause _ _
@[simp] theorem stepPast_ops (s : State) (q : WorkQueue) : (stepPast s q).ops = q.ops := noteNext_ops _ _

@[simp] theorem stepPast_consumer (s : State) (q : WorkQueue) : (stepPast s q).consumer = add32 q.consumer 1 := noteNext_consumer _ _

/-- The next WQE as the engine reads it is there where the next entry is. -/
theorem next_of_nextWqe {s : State} {wq : Nat} {w : Wqe} (h : nextWqe s wq = some w) : ∃ v, (wqOf s wq).next = some v := by
  obtain ⟨v, hv, -⟩ := Option.map_eq_some_iff.mp h
  exact ⟨v, hv⟩

/-! ## Draining -/

/-- A queue that runs or holds a wait drains from now on. -/
theorem drainQueue_of_active {q : WorkQueue} (c : Nat) (h : q.state = .running ∨ q.state = .waiting ∨ q.state = .paused) :
    drainQueue c q = { q with state := .draining, cause := c } := by
  unfold drainQueue
  rcases h with h | h | h <;> rw [h]

/-- A queue that drains goes on with its cause. -/
theorem drainQueue_of_draining {q : WorkQueue} (c : Nat) (h : q.state = .draining) : drainQueue c q = q := by
  unfold drainQueue
  rw [h]

@[simp] theorem countWaiting_q (wq : Nat) (s : State) : (countWaiting wq s).q = s.q := by
  unfold countWaiting
  dsimp only
  split <;> rfl

@[simp] theorem wqOf_countWaiting (wq k : Nat) (s : State) : wqOf (countWaiting wq s) k = wqOf s k := wqOf_congr (countWaiting_q _ _) _

theorem countWaiting_onlyChanges (wq : Nat) (s : State) : onlyChanges [.q, .obs] s (countWaiting wq s) := by
  unfold countWaiting
  dsimp only
  split
  · simp [onlyChanges_iff]
  · exact onlyChanges_refl _ _

/-- The operation that a WQE becomes that ends with a status before any packet. -/
def endedOp (s : State) (wq st : Nat) (w : Wqe) : Op :=
  firstStages s wq { idx := (wqOf s wq).consumer, wqe := w, result := some { status := st } }

/-- Its queue, past it. -/
def queuePast (s : State) (wq st : Nat) (w : Wqe) : WorkQueue :=
  stepPast s { wqOf s wq with ops := (wqOf s wq).ops ++ [endedOp s wq st w] }

/-- The end of the next WQE moves its queue past it and, where the status drains, into Draining; no other queue changes. -/
theorem wqOf_endNext {s : State} {wq : Nat} (st : Nat) {w : Wqe} (h : (wqOf s wq).next = some w) (k : Nat) :
    wqOf (endNext wq st s) k =
      if k = wq then (if drains st then drainQueue st (queuePast s wq st w) else queuePast s wq st w) else wqOf s k := by
  simp only [endNext, h]
  split <;> by_cases hk : k = wq <;> simp [wqOf_setWq, hk, queuePast, endedOp]

theorem endNext_of_none {s : State} {wq : Nat} (st : Nat) (h : (wqOf s wq).next = none) : endNext wq st s = s := by
  simp only [endNext, h]

theorem endNext_onlyChanges (wq st : Nat) (s : State) : onlyChanges [.q, .obs] s (endNext wq st s) := by
  cases h : (wqOf s wq).next with
  | none => rw [endNext_of_none st h]; exact onlyChanges_refl _ _
  | some w =>
    refine onlyChanges_trans (countWaiting_onlyChanges wq s) ?_
    simp only [endNext, h]
    split <;> simp [onlyChanges_iff]

/-! ## Waits that are abandoned -/

/-- What every end of an abandoned wait keeps, settling the waits keeps. -/
theorem settleWaits_keeps {P : State → Prop} (hend : ∀ s wq, P s → P (endNext wq stWaitAbandoned s)) {s : State} (h : P s) :
    P (settleWaits s) := by
  have key (n : Nat) : ∀ s, P s → P (abandonWaits n s) := by
    induction n with
    | zero => exact fun _ h => h
    | succ n ih =>
      intro s h
      unfold abandonWaits
      split
      · exact ih _ (hend _ _ h)
      · exact h
  exact key _ _ h

/-- Where no queue holds a wait there is none to abandon. -/
theorem settleWaits_of_no_wait {s : State} (h : ∀ x ∈ s.q.wqs, x.2.holds = false) : settleWaits s = s := by
  have hnone : (s.q.wqs.find? fun e => hasAbandoned s e.2) = none := by
    rw [List.find?_eq_none]
    intro x hx
    simp [hasAbandoned, h x hx]
  unfold settleWaits
  cases s.q.wqs.length with
  | zero => rfl
  | succ n => simp only [abandonWaits, hnone]

/-- A queue drains for a cause. -/
def drainsFor (wq cause : Nat) (s : State) : Prop := (wqOf s wq).state = .draining ∧ (wqOf s wq).cause = cause

/-- The end of a wait, its own or another's, leaves a draining queue draining for its cause. -/
theorem drainsFor_endNext {k cause : Nat} (wq st : Nat) {s : State} (h : drainsFor k cause s) : drainsFor k cause (endNext wq st s) := by
  cases hnext : (wqOf s wq).next with
  | none => rwa [endNext_of_none st hnext]
  | some w =>
    unfold drainsFor
    rw [wqOf_endNext st hnext]
    split
    · next hk =>
      subst hk
      have hpast : (queuePast s k st w).state = .draining ∧ (queuePast s k st w).cause = cause := by
        simpa [queuePast, drainsFor] using h
      split
      · rwa [drainQueue_of_draining st hpast.1]
      · exact hpast
    · exact h

theorem drainsFor_settleWaits {wq cause : Nat} {s : State} (h : drainsFor wq cause s) : drainsFor wq cause (settleWaits s) :=
  settleWaits_keeps (fun _ _ => drainsFor_endNext _ _) h

theorem drainsFor_toDraining {wq : Nat} (cause : Nat) {s : State} (h : (wqOf s wq).state = .running ∨ (wqOf s wq).state = .waiting) :
    drainsFor wq cause (toDraining wq cause s) := by
  refine drainsFor_settleWaits ?_
  unfold drainsFor
  rw [wqOf_setWq_self, wqOf_countWaiting, drainQueue_of_active cause (h.imp_right .inl)]
  exact ⟨rfl, rfl⟩

end Sys2Proof.Machine
end

section
/-! SUPPORT. The entries of a work queue before they issue: fetched, fetched again, held by a fence or a wait. -/

namespace Sys2Proof.Machine

/-! ## Fetches -/

/-- The local span that a fetch of `n` bytes of a queue's ring from count `c` reads. -/
def ringSpan (s : State) (wq c n : Nat) (t : State) : Local × State :=
  localSpan (dieOfWq wq) (Desc.part (wqOf s wq).desc) (Desc.pasid (wqOf s wq).desc) (Desc.ringKey (wqOf s wq).desc)
    (Desc.ringAddr (wqOf s wq).desc + 64 * (c % Desc.size (wqOf s wq).desc)) n .read anyTarget true t

theorem queues_of_ringSpan {s t s1 : State} {wq c n : Nat} {r : Local} (h : ringSpan s wq c n t = (r, s1)) :
    s1.q = t.q ∧ s1.time = t.time := by
  have hq : (ringSpan s wq c n t).2.q = t.q := localSpan_q _ _ _ _ _ _ _ _ _ _
  have htime : (ringSpan s wq c n t).2.time = t.time := localSpan_time _ _ _ _ _ _ _ _ _ _
  rw [h] at hq htime
  exact ⟨hq, htime⟩

/-- A fetch of a ring that passes its checks: refused, of a bad unit, or taken. -/
theorem exec_ringFetchReturn {s : State} {wq first : Nat} {es : List Wqe} {ps : List Piece} {s1 : State} (hrun : running s = true)
    (hlive : wqLive (wqOf s wq) = true) (hstate : (wqOf s wq).state ≠ .error) (hlen : es.length = 4) (hfirst : first % 4 = 0)
    (hspan : ringSpan s wq first (64 * es.length) s = (.ok ps, s1)) (refused : Bool) :
    exec (.ringFetchReturn wq first es refused) s = .next (
      if refused then toDraining wq stXlateLocal s1
      else if (badOffset s1 ps 0).isSome then toDraining wq stMediaError (noteBad ps s1)
      else setWq wq (fun q => noteNext (noteReads ps s1) (takeEntries (stampAt (noteReads ps s1) (dieOfWq wq))
        (ps.all fun p => p.target == 0 || p.target == 2) first (wqesOf es.length (readPieces s1 ps (es.flatMap wqeBytes))) q))
        (noteReads ps s1)) := by
  have hguard : (running s && wqLive (wqOf s wq) && (wqOf s wq).state != .error && es.length == 4 && first % 4 == 0) = true := by
    simp [hrun, hlive, hstate, hlen, hfirst]
  show execRingFetchReturn wq first es refused s = _
  unfold ringSpan at hspan
  simp only [execRingFetchReturn, hguard, when_true, hspan]

/-- What an entry that is fetched again does: it is taken, or it is tried again, or its queue drains. -/
theorem exec_entryRefetch {s : State} {wq c n at_ : Nat} {w : Wqe} {ps : List Piece} {s1 : State} (hrun : running s = true)
    (hstate : (wqOf s wq).state = .running ∨ (wqOf s wq).state = .waiting) (htries : tget (wqOf s wq).refetches c = some (n, at_))
    (hposted : sub32 c (wqOf s wq).consumer < (wqOf s wq).posted) (hfetched : tget (wqOf s wq).fetched c = none)
    (hdue : due s at_ 250 = true)
    (hspan : ringSpan s wq c 64 (tally 0x08 1 { die := dieOfWq wq, part := Desc.part (wqOf s wq).desc, queue := wq } s) = (.ok ps, s1))
    (hgood : badOffset s1 ps 0 = none) :
    let v := wqeOf (readPieces s1 ps (wqeBytes w))
    let t := noteReads ps s1
    exec (.entryRefetch wq ⟨c, w⟩) s = .next (
      if v.phase = ownerPhase (Desc.logSize (wqOf s wq).desc) c then
        setWq wq (fun q => noteNext t { q with fetched := tset q.fetched c v, fetchedAt := tset q.fetchedAt c (stampAt t (dieOfWq wq)),
                                               refetches := tdel q.refetches c }) t
      else if 4000 ≤ n ∧ c = (wqOf s wq).consumer then toDraining wq stEntryNotReady t
      else setWq wq (fun q => { q with refetches := tset q.refetches c (n + 1, t.time.now) }) t) := by
  have hactive : ((wqOf s wq).state == .running || (wqOf s wq).state == .waiting) = true := by simpa using hstate
  have hguard : (running s && ((wqOf s wq).state == .running || (wqOf s wq).state == .waiting) &&
      Nat.blt (sub32 c (wqOf s wq).consumer) (wqOf s wq).posted && (tget (wqOf s wq).fetched c).isNone && due s at_ 250) = true := by
    simp [hrun, hactive, hposted, hfetched, hdue]
  show execEntryRefetch wq ⟨c, w⟩ s = _
  unfold ringSpan at hspan
  simp only [execEntryRefetch, htries, hguard, when_true, hspan, hgood]
  simp

/-! ## Fences and waits -/

theorem exec_fenceRelease {s : State} {wq : Nat} {w : Wqe} (hrun : running s = true) (hstate : (wqOf s wq).state = .running)
    (hnext : (wqOf s wq).next = some w) (hfence : w.fence = true) (hposted : (wqOf s wq).posted ≠ 0) (hops : (wqOf s wq).ops = []) :
    exec (.fenceRelease wq) s = .next (setWq wq (fun q => noteNext s { q with fenceDone := true }) s) := by
  have hposted' : ((wqOf s wq).posted != 0) = true := by simpa using hposted
  show execFenceRelease wq s = _
  simp [execFenceRelease, hrun, hstate, hnext, hfence, hposted', hops]

theorem exec_waitConditionMet {s : State} {wq : Nat} {w : Wqe} (hrun : running s = true) (hstate : (wqOf s wq).state = .waiting)
    (hnext : nextWqe s wq = some w) (hholds : conditionHolds s w = true) :
    exec (.waitConditionMet wq) s =
      .next (setWq wq (fun q => { q with state := .running, waitDone := true }) (countWaiting wq s)) := by
  show execWaitConditionMet wq s = _
  simp [execWaitConditionMet, hrun, hstate, hnext, hholds]

/-- A wait whose limit has passed ends, once a completion slot is free (R97, R99). -/
theorem exec_waitTimeout {s : State} {wq since : Nat} {w : Wqe} (hrun : running s = true) (hwaits : (wqOf s wq).holds = true)
    (hnext : nextWqe s wq = some w) (hsince : (wqOf s wq).waitSince = some since) (hlimit : w.waitTimeout ≠ 0)
    (hlate : since + w.waitTimeout * 64000 ≤ s.time.now) (hopen : conditionHolds s w = false) :
    exec (.waitTimeout wq) s =
      .next (if slotFree s (wqOf s wq) = true then settleWaits (endNext wq stWaitTimeout s) else s) := by
  have hdue : due s since (w.waitTimeout * 64000) = true := Nat.ble_eq.mpr hlate
  show execWaitTimeout wq s = _
  simp [execWaitTimeout, hrun, hwaits, hnext, hsince, hlimit, hdue, hopen, when_eq]

/-- A queue that holds a wait is Waiting or Paused. -/
theorem state_of_holds {q : WorkQueue} (h : q.holds = true) : q.state = .waiting ∨ q.state = .paused := by
  simp only [WorkQueue.holds, Bool.or_eq_true, Bool.and_eq_true, beq_iff_eq] at h
  exact h.imp_right And.left

/-- The queue whose wait has run out drains, past its WQE, which ended with WAIT_TIMEOUT. -/
theorem wqOf_waitTimedOut {s : State} {wq : Nat} {w : Wqe} (hwaits : (wqOf s wq).holds = true) (hnext : (wqOf s wq).next = some w) :
    wqOf (endNext wq stWaitTimeout s) wq = { queuePast s wq stWaitTimeout w with state := .draining, cause := stWaitTimeout } := by
  have hactive : (queuePast s wq stWaitTimeout w).state = .waiting ∨ (queuePast s wq stWaitTimeout w).state = .paused := by
    simpa [queuePast] using state_of_holds hwaits
  rw [wqOf_endNext stWaitTimeout hnext, if_pos rfl, if_pos (by decide), drainQueue_of_active _ (.inr hactive)]

/-- Settles O14, command by command. -/
theorem queuesFetchFenceAndWait : Obligations.QueuesFetchFenceAndWait := by
  refine ⟨?_, ?_, fun s wq w => exec_fenceRelease, ?_, ?_⟩
  · intro s wq first es ps s1 hrun hlive hstate hlen hfirst hspan
    have hexec := exec_ringFetchReturn hrun hlive hstate hlen hfirst hspan
    refine ⟨fun hgood => ?_, fun hbad => ?_, ?_⟩
    · simpa [hgood] using hexec false
    · simpa [hbad] using hexec false
    · simpa using hexec true
  · intro s wq c n at_ w ps s1 hrun hstate htries hposted hfetched hdue hspan hgood
    have hexec := exec_entryRefetch (w := w) hrun hstate htries hposted hfetched hdue hspan hgood
    obtain ⟨hq, htime⟩ := queues_of_ringSpan hspan
    rw [tally_time] at htime
    have hwq : wqOf (noteReads ps s1) wq = wqOf s wq := wqOf_congr ((noteReads_q _ _).trans hq) _
    refine ⟨_, hexec, fun hphase => ?_, fun hphase hmore => ?_, fun hphase hn hc => ?_⟩
    · simp [hphase, hwq]
    · have hno : ¬(4000 ≤ n ∧ c = (wqOf s wq).consumer) := by omega
      simp [hphase, hno, hwq, htime]
    · rw [if_neg hphase, if_pos ⟨hn, hc⟩]
      exact drainsFor_toDraining _ (by rwa [hwq])
  · intro s wq w hrun hstate hnext hholds
    refine ⟨_, exec_waitConditionMet hrun hstate hnext hholds, by simp, fun k hk => by simp [wqOf_setWq_ne hk], ?_⟩
    exact onlyChanges_trans (countWaiting_onlyChanges wq s) (by simp [onlyChanges_iff])
  · intro s wq since w hrun hwaits hnext hsince hlimit hlate hopen
    have hexec := exec_waitTimeout hrun hwaits hnext hsince hlimit hlate hopen
    obtain ⟨v, hv⟩ := next_of_nextWqe hnext
    refine ⟨fun hfull => by rw [hexec, hfull, if_neg (by decide)], fun hfree => ⟨_, by rw [hexec, if_pos hfree], ?_⟩⟩
    rw [wqOf_waitTimedOut hwaits hv]
    refine ⟨rfl, rfl, by simp [queuePast], fun k hk => by rw [wqOf_endNext _ hv, if_neg hk], endNext_onlyChanges _ _ _,
      endedOp s wq stWaitTimeout v, by simp [queuePast], rfl, rfl⟩

end Sys2Proof.Machine
end

section
/-! SUPPORT. The end of a queue's oldest operation: its completion entry, its counter, and what both leave of the queues. -/

namespace Sys2Proof.Machine

/-! ## Completion entries and counters keep the work queues and the slots -/

/-- The work queues stand, and as many slots of every completion queue are reserved as before. -/
def keepsSlots (s t : State) : Prop := t.q.wqs = s.q.wqs ∧ ∀ k, (cqOf t k).reserved = (cqOf s k).reserved

section
variable {s t u : State}

theorem keepsSlots_refl (s : State) : keepsSlots s s := ⟨rfl, fun _ => rfl⟩

theorem keepsSlots_of_q (hq : u.q = t.q) (h : keepsSlots s t) : keepsSlots s u := by
  obtain ⟨hwqs, hslots⟩ := h
  exact ⟨by rw [hq, hwqs], fun k => by rw [cqOf_congr hq, hslots]⟩

theorem setCq_keepsSlots {cq : Nat} {f : ComplQueue → ComplQueue} (hf : ∀ c, (f c).reserved = c.reserved) (h : keepsSlots s t) :
    keepsSlots s (setCq cq f t) := by
  obtain ⟨hwqs, hslots⟩ := h
  refine ⟨hwqs, fun k => ?_⟩
  rw [cqOf_setCq]
  split
  · next hk => rw [hf, hk, hslots]
  · exact hslots k

/-- The counters are no part of it. -/
theorem ctrs_keepsSlots {ctrs : Tab Counter} (h : keepsSlots s t) : keepsSlots s { t with q := { t.q with ctrs := ctrs } } := h

theorem cqError_keepsSlots (cq : Nat) (h : keepsSlots s t) : keepsSlots s (cqError cq t) := by
  unfold cqError
  dsimp only
  split
  · exact h
  · exact keepsSlots_of_q (record_q _ _ _ _ _ _) (setCq_keepsSlots (fun _ => rfl) h)

/-- A local span of one of the outcomes leaves the queues as they were. -/
theorem q_of_localSpan {die p pasid key va len : Nat} {n : Need} {fits : Nat → Bool} {mayWalk : Bool} {r : Local}
    (h : localSpan die p pasid key va len n fits mayWalk s = (r, t)) : t.q = s.q := by
  have hq := localSpan_q die p pasid key va len n fits mayWalk s
  rwa [h] at hq

theorem writeCqe_keepsSlots (cq : Nat) (e : Cqe) (h : keepsSlots s t) : keepsSlots s (writeCqe cq e t) := by
  unfold writeCqe
  dsimp only
  split
  · exact h
  · split
    · next hspan =>
      have hspanned := keepsSlots_of_q (q_of_localSpan hspan) h
      split
      · exact cqError_keepsSlots _ hspanned
      · exact keepsSlots_of_q (tally_q _ _ _ _) (setCq_keepsSlots (fun _ => rfl) (keepsSlots_of_q (writePieces_q _ _ _) hspanned))
    · next hspan => exact cqError_keepsSlots _ (keepsSlots_of_q (q_of_localSpan hspan) h)

theorem signalCq_keepsSlots (cq : Nat) (h : keepsSlots s t) : keepsSlots s (signalCq cq t) := by
  unfold signalCq
  split
  · refine setCq_keepsSlots (fun _ => rfl) ?_
    unfold raiseCq
    dsimp only
    split
    · exact keepsSlots_of_q (raiseMsix_q _ _ _) h
    · exact h
  · exact h

theorem postCqe_keepsSlots (cq : Nat) (e : Cqe) (signal : Bool) (h : keepsSlots s t) : keepsSlots s (postCqe cq e signal t) := by
  unfold postCqe
  dsimp only
  split
  · exact signalCq_keepsSlots _ (writeCqe_keepsSlots _ _ h)
  · exact writeCqe_keepsSlots _ _ h

theorem dropMirror_keepsSlots (ctr : Nat) (h : keepsSlots s t) : keepsSlots s (dropMirror ctr t) := by
  unfold dropMirror
  split
  · exact h
  · extract_lets quiet
    split
    · exact h
    · exact keepsSlots_of_q (record_q _ _ _ _ _ _) (ctrs_keepsSlots h)

theorem writeMirror_keepsSlots (ctr : Nat) (h : keepsSlots s t) : keepsSlots s (writeMirror ctr t) := by
  unfold writeMirror
  split
  · exact h
  · split
    · exact h
    · split
      · next hspan =>
        have hspanned := keepsSlots_of_q (q_of_localSpan hspan) h
        split
        · exact dropMirror_keepsSlots _ hspanned
        · exact keepsSlots_of_q (writePieces_q _ _ _) hspanned
      · next hspan => exact dropMirror_keepsSlots _ (keepsSlots_of_q (q_of_localSpan hspan) h)

theorem addCounter_keepsSlots (ctr n : Nat) (h : keepsSlots s t) : keepsSlots s (addCounter ctr n t) := by
  unfold addCounter
  split
  · exact writeMirror_keepsSlots _ (ctrs_keepsSlots h)
  · exact h

end

/-! ## No queue holds a wait -/

/-- No queue holds a wait. -/
def noWait (s : State) : Prop := ∀ x ∈ s.q.wqs, x.2.holds = false

theorem noWait_of_wqs {s t : State} (h : t.q.wqs = s.q.wqs) (hs : noWait s) : noWait t := by rwa [noWait, h]

theorem holds_of_noWait {s : State} (h : noWait s) (wq : Nat) : (wqOf s wq).holds = false := by
  unfold wqOf tgetD
  cases hq : tget s.q.wqs wq with
  | none => rfl
  | some q => exact h _ (mem_of_tget hq)

theorem noWait_setWq {s : State} {wq : Nat} {f : WorkQueue → WorkQueue} (hf : (f (wqOf s wq)).holds = false) (h : noWait s) :
    noWait (setWq wq f s) := by
  have hall : (setWq wq f s).q.wqs.all (fun x => !x.2.holds) = true :=
    all_tset _ _ (List.all_eq_true.mpr fun x hx => by simp [h x hx]) (congrArg (!·) hf)
  intro x hx
  simpa using List.all_eq_true.mp hall x hx

/-! ## The entry of an ended WQE -/

/-- What the entry of a WQE of a queue leaves: of the queue all but the count of WQEs that no entry covers, the other queues, and the
slots (R101). -/
def entryWritten (wq : Nat) (s t : State) : Prop :=
  (∃ n, wqOf t wq = { wqOf s wq with uncovered := n }) ∧ (∀ k, k ≠ wq → wqOf t k = wqOf s k) ∧
  (∀ k, (cqOf t k).reserved = (cqOf s k).reserved) ∧ (noWait s → noWait t)

theorem entryWritten_of_keepsSlots (wq : Nat) {s t : State} (h : keepsSlots s t) : entryWritten wq s t := by
  obtain ⟨hwqs, hslots⟩ := h
  have hwq (k : Nat) : wqOf t k = wqOf s k := by simp [wqOf, hwqs]
  exact ⟨⟨(wqOf s wq).uncovered, hwq wq⟩, fun k _ => hwq k, hslots, noWait_of_wqs hwqs⟩

theorem entryWritten_setWq (wq : Nat) (n : WorkQueue → Nat) {s t : State} (h : keepsSlots s t) :
    entryWritten wq s (setWq wq (fun q => { q with uncovered := n q }) t) := by
  obtain ⟨hwqs, hslots⟩ := h
  have hwq (k : Nat) : wqOf t k = wqOf s k := by simp [wqOf, hwqs]
  refine ⟨⟨n (wqOf s wq), by rw [wqOf_setWq_self, hwq]⟩, fun k hk => by rw [wqOf_setWq_ne hk, hwq], hslots, fun hs => ?_⟩
  have ht := noWait_of_wqs hwqs hs
  exact noWait_setWq (holds_of_noWait ht wq) ht

theorem endEntry_entryWritten (wq : Nat) (q : WorkQueue) (o : Op) (r : Result) (s : State) : entryWritten wq s (endEntry wq q o r s) := by
  unfold endEntry
  dsimp only
  split
  · exact entryWritten_of_keepsSlots _ (postCqe_keepsSlots _ _ _ (keepsSlots_refl s))
  split
  · exact entryWritten_setWq _ _ (postCqe_keepsSlots _ _ _ (keepsSlots_refl s))
  split
  · exact entryWritten_setWq _ _ (writeCqe_keepsSlots _ _ (keepsSlots_refl s))
  · exact entryWritten_setWq _ _ (keepsSlots_refl s)

/-! ## The end of an operation -/

theorem comparePointers_q (die : Nat) (s : State) : (comparePointers die s).q = s.q := by
  unfold comparePointers
  split
  · rfl
  · simp

@[simp] theorem sampleEnd_q (wq : Nat) (o : Op) (status : Nat) (s : State) : (sampleEnd wq o status s).q = s.q := by
  unfold sampleEnd
  split
  · rfl
  · exact comparePointers_q _ _

/-- The local notification of an operation that ended with OK (R98). -/
def notifyLocally (o : Op) (r : Result) (s : State) : State :=
  if r.status == stOk && o.wqe.notify then addCounter o.wqe.lcounter 1 s else s

theorem notifyLocally_keepsSlots (o : Op) (r : Result) {s t : State} (h : keepsSlots s t) : keepsSlots s (notifyLocally o r t) := by
  unfold notifyLocally
  split
  · exact addCounter_keepsSlots _ _ h
  · exact h

/-- A queue without the operation that ended, which counts where it ended with OK. -/
def withoutOp (idx status : Nat) (q : WorkQueue) : WorkQueue :=
  { q with ops := q.ops.filter fun x => x.idx != idx, completed := if status == stOk then (q.completed + 1) % m64 else q.completed }

/-- A queue that is done may be Idle instead of Running. -/
theorem idleIfDone_eq (q : WorkQueue) : idleIfDone q = { q with state := (idleIfDone q).state } := by
  unfold idleIfDone
  split <;> rfl

theorem holds_idleIfDone {q : WorkQueue} (h : q.holds = false) : (idleIfDone q).holds = false := by
  unfold idleIfDone
  split
  · rfl
  · exact h

@[simp] theorem idleIfDone_ops (q : WorkQueue) : (idleIfDone q).ops = q.ops := by rw [idleIfDone_eq]
@[simp] theorem idleIfDone_completed (q : WorkQueue) : (idleIfDone q).completed = q.completed := by rw [idleIfDone_eq]
@[simp] theorem idleIfDone_producer (q : WorkQueue) : (idleIfDone q).producer = q.producer := by rw [idleIfDone_eq]
@[simp] theorem idleIfDone_consumer (q : WorkQueue) : (idleIfDone q).consumer = q.consumer := by rw [idleIfDone_eq]

theorem settled_q {s t : State} (hq : t.q = s.q) (h : noWait s) : (noteBusy (settleWaits t)).q = s.q := by
  rw [noteBusy_q, settleWaits_of_no_wait (noWait_of_wqs (by rw [hq]) h), hq]

/-- Where no queue holds a wait, the end of an operation changes the queues by its entry, its slot, its counter and its removal. -/
theorem finishOp_q (wq : Nat) (o : Op) (r : Result) {s : State} (h : noWait s) :
    ∃ t u, entryWritten wq s t ∧ keepsSlots (releaseSlot (Desc.cq (wqOf s wq).desc) t) u ∧
      (finishOp wq o r s).q = (setWq wq (fun q => idleIfDone (withoutOp o.idx r.status q)) u).q := by
  have hentry := endEntry_entryWritten wq (wqOf s wq) o r s
  have hnotified := notifyLocally_keepsSlots o r (keepsSlots_refl (releaseSlot (Desc.cq (wqOf s wq).desc) (endEntry wq (wqOf s wq) o r s)))
  refine ⟨_, _, hentry, hnotified, settled_q ?_ ?_⟩
  · rw [sampleEnd_q]
    split <;> simp [withoutOp, notifyLocally]
  · obtain ⟨-, -, -, hwait⟩ := hentry
    have hnone := noWait_of_wqs hnotified.1 (hwait h)
    exact noWait_setWq (holds_idleIfDone (holds_of_noWait hnone wq)) hnone

/-- What that leaves of the queues. -/
theorem finishOp_queues (wq : Nat) (o : Op) (r : Result) {s : State} (h : noWait s) :
    (∃ n, wqOf (finishOp wq o r s) wq = idleIfDone (withoutOp o.idx r.status { wqOf s wq with uncovered := n })) ∧
    (∀ k, k ≠ wq → wqOf (finishOp wq o r s) k = wqOf s k) ∧
    (cqOf (finishOp wq o r s) (Desc.cq (wqOf s wq).desc)).reserved = (cqOf s (Desc.cq (wqOf s wq).desc)).reserved - 1 := by
  obtain ⟨t, u, ⟨⟨n, hself⟩, hother, hslots, -⟩, ⟨hwqs, hreserved⟩, hq⟩ := finishOp_q wq o r h
  have hwq (k : Nat) : wqOf u k = wqOf t k := by rw [wqOf, hwqs]; rfl
  refine ⟨⟨n, ?_⟩, fun k hk => ?_, ?_⟩
  · rw [wqOf_congr hq, wqOf_setWq_self, hwq, hself]
  · rw [wqOf_congr hq, wqOf_setWq_ne hk, hwq, hother k hk]
  · rw [cqOf_congr hq, cqOf_setWq, hreserved, releaseSlot, cqOf_setCq_self, hslots]

/-- A decided operation without flushes that is its queue's oldest ends, the ACKs that waited for its flush gone first. -/
theorem exec_operationCompletion {s : State} {wq idx : Nat} {o : Op} {r : Result} {rest : List Op} (ext : List Byte)
    (hrun : running s = true) (hops : (wqOf s wq).ops = o :: rest) (hidx : o.idx = idx) (hresult : o.result = some r)
    (hflush : o.flush = none) (hxpath : o.wqe.xpath = false) (hcoll : o.wqe.opcode ≠ opCollStep)
    (hopen : ringOpen (ungate o.handle o.opnum s) (Desc.cq (wqOf s wq).desc) = true) :
    exec (.operationCompletion wq idx ext) s = .next (finishOp wq o r (ungate o.handle o.opnum s)) := by
  have hfind : findOp s wq idx = some o := by simp [findOp, hops, hidx]
  have hungate : wqOf (ungate o.handle o.opnum s) wq = wqOf s wq := wqOf_congr (ungate_q _ _ _) _
  have hpaths : addPaths (flushPaths s o) (collPaths s wq o) = [] := by simp [flushPaths, collPaths, addPaths, hxpath]
  show execOperationCompletion wq idx ext s = _
  simp [execOperationCompletion, completeOp, hfind, hrun, hresult, outcomeOf, hcoll, hflush, hpaths, endOldest, hungate, hops, hidx, hopen]

/-- Settles O30: the queues after `finishOp`, where settling the waits finds none. -/
theorem oldestOperationEnds : Obligations.OldestOperationEnds := by
  intro s wq idx ext o r rest hrun hops hidx hresult hflush hxpath hcoll hopen hwaits
  have hq : (ungate o.handle o.opnum s).q = s.q := ungate_q _ _ _
  obtain ⟨⟨n, hself⟩, hother, hslot⟩ := finishOp_queues wq o r (noWait_of_wqs (congrArg QueueSt.wqs hq) hwaits)
  simp only [wqOf_congr hq, cqOf_congr hq] at hself hother hslot
  refine ⟨_, exec_operationCompletion ext hrun hops hidx hresult hflush hxpath hcoll hopen, rfl, ?_, ?_, ?_, ?_, hslot, hother⟩
  · simp [hself, withoutOp, hidx]
  · simp [hself, withoutOp, m64]
  · simp [hself, withoutOp]
  · simp [hself, withoutOp]

end Sys2Proof.Machine
end

section
/-! SUPPORT. A done record at an initiator whose table of work queues does not list its keys in rising order. A write of the table enters
queue 0 a second time, in front of queue 1; the operation number, which two operations of the end share here, then finds the other
operation than it found before the packet came. -/

namespace Sys2Proof.Machine

/-- A PUT in flight on end 5 under operation number 0. -/
def putOnEnd : Op := { idx := 0, wqe := BitVec.ofNat 512 (opPut * 2 ^ 488), handle := 5 }

def initiatorEnd : End := { state := .open_ }

/-- Queue 1 is listed before queue 0, each with such a PUT. -/
def unsortedQueues : State :=
  { q := { wqs := [(1, { state := .running, ops := [putOnEnd] }), (0, { state := .running, ops := [putOnEnd] })] },
    conn := { holdoff := none, ends := [(5, initiatorEnd)], cached := [5] } }

/-- A RESPONSE for end 5 with the first PSN, which carries one done record: operation 0 ended with OK. -/
def donePacket : Packet :=
  let hdr : Hdr := BitVec.ofNat 320 (pack [(318, 2), (314, kResponse), (262, 5), (214, 1)])
  let body : List Byte := List.replicate 16 0
  { hdr := hdr, payload := body, crc := trailer hdr 0 body }

/-- That packet is on the mesh, for the die of the end. -/
def unsortedWithPacket : State :=
  { unsortedQueues with mesh := { unsortedQueues.mesh with carry := [{ src := fpCode 0, dst := edCode 0, pkt := donePacket }] } }

theorem donePacket_comes : comes unsortedWithPacket unsortedQueues donePacket kResponse initiatorEnd :=
  ⟨by decide +kernel, by decide +kernel, by decide +kernel⟩

theorem donePacket_isNew :
    isNew (touch (handleOf donePacket.hdr) (received unsortedQueues (handleOf donePacket.hdr))) donePacket initiatorEnd = true := by
  decide +kernel

theorem donesOf_donePacket : donesOf donePacket.payload = [⟨0, 0, 0, 0⟩] := by decide +kernel

/-- The done record is that of queue 1's operation when the packet comes. -/
theorem donePacket_names_queueOne : opByNum unsortedWithPacket (handleOf donePacket.hdr) 0 = some (1, putOnEnd) := by decide +kernel

/-- The outcome that an operation has in what a command answers. -/
def resultIn (r : Res) (wq idx : Nat) : Option Result :=
  match r with
  | .next v => (findOp v wq idx).bind (·.result)
  | _ => none

/-- The packet decides queue 0's operation, and leaves queue 1's as it was. -/
theorem donePacket_decides_queueZero :
    resultIn (exec (.responsePacket donePacket) unsortedWithPacket) 0 0 = some { status := stOk } ∧
    resultIn (exec (.responsePacket donePacket) unsortedWithPacket) 1 0 = none := by decide +kernel

/-- Refutes O24: its last clause, that a done record decides the operation found by its number, fails where the table of work queues is
not in its canonical form, which the clause does not ask for. -/
theorem not_targetsCompleteOperations : ¬ Obligations.TargetsCompleteOperations := by
  rintro ⟨-, hpackets⟩
  obtain ⟨-, -, -, -, -, -, hdone⟩ := hpackets unsortedWithPacket unsortedQueues donePacket initiatorEnd [] donePacket_isNew
  obtain ⟨v, o, hexec, -, hfind, hresult⟩ := hdone 1 putOnEnd ⟨0, 0, 0, 0⟩ donePacket_comes (by decide +kernel) donesOf_donePacket
    donePacket_names_queueOne (by decide +kernel) (by decide +kernel)
  have hnone : resultIn (.next v) 1 putOnEnd.idx = none := hexec ▸ donePacket_decides_queueZero.2
  simp [resultIn, hfind, hresult] at hnone

end Sys2Proof.Machine
end

section
/-! SUPPORT. The queue control window: what it answers in each state of its partition, and what each of its commands does (R75 to R78). -/

namespace Sys2Proof.Machine

/-! ## The window -/

/-- The state after a command's descriptor, where it comes with one, is in the descriptor area. -/
def areaWritten (p : Nat) (desc : Option (BitVec 512)) (s : State) : State :=
  match desc with
  | some d => descWritten p d s
  | none => s

@[simp] theorem areaWritten_some (p : Nat) (d : BitVec 512) (s : State) : areaWritten p (some d) s = descWritten p d s := rfl
@[simp] theorem areaWritten_none (p : Nat) (s : State) : areaWritten p none s = s := rfl

section
variable {s : State} {p : Nat} (code obj : Nat) (desc : Option (BitVec 512)) (act : State → Nat × State)

/-- An open window takes the command and answers its result. -/
theorem queueControl_of_open (hopen : queueWindowOpen s p = true) :
    queueControl s p code obj desc act =
      .next (queueAnswer p code obj (act (areaWritten p desc s)).1 (act (areaWritten p desc s)).2) := by
  simp only [queueWindowOpen, Bool.and_eq_true, Bool.not_eq_true', beq_iff_eq] at hopen
  obtain ⟨⟨⟨hp, hrun⟩, hup⟩, hidle⟩ := hopen
  simp only [queueControl, hp, need_true, hrun, hup, hidle]
  rfl

variable (hp : p < 12) (hrun : running s = true)
include hp hrun

/-- A window whose last command is PENDING ignores the command word (R76). -/
theorem queueControl_of_pending (hup : (partOf s p).state = .up) (hpending : windowPending s p = true) :
    queueControl s p code obj desc act = .next (areaWritten p desc s) := by
  simp only [queueControl, Nat.blt_eq.mpr hp, need_true, hrun, hup, hpending]
  rfl

/-- A Resetting partition answers BUSY (R410). -/
theorem queueControl_of_resetting (hstate : (partOf s p).state = .resetting) :
    queueControl s p code obj desc act = .next (queueAnswer p code obj resBusy (areaWritten p desc s)) := by
  simp only [queueControl, Nat.blt_eq.mpr hp, need_true, hrun, hstate]
  rfl

/-- A partition that is Off has no window. -/
theorem queueControl_of_off (hstate : (partOf s p).state = .off) : queueControl s p code obj desc act = .next s := by
  simp only [queueControl, Nat.blt_eq.mpr hp, need_true, hrun, hstate]
  rfl

end

/-! ## What a descriptor written leaves as it was -/

section
variable (s : State) (p : Nat) (d : BitVec 512) (k n : Nat)

@[simp] theorem wqValid_descWritten : wqValid (descWritten p d s) n = wqValid s n := rfl
@[simp] theorem ownsWq_descWritten : ownsWq (descWritten p d s) k n = ownsWq s k n := rfl
@[simp] theorem wqOf_descWritten : wqOf (descWritten p d s) n = wqOf s n := rfl
@[simp] theorem wqDescCheck_descWritten (e : BitVec 256) : wqDescCheck (descWritten p d s) k n e = wqDescCheck s k n e := rfl
@[simp] theorem cqValid_descWritten : cqValid (descWritten p d s) n = cqValid s n := rfl
@[simp] theorem ownsCq_descWritten : ownsCq (descWritten p d s) k n = ownsCq s k n := rfl
@[simp] theorem cqOf_descWritten : cqOf (descWritten p d s) n = cqOf s n := rfl
@[simp] theorem boundTo_descWritten : boundTo (descWritten p d s) n = boundTo s n := rfl
@[simp] theorem ownsCtr_descWritten : ownsCtr (descWritten p d s) k n = ownsCtr s k n := rfl
@[simp] theorem descWritten_ctrs : (descWritten p d s).q.ctrs = s.q.ctrs := rfl
@[simp] theorem ownLiveWq_descWritten : ownLiveWq (descWritten p d s) k n = ownLiveWq s k n := rfl

end

/-! ## Commands on work queues -/

theorem withWq_of_own {s : State} {p obj : Nat} (h : ownLiveWq s p obj = true) (act : WorkQueue → Nat × State) :
    withWq s p obj act = act (wqOf s obj) := if_pos h

theorem withWq_of_not_own {s : State} {p obj : Nat} (h : ownLiveWq s p obj = false) (act : WorkQueue → Nat × State) :
    withWq s p obj act = (resInvalid, s) := if_neg (by simpa [ownLiveWq] using h)

/-- No WQE of a queue waits to be issued where its counts agree. -/
theorem posted_eq_zero (q : WorkQueue) : q.posted = 0 ↔ q.producer % 2 ^ 32 = q.consumer % 2 ^ 32 := by
  simp only [WorkQueue.posted, sub32, m32]
  omega

theorem readWqDesc_eq (q : WorkQueue) : readWqDesc q =
    BitVec.ofNat 512 (q.completed * 2 ^ 192 + q.producer * 2 ^ 64 + q.consumer * 2 ^ 32 + q.state.code) := by
  simp [readWqDesc, pack, Nat.add_assoc]

section
variable {s : State} {p : Nat} (hopen : queueWindowOpen s p = true)
include hopen

/-- CREATE_WQ makes an Idle queue of its descriptor where the number is free and the descriptor passes (R76). -/
theorem exec_createWq {obj : Nat} {d : BitVec 512} (hvalid : wqValid s obj = true) (howns : ownsWq s p obj = true)
    (hfree : wqLive (wqOf s obj) = false) (hcheck : wqDescCheck s p obj (lowDesc d) = resDone) :
    exec (.createWq p obj d) s = .next (queueAnswer p 1 obj resDone
      (let s1 := descWritten p d s
       { s1 with q := { s1.q with wqs := tset s1.q.wqs obj { desc := lowDesc d, state := .idle } } })) := by
  show execCreateWq p obj d s = _
  simp [execCreateWq, queueControl_of_open _ _ _ _ hopen, hvalid, howns, hfree, hcheck]

section
variable {obj : Nat} (code : Nat) (desc : Option (BitVec 512)) (act : State → WorkQueue → Nat × State)

/-- A command on a queue of the partition that exists answers what its own action gives. -/
theorem queueControl_of_own (hown : ownLiveWq s p obj = true) :
    queueControl s p code obj desc (fun s => withWq s p obj (act s)) = .next (queueAnswer p code obj
      (act (areaWritten p desc s) (wqOf s obj)).1 (act (areaWritten p desc s) (wqOf s obj)).2) := by
  rw [queueControl_of_open _ _ _ _ hopen]
  cases desc <;> simp [withWq_of_own, hown]

/-- A command on any other number answers INVALID (R76). -/
theorem queueControl_of_not_own (hown : ownLiveWq s p obj = false) :
    queueControl s p code obj desc (fun s => withWq s p obj (act s)) =
      .next (queueAnswer p code obj resInvalid (areaWritten p desc s)) := by
  rw [queueControl_of_open _ _ _ _ hopen]
  cases desc <;> simp [withWq_of_not_own, hown]

end

variable {obj : Nat}

/-- The commands on a queue that exists answer INVALID for any other number. -/
theorem exec_wqCommand_of_not_own (d : BitVec 512) (hown : ownLiveWq s p obj = false) :
    exec (.modifyWq p obj d) s = .next (queueAnswer p 2 obj resInvalid (descWritten p d s)) ∧
    exec (.pauseWq p obj) s = .next (queueAnswer p 3 obj resInvalid s) ∧
    exec (.resumeWq p obj) s = .next (queueAnswer p 4 obj resInvalid s) ∧
    exec (.resetWq p obj) s = .next (queueAnswer p 5 obj resInvalid s) ∧
    exec (.destroyWq p obj) s = .next (queueAnswer p 6 obj resInvalid s) ∧
    exec (.readWq p obj) s = .next (queueAnswer p 0xD obj resInvalid s) := by
  have invalid (code : Nat) (desc : Option (BitVec 512)) (act : State → WorkQueue → Nat × State) :=
    queueControl_of_not_own hopen code desc act hown
  exact ⟨show execModifyWq p obj d s = _ from invalid 2 (some d) _, show execPauseWq p obj s = _ from invalid 3 none _,
    show execResumeWq p obj s = _ from invalid 4 none _, show execResetWq p obj s = _ from invalid 5 none _,
    show execDestroyWq p obj s = _ from invalid 6 none _, show execReadWq p obj s = _ from invalid 0xD none _⟩

variable (hown : ownLiveWq s p obj = true)
include hown

/-- MODIFY_WQ writes the descriptor of a settled queue where it passes; a queue that is not settled is BUSY (R77). -/
theorem exec_modifyWq {d : BitVec 512} (hpart : Desc.part (lowDesc d) = p) :
    exec (.modifyWq p obj d) s = .next (
      if (wqOf s obj).state.settled then
        queueAnswer p 2 obj (wqDescCheck s p obj (lowDesc d)) (
          if wqDescCheck s p obj (lowDesc d) = resDone then setWq obj (fun q => { q with desc := lowDesc d }) (descWritten p d s)
          else descWritten p d s)
      else queueAnswer p 2 obj resBusy (descWritten p d s)) := by
  show execModifyWq p obj d s = _
  rw [execModifyWq, queueControl_of_own hopen _ _ _ hown]
  cases (wqOf s obj).state.settled
  · simp [hpart]
  · by_cases hcheck : wqDescCheck s p obj (lowDesc d) = resDone <;> simp [hpart, hcheck]

/-- PAUSE_WQ of a queue that issues is PENDING; one that has stopped issuing has its result at once (R76). -/
theorem exec_pauseWq :
    exec (.pauseWq p obj) s = .next (match (wqOf s obj).state with
      | .paused => queueAnswer p 3 obj resDone s
      | .draining => queueAnswer p 3 obj resInvalid s
      | .error => queueAnswer p 3 obj resInvalid s
      | _ => queueAnswer p 3 obj resPending (setWq obj (fun q => { q with pausing := true }) s)) := by
  show execPauseWq p obj s = _
  rw [execPauseWq, queueControl_of_own hopen _ _ _ hown]
  cases (wqOf s obj).state <;> rfl

/-- RESUME_WQ of a Paused queue: Idle, or Running where a WQE is posted (R105). -/
theorem exec_resumeWq :
    exec (.resumeWq p obj) s = .next (if (wqOf s obj).state == .paused then
        queueAnswer p 4 obj resDone (setWq obj (fun q => { q with
          state := if q.producer % 2 ^ 32 = q.consumer % 2 ^ 32 then .idle else .running }) s)
      else queueAnswer p 4 obj resInvalid s) := by
  show execResumeWq p obj s = _
  rw [execResumeWq, queueControl_of_own hopen _ _ _ hown]
  simp only [beq_iff_eq, posted_eq_zero]
  split <;> rfl

/-- RESET_WQ of a queue in Error; in any other state it is INVALID (R107). -/
theorem exec_resetWq :
    exec (.resetWq p obj) s = .next (if (wqOf s obj).state = .error then queueAnswer p 5 obj resDone (setWq obj resetWq s)
      else queueAnswer p 5 obj resInvalid s) := by
  show execResetWq p obj s = _
  rw [execResetWq, queueControl_of_own hopen _ _ _ hown]
  simp only [beq_iff_eq]
  split <;> rfl

/-- DESTROY_WQ frees a settled queue; any other is BUSY (R105). -/
theorem exec_destroyWq :
    exec (.destroyWq p obj) s = .next (if (wqOf s obj).state.settled then queueAnswer p 6 obj resDone (freeWq obj s)
      else queueAnswer p 6 obj resBusy s) := by
  show execDestroyWq p obj s = _
  rw [execDestroyWq, queueControl_of_own hopen _ _ _ hown]
  split <;> rfl

/-- READ_WQ writes the queue's counts and state into the descriptor area (R78). -/
theorem exec_readWq : exec (.readWq p obj) s = .next (queueAnswer p 0xD obj resDone (descWritten p (readWqDesc (wqOf s obj)) s)) := by
  show execReadWq p obj s = _
  rw [execReadWq, queueControl_of_own hopen _ _ _ hown]
  rfl

end

/-- Settles O10, command by command. -/
theorem workQueueCommandsAct : Obligations.WorkQueueCommandsAct := by
  intro s p obj d hopen
  refine ⟨fun h => ?_, fun h => ?_, fun h => ?_, exec_pauseWq hopen, exec_resumeWq hopen, fun hown herror => ?_, fun hown hstate => ?_,
    exec_destroyWq hopen, fun hown => ?_, exec_wqCommand_of_not_own hopen d, fun code => queueControl_of_open _ _ none _ hopen⟩
  · simp only [Bool.and_eq_true, Bool.not_eq_true', beq_iff_eq] at h
    obtain ⟨⟨⟨hvalid, howns⟩, hfree⟩, hcheck⟩ := h
    exact exec_createWq hopen hvalid howns hfree hcheck
  · simp only [Bool.and_eq_true, beq_iff_eq] at h
    obtain ⟨⟨⟨hown, hpart⟩, hsettled⟩, hcheck⟩ := h
    rw [exec_modifyWq hopen hown hpart, if_pos hsettled, if_pos hcheck, hcheck]
  · simp only [Bool.and_eq_true, Bool.not_eq_true', beq_iff_eq] at h
    obtain ⟨⟨hown, hpart⟩, hsettled⟩ := h
    rw [exec_modifyWq hopen hown hpart, hsettled, if_neg (by decide)]
  · have hself : wqOf (queueAnswer p 5 obj resDone (setWq obj resetWq s)) obj = resetWq (wqOf s obj) := wqOf_setWq_self _ _ _
    refine ⟨_, (exec_resetWq hopen hown).trans (congrArg _ (if_pos herror)), ?_⟩
    rw [hself]
    exact ⟨rfl, rfl, rfl, rfl, rfl, rfl, fun k hk => wqOf_setWq_ne hk _ _, rfl, rfl, by simp [queueAnswer, onlyChanges_iff]⟩
  · rw [exec_resetWq hopen hown, if_neg hstate]
  · rw [exec_readWq hopen hown, readWqDesc_eq]

end Sys2Proof.Machine
end

section
/-! SUPPORT. Commands of the queue control window on completion queues and counters, and what every command meets in a window that takes
none (R75 to R78, R359, R410). -/

namespace Sys2Proof.Machine

/-- A command names a counter of the partition that exists. -/
def ownCtr (s : State) (p obj : Nat) : Bool := cqValid s obj && ownsCtr s p obj && (tget s.q.ctrs obj).isSome

theorem withCtr_eq (s : State) (p obj : Nat) (act : Nat × State) :
    withCtr s p obj act = if ownCtr s p obj = true then act else (resInvalid, s) := rfl

@[simp] theorem ownCtr_descWritten (s : State) (k p n : Nat) (d : BitVec 512) : ownCtr (descWritten k d s) p n = ownCtr s p n := rfl

section
variable {s : State} {p obj : Nat} (hopen : queueWindowOpen s p = true)
include hopen

/-! ## Completion queues -/

/-- CREATE_CQ makes a completion queue of its descriptor where the number is free, LOG_SIZE is not 15 and the vector is one of the
function's 2,048 (R78, R359). -/
theorem exec_createCq {d : BitVec 512} (hvalid : cqValid s obj = true) (howns : ownsCq s p obj = true) (hfree : (cqOf s obj).exists_ = false)
    (hpart : Desc.part (lowDesc d) = p) (hsize : Desc.logSize (lowDesc d) ≠ 15) (hvector : Nat.blt 2047 (Desc.vector (lowDesc d)) = false) :
    exec (.createCq p obj d) s = .next (queueAnswer p 8 obj resDone
      (let s1 := descWritten p d s
       { s1 with q := { s1.q with cqs := tset s1.q.cqs obj { desc := lowDesc d, exists_ := true } } })) := by
  have hlast : ¬ 2047 < Desc.vector (lowDesc d) := by simp [← Nat.blt_eq, hvector]
  show execCreateCq p obj d s = _
  simp [execCreateCq, queueControl_of_open _ _ _ _ hopen, hvalid, howns, hfree, hpart, hsize, hlast]

/-- CREATE_CQ of a number in use is INVALID (R76). -/
theorem exec_createCq_of_exists (d : BitVec 512) (hexists : (cqOf s obj).exists_ = true) :
    exec (.createCq p obj d) s = .next (queueAnswer p 8 obj resInvalid (descWritten p d s)) := by
  show execCreateCq p obj d s = _
  simp [execCreateCq, queueControl_of_open _ _ _ _ hopen, hexists]

/-- DESTROY_CQ frees a completion queue to which no work queue is bound; any other is BUSY (R76). -/
theorem exec_destroyCq (hvalid : cqValid s obj = true) (howns : ownsCq s p obj = true) (hexists : (cqOf s obj).exists_ = true) :
    exec (.destroyCq p obj) s = .next (if boundTo s obj = [] then
        queueAnswer p 9 obj resDone { s with q := { s.q with cqs := tdel s.q.cqs obj } }
      else queueAnswer p 9 obj resBusy s) := by
  show execDestroyCq p obj s = _
  by_cases hbound : boundTo s obj = [] <;>
    simp [execDestroyCq, queueControl_of_open _ _ _ _ hopen, hvalid, howns, hexists, hbound]

/-! ## Counters -/

/-- CREATE_COUNTER makes a counter of value 0 with the mirror of its descriptor where the number is free (R78). -/
theorem exec_createCounter {d : BitVec 512} (hvalid : cqValid s obj = true) (howns : ownsCtr s p obj = true) (hfree : tget s.q.ctrs obj = none)
    (hpart : Desc.part (lowDesc d) = p) :
    exec (.createCounter p obj d) s = .next (queueAnswer p 0xA obj resDone
      (let s1 := descWritten p d s
       let c : Counter := { value := 0, part := p, pasid := fld (lowDesc d) 231 212, mirrorAddr := fld (lowDesc d) 63 0,
                            mirrorKey := fld (lowDesc d) 95 64 }
       { s1 with q := { s1.q with ctrs := tset s1.q.ctrs obj c } })) := by
  show execCreateCounter p obj d s = _
  simp [execCreateCounter, queueControl_of_open _ _ _ _ hopen, hvalid, howns, hfree, hpart, Desc.pasid, Desc.ringAddr, Desc.ringKey]

/-- SET_COUNTER sets a counter of the partition and writes its mirror; any other number is INVALID (R76, R78). -/
theorem exec_setCounter (d : BitVec 512) :
    exec (.setCounter p obj d) s = .next (if ownCtr s p obj = true then
        queueAnswer p 0xB obj resDone (setCounter obj (fld d 191 128) (descWritten p d s))
      else queueAnswer p 0xB obj resInvalid (descWritten p d s)) := by
  show execSetCounter p obj d s = _
  rw [execSetCounter, queueControl_of_open _ _ _ _ hopen]
  by_cases hown : ownCtr s p obj = true <;> simp [withCtr_eq, hown]

/-- DESTROY_COUNTER destroys a counter of the partition; any other number is INVALID (R76, R97). -/
theorem exec_destroyCounter :
    exec (.destroyCounter p obj) s = .next (if ownCtr s p obj = true then queueAnswer p 0xC obj resDone (destroyCounter obj s)
      else queueAnswer p 0xC obj resInvalid s) := by
  show execDestroyCounter p obj s = _
  rw [execDestroyCounter, queueControl_of_open _ _ _ _ hopen]
  by_cases hown : ownCtr s p obj = true <;> simp [withCtr_eq, hown]

end

/-- Settles O11: the commands one by one in an open window, then the window that takes none. -/
theorem completionQueueAndCounterCommandsAct : Obligations.CompletionQueueAndCounterCommandsAct := by
  refine ⟨fun s p obj d hopen => ⟨fun h => ?_, fun h => ?_, fun h => ?_, fun h => ?_, fun h => ?_⟩,
    fun s p obj d hp hrun => ⟨fun hup hpending => ?_, fun hresetting => ?_, fun hoff => ?_⟩⟩
  · simp only [Bool.and_eq_true, Bool.not_eq_true', beq_iff_eq, bne_iff_ne] at h
    obtain ⟨⟨⟨⟨⟨hvalid, howns⟩, hfree⟩, hpart⟩, hsize⟩, hvector⟩ := h
    exact exec_createCq hopen hvalid howns hfree hpart hsize hvector
  · simp only [Bool.and_eq_true] at h
    obtain ⟨⟨hvalid, howns⟩, hexists⟩ := h
    exact ⟨exec_createCq_of_exists hopen d hexists, exec_destroyCq hopen hvalid howns hexists⟩
  · simp only [Bool.and_eq_true, beq_iff_eq, Option.isNone_iff_eq_none] at h
    obtain ⟨⟨⟨hvalid, howns⟩, hfree⟩, hpart⟩ := h
    exact exec_createCounter hopen hvalid howns hfree hpart
  · have hown : ownCtr s p obj = true := h
    exact ⟨by rw [exec_setCounter hopen, if_pos hown], by rw [exec_destroyCounter hopen, if_pos hown]⟩
  · have hnone : ¬ ownCtr s p obj = true := by rw [ownCtr, h]; decide
    exact ⟨by rw [exec_setCounter hopen, if_neg hnone], by rw [exec_destroyCounter hopen, if_neg hnone]⟩
  · have ignored (code : Nat) (desc : Option (BitVec 512)) (act : State → Nat × State) :=
      queueControl_of_pending code obj desc act hp hrun hup hpending
    exact ⟨show execCreateWq p obj d s = _ from ignored 1 (some d) _, show execDestroyWq p obj s = _ from ignored 6 none _,
      show execCreateCounter p obj d s = _ from ignored 0xA (some d) _, show execDestroyCounter p obj s = _ from ignored 0xC none _⟩
  · have busy (code : Nat) (desc : Option (BitVec 512)) (act : State → Nat × State) :=
      queueControl_of_resetting code obj desc act hp hrun hresetting
    exact ⟨show execCreateWq p obj d s = _ from busy 1 (some d) _, show execDestroyCq p obj s = _ from busy 9 none _⟩
  · have absent (code : Nat) (desc : Option (BitVec 512)) (act : State → Nat × State) :=
      queueControl_of_off code obj desc act hp hrun hoff
    exact ⟨show execCreateWq p obj d s = _ from absent 1 (some d) _, show execDestroyCq p obj s = _ from absent 9 none _⟩

end Sys2Proof.Machine
end

section
/-! SUPPORT. A doorbell of a work queue, case by case (R88, R89). -/

namespace Sys2Proof.Machine

/-! ## The producer count -/

@[simp] theorem noteNext_producer (s : State) (q : WorkQueue) : (noteNext s q).producer = q.producer := by
  obtain ⟨_, h⟩ := noteNext_eq s q; rw [h]

@[simp] theorem noteNext_push (s : State) (q : WorkQueue) : (noteNext s q).push = q.push := by
  obtain ⟨_, h⟩ := noteNext_eq s q; rw [h]

@[simp] theorem stepPast_producer (s : State) (q : WorkQueue) : (stepPast s q).producer = q.producer := noteNext_producer _ _

@[simp] theorem drainQueue_producer (cause : Nat) (q : WorkQueue) : (drainQueue cause q).producer = q.producer := by
  unfold drainQueue
  split <;> rfl

/-- The end of a wait leaves the producer count of every queue. -/
theorem endNext_producer (k wq st : Nat) (s : State) : (wqOf (endNext wq st s) k).producer = (wqOf s k).producer := by
  cases hnext : (wqOf s wq).next with
  | none => rw [endNext_of_none st hnext]
  | some w =>
    rw [wqOf_endNext st hnext]
    split
    · next hk =>
      subst hk
      split <;> simp [queuePast]
    · rfl

theorem settleWaits_producer (k : Nat) (s : State) : (wqOf (settleWaits s) k).producer = (wqOf s k).producer :=
  settleWaits_keeps (P := fun t => (wqOf t k).producer = (wqOf s k).producer)
    (fun _ _ h => (endNext_producer _ _ _ _).trans h) rfl

theorem toDraining_producer (wq cause : Nat) (s : State) : (wqOf (toDraining wq cause s) wq).producer = (wqOf s wq).producer := by
  rw [toDraining, settleWaits_producer]
  simp

/-! ## Into Draining -/

/-- A queue that exists and neither drains nor is in error drains from now on. -/
theorem drainQueue_of_undrained {q : WorkQueue} (cause : Nat) (hlive : wqLive q = true) (hdraining : q.state ≠ .draining)
    (herror : q.state ≠ .error) : drainQueue cause q = { q with state := .draining, cause := cause } := by
  have hfree : q.state ≠ .free := by simpa [wqLive] using hlive
  unfold drainQueue
  cases hstate : q.state with
  | free | draining | error => contradiction
  | idle | running | waiting | paused => rfl

theorem drainsFor_toDraining_of_undrained {wq : Nat} (cause : Nat) {s : State} (hlive : wqLive (wqOf s wq) = true)
    (hdraining : (wqOf s wq).state ≠ .draining) (herror : (wqOf s wq).state ≠ .error) : drainsFor wq cause (toDraining wq cause s) := by
  refine drainsFor_settleWaits ?_
  unfold drainsFor
  rw [wqOf_setWq_self, wqOf_countWaiting, drainQueue_of_undrained cause hlive hdraining herror]
  exact ⟨rfl, rfl⟩

/-! ## The cases of R88 -/

/-- Who an event of a queue is counted for. -/
def queueWho (s : State) (wq : Nat) : Who := { die := dieOfWq wq, part := Desc.part (wqOf s wq).desc, queue := wq }

@[simp] theorem wqOf_tally (src n : Nat) (w : Who) (s : State) (k : Nat) : wqOf (tally src n w s) k = wqOf s k := rfl

section
variable {s : State} {wq : Nat}

/-- A queue that drains or is in error ignores a refused doorbell, which is counted (R88). -/
theorem refuseDoorbell_of_ended (h : (wqOf s wq).state = .draining ∨ (wqOf s wq).state = .error) :
    refuseDoorbell wq s = { tally 0x06 1 (queueWho s wq) s with q := { s.q with refused := tmodD s.q.refused (dieOfWq wq) 0 (sat64 1) } } := by
  simp only [refuseDoorbell]
  rcases h with h | h <;> rw [h] <;> rfl

/-- Any other drains with DOORBELL_INVALID (R88, R104). -/
theorem refuseDoorbell_of_undrained (hdraining : (wqOf s wq).state ≠ .draining) (herror : (wqOf s wq).state ≠ .error) :
    refuseDoorbell wq s = toDraining wq stDoorbellInvalid (tally 0x06 1 (queueWho s wq) s) := by
  simp only [refuseDoorbell]
  cases hstate : (wqOf s wq).state with
  | draining | error => contradiction
  | free | idle | running | waiting | paused => rfl

theorem refuseDoorbell_producer (wq : Nat) (s : State) : (wqOf (refuseDoorbell wq s) wq).producer = (wqOf s wq).producer := by
  by_cases h : (wqOf s wq).state = .draining ∨ (wqOf s wq).state = .error
  · rw [refuseDoorbell_of_ended h]
    rfl
  · obtain ⟨hdraining, herror⟩ := not_or.mp h
    rw [refuseDoorbell_of_undrained hdraining herror]
    exact toDraining_producer _ _ _

/-- A stale doorbell is counted, and what the push slots hold is no longer used (R88, R89). -/
def staleDoorbell (wq : Nat) (s : State) : State :=
  tally 0x06 1 (queueWho s wq)
    { s with q := { s.q with stale := tmodD s.q.stale (dieOfWq wq) 0 (sat64 1), wqs := tset s.q.wqs wq { wqOf s wq with push := [] } } }

/-- The cases of R88, in their order. -/
theorem ringDoorbell_eq (wq tail pushed : Nat) (s : State) :
    ringDoorbell wq tail pushed s =
      if 5 ≤ pushed then refuseDoorbell wq s
      else if sub32 tail (wqOf s wq).producer = 0 ∨ 2 ^ 31 ≤ sub32 tail (wqOf s wq).producer then staleDoorbell wq s
      else if sub32 tail (wqOf s wq).consumer ≤ Desc.size (wqOf s wq).desc then acceptDoorbell wq tail pushed s
      else refuseDoorbell wq s := by
  simp [ringDoorbell, staleDoorbell, queueWho]

@[simp] theorem wqOf_staleDoorbell (wq k : Nat) (s : State) :
    wqOf (staleDoorbell wq s) k = if k = wq then { wqOf s wq with push := [] } else wqOf s k := tgetD_tset_eq _ _ _ _ _

/-- Entries taken from the push area leave the consumer count. -/
@[simp] theorem usePushed_consumer (q : WorkQueue) (now : Nat × Bool) (tail pushed n : Nat) :
    (usePushed q now tail pushed n).consumer = q.consumer := by
  induction n with
  | zero => rfl
  | succ n ih =>
    simp only [usePushed]
    split
    · split <;> exact ih
    · exact ih

/-- The queue after an accepted doorbell (R88, R89, R105). -/
theorem wqOf_acceptDoorbell (wq tail pushed : Nat) (s : State) :
    (wqOf (acceptDoorbell wq tail pushed s) wq).producer = tail % m32 ∧
    (wqOf (acceptDoorbell wq tail pushed s) wq).consumer = (wqOf s wq).consumer ∧
    (wqOf (acceptDoorbell wq tail pushed s) wq).push = [] ∧
    (wqOf (acceptDoorbell wq tail pushed s) wq).state = if (wqOf s wq).state = .idle then .running else (wqOf s wq).state := by
  simp [acceptDoorbell]

theorem wqOf_acceptDoorbell_ne {k : Nat} (hk : k ≠ wq) (tail pushed : Nat) (s : State) :
    wqOf (acceptDoorbell wq tail pushed s) k = wqOf s k := wqOf_setWq_ne hk _ _

/-- A doorbell word that reaches its queue: the device leaves Idle and the word is judged by R88. -/
theorem exec_wqDoorbell {v : Via} {tail pushed : Nat} (hrun : running s = true) (hlive : wqLive (wqOf s wq) = true)
    (hreach : doorbellReach s v (Desc.part (wqOf s wq).desc) (Desc.pasid (wqOf s wq).desc) = .yes) (htail : tail < 2 ^ 32)
    (hpushed : pushed < 8) : exec (.wqDoorbell v wq tail pushed) s = .next (ringDoorbell wq tail pushed (leaveIdle s)) := by
  have htail' : tail % m32 = tail := Nat.mod_eq_of_lt htail
  show execWqDoorbell v wq tail pushed s = _
  simp [execWqDoorbell, hrun, hlive, hreach, htail', Nat.mod_eq_of_lt hpushed]

end

/-- Settles O12: the cases of R88 in their order, once the device is out of Idle. -/
theorem doorbellCasesInOrder : Obligations.DoorbellCasesInOrder := by
  intro s v wq tail pushed hrun hlive hreach htail hpushed
  have hq : (leaveIdle s).q = s.q := leaveIdle_q s
  have hwq (k : Nat) : wqOf (leaveIdle s) k = wqOf s k := wqOf_congr hq k
  refine ⟨_, exec_wqDoorbell hrun hlive hreach htail hpushed, fun hrefused => ?_, fun hlow hstale => ?_, fun hlow hnew hnear hroom => ?_⟩
  · have hrefuse : ringDoorbell wq tail pushed (leaveIdle s) = refuseDoorbell wq (leaveIdle s) := by
      rw [ringDoorbell_eq, hwq]
      by_cases hhigh : 5 ≤ pushed
      · rw [if_pos hhigh]
      · rw [if_neg hhigh, if_neg (by omega), if_neg (by omega)]
    rw [hrefuse]
    refine ⟨by rw [refuseDoorbell_producer, hwq], fun hdraining herror => ?_, fun hends => ?_⟩
    · rw [refuseDoorbell_of_undrained (by rwa [hwq]) (by rwa [hwq])]
      exact drainsFor_toDraining_of_undrained _ (by rwa [wqOf_tally, hwq]) (by rwa [wqOf_tally, hwq]) (by rwa [wqOf_tally, hwq])
    · rw [refuseDoorbell_of_ended (by rwa [hwq])]
      exact ⟨hwq wq, by rw [hq]⟩
  · rw [ringDoorbell_eq, hwq, if_neg (Nat.not_le.mpr hlow), if_pos hstale]
    exact ⟨by simp [hwq], by simp [staleDoorbell], fun k hk => by simp [hk, hwq], by simp [staleDoorbell, onlyChanges_iff]⟩
  · rw [ringDoorbell_eq, hwq, if_neg (Nat.not_le.mpr hlow), if_neg (by omega), if_pos hroom]
    obtain ⟨hproducer, hconsumer, hpush, hstate⟩ := wqOf_acceptDoorbell wq tail pushed (leaveIdle s)
    rw [hwq] at hconsumer hstate
    exact ⟨hproducer.trans (Nat.mod_eq_of_lt htail), hconsumer, hpush, hstate, fun k hk => by rw [wqOf_acceptDoorbell_ne hk, hwq],
      by simp [acceptDoorbell, onlyChanges_iff]⟩

end Sys2Proof.Machine
end

section
/-! SUPPORT. Push slots, and the HEAD of a completion queue (R89, R103). -/

namespace Sys2Proof.Machine

/-! ## A vector raised leaves the memories -/

@[simp] theorem toHost_mem (link : Nat) (x : HostTlp) (s : State) : (toHost link x s).mem = s.mem := by
  unfold toHost
  dsimp only
  split
  · rfl
  · split
    · simp [sendTlp, sendFlits, countEdrad]
    · rfl

@[simp] theorem raiseMsix_mem (p v : Nat) (s : State) : (raiseMsix p v s).mem = s.mem := by
  unfold raiseMsix
  dsimp only
  split
  · split
    · rfl
    · exact toHost_mem _ _ _
  · exact toHost_mem _ _ _

@[simp] theorem raiseCq_mem (cq : Nat) (s : State) : (raiseCq cq s).mem = s.mem := by
  unfold raiseCq
  dsimp only
  split
  · exact raiseMsix_mem _ _ _
  · rfl

@[simp] theorem raiseCq_q (cq : Nat) (s : State) : (raiseCq cq s).q = s.q := by
  unfold raiseCq
  dsimp only
  split
  · exact raiseMsix_q _ _ _
  · rfl

/-! ## HEAD and ARM -/

theorem cqOf_setCq_ne {cq k : Nat} (h : k ≠ cq) (f : ComplQueue → ComplQueue) (s : State) : cqOf (setCq cq f s) k = cqOf s k := by
  simp [cqOf_setCq, h]

@[simp] theorem cqOf_withHeadIgnored (s : State) (counts : Tab Nat) (k : Nat) :
    cqOf { s with q := { s.q with headIgnored := counts } } k = cqOf s k := rfl

/-- A HEAD between the consumer count and the entries written is taken; any other is ignored and counted (R103). -/
def takeHead (cq head : Nat) (s : State) : State :=
  if sub32 head (cqOf s cq).head ≤ sub32 (cqOf s cq).written (cqOf s cq).head then setCq cq (fun c => { c with head := head }) s
  else { s with q := { s.q with headIgnored := tmodD s.q.headIgnored (dieOfCq cq) 0 (sat64 1) } }

/-- ARM: the vector is raised where an entry is left to consume, the queue is armed where none is (R103). -/
def armCq (cq : Nat) (s : State) : State :=
  if (cqOf s cq).head = (cqOf s cq).written then setCq cq (fun c => { c with armed := true }) s else raiseCq cq s

/-- A doorbell of a completion queue: its HEAD, then its ARM. -/
def ringCq (cq head : Nat) (arm : Bool) (s : State) : State :=
  if arm then armCq cq (takeHead cq head s) else takeHead cq head s

section
variable (cq head : Nat) (arm : Bool) (s : State)

theorem cqOf_takeHead : cqOf (takeHead cq head s) cq = { cqOf s cq with
    head := if sub32 head (cqOf s cq).head ≤ sub32 (cqOf s cq).written (cqOf s cq).head then head else (cqOf s cq).head } := by
  unfold takeHead
  split
  · exact cqOf_setCq_self _ _ _
  · rfl

theorem cqOf_takeHead_ne {k : Nat} (hk : k ≠ cq) : cqOf (takeHead cq head s) k = cqOf s k := by
  unfold takeHead
  split
  · exact cqOf_setCq_ne hk _ _
  · rfl

theorem cqOf_armCq : cqOf (armCq cq s) cq =
    { cqOf s cq with armed := (cqOf s cq).armed || (cqOf s cq).head == (cqOf s cq).written } := by
  unfold armCq
  split
  · next hnone => simp [hnone]
  · next hleft => simp [cqOf_congr (raiseCq_q cq s), beq_eq_false_iff_ne.mpr hleft]

theorem cqOf_armCq_ne {k : Nat} (hk : k ≠ cq) : cqOf (armCq cq s) k = cqOf s k := by
  unfold armCq
  split
  · exact cqOf_setCq_ne hk _ _
  · exact cqOf_congr (raiseCq_q cq s) _

/-- What the doorbell of a completion queue writes of it. -/
theorem cqOf_ringCq : cqOf (ringCq cq head arm s) cq = { cqOf (takeHead cq head s) cq with
    armed := (cqOf s cq).armed || (arm && (cqOf (takeHead cq head s) cq).head == (cqOf s cq).written) } := by
  cases arm
  · simp [ringCq, cqOf_takeHead]
  · simp [ringCq, cqOf_armCq, cqOf_takeHead]

theorem cqOf_ringCq_ne {k : Nat} (hk : k ≠ cq) : cqOf (ringCq cq head arm s) k = cqOf s k := by
  unfold ringCq
  split
  · rw [cqOf_armCq_ne _ _ hk, cqOf_takeHead_ne _ _ _ hk]
  · exact cqOf_takeHead_ne _ _ _ hk

/-- It leaves the work queues, the counters and the memories. -/
theorem ringCq_frame : (ringCq cq head arm s).q.wqs = s.q.wqs ∧ (ringCq cq head arm s).q.ctrs = s.q.ctrs ∧
    (ringCq cq head arm s).mem = s.mem := by
  have hhead : (takeHead cq head s).q.wqs = s.q.wqs ∧ (takeHead cq head s).q.ctrs = s.q.ctrs ∧ (takeHead cq head s).mem = s.mem := by
    unfold takeHead
    split <;> exact ⟨rfl, rfl, rfl⟩
  have harm (t : State) : (armCq cq t).q.wqs = t.q.wqs ∧ (armCq cq t).q.ctrs = t.q.ctrs ∧ (armCq cq t).mem = t.mem := by
    unfold armCq
    split <;> simp
  unfold ringCq
  split
  · simpa only [harm] using hhead
  · exact hhead

theorem ringCq_headIgnored (hout : sub32 (cqOf s cq).written (cqOf s cq).head < sub32 head (cqOf s cq).head) :
    (ringCq cq head arm s).q.headIgnored = tmodD s.q.headIgnored (dieOfCq cq) 0 (sat64 1) := by
  have hhead : (takeHead cq head s).q.headIgnored = tmodD s.q.headIgnored (dieOfCq cq) 0 (sat64 1) := by
    rw [takeHead, if_neg (Nat.not_le.mpr hout)]
  have harm (t : State) : (armCq cq t).q.headIgnored = t.q.headIgnored := by
    unfold armCq
    split <;> simp
  unfold ringCq
  split
  · rw [harm, hhead]
  · exact hhead

theorem takeHead_onlyChanges : onlyChanges [.q, .pow] s (takeHead cq head s) := by
  unfold takeHead
  split <;> simp [onlyChanges_iff]

end

/-! ## The commands -/

theorem exec_pushAreaWrite {s : State} {v : Via} {wq slot : Nat} (w : Wqe) (whole : Bool) (hrun : running s = true)
    (hlive : wqLive (wqOf s wq) = true)
    (hreach : doorbellReach s v (Desc.part (wqOf s wq).desc) (Desc.pasid (wqOf s wq).desc) = .yes) (hslot : slot < 4) :
    exec (.pushAreaWrite v wq slot w whole) s = .next (setWq wq (fun q => { q with push := tset q.push slot (w, whole) }) s) := by
  show execPushAreaWrite v wq slot w whole s = _
  simp [execPushAreaWrite, hrun, hlive, hreach, Nat.blt_eq.mpr hslot]

theorem exec_cqDoorbell {s : State} {v : Via} {cq head : Nat} (arm : Bool) (hrun : running s = true) (hexists : (cqOf s cq).exists_ = true)
    (hreach : doorbellReach s v (Desc.part (cqOf s cq).desc) (Desc.pasid (cqOf s cq).desc) = .yes) (hhead : head < 2 ^ 32) :
    exec (.cqDoorbell v cq head arm) s = .next (settleWaits (ringCq cq head arm (leaveIdle s))) := by
  have hcq : cqOf (leaveIdle s) cq = cqOf s cq := cqOf_congr (leaveIdle_q s) cq
  have hhead' : head % m32 = head := Nat.mod_eq_of_lt hhead
  show execCqDoorbell v cq head arm s = _
  simp only [execCqDoorbell]
  generalize leaveIdle s = t at hcq ⊢
  by_cases hfits : sub32 head (cqOf s cq).head ≤ sub32 (cqOf s cq).written (cqOf s cq).head <;> cases arm <;>
    simp [hrun, hexists, hreach, hhead', ringCq, armCq, takeHead, hcq, hfits]

/-- Settles O13: the push slot; then HEAD and ARM on the state out of Idle. -/
theorem pushAreaAndHeadWrites : Obligations.PushAreaAndHeadWrites := by
  refine ⟨fun s v wq slot w whole => exec_pushAreaWrite w whole, fun s v cq head arm hrun hexists hreach hhead => ?_⟩
  have hq : (leaveIdle s).q = s.q := leaveIdle_q s
  have hcq (k : Nat) : cqOf (leaveIdle s) k = cqOf s k := cqOf_congr hq k
  have hself := cqOf_ringCq cq head arm (leaveIdle s)
  rw [cqOf_takeHead, hcq] at hself
  obtain ⟨hwqs, hctrs, hmem⟩ := ringCq_frame cq head arm (leaveIdle s)
  refine ⟨_, exec_cqDoorbell arm hrun hexists hreach hhead, by rw [hself], by rw [hself], by rw [hself], by rw [hself],
    fun k hk => by rw [cqOf_ringCq_ne _ _ _ _ hk, hcq], by rw [hwqs, hq], by rw [hctrs, hq], hmem.trans (leaveIdle_mem s), fun hout => ?_,
    fun hdisarmed => ?_⟩
  · rw [ringCq_headIgnored _ _ _ _ (by rwa [hcq]), hq]
  · subst hdisarmed
    exact onlyChanges_trans (t := leaveIdle s) (by simp [onlyChanges_iff])
      (takeHead_onlyChanges cq head (leaveIdle s))

end Sys2Proof.Machine
end

section
/-! SUPPORT. A pause takes effect, a queue has drained, a completion queue or a mirror cannot be written (R98, R105, R106, R108). -/

namespace Sys2Proof.Machine

/-! ## A pause, and the end of draining -/

/-- PAUSE_EFFECTIVE of a queue with nothing in flight: it is Paused, and its PAUSE_WQ is answered (R76, R105). -/
theorem exec_pauseEffective {s : State} {wq : Nat} (hrun : running s = true) (hpausing : (wqOf s wq).pausing = true)
    (hstate : (wqOf s wq).state = .idle ∨ (wqOf s wq).state = .running ∨ (wqOf s wq).state = .waiting) (hops : (wqOf s wq).ops = []) :
    exec (.pauseEffective wq) s = .next (answerPause (Desc.part (wqOf s wq).desc) wq resDone
      (setWq wq (fun q => { q with pausing := false, state := .paused }) (countWaiting wq s))) := by
  have hlive : ((wqOf s wq).state == .idle || (wqOf s wq).state == .running || (wqOf s wq).state == .waiting) = true := by
    simpa [or_assoc] using hstate
  show execPauseEffective wq s = _
  simp [execPauseEffective, hrun, hpausing, hlive, hops]

/-- The entry that reports the WQEs a drained queue did not start (R106). -/
def flushedCqe (wq : Nat) (q : WorkQueue) : Cqe :=
  { phase := false, tsuspect := false, time := 0, cause := q.cause, status := stFlushed, index := q.consumer, wq := wq, offset := q.posted }

/-- The state with that entry written. -/
def flushed (wq : Nat) (s : State) : State := postCqe (Desc.cq (wqOf s wq).desc) (flushedCqe wq (wqOf s wq)) true s

/-- A PAUSE_WQ that is PENDING when its queue enters Error is answered with INVALID (log 69). -/
def pauseRefused (wq : Nat) (s t : State) : State :=
  if (wqOf s wq).pausing then answerPause (Desc.part (wqOf s wq).desc) wq resInvalid t else t

/-- A drained queue: its entry written, its pause answered, in Error. -/
def drained (wq : Nat) (s : State) : State :=
  setWq wq (fun q => { q with state := .error, pausing := false }) (pauseRefused wq s (flushed wq s))

theorem exec_drainComplete {s : State} {wq : Nat} (hrun : running s = true) (hstate : (wqOf s wq).state = .draining)
    (hops : (wqOf s wq).ops = []) : exec (.drainComplete wq) s = .next (settleWaits (drained wq s)) := by
  show execDrainComplete wq s = _
  simp [execDrainComplete, hrun, hstate, hops, drained, pauseRefused, flushed, flushedCqe]

/-- An answered pause writes a window, the entry a completion queue: the work queues stand. -/
theorem wqOf_pauseRefused_flushed (wq k : Nat) (s : State) : wqOf (pauseRefused wq s (flushed wq s)) k = wqOf s k := by
  obtain ⟨hwqs, -⟩ := postCqe_keepsSlots (Desc.cq (wqOf s wq).desc) (flushedCqe wq (wqOf s wq)) true (keepsSlots_refl s)
  have hflushed : wqOf (flushed wq s) k = wqOf s k := congrArg (fun t : Tab WorkQueue => tgetD t k {}) hwqs
  unfold pauseRefused
  split <;> exact hflushed

theorem wqOf_drained (wq k : Nat) (s : State) : wqOf (drained wq s) k =
    if k = wq then { wqOf s wq with state := .error, pausing := false } else wqOf s k := by
  simp only [drained, wqOf_setWq, wqOf_pauseRefused_flushed]

/-! ## A completion queue in error -/

/-- One record names a completion queue that enters its error state (R108). -/
theorem cqError_of_sound {s : State} {cq : Nat} (h : (cqOf s cq).error = false) :
    cqError cq s = record 3 0x4004 (Desc.part (cqOf s cq).desc) (dieOfCq cq) [cq] (setCq cq (fun c => { c with error := true }) s) := by
  simp [cqError, h]

theorem cqError_of_error {s : State} {cq : Nat} (h : (cqOf s cq).error = true) : cqError cq s = s := by
  simp [cqError, h]

/-- Its error state is all of the completion queues that changes. -/
theorem cqOf_cqError (cq k : Nat) (s : State) :
    cqOf (cqError cq s) k = if k = cq then { cqOf s cq with error := true } else cqOf s k := by
  cases h : (cqOf s cq).error with
  | false => rw [cqError_of_sound h, cqOf_congr (record_q _ _ _ _ _ _), cqOf_setCq]
  | true =>
    rw [cqError_of_error h]
    split
    · next hk => rw [hk, ← h]
    · rfl

theorem exec_cqWriteFault {s : State} {cq : Nat} (hrun : running s = true) (hexists : (cqOf s cq).exists_ = true) :
    exec (.cqWriteFault cq) s = .next (cqError cq s) := by
  show execCqWriteFault cq s = _
  simp [execCqWriteFault, hrun, hexists]

/-! ## A mirror write dropped -/

section
variable {s : State} {ctr : Nat} {c : Counter} (hctr : tget s.q.ctrs ctr = some c)
include hctr

/-- Within a second of its last record a counter has no other (R98). -/
theorem dropMirror_of_recent {x : Nat} (hdrop : c.dropAt = some x) (hrecent : s.time.now < x + 1000000000) : dropMirror ctr s = s := by
  have hdue : due s x sec = false := Bool.eq_false_iff.mpr fun h => Nat.not_le.mpr hrecent (Nat.ble_eq.mp h)
  simp [dropMirror, hctr, hdrop, hdue]

theorem dropMirror_of_due (hdue : ∀ x, c.dropAt = some x → x + 1000000000 ≤ s.time.now) : dropMirror ctr s =
    record 3 0x4005 c.part (dieOfCq ctr) [ctr]
      { s with q := { s.q with ctrs := tset s.q.ctrs ctr { c with dropAt := some s.time.now } } } := by
  cases hdrop : c.dropAt with
  | none => simp [dropMirror, hctr, hdrop]
  | some x =>
    have hpast : due s x sec = true := Nat.ble_eq.mpr (hdue x hdrop)
    simp [dropMirror, hctr, hdrop, hpast]

/-- A counter keeps its value, and memory its bytes, where the mirror write is dropped. -/
theorem dropMirror_keeps : (tgetD (dropMirror ctr s).q.ctrs ctr {}).value = c.value ∧ (dropMirror ctr s).mem = s.mem := by
  by_cases hdue : ∀ x, c.dropAt = some x → x + 1000000000 ≤ s.time.now
  · rw [dropMirror_of_due hctr hdue]
    simp
  · push Not at hdue
    obtain ⟨x, hdrop, hrecent⟩ := hdue
    rw [dropMirror_of_recent hctr hdrop hrecent]
    simp [tgetD, hctr]

theorem exec_mirrorWriteDropped (hrun : running s = true) (hmirror : c.mirrorKey ≠ 0) :
    exec (.mirrorWriteDropped ctr) s = .next (dropMirror ctr s) := by
  show execMirrorWriteDropped ctr s = _
  simp [execMirrorWriteDropped, hctr, hrun, bne_iff_ne.mpr hmirror]

end

/-- Settles O15, event by event. -/
theorem queuesPauseDrainAndFault : Obligations.QueuesPauseDrainAndFault := by
  refine ⟨fun s wq => exec_pauseEffective, fun s wq hrun hstate hops => ?_, fun s cq hrun hexists => ?_,
    fun s n c hrun hctr hmirror => ?_⟩
  · refine ⟨_, exec_drainComplete hrun hstate hops, by simp [wqOf_drained], fun k hk => by simp [wqOf_drained, hk], fun hpausing => ?_⟩
    simp only [drained, pauseRefused, hpausing, Bool.false_eq_true, if_false]
    rfl
  · refine ⟨_, exec_cqWriteFault hrun hexists, by simp [cqOf_cqError], by simp [cqOf_cqError], fun k hk => by simp [cqOf_cqError, hk],
      ?_, cqError_of_sound⟩
    exact (cqError_keepsSlots cq (keepsSlots_refl s)).1
  · obtain ⟨hvalue, hmem⟩ := dropMirror_keeps hctr
    exact ⟨_, exec_mirrorWriteDropped hctr hrun hmirror, hvalue, hmem, fun ⟨x, hdrop, hrecent⟩ => dropMirror_of_recent hctr hdrop hrecent,
      dropMirror_of_due hctr⟩

end Sys2Proof.Machine
end

section
/-! SUPPORT. The receive window: what accepting a PSN makes of delivered-through, of the bitmap and of the PSNs that are new (R128, R129). -/

namespace Sys2Proof.Machine

/-! ## Bits of the bitmap -/

theorem flag_eq_getLsbD {n : Nat} (w : BitVec n) (i : Nat) : flag w i = w.getLsbD i := by
  rw [Bool.eq_iff_iff]
  simp [flag, bit, BitVec.getLsbD, Nat.testBit_eq_decide_div_mod_eq]

@[simp] theorem flag_ushiftRight {n : Nat} (w : BitVec n) (k i : Nat) : flag (w >>> k) i = flag w (k + i) := by
  simp [flag_eq_getLsbD]

theorem flag_or_bit (w : BitVec 256) {j : Nat} (hj : j < 256) (i : Nat) :
    flag (w ||| BitVec.ofNat 256 (2 ^ j)) i = (flag w i || decide (i = j)) := by
  simp only [flag_eq_getLsbD, BitVec.getLsbD_or, BitVec.getLsbD_ofNat, Nat.testBit_two_pow]
  grind

theorem flag_of_ge (w : BitVec 256) {i : Nat} (h : 256 ≤ i) : flag w i = false := by
  rw [flag_eq_getLsbD, BitVec.getLsbD_of_ge _ _ h]

/-! ## Distances from delivered-through -/

/-- A PSN within the window is its distance beyond delivered-through. -/
theorem sub32_inj {a b r : Nat} (ha : a < 2 ^ 32) (hb : b < 2 ^ 32) : sub32 a r = sub32 b r ↔ a = b := by
  simp only [sub32, m32]
  omega

/-- The distance after delivered-through has moved: less by the move, or behind it. -/
theorem sub32_add32 (q r k : Nat) (hk : k ≤ 256) :
    sub32 q (add32 r k) = if k ≤ sub32 q r then sub32 q r - k else sub32 q r + 2 ^ 32 - k := by
  by_cases h : k ≤ sub32 q r
  · rw [if_pos h]
    simp only [sub32, add32, m32] at h ⊢
    omega
  · rw [if_neg h]
    simp only [sub32, add32, m32] at h ⊢
    omega

/-! ## The advance over contiguous bits -/

/-- An end whose delivered-through has moved by k. -/
def movedBy (k : Nat) (e : End) : End := { e with bitmap := e.bitmap >>> k, recvThrough := add32 e.recvThrough k }

theorem movedBy_zero {e : End} (h : e.recvThrough < 2 ^ 32) : movedBy 0 e = e := by
  have hr : add32 e.recvThrough 0 = e.recvThrough := Nat.mod_eq_of_lt h
  simp [movedBy, hr]

theorem movedBy_one_then (k : Nat) (e : End) : movedBy k (movedBy 1 e) = movedBy (k + 1) e := by
  have hr : add32 (add32 e.recvThrough 1) k = add32 e.recvThrough (k + 1) := by simp only [add32, m32]; omega
  simp [movedBy, hr, ← BitVec.shiftRight_add, Nat.add_comm 1 k]

theorem movedBy_recvThrough_lt (k : Nat) (e : End) : (movedBy k e).recvThrough < 2 ^ 32 := Nat.mod_lt _ (Nat.two_pow_pos _)

/-- Delivered-through moves over the set bits up to the first that is clear (R129). -/
theorem advance_eq_movedBy (n : Nat) {e : End} (h : e.recvThrough < 2 ^ 32) :
    ∃ k ≤ n, advance n e = movedBy k e ∧ (∀ i < k, flag e.bitmap i = true) ∧ (k = n ∨ flag e.bitmap k = false) := by
  induction n generalizing e with
  | zero => exact ⟨0, le_refl _, (movedBy_zero h).symm, by simp, .inl rfl⟩
  | succ n ih =>
    cases hbit : flag e.bitmap 0 with
    | false => exact ⟨0, by omega, by simp [advance, hbit, movedBy_zero h], by simp, .inr hbit⟩
    | true =>
      obtain ⟨k, hk, heq, hset, hstop⟩ := ih (movedBy_recvThrough_lt 1 e)
      refine ⟨k + 1, by omega, ?_, fun i hi => ?_, ?_⟩
      · rw [← movedBy_one_then, ← heq]
        simp [advance, hbit, movedBy]
      · cases i with
        | zero => exact hbit
        | succ i => simpa [movedBy, Nat.add_comm] using hset i (by omega)
      · simpa [movedBy, Nat.add_comm] using hstop

/-! ## New PSNs -/

theorem newAt_iff (e : End) (psn : Nat) : newAt e psn = true ↔
    0 < sub32 psn e.recvThrough ∧ sub32 psn e.recvThrough ≤ 256 ∧ flag e.bitmap (sub32 psn e.recvThrough - 1) = false := by
  simp [newAt, and_assoc]

/-- The end with the bit of a PSN set, before delivered-through moves. -/
def marked (psn : Nat) (e : End) : End :=
  { e with bitmap := e.bitmap ||| BitVec.ofNat 256 (2 ^ (sub32 psn e.recvThrough - 1)) }

theorem acceptPsn_eq (psn : Nat) (e : End) : acceptPsn psn e = advance 256 (marked psn e) := rfl

/-- Of the PSNs up to the window's end, a move of delivered-through over set bits makes none new and leaves the new ones new. -/
theorem newAt_movedBy {e : End} {k q : Nat} (hk : k ≤ 256) (hset : ∀ i < k, flag e.bitmap i = true)
    (hq : sub32 q e.recvThrough ≤ 256) : newAt (movedBy k e) q = newAt e q := by
  rw [Bool.eq_iff_iff, newAt_iff, newAt_iff]
  simp only [movedBy, flag_ushiftRight, sub32_add32 q e.recvThrough k hk]
  generalize sub32 q e.recvThrough = d at hq ⊢
  rcases Nat.lt_trichotomy k d with hlt | rfl | hlt
  · rw [if_pos hlt.le, show k + (d - k - 1) = d - 1 by omega]
    grind
  · have hlast : 0 < k → flag e.bitmap (k - 1) = true := fun h => hset _ (by omega)
    grind
  · have hin : 0 < d → flag e.bitmap (d - 1) = true := fun h => hset _ (by omega)
    grind

theorem newAt_marked {e : End} {psn q : Nat} (hpsn : psn < 2 ^ 32) (hq : q < 2 ^ 32) (hnew : newAt e psn = true) :
    newAt (marked psn e) q = (newAt e q && decide (q ≠ psn)) := by
  obtain ⟨hpos, hle, -⟩ := (newAt_iff e psn).mp hnew
  have hinj := sub32_inj (r := e.recvThrough) hq hpsn
  rw [Bool.eq_iff_iff, Bool.and_eq_true, newAt_iff, newAt_iff]
  simp only [marked, flag_or_bit _ (show sub32 psn e.recvThrough - 1 < 256 by omega)]
  grind

/-- Settles O22: the bit of the PSN is set, then delivered-through moves over set bits. -/
theorem acceptedPsnIsNotNewAgain : Obligations.AcceptedPsnIsNotNewAgain := by
  intro e psn q he hpsn hq hnew
  obtain ⟨hpos, hle, -⟩ := (newAt_iff e psn).mp hnew
  obtain ⟨k, hk, heq, hset, hstop⟩ := advance_eq_movedBy 256 (e := marked psn e) he
  have hwindow {x : Nat} (hx : x < 2 ^ 32) (hd : sub32 x e.recvThrough ≤ 256) :
      newAt (acceptPsn psn e) x = (newAt e x && decide (x ≠ psn)) := by
    rw [acceptPsn_eq, heq, newAt_movedBy hk hset hd, newAt_marked hpsn hx hnew]
  refine ⟨by simp [hwindow hpsn hle], fun hold hd => by simp [hwindow hq hd, hold], fun hn hne => ?_, ?_, ?_⟩
  · rw [hwindow hq ((newAt_iff e q).mp hn).2.1, hn]
    simpa using hne
  · rw [acceptPsn_eq, heq]
    rcases hstop with rfl | hclear
    · simp [movedBy, flag_of_ge]
    · simpa [movedBy] using hclear
  · rw [acceptPsn_eq, heq]
    exact movedBy_recvThrough_lt _ _

end Sys2Proof.Machine
end

section
/-! SUPPORT. Connection ends under the shared operations: what a write of one end gives and leaves, how an end is made and asks the setup
service, and what packets sent leave of the connections. -/

namespace Sys2Proof.Machine

/-! ## One end is written -/

/-- Of the ends that of one handle may be written, and it is now `e`. -/
def writesEnd (h : Nat) (e : End) (s t : State) : Prop :=
  tget t.conn.ends h = some e ∧ ∀ k, k ≠ h → tget t.conn.ends k = tget s.conn.ends k

section
variable {s t u : State} {h : Nat} {e : End}

theorem endOf_of_tget (he : tget s.conn.ends h = some e) : endOf s h = e := by simp [endOf, tgetD_eq, he]

theorem endOf_congr (hends : t.conn.ends = s.conn.ends) (k : Nat) : endOf t k = endOf s k := by simp [endOf, hends]

theorem writesEnd_refl (he : tget s.conn.ends h = some e) : writesEnd h e s s := ⟨he, fun _ _ => rfl⟩

theorem writesEnd_self (hw : writesEnd h e s t) : endOf t h = e := endOf_of_tget hw.1

theorem writesEnd_other (hw : writesEnd h e s t) {k : Nat} (hk : k ≠ h) : endOf t k = endOf s k := by
  simp [endOf, tgetD_eq, hw.2 k hk]

/-- What leaves the ends leaves what was written of them. -/
theorem writesEnd_of_ends (hends : u.conn.ends = t.conn.ends) (hw : writesEnd h e s t) : writesEnd h e s u := by
  rwa [writesEnd, hends]

/-- Before the write, states with the same ends are alike. -/
theorem writesEnd_from (hends : t.conn.ends = s.conn.ends) (hw : writesEnd h e t u) : writesEnd h e s u := by
  rwa [writesEnd, ← hends]

theorem writesEnd_setEnd (f : End → End) (hw : writesEnd h e s t) : writesEnd h (f e) s (setEnd h f t) := by
  obtain ⟨hself, hother⟩ := hw
  refine ⟨by simp [hself], fun k hk => ?_⟩
  simp [tget_tmod_eq, hk, hother k hk]

theorem writesEnd_tset {ends : Tab End} (hends : t.conn.ends = tset ends h e) (hs : ∀ k, k ≠ h → tget ends k = tget s.conn.ends k) :
    writesEnd h e s t := by
  refine ⟨by simp [hends], fun k hk => ?_⟩
  rw [hends, tget_tset_ne _ _ hk, hs k hk]

end

/-- What leaves the connections at each step leaves them all along. -/
theorem foldl_conn {α : Type} {f : State → α → State} (hf : ∀ s a, (f s a).conn = s.conn) (l : List α) (s : State) :
    (l.foldl f s).conn = s.conn := by
  induction l generalizing s with
  | nil => rfl
  | cons a l ih => exact (ih _).trans (hf s a)

/-! ## The cache -/

section
variable (h : Nat) (s : State)

theorem fillCache_onlyChanges : onlyChanges [.conn, .mesh] s (fillCache h s) := by simp [onlyChanges_iff, fillCache, unwait]

theorem inCache_fillCache : inCache (fillCache h s) h = true := by simp [inCache, fillCache, unwait]

theorem uncache_onlyChanges : onlyChanges [.conn, .mesh] s (uncache h s) := by simp [onlyChanges_iff, uncache, unwait]

theorem inCache_uncache : inCache (uncache h s) h = isEdge h := by simp [inCache, uncache, unwait]

/-- To use an end moves it to the front of the cache, and that is all of the connections it changes. -/
theorem touch_eq : ∃ l, touch h s = { s with conn := { s.conn with cached := l } } := by
  unfold touch
  split
  · exact ⟨_, rfl⟩
  · exact ⟨s.conn.cached, rfl⟩

@[simp] theorem touch_ends : (touch h s).conn.ends = s.conn.ends := by obtain ⟨l, hl⟩ := touch_eq h s; rw [hl]
@[simp] theorem touch_arrivals : (touch h s).conn.arrivals = s.conn.arrivals := by obtain ⟨l, hl⟩ := touch_eq h s; rw [hl]

theorem touch_onlyChanges : onlyChanges [.conn] s (touch h s) := by
  obtain ⟨l, hl⟩ := touch_eq h s
  simp [hl, onlyChanges_iff]

end

/-! ## A new end, and its request -/

/-- An end with an initial PSN and a rate, its window of 256 packets (R119, R155). -/
def freshEnd (e : End) (rate psn : Nat) : End :=
  { e with nextPsn := psn, firstPsn := psn, acked := sub32 psn 1, window := 256, rate := rate }

/-- The PSN that the next new end draws. -/
def drawnPsn (s : State) : Nat := Config.freeNat s.free % m32

theorem drawnPsn_lt (s : State) : drawnPsn s < 2 ^ 32 := Nat.mod_lt _ (Nat.two_pow_pos _)

theorem newEnd_eq (e : End) (rate : Nat) (s : State) :
    newEnd e rate s = (freshEnd e rate (drawnPsn s), (draw s).2) := rfl

theorem addEnd_onlyChanges (h : Nat) (e : End) (s : State) : onlyChanges [.conn, .mesh] s (addEnd h e s) :=
  onlyChanges_trans (by simp [onlyChanges_iff]) (fillCache_onlyChanges h _)

theorem addEnd_ends (h : Nat) (e : End) (s : State) : (addEnd h e s).conn.ends = tset s.conn.ends h e := rfl

theorem tget_addEnd (h : Nat) (e : End) (s : State) : tget (addEnd h e s).conn.ends h = some e := by rw [addEnd_ends, tget_tset]

theorem inCache_addEnd (h : Nat) (e : End) (s : State) : inCache (addEnd h e s) h = true := inCache_fillCache h _

/-- An end whose request has been sent once more, with the timeout of that send (R120). -/
def triedEnd (s : State) (e : End) : End := { e with tries := e.tries + 1, triedAt := s.time.now, tryFor := cfg s 0x4100 8 * us }

/-- The state with that end. -/
def tried (h : Nat) (s : State) : State := setEnd h (triedEnd s) s

theorem sendConnectReq_of_tget {s : State} {h : Nat} {e : End} (he : tget s.conn.ends h = some e) :
    sendConnectReq h s = askSetup (reqFor (tried h s) h e) (tried h s) := by
  rw [← endOf_of_tget he]
  rfl

theorem tried_onlyChanges (h : Nat) (s : State) : onlyChanges [.conn] s (tried h s) := by simp [onlyChanges_iff, tried]

/-! ## Settings -/

theorem cfg_congr {s t : State} (hdict : t.dict = s.dict) (i n : Nat) : cfg t i n = cfg s i n := by simp only [cfg, hdict]

theorem coord_congr {s t : State} (hdict : t.dict = s.dict) : coord t = coord s := by simp only [coord, cfg_congr hdict]

/-! ## Packets sent -/

theorem toMesh_onlyChanges (c : Carried) (s : State) : onlyChanges [.mesh, .fab] s (toMesh c s) := by
  unfold toMesh
  split
  · simp [onlyChanges_iff]
  · exact embark_onlyChanges c s

theorem sendOut_onlyChanges (src : Nat) (pkt : Packet) (spray : Nat) (mgmt : Bool) (die : Option Nat) (s : State) :
    onlyChanges [.mesh, .fab] s (sendOut src pkt spray mgmt die s) := by
  unfold sendOut
  split <;> exact toMesh_onlyChanges _ _

/-- The areas that a packet sent by an end may change. -/
def sendAreas : List Area := [.mesh, .fab, .obs, .counts]

theorem sendFrom_onlyChanges (h : Nat) (d : Desc) (psn : Nat) (payload : List Byte) (s : State) :
    onlyChanges sendAreas s (sendFrom h d psn payload s) := by
  unfold sendFrom
  dsimp only
  split
  · simp [onlyChanges_iff, sendAreas, leaveBy, waitAt]
  · refine onlyChanges_trans (t := tally 0x44 (44 + payload.length) { die := dieOfEnd h } (bumpFixed (dieOfEnd h) 4 1 s)) ?_
      (onlyChanges_mono (sendOut_onlyChanges _ _ _ _ _ _) fun a => by cases a <;> decide)
    simp [onlyChanges_iff, sendAreas]

@[simp] theorem sendFrom_conn (h : Nat) (d : Desc) (psn : Nat) (payload : List Byte) (s : State) :
    (sendFrom h d psn payload s).conn = s.conn := sendFrom_onlyChanges _ _ _ _ _ .conn rfl

@[simp] theorem sendFrom_mem (h : Nat) (d : Desc) (psn : Nat) (payload : List Byte) (s : State) :
    (sendFrom h d psn payload s).mem = s.mem := sendFrom_onlyChanges _ _ _ _ _ .mem rfl

@[simp] theorem sendConn_conn (kind dest handle epoch : Nat) (mgmt : Bool) (ws : List Nat) (s : State) :
    (sendConn kind dest handle epoch mgmt ws s).conn = s.conn := sendOut_onlyChanges _ _ _ _ _ _ .conn rfl

end Sys2Proof.Machine
end

section
/-! SUPPORT. The connection control window: what it answers, and what each of its commands does (R112, R117 to R119, R155). -/

namespace Sys2Proof.Machine

/-! ## The window -/

/-- The state after a command's descriptor, where it comes with one, is in the descriptor area of the connection window. -/
def connAreaWritten (p : Nat) (desc : Option (BitVec 512)) (s : State) : State :=
  match desc with
  | some d => connWritten p d s
  | none => s

@[simp] theorem connAreaWritten_some (p : Nat) (d : BitVec 512) (s : State) : connAreaWritten p (some d) s = connWritten p d s := rfl
@[simp] theorem connAreaWritten_none (p : Nat) (s : State) : connAreaWritten p none s = s := rfl

/-- An open window takes the command and answers its result, on the handle the command names. -/
theorem connControl_of_open {s t : State} {p res obj h : Nat} (code : Nat) {desc : Option (BitVec 512)} {act : State → Nat × Nat × State}
    (hopen : connWindowOpen s p = true) (hact : act (connAreaWritten p desc s) = (res, h, t)) :
    connControl s p code obj desc act = .next (answerConn p res code h t) := by
  simp only [connWindowOpen, Bool.and_eq_true, bne_iff_ne, beq_iff_eq] at hopen
  obtain ⟨⟨⟨hp, hrun⟩, hup⟩, hidle⟩ := hopen
  have hdone : (fld (tgetD s.conn.windows p {}).word 63 56 == resPending) = false := beq_eq_false_iff_ne.mpr hidle
  simp only [connControl, hp, need_true, hrun, hup, hdone]
  exact congrArg (fun r : Nat × Nat × State => Host.Outcome.next (answerConn p r.1 code r.2.1 r.2.2)) hact

/-! ## What a descriptor written leaves as it was -/

section
variable (s : State) (p : Nat) (d : BitVec 512) (k : Nat)

@[simp] theorem coord_connWritten : coord (connWritten p d s) = coord s := rfl
@[simp] theorem dieUp_connWritten : dieUp (connWritten p d s) k = dieUp s k := rfl
@[simp] theorem partOf_connWritten : partOf (connWritten p d s) k = partOf s k := rfl
@[simp] theorem partEndsOn_connWritten (die : Nat) : partEndsOn (connWritten p d s) die k = partEndsOn s die k := rfl
@[simp] theorem freeHandle_connWritten : freeHandle (connWritten p d s) k = freeHandle s k := rfl

theorem desc_connWritten : (tgetD (connWritten p d s).conn.windows p {}).desc = d := by simp [connWritten, tgetD_tmodD_eq]

end

/-! ## CONNECT -/

/-- A free handle is one of its die, which is an engine die, and names no end. -/
theorem freeHandle_spec {s : State} {die h : Nat} {other : Option Nat} (hf : freeHandle s die other = some h) :
    tget s.conn.ends h = none ∧ other ≠ some h ∧ h / 2 ^ 17 = die ∧ (die < 8 → dieOfEnd h = die) := by
  have hgood := List.find?_some hf
  obtain ⟨i, hi, rfl⟩ := List.mem_map.mp (List.mem_of_find?_eq_some hf)
  have hi : i < 65536 := by
    have := List.mem_range.mp hi
    omega
  simp only [Bool.and_eq_true, Option.isNone_iff_eq_none, bne_iff_ne] at hgood
  refine ⟨hgood.1, hgood.2, by omega, fun hdie => ?_⟩
  have hedge : isEdge (die * 2 ^ 17 + i) = false := by
    rw [Bool.eq_false_iff]
    simp [isEdge]
    omega
  simp only [dieOfEnd, hedge]
  simp
  omega

/-- The Connecting end that CONNECT makes of a descriptor, for a device's coordinates. -/
def connectEnd (c p : Nat) (d : BitVec 256) : End :=
  { initiator := true, state := .connecting, localEp := c + ConnDesc.localE d, peerEp := ConnDesc.peer d, part := p,
    pasid := ConnDesc.pasid d, spray := ConnDesc.spray d }

/-- The rate of that end: the one given, or the starting rate. -/
def connectRate (s : State) (d : BitVec 256) : Nat := if ConnDesc.rate d = 0 then cfg s 0x4101 1 else ConnDesc.rate d

/-- The end under its handle, in the cache, its request counted as sent. -/
def connectMade (h c p : Nat) (d : BitVec 512) (s : State) : State :=
  tried h (addEnd h (freshEnd (connectEnd c p (lowDesc d)) (connectRate s (lowDesc d)) (drawnPsn s))
    (draw (connWritten p d s)).2)

section
variable (h c p : Nat) (d : BitVec 512) (s : State)

theorem writesEnd_connectMade : writesEnd h
    (triedEnd s (freshEnd (connectEnd c p (lowDesc d)) (connectRate s (lowDesc d)) (drawnPsn s))) s (connectMade h c p d s) := by
  refine writesEnd_setEnd (triedEnd s) (writesEnd_tset (addEnd_ends _ _ _) fun k _ => rfl)

theorem connectMade_onlyChanges : onlyChanges [.conn, .free, .mesh] s (connectMade h c p d s) := by
  have hwritten : onlyChanges [.conn, .free, .mesh] s (draw (connWritten p d s)).2 := by
    simp [onlyChanges_iff, connWritten]
  refine onlyChanges_trans hwritten (onlyChanges_trans
    (onlyChanges_mono (addEnd_onlyChanges h _ _) fun a => by cases a <;> decide)
    (onlyChanges_mono (tried_onlyChanges h _) fun a => by cases a <;> decide))

end

section
variable {s : State} {p : Nat} (obj : Nat) (d : BitVec 512) (hopen : connWindowOpen s p = true)
include hopen

/-- CONNECT whose descriptor fits the partition, on a die that is there, with quota and a handle left (R118). -/
theorem exec_connect {c h : Nat} (hpart : ConnDesc.part (lowDesc d) = p) (hspray : ConnDesc.spray (lowDesc d) ≠ 3)
    (hdie : dieOfEnd obj < 8) (hup : dieUp s (dieOfEnd obj) = true) (hcoord : coord s = some c)
    (hquota : partEndsOn s (dieOfEnd obj) p < (partOf s p).quotaEnds) (hfree : freeHandle s (dieOfEnd obj) = some h) :
    exec (.connect p obj d) s = .next (answerConn p resPending 1 h (askSetup
      (reqFor (connectMade h c p d s) h (freshEnd (connectEnd c p (lowDesc d)) (connectRate s (lowDesc d)) (drawnPsn s)))
      (connectMade h c p d s))) := by
  show execConnect p obj d s = _
  refine connControl_of_open 1 hopen ?_
  have hreq := sendConnectReq_of_tget (tget_addEnd h (freshEnd (connectEnd c p (lowDesc d)) (connectRate s (lowDesc d)) (drawnPsn s))
    (draw (connWritten p d s)).2)
  simp [hpart, hspray, Nat.blt_eq.mpr hdie, hup, hcoord, hfree, Nat.not_le.mpr hquota, newEnd_eq]
  exact hreq

/-- A descriptor of another partition, a reserved SPRAY or a die that is not there is INVALID (R117; log 128). -/
theorem exec_connect_invalid (hbad : ConnDesc.part (lowDesc d) ≠ p ∨ ConnDesc.spray (lowDesc d) = 3 ∨
    dieUp s (dieOfEnd obj) = false ∨ 8 ≤ dieOfEnd obj) :
    exec (.connect p obj d) s = .next (answerConn p resInvalid 1 obj (connWritten p d s)) := by
  have hbad' : (ConnDesc.part (lowDesc d) != p || ConnDesc.spray (lowDesc d) == 3 || !dieUp s (dieOfEnd obj) ||
      !Nat.blt (dieOfEnd obj) 8) = true := by
    rcases hbad with h | h | h | h
    · simp [h]
    · simp [h]
    · simp [h]
    · have hblt : Nat.blt (dieOfEnd obj) 8 = false := Bool.eq_false_iff.mpr fun hlt => Nat.not_lt.mpr h (Nat.blt_eq.mp hlt)
      simp [hblt]
  show execConnect p obj d s = _
  exact connControl_of_open 1 hopen (if_pos hbad')

/-- The descriptor passes: what is then missing decides the refusal. -/
theorem exec_connect_refused (hpart : ConnDesc.part (lowDesc d) = p) (hspray : ConnDesc.spray (lowDesc d) ≠ 3)
    (hdie : dieOfEnd obj < 8) (hup : dieUp s (dieOfEnd obj) = true) :
    (coord s = none → exec (.connect p obj d) s = .next (answerConn p resUnreachable 1 obj (connWritten p d s))) ∧
    (coord s ≠ none → ((partOf s p).quotaEnds ≤ partEndsOn s (dieOfEnd obj) p ∨ freeHandle s (dieOfEnd obj) = none) →
      exec (.connect p obj d) s = .next (answerConn p resNoResource 1 obj (connWritten p d s))) := by
  show (_ → execConnect p obj d s = _) ∧ (_ → _ → execConnect p obj d s = _)
  refine ⟨fun hcoord => connControl_of_open 1 hopen ?_, fun hcoord hfull => connControl_of_open 1 hopen ?_⟩
  · simp [hpart, hspray, Nat.blt_eq.mpr hdie, hup, hcoord]
  · obtain ⟨c, hc⟩ := Option.ne_none_iff_exists'.mp hcoord
    rcases hfull with hquota | hnone
    · simp [hpart, hspray, Nat.blt_eq.mpr hdie, hup, hc, hquota]
    · simp [hpart, hspray, Nat.blt_eq.mpr hdie, hup, hc, hnone]

end

/-! ## Commands on an end of the partition -/

theorem ownEnd_iff (s : State) (p h : Nat) (e : End) :
    ownEnd s p h e = true ↔ tget s.conn.ends h = some e ∧ (e.live = true ∧ e.initiator = true ∧ e.part = p) := by
  simp [ownEnd, and_assoc]

theorem withEndOf_of_own {s : State} {p h : Nat} {e : End} (hown : ownEnd s p h e = true) (act : End → Nat × Nat × State) :
    withEndOf s p h act = act e := by
  obtain ⟨he, hlive, hinit, hpart⟩ := (ownEnd_iff s p h e).mp hown
  simp [withEndOf, he, hlive, hinit, hpart]

theorem withEndOf_of_not_own {s : State} {p h : Nat} (hnone : ∀ e, ownEnd s p h e = false) (act : End → Nat × Nat × State) :
    withEndOf s p h act = (resInvalid, h, s) := by
  unfold withEndOf
  split
  · next e he =>
    refine if_neg fun hown => ?_
    simp only [Bool.and_eq_true, beq_iff_eq, and_assoc] at hown
    have hyes := (ownEnd_iff s p h e).mpr ⟨he, hown⟩
    simp [hnone e] at hyes
  · rfl

@[simp] theorem ownEnd_connWritten (s : State) (p k h : Nat) (d : BitVec 512) (e : End) :
    ownEnd (connWritten k d s) p h e = ownEnd s p h e := rfl

/-- An end that closes: nothing waits to be sent, and the timeout of its operations starts (R118). -/
def closingEnd (s : State) (e : End) : End :=
  { e with state := .closing, closeWait := true, tries := 0, triedAt := s.time.now, tryFor := cfg s 0x4100 9 * us, toSend := [] }

theorem writesEnd_toClosing {s : State} {h : Nat} {e : End} (he : tget s.conn.ends h = some e) :
    writesEnd h (closingEnd s e) s (toClosing h s) := writesEnd_setEnd (closingEnd s) (writesEnd_refl he)

theorem toClosing_onlyChanges (h : Nat) (s : State) : onlyChanges [.conn] s (toClosing h s) := by simp [onlyChanges_iff, toClosing]

/-- CLOSE_REQ goes at once where no operation is in flight. -/
theorem closeIfIdle_toClosing {s : State} {h : Nat} {e : End} (he : tget s.conn.ends h = some e) : closeIfIdle h (toClosing h s) =
    if opsOn s h = [] then sendCloseReq h (toClosing h s) else toClosing h s := by
  have hops : opsOn (toClosing h s) h = opsOn s h := rfl
  simp [closeIfIdle, writesEnd_self (writesEnd_toClosing he), closingEnd, hops]

/-- The end that REESTABLISH makes Connecting again, before its request is sent. -/
def reconnectEnd (s : State) (e : End) : End :=
  freshEnd { e with state := .connecting, tries := 0, toSend := [], unacked := [] } e.rate (drawnPsn s)

/-- The state with that end, its request counted as sent. -/
def reconnected (h : Nat) (e : End) (s : State) : State := tried h (setEnd h (fun _ => reconnectEnd s e) (draw s).2)

theorem reconnected_onlyChanges (h : Nat) (e : End) (s : State) : onlyChanges [.conn, .free] s (reconnected h e s) := by
  simp [onlyChanges_iff, reconnected, tried]

section
variable {s : State} {p obj : Nat} {e : End} (hopen : connWindowOpen s p = true) (hown : ownEnd s p obj e = true)
include hopen hown

theorem exec_close (hstate : e.state = .open_ ∨ e.state = .broken) : exec (.close p obj) s =
    .next (answerConn p resPending 2 obj (if opsOn s obj = [] then sendCloseReq obj (toClosing obj s) else toClosing obj s)) := by
  rw [← closeIfIdle_toClosing ((ownEnd_iff _ _ _ _).mp hown).1]
  show execClose p obj s = _
  refine connControl_of_open 2 hopen ?_
  rcases hstate with hstate | hstate <;> simp [withEndOf_of_own hown, hstate]

theorem exec_close_busy (hstate : e.state = .connecting ∨ e.state = .closing) :
    exec (.close p obj) s = .next (answerConn p resBusy 2 obj s) := by
  show execClose p obj s = _
  refine connControl_of_open 2 hopen ?_
  rcases hstate with hstate | hstate <;> simp [withEndOf_of_own hown, hstate]

/-- A Broken end, or an Open one with no operation in flight, asks the setup service again (R118). -/
theorem exec_reestablish (hstate : e.state = .broken ∨ (e.state = .open_ ∧ opsOn s obj = [])) : exec (.reestablish p obj) s =
    .next (answerConn p resPending 3 obj (askSetup (reqFor (reconnected obj e s) obj (reconnectEnd s e)) (reconnected obj e s))) := by
  have hquiet : ((e.state == .open_ && (opsOn s obj).isEmpty) || e.state == .broken) = true := by
    rcases hstate with h | ⟨h, hops⟩
    · simp [h]
    · simp [h, hops]
  have hset := writesEnd_setEnd (s := s) (fun _ => reconnectEnd s e) (t := (draw s).2) (writesEnd_refl ((ownEnd_iff _ _ _ _).mp hown).1)
  have hreq := sendConnectReq_of_tget hset.1
  show execReestablish p obj s = _
  refine connControl_of_open 3 hopen ?_
  simp only [connAreaWritten_none, withEndOf_of_own hown, hquiet, if_true, newEnd_eq]
  exact congrArg (fun t => (resPending, obj, t)) hreq

theorem exec_reestablish_busy (hstate : e.state = .connecting ∨ e.state = .closing ∨ (e.state = .open_ ∧ opsOn s obj ≠ [])) :
    exec (.reestablish p obj) s = .next (answerConn p resBusy 3 obj s) := by
  show execReestablish p obj s = _
  refine connControl_of_open 3 hopen ?_
  rcases hstate with h | h | ⟨h, hops⟩
  · simp [withEndOf_of_own hown, h]
  · simp [withEndOf_of_own hown, h]
  · simp [withEndOf_of_own hown, h, hops]

theorem exec_modifyConn (d : BitVec 512) : exec (.modifyConn p obj d) s = .next (
    if ConnDesc.spray (lowDesc d) = 3 then answerConn p resInvalid 4 obj (connWritten p d s)
    else answerConn p resDone 4 obj (setEnd obj (fun e => { e with spray := ConnDesc.spray (lowDesc d), rateSet := some (ConnDesc.rate (lowDesc d)) })
      (connWritten p d s))) := by
  have hown' : ownEnd (connWritten p d s) p obj e = true := hown
  show execModifyConn p obj d s = _
  split
  · next h => exact connControl_of_open 4 hopen (by simp [withEndOf_of_own hown', h])
  · next h => exact connControl_of_open 4 hopen (by simp [withEndOf_of_own hown', h])

theorem exec_readConn : exec (.readConn p obj) s = .next (answerConn p resDone 5 obj (connWritten p (readConnDesc e) s)) := by
  show execReadConn p obj s = _
  exact connControl_of_open 5 hopen (withEndOf_of_own hown _)

end

/-- A command that names no end of the partition is INVALID (R117). -/
theorem exec_ofNoEnd {s : State} {p obj : Nat} (d : BitVec 512) (hopen : connWindowOpen s p = true) (hnone : ∀ e, ownEnd s p obj e = false) :
    exec (.close p obj) s = .next (answerConn p resInvalid 2 obj s) ∧
    exec (.reestablish p obj) s = .next (answerConn p resInvalid 3 obj s) ∧
    exec (.modifyConn p obj d) s = .next (answerConn p resInvalid 4 obj (connWritten p d s)) ∧
    exec (.readConn p obj) s = .next (answerConn p resInvalid 5 obj s) := by
  have hnone' : ∀ e, ownEnd (connWritten p d s) p obj e = false := hnone
  show execClose p obj s = _ ∧ execReestablish p obj s = _ ∧ execModifyConn p obj d s = _ ∧ execReadConn p obj s = _
  exact ⟨connControl_of_open 2 hopen (withEndOf_of_not_own hnone _), connControl_of_open 3 hopen (withEndOf_of_not_own hnone _),
    connControl_of_open 4 hopen (withEndOf_of_not_own hnone' _), connControl_of_open 5 hopen (withEndOf_of_not_own hnone _)⟩

theorem exec_connCommandReserved {s : State} {p : Nat} (code obj : Nat) (hopen : connWindowOpen s p = true) :
    exec (.connCommandReserved p code obj) s = .next (answerConn p resInvalid (code % 16) (obj % 2 ^ 20) s) := by
  show execConnCommandReserved p code obj s = _
  exact connControl_of_open (code % 16) hopen rfl

/-- Settles O17, command by command: a command on an end first finds whether the window's partition owns the end. -/
theorem connectionWindowCommandsAct : Obligations.ConnectionWindowCommandsAct := by
  intro s p obj d hopen
  refine ⟨fun c h hpart hspray hdie hup hcoord hquota hfree => ?_, exec_connect_invalid obj d hopen,
    fun hpart hspray hdie hup => exec_connect_refused obj d hopen hpart hspray hdie hup, fun e hown => ?_,
    exec_ofNoEnd d hopen, fun code => exec_connCommandReserved code obj hopen⟩
  · obtain ⟨hnone, -, -, hdieOf⟩ := freeHandle_spec hfree
    have hwrites := writesEnd_connectMade h c p d s
    have hself := writesEnd_self hwrites
    refine ⟨connectMade h c p d s, ?_, hnone, hdieOf hdie, inCache_addEnd _ _ _, ?_⟩
    · rw [exec_connect obj d hopen hpart hspray hdie hup hcoord hquota hfree, hself]
      rfl
    · simp only [hself]
      exact ⟨rfl, rfl, rfl, rfl, rfl, rfl, rfl, rfl, rfl, rfl, rfl, drawnPsn_lt s, rfl, rfl, fun k hk => writesEnd_other hwrites hk,
        desc_connWritten s p d, connectMade_onlyChanges h c p d s⟩
  · have he := ((ownEnd_iff s p obj e).mp hown).1
    have hclosing := writesEnd_toClosing he
    refine ⟨fun hstate => ⟨fun hops => ?_, fun hops => ?_, writesEnd_self hclosing, fun k hk => writesEnd_other hclosing hk,
      toClosing_onlyChanges obj s⟩, fun hstate => ⟨exec_close_busy hopen hown hstate, exec_reestablish_busy hopen hown (hstate.imp_right .inl)⟩,
      fun hstate => ?_, fun hstate hops => exec_reestablish_busy hopen hown (.inr (.inr ⟨hstate, hops⟩)), fun hspray => ?_, fun hspray => ?_,
      exec_readConn hopen hown⟩
    · rw [exec_close hopen hown hstate, if_pos hops]
    · rw [exec_close hopen hown hstate, if_neg hops]
    · have hwrites : writesEnd obj (triedEnd s (reconnectEnd s e)) s (reconnected obj e s) :=
        writesEnd_setEnd (triedEnd s) (writesEnd_setEnd (fun _ => reconnectEnd s e) (writesEnd_refl he))
      have hself := writesEnd_self hwrites
      refine ⟨reconnected obj e s, ?_, ?_⟩
      · rw [exec_reestablish hopen hown hstate, hself]
        obtain ⟨-, -, -, hpart⟩ := (ownEnd_iff s p obj e).mp hown
        rw [← hpart]
        rfl
      · simp only [hself]
        exact ⟨rfl, rfl, rfl, rfl, rfl, rfl, rfl, fun k hk => writesEnd_other hwrites hk, reconnected_onlyChanges obj e s⟩
    · rw [exec_modifyConn hopen hown, if_neg hspray]
    · rw [exec_modifyConn hopen hown, if_pos hspray]

end Sys2Proof.Machine
end

section
/-! SUPPORT. The ends of a connection as answers, silences and RESET move them (R118 to R120, R122 to R124). -/

namespace Sys2Proof.Machine

/-! ## Setup packets at the hub -/

theorem meshTake_onlyChanges {dst : Nat} {good : Packet → Bool} {s u : State} {p : Packet} (h : meshTake dst good s = some (p, u)) :
    onlyChanges [.mesh] s u := by
  obtain ⟨x, -, hx⟩ := Option.map_eq_some_iff.mp h
  obtain ⟨-, rfl⟩ := Prod.mk.inj hx
  simp [onlyChanges_iff]

theorem takeSetup_onlyChanges {kind : Nat} {good : Packet → Bool} {s u : State} {ok : Bool} (h : takeSetup kind good s = some (ok, u)) :
    onlyChanges [.mesh] s u := by
  obtain ⟨⟨p, t⟩, htake, hx⟩ := Option.map_eq_some_iff.mp h
  obtain ⟨-, rfl⟩ := Prod.mk.inj hx
  exact meshTake_onlyChanges htake

theorem leaveIdle_onlyChanges (s : State) : onlyChanges [.pow] s (leaveIdle s) := by simp [onlyChanges_iff]

/-- A packet heard at the hub is off the mesh, and the device is out of Idle. -/
theorem hears_onlyChanges {kind : Nat} {good : Packet → Bool} {s u : State} (h : hears kind good s u) : onlyChanges [.mesh, .pow] s u := by
  obtain ⟨t, htake, rfl⟩ := h
  exact onlyChanges_trans (onlyChanges_mono (takeSetup_onlyChanges htake) fun a => by cases a <;> decide)
    (onlyChanges_mono (leaveIdle_onlyChanges t) fun a => by cases a <;> decide)

section
variable {kind : Nat} {good : Packet → Bool} {s u : State} (hrun : running s = true)
include hrun

theorem atHub_of_hears (h : hears kind good s u) (act : State → State) : atHub kind good act s = act u := by
  obtain ⟨t, htake, rfl⟩ := h
  simp [atHub, hrun, htake]

/-- One whose check fails is dropped (R146). -/
theorem atHub_of_failed (h : takeSetup kind good s = some (false, u)) (act : State → State) : atHub kind good act s = u := by
  simp [atHub, hrun, h]

end

/-! ## Epochs -/

theorem epochOf_congr {s t : State} (hepochs : t.conn.epochs = s.conn.epochs) (hfills : t.conn.fills = s.conn.fills) (k : Nat) :
    epochOf t k = epochOf s k := by simp [epochOf, hepochs, hfills]

theorem epochOf_setEpoch (h v k : Nat) (s : State) : epochOf (setEpoch h v s) k = if k = h then v % 2 ^ 16 else epochOf s k := by
  by_cases hk : k = h
  · simp [epochOf, hk, m16]
  · simp [epochOf, tget_tset_ne, hk]

/-! ## The result of an open command -/

section
variable (e : End) (h res : Nat) (s : State)

/-- An answer writes a window and which handle it is open for, and leaves the ends, their epochs, records and cache. -/
theorem answerOpen_writes : ∃ windows busy, answerOpen e h res s = { s with conn := { s.conn with windows := windows, busy := busy } } := by
  unfold answerOpen answerConn
  dsimp only
  split
  · split <;> exact ⟨_, _, rfl⟩
  · exact ⟨s.conn.windows, s.conn.busy, rfl⟩

@[simp] theorem answerOpen_ends : (answerOpen e h res s).conn.ends = s.conn.ends := by
  obtain ⟨_, _, hw⟩ := answerOpen_writes e h res s; rw [hw]
@[simp] theorem answerOpen_epochs : (answerOpen e h res s).conn.epochs = s.conn.epochs := by
  obtain ⟨_, _, hw⟩ := answerOpen_writes e h res s; rw [hw]
@[simp] theorem answerOpen_fills : (answerOpen e h res s).conn.fills = s.conn.fills := by
  obtain ⟨_, _, hw⟩ := answerOpen_writes e h res s; rw [hw]
@[simp] theorem inCache_answerOpen (k : Nat) : inCache (answerOpen e h res s) k = inCache s k := by
  obtain ⟨_, _, hw⟩ := answerOpen_writes e h res s; rw [hw]; rfl

theorem answerOpen_onlyChanges : onlyChanges [.conn] s (answerOpen e h res s) := by
  obtain ⟨_, _, hw⟩ := answerOpen_writes e h res s
  simp [hw, onlyChanges_iff]

theorem word_answerOpen (hbusy : tget s.conn.busy e.part = some h) :
    (tgetD (answerOpen e h res s).conn.windows e.part {}).word = controlWord res (openCode s e.part) h := by
  simp only [answerOpen, hbusy, beq_self_eq_true, if_true, answerConn]
  split <;> simp [tgetD_tmodD_eq]

end

/-! ## CONNECT_ACK -/

/-- An end that CONNECT_ACK opens, with the epoch and the PSN it carries (R118, R119). -/
def openedEnd (s : State) (e : End) (peerHandle epoch psn : Nat) : End :=
  { e.identity with
    state := .open_, peerHandle := peerHandle % 2 ^ 20, established := true, epoch := epoch % m16, acked := sub32 e.nextPsn 1,
    nextOp := e.nextOp, recvThrough := sub32 psn 1, lastHeard := s.time.now, rate := if e.rate == 0 then cfg s 0x4101 1 else e.rate }

/-- Where the end is a schedule's, the schedule may be resident now (R214). -/
def scheduleSettled (e : End) (s : State) : State :=
  match e.coll with
  | some (_, n + 1, _, _) => settleSlot n s
  | _ => s

@[simp] theorem settleSlot_conn (n : Nat) (s : State) : (settleSlot n s).conn = s.conn := by
  unfold settleSlot
  split
  · split <;> rfl
  · rfl

@[simp] theorem scheduleSettled_conn (e : End) (s : State) : (scheduleSettled e s).conn = s.conn := by
  unfold scheduleSettled
  split
  · exact settleSlot_conn _ _
  · rfl

theorem scheduleSettled_of_no_coll {e : End} (h : e.coll = none) (s : State) : scheduleSettled e s = s := by simp [scheduleSettled, h]

/-- The end open and its epoch stored, before the open command is answered. -/
def ackTaken (h : Nat) (e : End) (peerHandle epoch psn : Nat) (s : State) : State :=
  scheduleSettled e (setEnd h (fun _ => openedEnd s e peerHandle epoch psn) (setEpoch h epoch s))

theorem connectAck_of_connecting {s : State} {h : Nat} {e : End} (peerHandle epoch psn : Nat) (he : tget s.conn.ends h = some e)
    (hinit : e.initiator = true) (hstate : e.state = .connecting) :
    connectAck h peerHandle epoch psn s = answerOpen e h resDone (ackTaken h e peerHandle epoch psn s) := by
  have hself := endOf_of_tget he
  unfold connectAck
  simp only [hself, hinit, hstate]
  rfl

section
variable {s : State} {h : Nat} {e : End} (peerHandle epoch psn : Nat) (he : tget s.conn.ends h = some e)
include he

theorem writesEnd_ackTaken : writesEnd h (openedEnd s e peerHandle epoch psn) s (ackTaken h e peerHandle epoch psn s) := by
  refine writesEnd_of_ends (congrArg ConnSt.ends (scheduleSettled_conn _ _)) ?_
  exact writesEnd_setEnd (fun _ => openedEnd s e peerHandle epoch psn) (writesEnd_of_ends rfl (writesEnd_refl he))

omit he in
theorem epochOf_ackTaken (k : Nat) :
    epochOf (ackTaken h e peerHandle epoch psn s) k = if k = h then epoch % 2 ^ 16 else epochOf s k := by
  rw [← epochOf_setEpoch]
  exact epochOf_congr (by simp [ackTaken]) (by simp [ackTaken]) k

end

/-! ## An end leaves for Free -/

/-- An end that is no more: out of the cache, the packets that waited for it on the mesh again. -/
def endRemoved (h : Nat) (s : State) : State :=
  { uncache h s with conn := { (uncache h s).conn with ends := tdel s.conn.ends h } }

section
variable (h : Nat) (s : State)

@[simp] theorem endRemoved_ends : (endRemoved h s).conn.ends = tdel s.conn.ends h := rfl
@[simp] theorem endRemoved_busy : (endRemoved h s).conn.busy = s.conn.busy := rfl
@[simp] theorem openCode_endRemoved (p : Nat) : openCode (endRemoved h s) p = openCode s p := rfl

theorem inCache_endRemoved : inCache (endRemoved h s) h = isEdge h := inCache_uncache h s

theorem endRemoved_onlyChanges : onlyChanges [.conn, .mesh] s (endRemoved h s) :=
  onlyChanges_trans (uncache_onlyChanges h s) (by simp [onlyChanges_iff, endRemoved])

end

theorem closeEnds_eq (h res : Nat) (s : State) : closeEnds h res s = answerOpen (endOf s h) h res (endRemoved h s) := rfl

theorem connectFails_of_no_coll {h : Nat} {s : State} (res : Nat) (hcoll : (endOf s h).coll = none) :
    connectFails h res s = answerOpen (endOf s h) h res (endRemoved h s) := by
  simp only [connectFails, hcoll]
  rfl

/-! ## An end breaks -/

@[simp] theorem endNext_conn (wq st : Nat) (s : State) : (endNext wq st s).conn = s.conn := endNext_onlyChanges wq st s .conn rfl

@[simp] theorem settleWaits_conn (s : State) : (settleWaits s).conn = s.conn :=
  settleWaits_keeps (P := fun t => t.conn = s.conn) (fun t wq ht => (endNext_conn wq _ t).trans ht) rfl

@[simp] theorem countWaiting_conn (wq : Nat) (s : State) : (countWaiting wq s).conn = s.conn := countWaiting_onlyChanges wq s .conn rfl

@[simp] theorem decideOp_conn (wq idx : Nat) (r : Result) (s : State) : (decideOp wq idx r s).conn = s.conn := by
  unfold decideOp toDraining
  dsimp only
  split <;> simp

@[simp] theorem endOpsWith_conn (h cause : Nat) (s : State) : (endOpsWith h cause s).conn = s.conn :=
  foldl_conn (fun _ _ => decideOp_conn _ _ _ _) _ _

@[simp] theorem endTransfersOn_conn (h cause : Nat) (s : State) : (endTransfersOn h cause s).conn = s.conn := rfl

theorem endOpsWith_of_no_ops {h : Nat} {s : State} (cause : Nat) (hops : opsOn s h = []) : endOpsWith h cause s = s := by
  simp [endOpsWith, hops]

theorem endTransfersOn_of_no_groups {s : State} (h cause : Nat) (hgroups : s.coll.groups = []) : endTransfersOn h cause s = s := by
  have htmap : s.coll = { s.coll with groups := [] } := by rw [← hgroups]
  simp only [endTransfersOn, hgroups, tmap, List.map_nil, ← htmap]

/-- A Broken end: nothing is sent any more (R118, R144). -/
def brokenEnd (cause : Nat) (e : End) : End :=
  { e with state := .broken, cause := cause, toSend := [], unacked := [], hold := none, holdStart := none }

/-- The end Broken and counted, before what was under way on it ends. -/
def brokenCounted (h cause : Nat) (e : End) (s : State) : State :=
  let t := bumpConn (dieOfEnd h) e.part 7 1 (setEnd h (brokenEnd cause) s)
  if cause == stTransportTimeout then bumpConn (dieOfEnd h) e.part 6 1 t else t

section
variable {s : State} {h : Nat} {e : End} (cause : Nat) (he : tget s.conn.ends h = some e)
include he

theorem writesEnd_brokenCounted : writesEnd h (brokenEnd cause e) s (brokenCounted h cause e s) := by
  have hset := writesEnd_setEnd (brokenEnd cause) (writesEnd_refl he)
  unfold brokenCounted
  dsimp only
  split <;> exact writesEnd_of_ends (by simp) hset

variable (hinit : e.initiator = true) (hstate : e.state = .open_)
include hinit hstate

theorem breakEnd_of_open : breakEnd h cause s = endTransfersOn h cause (endOpsWith h cause (brokenCounted h cause e s)) := by
  have hself := endOf_of_tget he
  have hopen : (!e.isOpen || !e.initiator) = false := by simp [End.isOpen, hinit, hstate]
  simp only [breakEnd, hself, hopen, Bool.false_eq_true, if_false]
  rfl

theorem writesEnd_breakEnd : writesEnd h (brokenEnd cause e) s (breakEnd h cause s) := by
  rw [breakEnd_of_open cause he hinit hstate]
  exact writesEnd_of_ends (by simp) (writesEnd_brokenCounted cause he)

/-- Where nothing is under way on the end, its break changes the end and its counts. -/
theorem breakEnd_onlyChanges (hops : opsOn s h = []) (hgroups : s.coll.groups = []) :
    onlyChanges [.conn, .counts] s (breakEnd h cause s) := by
  have hcounted : onlyChanges [.conn, .counts] s (brokenCounted h cause e s) := by
    unfold brokenCounted
    dsimp only
    split <;> simp [onlyChanges_iff]
  have hops' : opsOn (brokenCounted h cause e s) h = [] := by
    rw [← hops]
    exact congrArg (fun q : QueueSt => opsOn { s with q := q } h) (hcounted .q rfl)
  have hgroups' : (brokenCounted h cause e s).coll.groups = [] := by rw [hcounted .coll rfl, hgroups]
  rwa [breakEnd_of_open cause he hinit hstate, endOpsWith_of_no_ops cause hops', endTransfersOn_of_no_groups h cause hgroups']

end

/-! ## A target end is freed -/

section
variable (h : Nat) (s : State)

theorem tget_freeEnd : tget (freeEnd h s).conn.ends h = none := by simp [freeEnd]

/-- Its epoch table entry advances by 1, no other's does. -/
theorem epochOf_freeEnd (k : Nat) : epochOf (freeEnd h s) k = if k = h then (epochOf s h + 1) % 2 ^ 16 else epochOf s k :=
  epochOf_setEpoch h (epochOf s h + 1) k (dropArrivals h (uncache h s))

theorem arrivals_freeEnd : ∀ a ∈ (freeEnd h s).conn.arrivals, a.1 / 2 ^ 24 ≠ h := by
  intro a ha
  have hkept := (List.mem_filter.mp (show a ∈ tkeep s.conn.arrivals fun k _ => k / m24 != h from ha)).2
  exact bne_iff_ne.mp hkept

theorem freeEnd_onlyChanges : onlyChanges [.conn, .mesh] s (freeEnd h s) :=
  onlyChanges_trans (uncache_onlyChanges h s) (by simp [onlyChanges_iff, freeEnd, nextEpoch, setEpoch, dropArrivals])

end

/-! ## The commands -/

section
variable {s u : State} {h : Nat} {e : End} (hrun : running s = true)
include hrun

theorem exec_connectAck {peerHandle epoch psn : Nat} (hears_ : hears kConnectAck (ackSays h peerHandle epoch psn) s u)
    (he : tget u.conn.ends h = some e) (hinit : e.initiator = true) (hstate : e.state = .connecting) :
    exec (.connectAck h peerHandle epoch psn) s = .next (answerOpen e h resDone (ackTaken h e peerHandle epoch psn u)) := by
  rw [← connectAck_of_connecting peerHandle epoch psn he hinit hstate]
  exact congrArg Host.Outcome.next (atHub_of_hears hrun hears_ _)

theorem exec_connectNak {noResource : Bool} (hears_ : hears kConnectNak (nakSays h noResource) s u) (he : tget u.conn.ends h = some e)
    (hinit : e.initiator = true) (hstate : e.state = .connecting) (hcoll : e.coll = none) : exec (.connectNak h noResource) s =
      .next (answerOpen e h (if noResource then resNoResource else resRefused) (endRemoved h u)) := by
  have hself := endOf_of_tget he
  refine congrArg Host.Outcome.next ((atHub_of_hears hrun hears_ _).trans ?_)
  simp [hself, hinit, hstate, connectFails_of_no_coll _ (show (endOf u h).coll = none by rw [hself, hcoll])]

theorem exec_connectTimeout (he : tget s.conn.ends h = some e) (hinit : e.initiator = true) (hstate : e.state = .connecting)
    (hcached : inCache s h = true) (hdue : due s e.triedAt e.tryFor = true) : exec (.connectTimeout h) s =
      .next (if e.tries < 4 then sendConnectReq h s else connectFails h resUnreachable s) := by
  show execConnectTimeout h s = _
  simp [execConnectTimeout, endOf_of_tget he, hrun, hinit, hstate, hcached, hdue]

theorem exec_closeAck (hears_ : hears kCloseAck (fun q => Hdr.handle q.hdr == h) s u) (he : tget u.conn.ends h = some e)
    (hinit : e.initiator = true) (hstate : e.state = .closing) (hwait : e.closeWait = false) :
    exec (.closeAck h) s = .next (closeEnds h resDone u) := by
  refine congrArg Host.Outcome.next ((atHub_of_hears hrun hears_ _).trans ?_)
  simp [endOf_of_tget he, hinit, hstate, hwait]

theorem exec_closeTimeout (he : tget s.conn.ends h = some e) (hinit : e.initiator = true) (hstate : e.state = .closing)
    (hcached : inCache s h = true) (hdue : due s e.triedAt e.tryFor = true) : exec (.closeTimeout h) s =
      .next (if e.closeWait then sendCloseReq h (endOpsWith h stTransportTimeout s)
        else if e.tries < 4 then sendCloseReq h s else closeEnds h resUnconfirmed s) := by
  show execCloseTimeout h s = _
  simp [execCloseTimeout, endOf_of_tget he, hrun, hinit, hstate, hcached, hdue]

/-- RESET of its epoch frees a Closing initiator end and breaks an Open one (R124). -/
theorem exec_resetPacket (hears_ : hears kReset (resetSays h e.epoch) s u) (he : tget u.conn.ends h = some e) (hinit : e.initiator = true) :
    (e.state = .closing → exec (.resetPacket h e.epoch) s = .next (closeEnds h resDone (endOpsWith h stTargetReset u))) ∧
    (e.state = .open_ → exec (.resetPacket h e.epoch) s = .next (resetColl e (breakEnd h stTargetReset u))) := by
  have hself := endOf_of_tget he
  refine ⟨fun hstate => congrArg Host.Outcome.next ((atHub_of_hears hrun hears_ _).trans ?_),
    fun hstate => congrArg Host.Outcome.next ((atHub_of_hears hrun hears_ _).trans ?_)⟩
  · simp [hself, hinit, hstate]
  · simp [hself, hinit, hstate]

/-- CLOSE_REQ frees a target end of its epoch and is answered in any case (R118). -/
theorem exec_closeReq {fromEp fromHandle epoch : Nat} (hears_ : hears kCloseReq (closeSays h fromEp fromHandle epoch) s u)
    (he : tget u.conn.ends h = some e) (hinit : e.initiator = false) (hstate : e.state = .open_) :
    exec (.closeReq h fromEp fromHandle epoch) s =
      .next (sendConn kCloseAck fromEp fromHandle epoch e.mgmt [] (if epoch = e.epoch then freeEnd h u else u)) := by
  refine congrArg Host.Outcome.next ((atHub_of_hears hrun hears_ _).trans ?_)
  simp [endOf_of_tget he, End.live, hinit, hstate, eq_comm (a := epoch)]

theorem exec_orphanTimeout (he : tget s.conn.ends h = some e) (hinit : e.initiator = false) (hstate : e.state = .open_)
    (hcached : inCache s h = true) (harrival : hasOpenArrival s h = true) (hdue : due s e.lastHeard e.orphanFor = true) :
    exec (.orphanTimeout h) s = .next (record 1 0x4002 e.part (dieOfEnd h) [h] (freeEnd h (sendReset e s))) := by
  show execOrphanTimeout h s = _
  simp [execOrphanTimeout, closeTarget, endOf_of_tget he, End.isOpen, hrun, hinit, hstate, hcached, harrival, hdue]

end

/-! ## The ends afterwards -/

theorem conn_of_hears {kind : Nat} {good : Packet → Bool} {s u : State} (hu : hears kind good s u) : u.conn = s.conn :=
  hears_onlyChanges hu .conn rfl

theorem epochOf_of_hears {kind : Nat} {good : Packet → Bool} {s u : State} (hu : hears kind good s u) (k : Nat) : epochOf u k = epochOf s k :=
  epochOf_congr (congrArg ConnSt.epochs (conn_of_hears hu)) (congrArg ConnSt.fills (conn_of_hears hu)) k

theorem tget_of_hears {kind : Nat} {good : Packet → Bool} {s u : State} {h : Nat} {e : End} (hu : hears kind good s u)
    (he : tget s.conn.ends h = some e) : tget u.conn.ends h = some e := by rwa [conn_of_hears hu]

section
variable {s u : State} {h : Nat} {e : End} (hrun : running s = true) (he : tget s.conn.ends h = some e) (hinit : e.initiator = true)
include hrun he hinit

/-- CONNECT_ACK opens a Connecting end under the epoch and PSN it carries, and gives the open CONNECT its result (R118, R119). -/
theorem connectAck_opens (hstate : e.state = .connecting) {ph ep psn : Nat} (hph : ph < 2 ^ 20) (hep : ep < 2 ^ 16)
    (hu : hears kConnectAck (ackSays h ph ep psn) s u) :
    ∃ t, exec (.connectAck h ph ep psn) s = .next t ∧
      (endOf t h).state = .open_ ∧ (endOf t h).peerHandle = ph ∧ (endOf t h).epoch = ep ∧ epochOf t h = ep ∧
      (endOf t h).recvThrough = sub32 psn 1 ∧ (endOf t h).acked = sub32 e.nextPsn 1 ∧ (endOf t h).nextPsn = e.nextPsn ∧
      (endOf t h).unacked = [] ∧ (endOf t h).bitmap = 0 ∧ (∀ k, k ≠ h → endOf t k = endOf s k ∧ epochOf t k = epochOf s k) ∧
      (e.coll = none → (tget s.conn.busy e.part = some h →
          (tgetD t.conn.windows e.part {}).word = controlWord resDone (openCode s e.part) h) ∧ onlyChanges [.conn] u t) := by
  have hconn := conn_of_hears hu
  have hwrites := writesEnd_from (congrArg ConnSt.ends hconn) (writesEnd_of_ends (answerOpen_ends e h resDone _)
    (writesEnd_ackTaken ph ep psn (tget_of_hears hu he)))
  have hself := writesEnd_self hwrites
  have hepoch (k : Nat) : epochOf (answerOpen e h resDone (ackTaken h e ph ep psn u)) k = if k = h then ep else epochOf s k := by
    rw [epochOf_congr (answerOpen_epochs _ _ _ _) (answerOpen_fills _ _ _ _), epochOf_ackTaken, Nat.mod_eq_of_lt hep, epochOf_of_hears hu]
  refine ⟨_, exec_connectAck hrun hu (tget_of_hears hu he) hinit hstate, ?_⟩
  simp only [hself]
  refine ⟨rfl, Nat.mod_eq_of_lt hph, Nat.mod_eq_of_lt hep, by rw [hepoch, if_pos rfl], rfl, rfl, rfl, rfl, rfl,
    fun k hk => ⟨writesEnd_other hwrites hk, by rw [hepoch, if_neg hk]⟩, fun hcoll => ⟨fun hbusy => ?_, ?_⟩⟩
  · have hkept : (ackTaken h e ph ep psn u).conn.busy = s.conn.busy ∧ (ackTaken h e ph ep psn u).conn.windows = s.conn.windows := by
      simp [ackTaken, hconn]
    rw [word_answerOpen _ _ _ _ (by rw [hkept.1, hbusy]), openCode, hkept.2, openCode]
  · have htaken : onlyChanges [.conn] u (ackTaken h e ph ep psn u) := by
      simp [ackTaken, scheduleSettled_of_no_coll hcoll, onlyChanges_iff, setEpoch]
    exact onlyChanges_trans htaken (answerOpen_onlyChanges e h resDone _)

/-- CONNECT_NAK frees a Connecting end and gives the open CONNECT its result (R118). -/
theorem connectNak_frees (hstate : e.state = .connecting) {nr : Bool} (hcoll : e.coll = none)
    (hu : hears kConnectNak (nakSays h nr) s u) :
    ∃ t, exec (.connectNak h nr) s = .next t ∧
      (tget s.conn.busy e.part = some h →
        (tgetD t.conn.windows e.part {}).word = controlWord (if nr then resNoResource else resRefused) (openCode s e.part) h) ∧
      t.conn.ends = tdel s.conn.ends h ∧ inCache t h = isEdge h ∧ onlyChanges [.conn, .mesh] u t := by
  have hconn := conn_of_hears hu
  refine ⟨_, exec_connectNak hrun hu (tget_of_hears hu he) hinit hstate hcoll, fun hbusy => ?_, ?_, ?_, ?_⟩
  · rw [word_answerOpen _ _ _ _ (by rw [endRemoved_busy, hconn, hbusy]), openCode_endRemoved, openCode, hconn, openCode]
  · rw [answerOpen_ends, endRemoved_ends, hconn]
  · rw [inCache_answerOpen, inCache_endRemoved]
  · exact onlyChanges_trans (endRemoved_onlyChanges h u)
      (onlyChanges_mono (answerOpen_onlyChanges e h _ _) fun a => by cases a <;> decide)

omit hrun in
/-- An Open end that RESET breaks, where nothing is under way on it (R124). -/
theorem reset_breaks {kind : Nat} {good : Packet → Bool} (hstate : e.state = .open_) (hu : hears kind good s u) (hops : opsOn s h = [])
    (hgroups : s.coll.groups = []) :
    endOf (breakEnd h stTargetReset u) h = brokenEnd stTargetReset e ∧
    (∀ k, k ≠ h → endOf (breakEnd h stTargetReset u) k = endOf s k) ∧ onlyChanges [.conn, .counts] u (breakEnd h stTargetReset u) := by
  have hframe := hears_onlyChanges hu
  have he' := tget_of_hears hu he
  have hwrites := writesEnd_from (congrArg ConnSt.ends (conn_of_hears hu)) (writesEnd_breakEnd stTargetReset he' hinit hstate)
  have hops' : opsOn u h = [] := by
    rw [← hops]
    exact congrArg (fun q : QueueSt => opsOn { s with q := q } h) (hframe .q rfl)
  have hgroups' : u.coll.groups = [] := by rw [hframe .coll rfl, hgroups]
  exact ⟨writesEnd_self hwrites, fun k hk => writesEnd_other hwrites hk, breakEnd_onlyChanges stTargetReset he' hinit hstate hops' hgroups'⟩

end

/-- Settles O18, packet by packet and timer by timer: what is heard at the hub leaves the ends as they were, so that each acts on the end
itself. -/
theorem connectionEndsChangeState : Obligations.ConnectionEndsChangeState := by
  intro s h e hrun he
  refine ⟨fun hinit hstate => ⟨fun ph ep psn u hph hep _ hu => connectAck_opens hrun he hinit hstate hph hep hu,
      fun nr u hcoll hu => connectNak_frees hrun he hinit hstate hcoll hu,
      fun ph ep psn u hu => congrArg Host.Outcome.next (atHub_of_failed hrun hu _), fun hcached hdue => ?_⟩,
    fun hinit hstate => ⟨fun u hu hwait => ?_, fun hcached hdue => ?_, fun u hu => ?_⟩, fun u hinit hstate hu => ⟨?_, ?_⟩,
    fun hinit hstate => ⟨fun ep fh u hu => ?_, fun ep fh old u hold hu => ?_, exec_orphanTimeout hrun he hinit hstate⟩⟩
  · have hexec := exec_connectTimeout hrun he hinit hstate hcached hdue
    exact ⟨fun hlt => by rw [hexec, if_pos hlt], fun hge => by rw [hexec, if_neg (Nat.not_lt.mpr hge)]⟩
  · refine ⟨exec_closeAck hrun hu (tget_of_hears hu he) hinit hstate hwait, ?_⟩
    rw [closeEnds_eq, answerOpen_ends, endRemoved_ends, tget_tdel]
  · have hexec := exec_closeTimeout hrun he hinit hstate hcached hdue
    exact ⟨fun hwait => by rw [hexec, hwait, if_pos rfl], fun hwait hlt => by simp [hexec, hwait, hlt],
      fun hwait hge => by simp [hexec, hwait, Nat.not_lt.mpr hge]⟩
  · exact (exec_resetPacket hrun hu (tget_of_hears hu he) hinit).1 hstate
  · exact (exec_resetPacket hrun hu (tget_of_hears hu he) hinit).2 hstate
  · exact reset_breaks he hinit hstate hu
  · refine ⟨?_, tget_freeEnd h u, ?_, fun k hk => ?_, arrivals_freeEnd h u, freeEnd_onlyChanges h u⟩
    · rw [exec_closeReq hrun hu (tget_of_hears hu he) hinit hstate, if_pos rfl]
    · rw [epochOf_freeEnd, if_pos rfl, epochOf_of_hears hu]
    · rw [epochOf_freeEnd, if_neg hk, epochOf_of_hears hu]
  · rw [exec_closeReq hrun hu (tget_of_hears hu he) hinit hstate, if_neg hold]

end Sys2Proof.Machine
end

section
/-! SUPPORT. What the setup service does with a CONNECT_REQ (R118 to R121). -/

namespace Sys2Proof.Machine

/-! ## An accepted request -/

theorem laterEpoch_lt {a b : Nat} (ha : a < 2 ^ 16) (hb : b < 2 ^ 16) : laterEpoch a b < 2 ^ 16 := by
  unfold laterEpoch
  split <;> assumption

/-- The epoch both ends take for a request on a handle (R119). -/
def agreedEpoch (s : State) (r : SetupReq) (h : Nat) : Nat := laterEpoch (r.epoch % 2 ^ 16) ((epochOf s h + 1) % 2 ^ 16)

theorem agreedEpoch_lt (s : State) (r : SetupReq) (h : Nat) : agreedEpoch s r h < 2 ^ 16 :=
  laterEpoch_lt (Nat.mod_lt _ (Nat.two_pow_pos _)) (Nat.mod_lt _ (Nat.two_pow_pos _))

/-- The Open target end that an accepted request leaves, its halves fresh (R118, R119). -/
def acceptedEnd (s : State) (r : SetupReq) (h : Nat) (e : End) : End :=
  freshEnd { e.identity with
    state := .open_, epoch := agreedEpoch s r h, reqEpoch := r.epoch, recvThrough := sub32 r.psn 1, lastHeard := s.time.now,
    orphanFor := cfg s 0x4100 0xA * ms, peerHandle := r.fromHandle, established := true } (cfg s 0x4101 1) (drawnPsn s)

/-- The state with that end, its epoch stored, before the acknowledgement. -/
def accepted (h : Nat) (e : End) (r : SetupReq) (s : State) : State :=
  addEnd h (acceptedEnd s r h e) (dropArrivals h (draw (setEpoch h (agreedEpoch s r h) s)).2)

theorem acceptEnd_eq (h : Nat) (e : End) (r : SetupReq) (s : State) :
    acceptEnd h e r s = ackReq r h (agreedEpoch s r h) (drawnPsn s) (accepted h e r s) := rfl

section
variable (h : Nat) (e : End) (r : SetupReq) (s : State)

theorem writesEnd_accepted : writesEnd h (acceptedEnd s r h e) s (accepted h e r s) :=
  writesEnd_tset (addEnd_ends _ _ _) fun _ _ => rfl

theorem epochOf_accepted : epochOf (accepted h e r s) h = agreedEpoch s r h := by
  have hset : epochOf (accepted h e r s) h = epochOf (setEpoch h (agreedEpoch s r h) s) h := rfl
  rw [hset, epochOf_setEpoch, if_pos rfl, Nat.mod_eq_of_lt (agreedEpoch_lt s r h)]

theorem arrivals_accepted : ∀ a ∈ (accepted h e r s).conn.arrivals, a.1 / 2 ^ 24 ≠ h := by
  intro a ha
  have hkept := (List.mem_filter.mp (show a ∈ tkeep s.conn.arrivals fun k _ => k / m24 != h from ha)).2
  exact bne_iff_ne.mp hkept

theorem accepted_onlyChanges : onlyChanges [.conn, .free, .mesh] s (accepted h e r s) := by
  refine onlyChanges_trans (t := dropArrivals h (draw (setEpoch h (agreedEpoch s r h) s)).2) ?_
    (onlyChanges_mono (addEnd_onlyChanges h _ _) fun a => by cases a <;> decide)
  simp [onlyChanges_iff, dropArrivals, setEpoch]

end

/-! ## What the setup service answers -/

section
variable {u : State} {r : SetupReq}

/-- A request for another device does nothing (R120). -/
theorem serveReq_of_other (h : coord u = none ∨ isOwn u r.toEp = false) : serveReq r u = u := by
  rcases h with h | h <;> simp [serveReq, h]

variable {c : Nat} (hcoord : coord u = some c) (hown : isOwn u r.toEp = true)
include hcoord hown

/-- A repeated request gets the same acknowledgement (R120). -/
theorem serveReq_of_madeBy {h : Nat} {e : End} (hmade : madeBy u r = some (h, e)) :
    serveReq r u = ackReq r h e.epoch e.firstPsn u := by
  simp [serveReq, hcoord, hown, hmade]

theorem serveReq_of_fresh (hmade : madeBy u r = none) (htarget : r.target = none) : serveReq r u = freshConnect r u := by
  simp [serveReq, hcoord, hown, hmade, htarget]

/-- One that names an Open target end of the same peer moves that end to a later epoch (R119). -/
theorem serveReq_of_target {h : Nat} {e : End} (hmade : madeBy u r = none) (htarget : r.target = some h)
    (he : tget u.conn.ends h = some e) (hinit : e.initiator = false) (hstate : e.state = .open_) (hedge : isEdge h = false)
    (hpeer : e.peerEp = r.fromEp) (hhandle : e.peerHandle = r.fromHandle) : serveReq r u = acceptEnd h e r u := by
  simp [serveReq, hcoord, hown, hmade, htarget, he, hinit, hstate, hedge, hpeer, hhandle, End.isOpen]

end

/-! ## A request that names no end -/

/-- The target end that a request asks for. -/
def targetEnd (r : SetupReq) (p : Nat) : End :=
  { initiator := false, localEp := r.toEp, peerEp := r.fromEp, part := p, pasid := r.pasid, spray := r.spray, mgmt := r.mgmt,
    coll := r.coll.map fun x => (x.1, x.2.1, x.2.2.2, x.2.2.1) }

section
variable {u : State} {r : SetupReq} (hmgmt : r.mgmt = false)
include hmgmt

theorem freshConnect_of_no_partition (hpart : targetPartition u r = none) : freshConnect r u = nak r resRefused u := by
  simp [freshConnect, hmgmt, hpart]

variable {q : Nat} (hpart : targetPartition u r = some q) (hreach : (!(r.pasid == 0 || (partOf u q).slices.contains r.pasid) ||
  !partUp u q || (tget (partOf u q).resets (r.pasid + 1)).isSome) = false)
include hpart hreach

/-- A request that reaches a partition's slice needs a handle and quota for its end (R121). -/
theorem freshConnect_of_handle {h : Nat} (hfree : freeHandle u (targetDie u r.toEp) (some r.fromHandle) = some h) : freshConnect r u =
    if partEndsOn u (targetDie u r.toEp) q < (partOf u q).quotaEnds then acceptEnd h (targetEnd r q) r u else nak r resNoResource u := by
  simp only [freshConnect, targetEnd, hmgmt, hpart, hreach, hfree, Bool.false_eq_true, Bool.and_false, if_false, Nat.blt_eq]

theorem freshConnect_of_no_handle (hfree : freeHandle u (targetDie u r.toEp) (some r.fromHandle) = none) :
    freshConnect r u = nak r resNoResource u := by
  simp only [freshConnect, hmgmt, hpart, hreach, hfree, Bool.false_eq_true, Bool.and_false, if_false]

end

/-- Settles O19: what the hub has when the request is heard decides the answer, case by case of the service. -/
theorem setupServiceAnswers : Obligations.SetupServiceAnswers := by
  intro s u r hrun hu
  have hframe := hears_onlyChanges hu
  have hconn : u.conn = s.conn := hframe .conn rfl
  have hcoordEq : coord u = coord s := coord_congr (hframe .dict rfl)
  have hownEq (a : Nat) : isOwn u a = isOwn s a := by simp only [isOwn, hcoordEq]
  have hepoch (k : Nat) : epochOf u k = epochOf s k := epochOf_of_hears hu k
  have hexec {t : State} (h : serveReq r u = t) : exec (.connectReq r) s = .next t :=
    congrArg Host.Outcome.next ((atHub_of_hears hrun hu _).trans h)
  refine ⟨fun h => hexec (serveReq_of_other (by rwa [hcoordEq, hownEq])), fun c hcoord hown => ?_⟩
  rw [← hcoordEq] at hcoord
  rw [← hownEq] at hown
  refine ⟨fun h e hmade => hexec (serveReq_of_madeBy hcoord hown hmade), fun hmade htarget hmgmt hpart => ?_,
    fun h e hmade htarget he hinit hstate hedge hpeer hhandle => ?_, fun q hmade htarget hmgmt hpart hslice hup hresets => ?_⟩
  · exact hexec ((serveReq_of_fresh hcoord hown hmade htarget).trans (freshConnect_of_no_partition hmgmt hpart))
  · have hserve := serveReq_of_target hcoord hown hmade htarget (hconn ▸ he) hinit hstate hedge hpeer hhandle
    have hwrites := writesEnd_accepted h e r u
    have hself := writesEnd_self hwrites
    refine ⟨accepted h e r u, ?_⟩
    simp only [hself, ← hepoch]
    exact ⟨hexec (hserve.trans (acceptEnd_eq h e r u)), rfl, rfl, rfl, epochOf_accepted h e r u, rfl, rfl, rfl, rfl,
      arrivals_accepted h e r u, fun k hk => (writesEnd_other hwrites hk).trans (endOf_congr (congrArg ConnSt.ends hconn) k),
      accepted_onlyChanges h e r u⟩
  · have hfresh := serveReq_of_fresh hcoord hown hmade htarget
    have hreach : (!(r.pasid == 0 || (partOf u q).slices.contains r.pasid) || !partUp u q ||
        (tget (partOf u q).resets (r.pasid + 1)).isSome) = false := by
      simp only [Bool.or_eq_false_iff, Bool.not_eq_false', Bool.or_eq_true, beq_iff_eq, hresets, hup]
      exact ⟨⟨hslice, trivial⟩, rfl⟩
    refine ⟨fun h hfree hquota => ?_, fun hfull => hexec (hfresh.trans ?_)⟩
    · obtain ⟨-, hother, -⟩ := freeHandle_spec hfree
      have hmake := freshConnect_of_handle hmgmt hpart hreach hfree
      rw [if_pos hquota, acceptEnd_eq] at hmake
      have hwrites := writesEnd_accepted h (targetEnd r q) r u
      have hself := writesEnd_self hwrites
      refine ⟨fun heq => hother (by rw [heq]), accepted h (targetEnd r q) r u, ?_⟩
      simp only [hself, ← hepoch]
      exact ⟨hexec (hfresh.trans hmake), rfl, rfl, rfl, rfl, rfl, rfl, rfl, rfl, inCache_addEnd _ _ _, rfl,
        fun k hk => (writesEnd_other hwrites hk).trans (endOf_congr (congrArg ConnSt.ends hconn) k), accepted_onlyChanges h _ r u⟩
    · cases hfree : freeHandle u (targetDie u r.toEp) (some r.fromHandle) with
      | none => exact freshConnect_of_no_handle hmgmt hpart hreach hfree
      | some h =>
        have hquota := hfull.resolve_left (by simp [hfree])
        rw [freshConnect_of_handle hmgmt hpart hreach hfree, if_neg (Nat.not_lt.mpr hquota)]

end Sys2Proof.Machine
end

section
/-! SUPPORT. The hold-off of a reset, fills of the cache, the limit of a HOLD, idle send halves and the Bellows control (R114 to R116, R135,
R153 to R155). -/

namespace Sys2Proof.Machine

/-! ## The hold-off, and fills -/

theorem exec_epochHoldoffEnd {s : State} {x : Nat} (hrun : running s = true) (hholdoff : s.conn.holdoff = some x)
    (hpast : x ≤ s.time.now) : exec .epochHoldoffEnd s = .next { s with conn := { s.conn with holdoff := none } } := by
  show execEpochHoldoffEnd s = _
  simp [execEpochHoldoffEnd, hrun, hholdoff, Nat.ble_eq.mpr hpast]

/-- A fill is counted for the end it is of. -/
def fillCounted (h : Nat) (e : End) (s : State) : State := tally 0x16 1 { die := dieOfEnd h, part := e.part } s

/-- An end that a fill cannot read is Broken with MEDIA_ERROR (R115). -/
def fillBroken (h : Nat) (e : End) (s : State) : State :=
  if e.initiator then breakEnd h stMediaError s
  else bumpConn (dieOfEnd h) e.part 7 1 (setEnd h (fun e => { e with state := .broken, cause := stMediaError }) s)

section
variable {s : State} {h : Nat} {e : End}

theorem exec_connectionFill (bad : Bool) (hrun : running s = true) (he : tget s.conn.ends h = some e) (hlive : e.state ≠ .free)
    (hcached : inCache s h = false) : exec (.connectionFill h bad) s = .next (
      if bad then fillBroken h e (record 3 0x4001 e.part (dieOfEnd h) [h] (fillCounted h e s)) else fillCache h (fillCounted h e s)) := by
  have hlive' : e.live = true := bne_iff_ne.mpr hlive
  show execConnectionFill h bad s = _
  simp only [execConnectionFill, endOf_of_tget he, hrun, hlive', hcached, Bool.not_false, Bool.and_self, when_true]
  rfl

theorem fillBroken_breaks (he : tget s.conn.ends h = some e) (hstate : e.state = .open_) :
    ∃ b : End, writesEnd h b s (fillBroken h e s) ∧ b.state = .broken ∧ b.cause = stMediaError := by
  unfold fillBroken
  split
  · next hinit => exact ⟨_, writesEnd_breakEnd stMediaError he hinit hstate, rfl, rfl⟩
  · exact ⟨_, writesEnd_of_ends (by simp) (writesEnd_setEnd (fun e => { e with state := .broken, cause := stMediaError }) (writesEnd_refl he)),
      rfl, rfl⟩

end

/-! ## HOLD_LIMIT and idle send halves -/

section
variable {s : State} {h : Nat} {e : End} (hrun : running s = true) (he : tget s.conn.ends h = some e) (hstate : e.state = .open_)
  (hcached : inCache s h = true)
include hrun he hstate hcached

theorem exec_holdLimit {x : Nat} (hhold : underHold s e = true) (hstart : e.holdStart = some x) (hdue : due s x e.holdLimit = true) :
    exec (.holdLimit h) s = .next (setEnd h (fun e => { e with holdStart := none }) s) := by
  show execHoldLimit h s = _
  simp [execHoldLimit, endOf_of_tget he, hrun, End.isOpen, hstate, hcached, hhold, hstart, hdue]

theorem exec_sendHalfIdle (hdue : due s e.lastSent (cfg s 0x4101 9 * us + 1) = true) :
    exec (.sendHalfIdle h) s = .next (setEnd h (fun e => { e with delays := [], rtts := [] }) s) := by
  show execSendHalfIdle h s = _
  simp [execSendHalfIdle, endOf_of_tget he, hrun, End.isOpen, hstate, hcached, hdue]

theorem exec_bellowsUpdate (hpaced : e.pacedSent = true) (hhold : underHold s e = false) (hdue : due s e.lastUpdate (max e.srtt 4000) = true) :
    exec (.bellowsUpdate h) s = .next (setEnd h (bellows s) s) := by
  show execBellowsUpdate h s = _
  simp [execBellowsUpdate, endOf_of_tget he, hrun, End.isOpen, hstate, hcached, hpaced, hhold, hdue]

end

/-! ## Bellows -/

/-- The next update interval: the rate is the one MODIFY_CONN wrote, where one waits, and nothing is counted yet (R154). -/
def nextInterval (s : State) (e : End) : End :=
  { e with rate := e.rateSet.getD e.rate, rateSet := none, marked := 0, total := 0, maxDelay := none, pacedSent := false,
           lastUpdate := s.time.now }

/-- A rate put into its bounds, and the window it gives (R154). -/
def rateSettled (s : State) (rate : Nat) (e : End) : End :=
  let r := min (max rate (cfg s 0x4101 2)) (rateLimit s e)
  { e with rate := r, window := match leastNat ((recent s e.rtts).map (·.2)) with
    | some t => windowFor s r t
    | none => e.window }

/-- An update keeps the rate, lowers it, or, where no byte was marked, raises it. -/
theorem bellows_cases (s : State) (e : End) :
    bellows s e = { nextInterval s e with clean := 0 } ∨
    (∃ cut, bellows s e = rateSettled s (e.rateSet.getD e.rate - cut) { nextInterval s e with clean := 0, lastDecrease := some s.time.now }) ∨
    (e.marked = 0 ∧ ∃ n, bellows s e = rateSettled s (e.rateSet.getD e.rate + n) { nextInterval s e with clean := e.clean + 1 }) := by
  unfold bellows
  extract_lets e' base q target fresh settle again
  split
  · split
    · exact .inl rfl
    · exact .inr (.inl ⟨_, rfl⟩)
  · next hcalm =>
    have hmarked : e'.marked = 0 := by
      by_contra hne
      exact hcalm (by simp [hne])
    exact .inr (.inr ⟨hmarked, _, rfl⟩)

theorem windowFor_le (s : State) (rate rtt : Nat) : windowFor s rate rtt ≤ 65536 := min_le_right _ _

theorem rateSettled_window {s : State} {e : End} (rate : Nat) (h : e.window ≤ 65536) : (rateSettled s rate e).window ≤ 65536 := by
  unfold rateSettled
  dsimp only
  split
  · exact windowFor_le _ _ _
  · exact h

/-- What an update starts again (R154). -/
theorem bellows_restarts (s : State) (e : End) : (bellows s e).marked = 0 ∧ (bellows s e).total = 0 ∧ (bellows s e).lastUpdate = s.time.now ∧
    (bellows s e).rateSet = none := by
  rcases bellows_cases s e with h | ⟨cut, h⟩ | ⟨-, n, h⟩ <;> rw [h] <;> exact ⟨rfl, rfl, rfl, rfl⟩

/-- A rate within its bounds and a window within 65,536 packets stay so. -/
theorem bellows_bounds {s : State} {e : End} (hwindow : e.window ≤ 65536) (hlow : cfg s 0x4101 2 ≤ e.rateSet.getD e.rate)
    (hlimits : cfg s 0x4101 2 ≤ rateLimit s e) (hhigh : e.rateSet.getD e.rate ≤ rateLimit s e) :
    cfg s 0x4101 2 ≤ (bellows s e).rate ∧ (bellows s e).rate ≤ rateLimit s e ∧ (bellows s e).window ≤ 65536 := by
  rcases bellows_cases s e with h | ⟨cut, h⟩ | ⟨-, n, h⟩ <;> rw [h]
  · exact ⟨hlow, hhigh, hwindow⟩
  · exact ⟨le_min (le_max_right _ _) hlimits, min_le_right _ _, rateSettled_window _ hwindow⟩
  · exact ⟨le_min (le_max_right _ _) hlimits, min_le_right _ _, rateSettled_window _ hwindow⟩

/-- Marked bytes never raise the rate. -/
theorem bellows_of_marked {s : State} {e : End} (hmarked : 0 < e.marked) (hlow : cfg s 0x4101 2 ≤ e.rateSet.getD e.rate) :
    (bellows s e).clean = 0 ∧ (bellows s e).rate ≤ e.rateSet.getD e.rate := by
  rcases bellows_cases s e with h | ⟨cut, h⟩ | ⟨hnone, -⟩
  · rw [h]
    exact ⟨rfl, le_refl _⟩
  · rw [h]
    exact ⟨rfl, (min_le_left _ _).trans (max_le (Nat.sub_le _ _) hlow)⟩
  · omega

/-- Settles O20, timer by timer. -/
theorem connectionTimersAct : Obligations.ConnectionTimersAct := by
  intro s hrun
  refine ⟨fun x => exec_epochHoldoffEnd hrun, fun h e he => ⟨fun hlive hcached => ⟨?_, fun hstate => ?_⟩,
    fun hstate hcached => ⟨fun x => exec_holdLimit hrun he hstate hcached, exec_sendHalfIdle hrun he hstate hcached, ?_⟩⟩⟩
  · refine ⟨_, exec_connectionFill false hrun he hlive hcached, inCache_fillCache h _, rfl, rfl, ?_⟩
    exact onlyChanges_trans (t := fillCounted h e s) (by simp [onlyChanges_iff, fillCounted])
      (onlyChanges_mono (fillCache_onlyChanges h _) fun a => by cases a <;> decide)
  · have hcounted : (record 3 0x4001 e.part (dieOfEnd h) [h] (fillCounted h e s)).conn = s.conn := by simp [fillCounted]
    obtain ⟨b, hwrites, hbroken, hcause⟩ := fillBroken_breaks (by rwa [hcounted]) hstate
    have hwrites := writesEnd_from (congrArg ConnSt.ends hcounted) hwrites
    exact ⟨_, exec_connectionFill true hrun he hlive hcached, by rwa [if_pos rfl, writesEnd_self hwrites],
      by rwa [if_pos rfl, writesEnd_self hwrites], fun k hk => writesEnd_other hwrites hk⟩
  · intro hpaced hhold hdue hwindow hlow hlimits hhigh
    have hwrites := writesEnd_setEnd (bellows s) (writesEnd_refl he)
    have hself := writesEnd_self hwrites
    obtain ⟨hmin, hmax, hpackets⟩ := bellows_bounds hwindow hlow hlimits hhigh
    obtain ⟨hmarked, htotal, hupdate, hset⟩ := bellows_restarts s e
    refine ⟨_, exec_bellowsUpdate hrun he hstate hcached hpaced hhold hdue, ?_⟩
    simp only [hself]
    exact ⟨hmin, hmax, hpackets, hmarked, htotal, hupdate, hset, fun hbytes => bellows_of_marked hbytes hlow,
      fun k hk => writesEnd_other hwrites hk, by simp [onlyChanges_iff]⟩

end Sys2Proof.Machine
end

section
/-! SUPPORT. Packets as they come to an end: what the end is when a packet reaches it, and the class of the packet (R114, R116, R124, R126,
R128, R129, R131, R132, R146). -/

namespace Sys2Proof.Machine

/-! ## A packet comes off the mesh -/

theorem reaches_onlyChanges {p : Packet} {s t : State} (h : reaches p s = some t) : onlyChanges [.mesh] s t := by
  obtain ⟨⟨q, u⟩, htake, hx⟩ := Option.map_eq_some_iff.mp h
  obtain rfl : u = t := hx
  exact meshTake_onlyChanges htake

theorem received_onlyChanges (t : State) (h : Nat) : onlyChanges [.pow, .counts] t (received t h) := by
  simp [onlyChanges_iff, received]

/-- What a packet that has come has changed: it is off the mesh, counted, and the device is out of Idle. -/
theorem received_of_reaches {p : Packet} {s t : State} (ht : reaches p s = some t) (h : Nat) :
    onlyChanges [.mesh, .counts, .pow] s (received t h) :=
  onlyChanges_trans (onlyChanges_mono (reaches_onlyChanges ht) fun a => by cases a <;> decide)
    (onlyChanges_mono (received_onlyChanges t h) fun a => by cases a <;> decide)

theorem tget_received {p : Packet} {s t : State} {e : End} {k : Nat} (ht : reaches p s = some t) (h : Nat)
    (he : tget s.conn.ends k = some e) : tget (received t h).conn.ends k = some e := by
  rwa [received_of_reaches ht h .conn rfl]

/-- The end that a packet reaches, and the die whose end it is. -/
theorem end_of_reachesEnd {s : State} {p : Packet} {kind : Nat} {e : End} (h : reachesEnd s p kind e = true) :
    tget s.conn.ends (handleOf p.hdr) = some e ∧ isEdge (handleOf p.hdr) = false := by
  simp only [reachesEnd, suitsEnd, Bool.and_eq_true, beq_iff_eq, Bool.not_eq_true'] at h
  obtain ⟨⟨⟨⟨⟨⟨⟨_, he⟩, _⟩, _⟩, _⟩, _⟩, hedge⟩, _⟩ := h
  exact ⟨he, hedge⟩

/-- A packet that reaches an end is classified there. -/
theorem arrive_of_reachesEnd {s t : State} {p : Packet} {kind : Nat} {e : End} (ht : reaches p s = some t)
    (h : reachesEnd s p kind e = true) (act : Nat → End → Hdr → State → Option State) :
    arrive s p kind act = (classify p kind (handleOf p.hdr) e act (received t (handleOf p.hdr))).getD s := by
  simp only [reachesEnd, suitsEnd, Bool.and_eq_true, beq_iff_eq, Bool.not_eq_true'] at h
  obtain ⟨⟨⟨⟨⟨⟨⟨⟨⟨⟨hrun, hkind⟩, hholdoff⟩, hop⟩, he⟩, hepoch⟩, htakes⟩, hdir⟩, hcached⟩, hedge⟩, hfence⟩ := h
  simp only [arrive, hrun, hkind, ht, hop, he, hepoch, htakes, hdir, hcached, hedge, hholdoff, hfence, bne_self_eq_false, Bool.not_true,
    Bool.or_self, Bool.false_and, Bool.false_eq_true, if_false]
  rfl

/-! ## The class of a packet -/

/-- A duplicate is counted. -/
def duplicateCounted (h : Nat) (e : End) (s : State) : State :=
  bumpConn (dieOfEnd h) e.part 0 1 (tally 0x13 1 { die := dieOfEnd h, part := e.part } s)

/-- The end has heard a duplicate, whose times and class its ACK reports. -/
def heardAgain (s : State) (hdr : Hdr) (e : End) : End := { heard s e with rxEcho := Hdr.sendTime hdr, rxTc := Hdr.tc hdr }

/-- A duplicate is counted, heard and acknowledged at once (R132). -/
def duplicateTaken (h : Nat) (e : End) (hdr : Hdr) (s : State) : State :=
  sendAck h true (setEnd h (heardAgain (duplicateCounted h e s) hdr) (touch h (duplicateCounted h e s)))

/-- A packet is a duplicate: at or below delivered-through, or its bit is set (R128). -/
def isDuplicate (e : End) (psn : Nat) : Bool :=
  let d := sub32 psn e.recvThrough
  d == 0 || Nat.ble (m32 - 65535) d || (Nat.ble d 256 && flag e.bitmap (d - 1))

theorem isDuplicate_iff (e : End) (psn : Nat) : isDuplicate e psn = true ↔ sub32 psn e.recvThrough = 0 ∨
    2 ^ 32 - 65535 ≤ sub32 psn e.recvThrough ∨
    (sub32 psn e.recvThrough ≤ 256 ∧ flag e.bitmap (sub32 psn e.recvThrough - 1) = true) := by
  simp [isDuplicate, m32, or_assoc]

/-- Neither a new packet nor one beyond the window but less than half a turn behind it is a duplicate. -/
theorem isDuplicate_of_new {e : End} {psn : Nat} (h : newAt e psn = true) : isDuplicate e psn = false := by
  obtain ⟨hpos, hle, hflag⟩ := (newAt_iff e psn).mp h
  rw [Bool.eq_false_iff, Ne, isDuplicate_iff]
  simp only [hflag, Bool.false_eq_true, and_false, or_false]
  omega

theorem isDuplicate_of_beyond {e : End} {psn : Nat} (hlow : 256 < sub32 psn e.recvThrough)
    (hhigh : sub32 psn e.recvThrough < 2 ^ 32 - 65535) : isDuplicate e psn = false := by
  rw [Bool.eq_false_iff, Ne, isDuplicate_iff]
  omega

section
variable {s : State} {p : Packet} {e : End} {kind h : Nat} (act : Nat → End → Hdr → State → Option State)

/-- A failed check is answered with NACK CHECK, also on an unsequenced packet (R146). -/
theorem classify_of_unsequenced (hkind : sequenced kind = false) : classify p kind h e act s =
    if trailerChecks p then act h e p.hdr (setEnd h (heard s) (touch h s)) else some (checkFailed h (Hdr.psn p.hdr) true s) := by
  unfold trailerChecks
  cases hcrc : trailer p.hdr p.route p.payload == p.crc <;> simp [classify, hkind, bne, hcrc]

variable (hkind : sequenced kind = true)
include hkind

theorem classify_of_duplicate (hdup : isDuplicate e (Hdr.psn p.hdr) = true) : classify p kind h e act s =
    some (duplicateTaken h e p.hdr s) := by
  unfold isDuplicate at hdup
  simp only [classify, hkind, hdup, Bool.not_true, Bool.false_eq_true, if_false, if_true]
  rfl

/-- A new packet is checked for age, then for its CRC, then is its kind's to process (R131, R146). -/
theorem classify_of_new (hnew : newAt e (Hdr.psn p.hdr) = true) : classify p kind h e act s =
    if tooOld s p.hdr then some (bumpConn (dieOfEnd h) e.part 3 1 s)
    else if trailerChecks p then act h e p.hdr (touch h s) else some (checkFailed h (Hdr.psn p.hdr) true s) := by
  have hdup := isDuplicate_of_new hnew
  have hle := ((newAt_iff e _).mp hnew).2.1
  unfold isDuplicate at hdup
  unfold trailerChecks
  cases hcrc : trailer p.hdr p.route p.payload == p.crc <;> simp only [classify, hkind, hdup, hle, bne, hcrc] <;> rfl

/-- Past the window a packet is beyond reach up to 65,536, and stale further on (R128, R134). -/
theorem classify_of_beyond (hlow : 256 < sub32 (Hdr.psn p.hdr) e.recvThrough)
    (hhigh : sub32 (Hdr.psn p.hdr) e.recvThrough < 2 ^ 32 - 65535) : classify p kind h e act s =
    some (if sub32 (Hdr.psn p.hdr) e.recvThrough ≤ 65536 then sendNack h (Hdr.psn p.hdr) 1 (bumpConn (dieOfEnd h) e.part 2 1 s)
      else bumpConn (dieOfEnd h) e.part 3 1 s) := by
  have hdup := isDuplicate_of_beyond hlow hhigh
  unfold isDuplicate at hdup
  simp only [classify, hkind, hdup, Nat.not_le.mpr hlow, Bool.not_true, Bool.false_eq_true, if_false]
  split <;> rfl

end

/-! ## ACKs -/

/-- The end once its ACK is sent (R133). -/
def ackSentEnd (e : End) : End := { e with ackPending := 0, rxMarked := 0, rxTotal := 0 }

theorem sendControl_onlyChanges (h kind tc : Nat) (body : List Byte) (s : State) : onlyChanges sendAreas s (sendControl h kind tc body s) :=
  sendFrom_onlyChanges _ _ _ _ _

theorem sendAck_conn (h : Nat) (immediate : Bool) (s : State) : (sendAck h immediate s).conn = (setEnd h ackSentEnd s).conn :=
  sendControl_onlyChanges _ _ _ _ _ .conn rfl

theorem sendAck_onlyChanges (h : Nat) (immediate : Bool) (s : State) :
    onlyChanges [.conn, .mesh, .fab, .obs, .counts] s (sendAck h immediate s) :=
  onlyChanges_trans (t := setEnd h ackSentEnd s) (by simp [onlyChanges_iff])
    (onlyChanges_mono (sendControl_onlyChanges _ _ _ _ _) fun a => by cases a <;> decide)

theorem writesEnd_sendAck {h : Nat} {e : End} {s t : State} (immediate : Bool) (hw : writesEnd h e s t) :
    writesEnd h (ackSentEnd e) s (sendAck h immediate t) :=
  writesEnd_of_ends (congrArg ConnSt.ends (sendAck_conn h immediate t)) (writesEnd_setEnd ackSentEnd hw)

/-- Of the end a duplicate changes when it was heard, what its ACK reports, and that an ACK is due. -/
theorem writesEnd_duplicateTaken {h : Nat} {e : End} {s : State} (hdr : Hdr) (he : tget s.conn.ends h = some e) :
    writesEnd h (ackSentEnd (heardAgain (duplicateCounted h e s) hdr e)) s (duplicateTaken h e hdr s) :=
  writesEnd_sendAck true (writesEnd_setEnd _ (writesEnd_of_ends (by simp [duplicateCounted]) (writesEnd_refl he)))

theorem duplicateTaken_arrivals (h : Nat) (e : End) (hdr : Hdr) (s : State) :
    (duplicateTaken h e hdr s).conn.arrivals = s.conn.arrivals := by simp [duplicateTaken, sendAck_conn, duplicateCounted]

theorem duplicateTaken_onlyChanges (h : Nat) (e : End) (hdr : Hdr) (s : State) :
    onlyChanges [.conn, .mesh, .fab, .obs, .counts] s (duplicateTaken h e hdr s) := by
  have hcounted : onlyChanges [.conn, .mesh, .fab, .obs, .counts] s (duplicateCounted h e s) := by
    simp [onlyChanges_iff, duplicateCounted]
  have htouched := onlyChanges_trans hcounted
    (onlyChanges_mono (touch_onlyChanges h (duplicateCounted h e s)) fun a => by cases a <;> decide)
  exact onlyChanges_trans (onlyChanges_trans htouched (by simp [onlyChanges_iff])) (sendAck_onlyChanges h true _)

/-! ## What no end takes -/

theorem answerReset_of_no_reset {h : Nat} {s : State} (epoch : Nat) (hnone : tget s.conn.resets h = none) : answerReset h epoch s = s := by
  simp [answerReset, hnone]

section
variable {s t : State} {p : Packet} {kind : Nat} (hrun : running s = true) (hkind : Hdr.kind p.hdr = kind) (ht : reaches p s = some t)
  (act : Nat → End → Hdr → State → Option State)
include hrun hkind ht

/-- A packet of the hold-off is dropped (R116). -/
theorem arrive_of_holdoff (hdata : (kind == kData || kind == kRequest || kind == kResponse) = true) (hholdoff : s.conn.holdoff.isSome = true) :
    arrive s p kind act = received t (handleOf p.hdr) := by
  simp only [arrive, hrun, hkind, ht, hholdoff, hdata]
  simp [received]

variable {e : End} (hholdoff : s.conn.holdoff = none) (hop : opcodeFits kind (Hdr.opcode p.hdr) = true)
  (he : tget s.conn.ends (handleOf p.hdr) = some e)
include hholdoff hop he

/-- One of another epoch is dropped and counted, where no reset ended the end (R114, R124). -/
theorem arrive_of_otherEpoch (hepoch : Hdr.epoch p.hdr ≠ e.epoch) (hreset : tget s.conn.resets (handleOf p.hdr) = none) :
    arrive s p kind act = bumpConn (dieOfEnd (handleOf p.hdr)) e.part 1 1 (received t (handleOf p.hdr)) := by
  have hconn : (received t (handleOf p.hdr)).conn = s.conn := received_of_reaches ht _ .conn rfl
  have hepoch' : (Hdr.epoch p.hdr != e.epoch) = true := bne_iff_ne.mpr hepoch
  have hreset' : tget (bumpConn (dieOfEnd (handleOf p.hdr)) e.part 1 1 (received t (handleOf p.hdr))).conn.resets (handleOf p.hdr) = none := by
    rw [bumpConn_conn, hconn, hreset]
  simp only [arrive, hrun, hkind, ht, hholdoff, hop, he, hepoch', bne_self_eq_false, Bool.not_true, Bool.or_self, Option.isSome_none,
    Bool.false_and, Bool.false_eq_true, if_false, if_true]
  exact answerReset_of_no_reset _ hreset'

variable (hepoch : Hdr.epoch p.hdr = e.epoch)
include hepoch

/-- An end that takes no packets, or none of this direction, drops it (log 102). -/
theorem arrive_of_refused (hrefuse : e.takes = false ∨ directionFits e kind = false) :
    arrive s p kind act = received t (handleOf p.hdr) := by
  have hrefuse' : (!e.takes || !directionFits e kind || (s.fab.fenced.contains e.localEp && !e.mgmt && !isEdge (handleOf p.hdr))) = true := by
    rcases hrefuse with h | h <;> simp [h]
  simp only [arrive, hrun, hkind, ht, hholdoff, hop, he, hepoch, hrefuse']
  simp [received]

/-- One for an end outside the cache waits for its fill (R114). -/
theorem arrive_of_uncached (htakes : e.takes = true) (hdir : directionFits e kind = true) (hfence : s.fab.fenced.contains e.localEp = false)
    (hcached : inCache s (handleOf p.hdr) = false) : arrive s p kind act = awaitFill p (handleOf p.hdr) t s := by
  simp only [arrive, hrun, hkind, ht, hholdoff, hop, he, hepoch, htakes, hdir, hfence, hcached]
  simp

end

/-! ## The commands -/

theorem exec_dataPacket {s : State} {p : Packet} (ext : List Byte) (hedge : isEdge (handleOf p.hdr) = false) :
    exec (.dataPacket p ext) s = .next (arrive s p kData fun h e hdr s => some (takeData p ext h e hdr s)) := by
  show execDataPacket p ext s = _
  simp [execDataPacket, hedge]

theorem exec_requestPacket (p : Packet) (s : State) :
    exec (.requestPacket p) s = .next (arrive s p kRequest fun h e hdr s => some (takeRequest p h e hdr s)) := rfl

theorem exec_responsePacket (p : Packet) (s : State) : exec (.responsePacket p) s = .next (arrive s p kResponse (takeResponse p)) := rfl

theorem exec_holdPacket (p : Packet) (s : State) :
    exec (.holdPacket p) s = .next (arrive s p kHold fun h _ _ s => some (takeHold h s)) := rfl

theorem exec_nackPacket (p : Packet) (ext : List Byte) (s : State) : exec (.nackPacket p ext) s =
    .next (arrive s p kNack fun h e _ s => some (takeNack h e (field p.payload 0 4) (field p.payload 4 1) ext s)) := rfl

theorem exec_withdraw {s : State} {p : Packet} (hedge : isEdge (handleOf p.hdr) = false) :
    exec (.withdraw p) s = .next (arrive s p kWithdraw fun h e hdr s => some (takeWithdraw p h e hdr s)) := by
  show execWithdraw p s = _
  simp [execWithdraw, hedge]

theorem exec_ackPacket {s : State} {p : Packet} (ext : List Byte) (hedge : isEdge (handleOf p.hdr) = false) :
    exec (.ackPacket p ext) s = .next (arrive s p kAck fun h _ _ s => some (takeAck h (ackBody p.payload) ext s)) := by
  show execAckPacket p ext s = _
  simp [execAckPacket, hedge, arriveAck]

section
variable {s t : State} {p : Packet} {e : End} {kind : Nat} (ht : reaches p s = some t) (hreach : reachesEnd s p kind e = true)
  (act : Nat → End → Hdr → State → Option State)
include ht hreach

/-- What a new packet of a sequenced kind does at its end. -/
theorem arrive_of_new (hkind : sequenced kind = true) (hnew : isNew (received t (handleOf p.hdr)) p e = true) (hcheck : trailerChecks p = true) :
    arrive s p kind act = (act (handleOf p.hdr) e p.hdr (touch (handleOf p.hdr) (received t (handleOf p.hdr)))).getD s := by
  simp only [isNew, Bool.and_eq_true, Bool.not_eq_true'] at hnew
  obtain ⟨hat, hage⟩ := hnew
  rw [arrive_of_reachesEnd ht hreach, classify_of_new act hkind hat, hage, hcheck]
  rfl

/-- What an unsequenced packet does at its end. -/
theorem arrive_of_unsequenced (hkind : sequenced kind = false) (hcheck : trailerChecks p = true) :
    arrive s p kind act = (act (handleOf p.hdr) e p.hdr (setEnd (handleOf p.hdr) (heard (received t (handleOf p.hdr)))
      (touch (handleOf p.hdr) (received t (handleOf p.hdr))))).getD s := by
  rw [arrive_of_reachesEnd ht hreach, classify_of_unsequenced act hkind, hcheck]
  rfl

theorem arrive_of_failed_check (hkind : sequenced kind = false) (hcheck : trailerChecks p = false) :
    arrive s p kind act = checkFailed (handleOf p.hdr) (Hdr.psn p.hdr) true (received t (handleOf p.hdr)) := by
  rw [arrive_of_reachesEnd ht hreach, classify_of_unsequenced act hkind, hcheck]
  rfl

end

/-! ## A DATA packet that is not new -/

section
variable {s t : State} {p : Packet} {e : End} (ext : List Byte) (ht : reaches p s = some t) (hreach : reachesEnd s p kData e = true)
include ht hreach

/-- A DATA packet that reaches an end is classified there. -/
theorem exec_dataPacket_classified : exec (.dataPacket p ext) s =
    .next ((classify p kData (handleOf p.hdr) e (fun h e hdr s => some (takeData p ext h e hdr s)) (received t (handleOf p.hdr))).getD s) := by
  rw [exec_dataPacket ext (end_of_reachesEnd hreach).2, arrive_of_reachesEnd ht hreach]

/-- A duplicate is acknowledged at once and changes no record, memory or queue (R132). -/
theorem duplicate_changes_nothing (hdup : isDuplicate e (Hdr.psn p.hdr) = true) :
    ∃ v, exec (.dataPacket p ext) s = .next v ∧ v.conn.arrivals = s.conn.arrivals ∧ v.mem = s.mem ∧ v.q = s.q ∧
      (endOf v (handleOf p.hdr)).recvThrough = e.recvThrough ∧ (endOf v (handleOf p.hdr)).bitmap = e.bitmap ∧
      (endOf v (handleOf p.hdr)).ackPending = 0 ∧ ∀ k, k ≠ handleOf p.hdr → endOf v k = endOf s k := by
  have hexec := exec_dataPacket_classified ext ht hreach
  rw [classify_of_duplicate _ rfl hdup] at hexec
  have hreceived := received_of_reaches ht (handleOf p.hdr)
  obtain ⟨he, -⟩ := end_of_reachesEnd hreach
  have hconn := hreceived .conn rfl
  have hframe := duplicateTaken_onlyChanges (handleOf p.hdr) e p.hdr (received t (handleOf p.hdr))
  have hwrites := writesEnd_from (congrArg ConnSt.ends hconn) (writesEnd_duplicateTaken p.hdr (tget_received ht (handleOf p.hdr) he))
  have hself := writesEnd_self hwrites
  refine ⟨_, hexec, ?_, (hframe .mem rfl).trans (hreceived .mem rfl), (hframe .q rfl).trans (hreceived .q rfl), ?_⟩
  · rw [Option.getD_some, duplicateTaken_arrivals, hconn]
  · simp only [Option.getD_some, hself, ackSentEnd, heardAgain, heard, true_and]
    exact fun k hk => writesEnd_other hwrites hk

end

/-! ## Reserved kinds -/

/-- A packet of a reserved kind is dropped and counted (R126). -/
theorem exec_reservedKindDrop {s t : State} {p : Packet} (hrun : running s = true) (ht : reaches p s = some t)
    (hkind : Hdr.kind p.hdr = 7 ∨ Hdr.kind p.hdr = 14 ∨ Hdr.kind p.hdr = 15) : exec (.reservedKindDrop p) s =
      .next { t with conn := { t.conn with reservedKinds := tmodD t.conn.reservedKinds (dieOfEnd (handleOf p.hdr)) 0 (· + 1) } } := by
  show execReservedKindDrop p s = _
  rcases hkind with h | h | h <;> simp [execReservedKindDrop, hrun, h, ht]

/-- Settles O21: what reaches an end by the class of its PSN, its age and its check; what no end takes by the first test it fails. -/
theorem packetsAreClassified : Obligations.PacketsAreClassified := by
  intro s t p e ext ht h d r
  have hfail {kind : Nat} (hkind : sequenced kind = false) (hcheck : trailerChecks p = false) (hreach : reachesEnd s p kind e = true)
      (act : Nat → End → Hdr → State → Option State) : arrive s p kind act = checkFailed h (Hdr.psn p.hdr) true r :=
    arrive_of_failed_check ht hreach act hkind hcheck
  refine ⟨fun hnew hcheck => ⟨fun hreach => ?_, fun hreach => ?_, fun hreach => ?_, fun hreach => ?_⟩,
    fun hcheck => ⟨fun hreach => ?_, fun hreach => ?_, fun hreach => ?_⟩,
    fun hcheck => ⟨fun hreach => ?_, fun hreach => ?_, fun hreach => ?_⟩, fun hreach => ⟨fun hdup => ?_, ?_⟩, fun hrun hedge hkind => ?_,
    fun hrun hkind => ?_⟩
  · rw [exec_dataPacket ext (end_of_reachesEnd hreach).2, arrive_of_new ht hreach _ rfl hnew hcheck, Option.getD_some]
  · rw [exec_requestPacket, arrive_of_new ht hreach _ rfl hnew hcheck, Option.getD_some]
  · rw [exec_responsePacket, arrive_of_new ht hreach _ rfl hnew hcheck]
  · rw [exec_withdraw (end_of_reachesEnd hreach).2, arrive_of_new ht hreach _ rfl hnew hcheck, Option.getD_some]
  · rw [exec_ackPacket ext (end_of_reachesEnd hreach).2, arrive_of_unsequenced ht hreach _ rfl hcheck, Option.getD_some]
  · rw [exec_holdPacket, arrive_of_unsequenced ht hreach _ rfl hcheck, Option.getD_some]
  · rw [exec_nackPacket, arrive_of_unsequenced ht hreach _ rfl hcheck, Option.getD_some]
  · rw [exec_ackPacket ext (end_of_reachesEnd hreach).2, hfail rfl hcheck hreach]
  · rw [exec_nackPacket, hfail rfl hcheck hreach]
  · rw [exec_holdPacket, hfail rfl hcheck hreach]
  · exact duplicate_changes_nothing ext ht hreach ((isDuplicate_iff _ _).mpr hdup)
  · have hexec := exec_dataPacket_classified ext ht hreach
    refine ⟨fun hlow hhigh => ?_, fun hlow hhigh => ?_, fun hnew hold => ?_, fun hnew hcheck => ?_⟩
    · rw [hexec, classify_of_beyond _ rfl hlow (by omega), if_pos hhigh]
      rfl
    · rw [hexec, classify_of_beyond _ rfl (by omega) hhigh, if_neg (Nat.not_le.mpr hlow)]
      rfl
    · rw [hexec, classify_of_new _ rfl hnew, if_pos hold]
      rfl
    · simp only [isNew, Bool.and_eq_true, Bool.not_eq_true'] at hnew
      rw [hexec, classify_of_new _ rfl hnew.1, hnew.2, hcheck]
      rfl
  · rw [exec_dataPacket ext hedge]
    refine ⟨fun hholdoff => ?_, fun hholdoff hop he => ⟨fun hepoch hreset => ?_, fun hepoch hrefuse => ?_,
      fun hepoch htakes hinit hfence hcached => ?_⟩⟩
    · rw [arrive_of_holdoff hrun hkind ht _ rfl hholdoff]
    · rw [arrive_of_otherEpoch hrun hkind ht _ hholdoff hop he hepoch hreset]
    · rw [arrive_of_refused hrun hkind ht _ hholdoff hop he hepoch (hrefuse.imp_right fun h => by simp [directionFits, h])]
    · rw [arrive_of_uncached hrun hkind ht _ hholdoff hop he hepoch htakes (by simp [directionFits, hinit]) hfence hcached]
  · have hframe := reaches_onlyChanges ht
    have hconn : t.conn = s.conn := hframe .conn rfl
    refine ⟨_, exec_reservedKindDrop hrun ht hkind, by simp [tgetD_tmodD_eq, hconn, h], by simp [hconn], rfl, ?_⟩
    exact onlyChanges_trans (onlyChanges_mono hframe fun a => by cases a <;> decide) (by simp [onlyChanges_iff])

end Sys2Proof.Machine
end

section
/-! SUPPORT. The send half: a packet sent, resent or withdrawn, done records and delayed ACKs (R127, R130, R132, R133, R138, R142 to R144,
R148). -/

namespace Sys2Proof.Machine

/-! ## What reading and counting a packet leaves -/

@[simp] theorem noteAccess_mem (writing : Bool) (p : Piece) (n : Nat) (s : State) : (noteAccess writing p n s).mem = s.mem := by
  unfold noteAccess
  extract_lets link counted u
  have hlink (k m : Nat) (t : State) : (link k m t).mem = t.mem := by
    simp only [link]
    split <;> simp
  split
  · exact hlink _ _ _
  · split
    · simp
    · simp only [u]
      split <;> simp [counted, hlink]

@[simp] theorem noteReads_mem (ps : List Piece) (s : State) : (noteReads ps s).mem = s.mem := by
  induction ps generalizing s with
  | nil => rfl
  | cons p ps ih => exact (ih _).trans (noteAccess_mem _ _ _ _)

theorem noteReads_barFrame (ps : List Piece) (s : State) : barFrame s (noteReads ps s) := by
  induction ps generalizing s with
  | nil => exact onlyChanges_refl _ _
  | cons p ps ih => exact onlyChanges_trans (noteAccess_barFrame false p p.len (onlyChanges_refl _ s)) (ih _)

@[simp] theorem noteReads_conn (ps : List Piece) (s : State) : (noteReads ps s).conn = s.conn := noteReads_barFrame ps s .conn rfl
@[simp] theorem noteReads_dict (ps : List Piece) (s : State) : (noteReads ps s).dict = s.dict := noteReads_barFrame ps s .dict rfl

theorem countSent_onlyChanges (die p : Nat) (d : Desc) (own : Bool) (n : Nat) (s : State) :
    onlyChanges [.obs, .mtr, .counts] s (countSent die p d own n s) := by
  simp [onlyChanges_iff, countSent]

theorem countRound_onlyChanges (h : Nat) (d : Desc) (ext : List Byte) (s : State) : onlyChanges [.counts] s (countRound h d ext s) := by
  unfold countRound
  split
  · split
    · dsimp only
      split <;> simp [onlyChanges_iff]
    · exact onlyChanges_refl _ _
  · exact onlyChanges_refl _ _

@[simp] theorem countSent_conn (die p : Nat) (d : Desc) (own : Bool) (n : Nat) (s : State) : (countSent die p d own n s).conn = s.conn :=
  countSent_onlyChanges _ _ _ _ _ _ .conn rfl
@[simp] theorem countSent_mem (die p : Nat) (d : Desc) (own : Bool) (n : Nat) (s : State) : (countSent die p d own n s).mem = s.mem :=
  countSent_onlyChanges _ _ _ _ _ _ .mem rfl
@[simp] theorem countRound_conn (h : Nat) (d : Desc) (ext : List Byte) (s : State) : (countRound h d ext s).conn = s.conn :=
  countRound_onlyChanges _ _ _ _ .conn rfl
@[simp] theorem countRound_mem (h : Nat) (d : Desc) (ext : List Byte) (s : State) : (countRound h d ext s).mem = s.mem :=
  countRound_onlyChanges _ _ _ _ .mem rfl
@[simp] theorem touch_mem (h : Nat) (s : State) : (touch h s).mem = s.mem := touch_onlyChanges h s .mem rfl

/-! ## What leaves the send half its packets -/

/-- A new update interval changes what Bellows counts (R154). -/
theorem rollInterval_writes (s : State) (e : End) : ∃ marked total delay paced at_, rollInterval s e =
    { e with marked := marked, total := total, maxDelay := delay, pacedSent := paced, lastUpdate := at_ } := by
  unfold rollInterval
  split
  · exact ⟨_, _, _, _, _, rfl⟩
  · exact ⟨e.marked, e.total, e.maxDelay, e.pacedSent, e.lastUpdate, rfl⟩

/-- A packet that goes changes the pace and what Bellows counts (R151, R155). -/
theorem chargeSend_writes (s : State) (tc n : Nat) (e : End) : ∃ marked total delay sent at_ pace burst, chargeSend s tc n e =
    { e with marked := marked, total := total, maxDelay := delay, pacedSent := sent, lastUpdate := at_, paceAt := pace, burst := burst } := by
  unfold chargeSend
  split
  · exact ⟨e.marked, e.total, e.maxDelay, e.pacedSent, e.lastUpdate, e.paceAt, e.burst, rfl⟩
  · obtain ⟨marked, total, delay, sent, at_, hroll⟩ := rollInterval_writes s e
    rw [hroll]
    unfold paced
    dsimp only
    split <;> exact ⟨_, _, _, _, _, _, _, rfl⟩

section
variable (s : State) (tc n : Nat) (e : End)

@[simp] theorem chargeSend_toSend : (chargeSend s tc n e).toSend = e.toSend := by
  obtain ⟨_, _, _, _, _, _, _, h⟩ := chargeSend_writes s tc n e; rw [h]
@[simp] theorem chargeSend_nextPsn : (chargeSend s tc n e).nextPsn = e.nextPsn := by
  obtain ⟨_, _, _, _, _, _, _, h⟩ := chargeSend_writes s tc n e; rw [h]
@[simp] theorem chargeSend_unacked : (chargeSend s tc n e).unacked = e.unacked := by
  obtain ⟨_, _, _, _, _, _, _, h⟩ := chargeSend_writes s tc n e; rw [h]
@[simp] theorem chargeSend_acked : (chargeSend s tc n e).acked = e.acked := by
  obtain ⟨_, _, _, _, _, _, _, h⟩ := chargeSend_writes s tc n e; rw [h]
@[simp] theorem chargeSend_lastSent : (chargeSend s tc n e).lastSent = e.lastSent := by
  obtain ⟨_, _, _, _, _, _, _, h⟩ := chargeSend_writes s tc n e; rw [h]
@[simp] theorem rollInterval_nextPsn : (rollInterval s e).nextPsn = e.nextPsn := by
  obtain ⟨_, _, _, _, _, h⟩ := rollInterval_writes s e; rw [h]
@[simp] theorem rollInterval_unacked : (rollInterval s e).unacked = e.unacked := by
  obtain ⟨_, _, _, _, _, h⟩ := rollInterval_writes s e; rw [h]

end

/-! ## A packet is sent -/

theorem rtoOf_congr {s t : State} (hdict : t.dict = s.dict) (e : End) : rtoOf t e = rtoOf s e := by simp only [rtoOf, cfg_congr hdict]

/-- The packet at the head of the queue under the next PSN, its timer started (R127, R143). -/
def sentPacket (s : State) (e : End) (d : Desc) : Unacked := { psn := e.nextPsn, desc := d, sent := s.time.now, timer := rtoOf s e }

/-- The end once that packet has gone (R130). -/
def sentEnd (s : State) (d : Desc) (rest : List Desc) (n : Nat) (e : End) : End :=
  chargeSend s d.tc n { e with toSend := rest, nextPsn := add32 e.nextPsn 1, unacked := e.unacked ++ [sentPacket s e d],
                               lastSent := s.time.now }

section
variable {s : State} {h : Nat} {e : End} (d : Desc) (rest : List Desc) (ext : List Byte) (he : tget s.conn.ends h = some e)
include he

theorem writesEnd_sendNew :
    writesEnd h (sentEnd (noteReads d.src s) d rest (payloadOf s d ext).length e) s (sendNew h d rest ext s) := by
  have hread : writesEnd h e s (noteReads d.src s) := writesEnd_of_ends (by simp) (writesEnd_refl he)
  have hset := writesEnd_setEnd (sentEnd (noteReads d.src s) d rest (payloadOf s d ext).length) hread
  refine writesEnd_of_ends ?_ hset
  simp only [sendNew, endOf_of_tget he]
  split <;> simp [sentEnd, sentPacket, he, tmod]

omit he in
theorem sendNew_mem : (sendNew h d rest ext s).mem = s.mem := by
  simp only [sendNew]
  split <;> simp

variable (hrun : running s = true)
include hrun

theorem exec_sendPacket (hwaits : e.toSend = d :: rest) (hsource : sourceFault s d = none) (hmay : maySend s h e d = true) :
    exec (.sendPacket h ext) s = .next (sendNew h d rest ext s) := by
  have hlive : e.live = true := by
    simp only [maySend, Bool.and_eq_true] at hmay
    obtain ⟨⟨⟨⟨⟨⟨⟨⟨hopen, _⟩, _⟩, _⟩, _⟩, _⟩, _⟩, _⟩, _⟩ := hmay
    simp [End.live, beq_iff_eq.mp hopen]
  show execSendPacket h ext s = _
  simp only [execSendPacket, endOf_of_tget he, hwaits, hrun, hlive, hsource, hmay]
  rfl

/-- A source that cannot be read is withdrawn (R148, R566). -/
theorem exec_sendPacket_of_fault {f : Nat × Option Nat} (hcached : inCache s h = true) (hwaits : e.toSend = d :: rest)
    (hlive : e.state ≠ .free) (hsource : sourceFault s d = some f) : exec (.sendPacket h ext) s = .next (faultSource h d true f s) := by
  have hlive : e.live = true := bne_iff_ne.mpr hlive
  show execSendPacket h ext s = _
  simp only [execSendPacket, endOf_of_tget he, hwaits, hrun, hlive, hsource, hcached]
  rfl

end

/-! ## Sources that cannot be read, and resends -/

section
variable {s : State} {h : Nat} {e : End} (hrun : running s = true) (he : tget s.conn.ends h = some e) (hcached : inCache s h = true)
  (hstate : e.state = .open_)
include hrun he hcached hstate

theorem exec_sourceReadError_of_unacked {psn o a : Nat} {u : Unacked} (hfind : e.unacked.find? (fun (x : Unacked) => x.psn == psn) = some u)
    (hbad : badOffset s u.desc.src 0 = some (o, a)) :
    exec (.sourceReadError h (some psn)) s = .next (faultSource h u.desc false (stMediaError, some a) s) := by
  show execSourceReadError h (some psn) s = _
  simp [execSourceReadError, endOf_of_tget he, hfind, hbad, hrun, hcached, End.isOpen, hstate]

theorem exec_sourceReadError_of_waiting {d : Desc} {rest : List Desc} {o a : Nat} (hwaits : e.toSend = d :: rest)
    (hbad : badOffset s d.src 0 = some (o, a)) :
    exec (.sourceReadError h none) s = .next (faultSource h d true (stMediaError, some a) s) := by
  show execSourceReadError h none s = _
  simp [execSourceReadError, endOf_of_tget he, hwaits, hbad, hrun, hcached, End.isOpen, hstate]

theorem exec_retransmitTimer (ext : List Byte) (hlate : overdue s e ≠ []) : exec (.retransmitTimer h (isEdge h) ext) s =
    .next (if (counting s e && (overdue s e).any fun u => Nat.ble (cfg s 0x4100 3) u.resends) = true then giveUp h s
      else resendAll h (counting s e) false (overdue s e) ext s) := by
  have hlate' : (overdue s e).isEmpty = false := by simpa using hlate
  show execRetransmitTimer h (isEdge h) ext s = _
  simp only [execRetransmitTimer, endOf_of_tget he, hrun, hcached, End.isOpen, hstate, hlate', beq_self_eq_true, Bool.not_false,
    Bool.and_self, when_true]

omit hrun hcached hstate in
/-- An end of a connection gives up: Broken at an initiator, closed at a target (R144). -/
theorem giveUp_of_connection (hedge : isEdge h = false) :
    giveUp h s = if e.initiator then breakEnd h stTransportTimeout s else closeTarget h s := by
  simp only [giveUp, hedge, endOf_of_tget he, Bool.false_eq_true, if_false]

/-! ## Done records and delayed ACKs -/

/-- The packet that carries the first 16 waiting done records (R138). -/
def donePacketOf (e : End) : Desc :=
  { kind := kResponse, tc := ackTc e.rxTc, opnum := e.nextOp, length := ((e.doneQ.take 16).flatMap doneBytes).length,
    plen := ((e.doneQ.take 16).flatMap doneBytes).length, body := (e.doneQ.take 16).flatMap doneBytes }

/-- The end once that packet waits to be sent. -/
def donesQueued (s : State) (e : End) : End :=
  { e with doneQ := e.doneQ.drop 16, doneSince := s.time.now, nextOp := (e.nextOp + 1) % m24, toSend := e.toSend ++ [donePacketOf e] }

omit hrun hcached hstate in
theorem writesEnd_sendDone (hdone : e.doneQ ≠ []) : writesEnd h (donesQueued s e) s (sendDone h s) := by
  have hnow : (e.doneQ.take 16).isEmpty = false := by simpa using hdone
  simp only [sendDone, endOf_of_tget he, hnow, Bool.false_eq_true, if_false]
  exact writesEnd_setEnd (fun e' => { e' with toSend := e'.toSend ++ [donePacketOf e] })
    (writesEnd_setEnd (fun e' => { e' with doneQ := e'.doneQ.drop 16, doneSince := s.time.now, nextOp := (e'.nextOp + 1) % m24 })
      (writesEnd_refl he))

omit hrun he hcached hstate in
theorem sendDone_onlyChanges (h : Nat) (s : State) : onlyChanges [.conn] s (sendDone h s) := by
  unfold sendDone
  dsimp only
  split
  · exact onlyChanges_refl _ _
  · simp [onlyChanges_iff, queueResponse]

theorem exec_doneBatchTimer (hdone : e.doneQ ≠ []) (hdue : due s e.doneSince 500 = true) :
    exec (.doneBatchTimer h) s = .next (sendDone h s) := by
  have hdone' : e.doneQ.isEmpty = false := by simpa using hdone
  show execDoneBatchTimer h s = _
  simp only [execDoneBatchTimer, endOf_of_tget he, hrun, hcached, End.isOpen, hstate, hdone', hdue, beq_self_eq_true, Bool.not_false,
    Bool.and_self, when_true]

theorem exec_ackDelay (hpending : e.ackPending ≠ 0) (hdue : due s e.ackSince e.ackFor = true) :
    exec (.ackDelay h) s = .next (sendAck h false s) := by
  have hpending' : (e.ackPending != 0) = true := bne_iff_ne.mpr hpending
  show execAckDelay h s = _
  simp only [execAckDelay, endOf_of_tget he, hrun, hcached, End.takes, End.isOpen, hstate, hpending', hdue, beq_self_eq_true, Bool.true_or,
    Bool.and_self, when_true]

end

end Sys2Proof.Machine
end

section
/-! SUPPORT. What ACK, HOLD and NACK do to a send half, and what every resend and withdrawal leaves of its packets (R130, R132, R134, R135,
R142, R566). -/

namespace Sys2Proof.Machine

/-! ## What is sent stays sent -/

/-- The PSNs that wait for their acknowledgement, and the next PSN. -/
def sentOf (e : End) : List Nat × Nat := (e.unacked.map (·.psn), e.nextPsn)

theorem sentOf_congr {e e' : End} (hpsns : e'.unacked.map (·.psn) = e.unacked.map (·.psn)) (hnext : e'.nextPsn = e.nextPsn) :
    sentOf e' = sentOf e := by simp only [sentOf, hpsns, hnext]

theorem psns_map {f : Unacked → Unacked} (hf : ∀ x, (f x).psn = x.psn) (l : List Unacked) :
    (l.map f).map (·.psn) = l.map (·.psn) := by simp [hf]

/-- From `s` to `t` an end holds these PSNs now, the other ends stand, and no arrival record is new. -/
def holdsSent (h : Nat) (x : List Nat × Nat) (s t : State) : Prop :=
  (∃ e, writesEnd h e s t ∧ sentOf e = x) ∧ t.conn.arrivals.length ≤ s.conn.arrivals.length

section
variable {s t u : State} {h : Nat} {x : List Nat × Nat}

theorem holdsSent_of_conn (hconn : u.conn = t.conn) (hs : holdsSent h x s t) : holdsSent h x s u := by
  obtain ⟨⟨e, hw, hx⟩, harr⟩ := hs
  exact ⟨⟨e, writesEnd_of_ends (congrArg ConnSt.ends hconn) hw, hx⟩, by rwa [hconn]⟩

theorem holdsSent_setEnd {f : End → End} (hf : ∀ e, sentOf (f e) = sentOf e) (hs : holdsSent h x s t) : holdsSent h x s (setEnd h f t) := by
  obtain ⟨⟨e, hw, rfl⟩, harr⟩ := hs
  exact ⟨⟨f e, writesEnd_setEnd f hw, hf e⟩, harr⟩

theorem foldl_holdsSent {α : Type} {f : State → α → State} (hf : ∀ t a, holdsSent h x s t → holdsSent h x s (f t a)) (l : List α)
    (hs : holdsSent h x s t) : holdsSent h x s (l.foldl f t) := by
  induction l generalizing t with
  | nil => exact hs
  | cons a l ih => exact ih (hf _ _ hs)

/-! ## Withdrawals -/

theorem resendWithdrawn_holdsSent (psn : Nat) (hs : holdsSent h x s t) : holdsSent h x s (resendWithdrawn h psn t) := by
  unfold resendWithdrawn
  dsimp only
  split
  · exact hs
  · split
    · exact hs
    · refine holdsSent_of_conn (sendFrom_conn _ _ _ _ _) (holdsSent_setEnd (fun e => sentOf_congr ?_ (by simp)) hs)
      rw [chargeSend_unacked]
      exact psns_map (fun y => by split <;> rfl) _

theorem withdrawRest_holdsSent (opnum off len status : Nat) (addr : Nat → Nat) (hs : holdsSent h x s t) :
    holdsSent h x s (withdrawRest h opnum off len status addr t) := by
  unfold withdrawRest
  extract_lets e mine rest marked all n
  have hmarked : holdsSent h x s marked :=
    holdsSent_setEnd (fun e => sentOf_congr (psns_map (fun y => by split <;> rfl) _) rfl) hs
  have hall : holdsSent h x s all := foldl_holdsSent (fun _ (y : Unacked) => resendWithdrawn_holdsSent y.psn) _ hmarked
  clear_value n rest
  cases rest with
  | nil => exact hall
  | cons d ds =>
    dsimp only
    split <;> exact holdsSent_setEnd (fun e => rfl) hall

/-- On an end of a connection a source that cannot be read is withdrawn: its packets keep their PSNs (R566). -/
theorem faultSource_holdsSent (d : Desc) (f : Nat × Option Nat) (hedge : isEdge h = false) (hs : holdsSent h x s t) :
    holdsSent h x s (faultSource h d false f t) := by
  unfold faultSource failSource
  dsimp only
  simp only [hedge, Bool.false_eq_true, if_false, beq_self_eq_true, if_true]
  refine withdrawRest_holdsSent _ _ _ _ _ ?_
  split
  · exact holdsSent_of_conn (by simp) hs
  · exact hs

end

/-! ## Resends -/

/-- A packet that is resent: its timer starts again, doubled (R143, R144). -/
def resentPacket (s : State) (e : End) (u : Unacked) (count hop : Bool) (x : Unacked) : Unacked :=
  if x.psn == u.psn then { x with sent := s.time.now, timer := timerOf s e (x.backoff + 1), resent := true, hopped := x.hopped || hop,
                                  resends := if count then x.resends + 1 else x.resends, backoff := x.backoff + 1 }
  else x

theorem resentPacket_psn (s : State) (e : End) (u : Unacked) (count hop : Bool) (x : Unacked) : (resentPacket s e u count hop x).psn = x.psn := by
  unfold resentPacket
  split <;> rfl

/-- The end once that packet has gone. -/
def resentEnd (s : State) (u : Unacked) (n : Nat) (count hop : Bool) (e : End) : End :=
  chargeSend s u.desc.tc n { e with unacked := e.unacked.map (resentPacket s e u count hop) }

theorem sentOf_resentEnd (s : State) (u : Unacked) (n : Nat) (count hop : Bool) (e : End) : sentOf (resentEnd s u n count hop e) = sentOf e :=
  sentOf_congr (by rw [resentEnd, chargeSend_unacked]; exact psns_map (resentPacket_psn _ _ _ _ _) _) (by simp [resentEnd])

section
variable {s : State} {h : Nat} {u : Unacked} (count hop : Bool) (ext : List Byte) (hsource : sourceFault s u.desc = none)
  (hpath : pathState s false u.desc.src = .go)
include hsource hpath

/-- A packet whose source can be read now goes again under its own PSN (R147, R148). -/
theorem resendOne_writes : (resendOne h u count hop ext s).conn =
      (setEnd h (resentEnd (noteReads u.desc.src s) u (payloadOf s u.desc ext).length count hop) s).conn ∧
    (resendOne h u count hop ext s).mem = s.mem := by
  simp only [resendOne, hsource, hpath, bne_self_eq_false, Bool.false_eq_true, if_false]
  refine ⟨?_, ?_⟩
  · split
    · rw [sendFrom_conn, bumpColl_conn, bumpConn_conn, tally_conn, setEnd_conn, setEnd_conn, noteReads_conn]
      rfl
    · rw [sendFrom_conn, bumpConn_conn, tally_conn, setEnd_conn, setEnd_conn, noteReads_conn]
      rfl
  · split <;> simp

end

section
variable {s t : State} {h : Nat} {x : List Nat × Nat} (hedge : isEdge h = false)
include hedge

theorem resendOne_holdsSent (u : Unacked) (count hop : Bool) (ext : List Byte) (hs : holdsSent h x s t) :
    holdsSent h x s (resendOne h u count hop ext t) := by
  cases hsource : sourceFault t u.desc with
  | some f =>
    simp only [resendOne, hsource]
    exact faultSource_holdsSent _ _ hedge hs
  | none =>
    by_cases hpath : pathState t false u.desc.src = .go
    · exact holdsSent_of_conn (resendOne_writes count hop ext hsource hpath).1 (holdsSent_setEnd (sentOf_resentEnd _ _ _ _ _) hs)
    · have hstay : (pathState t false u.desc.src != .go) = true := bne_iff_ne.mpr hpath
      simpa only [resendOne, hsource, hstay, if_true] using hs

theorem resendAll_holdsSent (count hop : Bool) (l : List Unacked) (ext : List Byte) (hs : holdsSent h x s t) :
    holdsSent h x s (resendAll h count hop l ext t) := by
  induction l generalizing ext t with
  | nil => exact hs
  | cons u l ih =>
    refine ih _ ?_
    split
    · exact resendOne_holdsSent hedge u count hop ext hs
    · exact hs

/-! ## Acknowledgements -/

omit hedge in
theorem settlePuts_conn (h : Nat) (s : State) : (settlePuts h s).conn = s.conn := by
  refine foldl_conn (fun t y => ?_) _ _
  dsimp only
  split
  · rfl
  · exact onOp_conn _ _ _ _

omit hedge in
theorem closeIfIdle_holdsSent (hs : holdsSent h x s t) : holdsSent h x s (closeIfIdle h t) := by
  unfold closeIfIdle
  dsimp only
  split
  · exact holdsSent_of_conn (sendConn_conn _ _ _ _ _ _ _) (holdsSent_setEnd (fun _ => rfl) hs)
  · exact hs

omit hedge in
theorem settleGets_holdsSent (hs : holdsSent h x s t) : holdsSent h x s (settleGets h t) := by
  obtain ⟨⟨e, hw, hx⟩, harr⟩ := hs
  exact ⟨⟨e, writesEnd_of_ends rfl hw, hx⟩, (List.length_filter_le _ _).trans harr⟩

/-- Packets taken as acknowledged by their PSNs are those that leave (R142). -/
theorem takeAcked_holdsSent (q : Nat → Bool) (hs : holdsSent h x s t) :
    holdsSent h (x.1.filter fun n => !q n, x.2) s (takeAcked h (fun u => q u.psn) t) := by
  obtain ⟨⟨e, hw, rfl⟩, harr⟩ := hs
  unfold takeAcked
  extract_lets e' gone left acked moved freed taken
  have htaken : holdsSent h ((sentOf e).1.filter fun n => !q n, (sentOf e).2) s taken := by
    refine ⟨⟨_, writesEnd_setEnd _ hw, ?_⟩, harr⟩
    have hleft : left.map (·.psn) = (e.unacked.map (·.psn)).filter fun n => !q n := by
      rw [List.filter_map]
      simp only [left, e', writesEnd_self hw]
      rfl
    simp only [sentOf, ← hleft]
    split
    · simp only [List.map_map]
      rfl
    · rfl
  simp only [hedge, Bool.false_eq_true, if_false]
  split
  · exact closeIfIdle_holdsSent (holdsSent_of_conn (settlePuts_conn _ _) htaken)
  · exact settleGets_holdsSent htaken

omit hedge in
theorem sentOf_rollInterval (s : State) (e : End) : sentOf (rollInterval s e) = sentOf e := sentOf_congr (by simp) (by simp)

omit hedge in
theorem sentOf_takeRtt (s : State) (sample : Nat) (suspect : Bool) (e : End) : sentOf (takeRtt s sample suspect e) = sentOf e := by
  unfold takeRtt
  extract_lets based
  have hbased : sentOf based = sentOf e := by
    simp only [based]
    split <;> rfl
  rw [← hbased]
  clear_value based
  split <;> rfl

/-- An ACK ends the wait of the packets it covers, and resends leave the others' PSNs (R132, R142). -/
theorem takeAck_holdsSent (a : AckBody) (ext : List Byte) (hs : holdsSent h x s t) :
    holdsSent h (x.1.filter fun n => !a.covers n, x.2) s (takeAck h a ext t) := by
  unfold takeAck
  extract_lets e fresh sample rtt suspect sampled counted acked e'
  have hsampled : holdsSent h x s sampled := by
    refine holdsSent_setEnd (fun e => ?_) hs
    extract_lets rolled counted' timed
    have htimed : sentOf timed = sentOf counted' := by
      simp only [timed]
      split <;> rfl
    have hall : sentOf timed = sentOf e := htimed.trans (sentOf_rollInterval t e)
    split
    · rw [sentOf_takeRtt, hall]
    · exact hall
  have hacked := takeAcked_holdsSent hedge a.covers (holdsSent_of_conn (u := counted) (by simp [counted]) hsampled)
  split
  · exact resendAll_holdsSent hedge _ _ _ _ hacked
  · exact hacked

end

/-! ## The packets themselves -/

/-- An end that has heard from its peer, used most recently. -/
def endHeard (h : Nat) (s : State) : State := setEnd h (heard s) (touch h s)

theorem endHeard_eq (h : Nat) (s : State) : endHeard h s = { s with conn := (endHeard h s).conn } := by
  obtain ⟨l, hl⟩ := touch_eq h s
  rw [endHeard, hl]
  rfl

theorem endHeard_onlyChanges (h : Nat) (s : State) : onlyChanges [.conn] s (endHeard h s) := by
  rw [endHeard_eq]
  simp [onlyChanges_iff]

@[simp] theorem endHeard_arrivals (h : Nat) (s : State) : (endHeard h s).conn.arrivals = s.conn.arrivals := by simp [endHeard]

theorem writesEnd_endHeard {h : Nat} {s : State} {e : End} (he : tget s.conn.ends h = some e) : writesEnd h (heard s e) s (endHeard h s) :=
  writesEnd_setEnd (heard s) (writesEnd_of_ends (by simp) (writesEnd_refl he))

theorem underHold_congr {s t : State} (htime : t.time = s.time) (e : End) : underHold t e = underHold s e := by
  simp only [underHold, due, htime]

theorem underHold_heard (s r : State) (e : End) : underHold s (heard r e) = underHold s e := by simp only [underHold, heard]

/-- The source of a packet is read where no connection is. -/
theorem badOffset_conn (s : State) (c : ConnSt) (ps : List Piece) (off : Nat) : badOffset { s with conn := c } ps off = badOffset s ps off := by
  induction ps generalizing off with
  | nil => rfl
  | cons p ps ih =>
    have hread : firstBadRead { s with conn := c } p.out p.len = firstBadRead s p.out p.len := rfl
    simp only [badOffset, ih, hread]

theorem pathState_conn (s : State) (c : ConnSt) (writing : Bool) (ps : List Piece) :
    pathState { s with conn := c } writing ps = pathState s writing ps := by
  induction ps with
  | nil => rfl
  | cons p ps ih =>
    have hpath : pathOfPiece { s with conn := c } writing p = pathOfPiece s writing p := rfl
    simp only [pathState, ih, hpath]

theorem sourceFault_conn (s : State) (c : ConnSt) (d : Desc) : sourceFault { s with conn := c } d = sourceFault s d := by
  simp only [sourceFault, badOffset_conn, pathState_conn]

/-! ## ACK, HOLD and NACK at an end -/

/-- What an end has received when an ACK, a HOLD or a NACK has come to it. -/
theorem endHeard_of_reaches {p : Packet} {s t : State} (ht : reaches p s = some t) (h : Nat) :
    onlyChanges [.conn, .mesh, .counts, .pow] s (endHeard h (received t h)) :=
  onlyChanges_trans (onlyChanges_mono (received_of_reaches ht h) fun a => by cases a <;> decide)
    (onlyChanges_mono (endHeard_onlyChanges h _) fun a => by cases a <;> decide)

theorem writesEnd_of_reaches {p : Packet} {s t : State} {e : End} (ht : reaches p s = some t) (h : Nat) (he : tget s.conn.ends h = some e) :
    writesEnd h (heard (received t h) e) s (endHeard h (received t h)) :=
  writesEnd_from (congrArg ConnSt.ends (received_of_reaches ht h .conn rfl)) (writesEnd_endHeard (tget_received ht h he))

section
variable {s t : State} {p : Packet} {e : End} {kind : Nat} (hcomes : comes s t p kind e)
include hcomes

/-- A packet without a PSN that comes to an end is its kind's to process, the end having heard from its peer. -/
theorem arrive_of_comes (hkind : sequenced kind = false) (act : Nat → End → Hdr → State → Option State) :
    arrive s p kind act = (act (handleOf p.hdr) e p.hdr (endHeard (handleOf p.hdr) (received t (handleOf p.hdr)))).getD s := by
  obtain ⟨ht, hreach, hcheck⟩ := hcomes
  exact arrive_of_unsequenced ht hreach act hkind hcheck

theorem end_of_comes : tget s.conn.ends (handleOf p.hdr) = some e ∧ isEdge (handleOf p.hdr) = false := end_of_reachesEnd hcomes.2.1

end

/-- The end under a HOLD: from now on, with its limit where none was under way (R135). -/
def heldEnd (s : State) (e : End) : End :=
  { e with
    hold := some s.time.now, holdFor := rtoMax s, holdStart := if underHold s e then e.holdStart else some s.time.now,
    holdLimit := if underHold s e then e.holdLimit else cfg s 0x4100 7 * us }

theorem takeHold_eq (h : Nat) (s : State) : takeHold h s =
    setEnd h (heldEnd (tally 0x15 1 { die := dieOfEnd h, part := (endOf s h).part } s)) (tally 0x15 1 { die := dieOfEnd h, part := (endOf s h).part } s) := rfl

theorem writesEnd_takeHold {h : Nat} {e : End} {s t : State} (hw : writesEnd h e s t) : writesEnd h (heldEnd t e) s (takeHold h t) :=
  writesEnd_setEnd (heldEnd t) (writesEnd_of_ends (u := tally 0x15 1 { die := dieOfEnd h, part := (endOf t h).part } t) rfl hw)

theorem takeHold_onlyChanges (h : Nat) (s : State) : onlyChanges [.conn, .obs] s (takeHold h s) := by
  simp [onlyChanges_iff, takeHold_eq]

theorem heldEnd_heard {s r w : State} (htime : w.time = s.time) (hdict : w.dict = s.dict) (e : End) :
    (heldEnd w (heard r e)).hold = some s.time.now ∧ (heldEnd w (heard r e)).holdFor = cfg s 0x4100 2 ∧
    (heldEnd w (heard r e)).holdStart = (if underHold s e then e.holdStart else some s.time.now) ∧
    (heldEnd w (heard r e)).holdLimit = if underHold s e then e.holdLimit else cfg s 0x4100 7 * us := by
  have hunder : underHold w (heard r e) = underHold s e := by rw [underHold_congr htime, underHold_heard]
  have hstart : (heard r e).holdStart = e.holdStart := by simp only [heard]
  have hlimit : (heard r e).holdLimit = e.holdLimit := by simp only [heard]
  simp only [heldEnd, rtoMax, cfg_congr hdict, hunder, htime, hstart, hlimit, true_and]

/-- HOLD starts the hold of an end (R135). -/
theorem hold_holds {s t : State} {p : Packet} {e : End} (hcomes : comes s t p kHold e) :
    ∃ v, exec (.holdPacket p) s = .next v ∧
      (endOf v (handleOf p.hdr)).hold = some s.time.now ∧ (endOf v (handleOf p.hdr)).holdFor = cfg s 0x4100 2 ∧
      (endOf v (handleOf p.hdr)).holdStart = (if underHold s e then e.holdStart else some s.time.now) ∧
      (endOf v (handleOf p.hdr)).holdLimit = (if underHold s e then e.holdLimit else cfg s 0x4100 7 * us) ∧
      (∀ k, k ≠ handleOf p.hdr → endOf v k = endOf s k) ∧ onlyChanges [.conn, .mesh, .obs, .counts, .pow] s v := by
  obtain ⟨ht, -, -⟩ := id hcomes
  obtain ⟨he, -⟩ := end_of_comes hcomes
  have hframe := endHeard_of_reaches ht (handleOf p.hdr)
  have hwrites := writesEnd_takeHold (writesEnd_of_reaches ht (handleOf p.hdr) he)
  have hself := writesEnd_self hwrites
  obtain ⟨hhold, hfor, hstart, hlimit⟩ := heldEnd_heard (r := received t (handleOf p.hdr)) (hframe .time rfl) (hframe .dict rfl) e
  refine ⟨takeHold (handleOf p.hdr) (endHeard (handleOf p.hdr) (received t (handleOf p.hdr))), ?_, by rw [hself, hhold], by rw [hself, hfor],
    by rw [hself, hstart], by rw [hself, hlimit], fun k hk => writesEnd_other hwrites hk, ?_⟩
  · rw [exec_holdPacket, arrive_of_comes hcomes rfl, Option.getD_some]
  · exact onlyChanges_trans (onlyChanges_mono hframe fun a => by cases a <;> decide)
      (onlyChanges_mono (takeHold_onlyChanges _ _) fun a => by cases a <;> decide)

/-- ACK ends the wait of exactly the packets that it covers (R132). -/
theorem ack_leaves_uncovered {s t : State} {p : Packet} {e : End} (ext : List Byte) (hcomes : comes s t p kAck e) :
    ∃ v, exec (.ackPacket p ext) s = .next v ∧
      (endOf v (handleOf p.hdr)).unacked.map (·.psn) = (e.unacked.filter fun u => !(ackBody p.payload).covers u.psn).map (·.psn) ∧
      (endOf v (handleOf p.hdr)).nextPsn = e.nextPsn ∧ (∀ k, k ≠ handleOf p.hdr → endOf v k = endOf s k) ∧
      v.conn.arrivals.length ≤ s.conn.arrivals.length := by
  obtain ⟨ht, -, -⟩ := id hcomes
  obtain ⟨he, hedge⟩ := end_of_comes hcomes
  have hheard : holdsSent (handleOf p.hdr) (sentOf e) s (endHeard (handleOf p.hdr) (received t (handleOf p.hdr))) :=
    ⟨⟨_, writesEnd_of_reaches ht (handleOf p.hdr) he, rfl⟩, by rw [endHeard_arrivals, received_of_reaches ht _ .conn rfl]⟩
  obtain ⟨⟨e', hw, hsent⟩, harrivals⟩ := takeAck_holdsSent hedge (ackBody p.payload) ext hheard
  obtain ⟨hpsns, hnext⟩ := Prod.mk.inj hsent
  refine ⟨_, by rw [exec_ackPacket ext hedge, arrive_of_comes hcomes rfl, Option.getD_some], ?_, ?_, fun k hk => writesEnd_other hw hk, harrivals⟩
  · rw [writesEnd_self hw, hpsns, sentOf, List.filter_map]
    rfl
  · rw [writesEnd_self hw, hnext, sentOf]

/-- NACK REACH limits the window to the latest PSN named, and the resend it answers does not count (R130, R134). -/
def reachedEnd (psn : Nat) (e : End) : End :=
  { e with
    reach := match e.reach with
      | some r => if after 32 psn r then some psn else some r
      | none => some psn,
    unacked := e.unacked.map fun u => if u.psn == psn then { u with resends := u.resends - 1 } else u }

theorem takeNack_of_reach (h : Nat) (e : End) (psn : Nat) (ext : List Byte) (s : State) :
    takeNack h e psn 1 ext s = setEnd h (reachedEnd psn) s := rfl

/-- NACK CHECK resends the packet it names, where no hold is under way (R134). -/
theorem takeNack_of_check {h psn : Nat} {e : End} {u : Unacked} {s : State} (ext : List Byte)
    (hfind : e.unacked.find? (fun (x : Unacked) => x.psn == psn) = some u) (hstate : e.state = .open_) (hhold : underHold s e = false) :
    takeNack h e psn 2 ext s = resendOne h u true false ext s := by
  simp [takeNack, hfind, End.isOpen, hstate, hhold, counting]

theorem nack_reach_limits {s t : State} {p : Packet} {e : End} (ext : List Byte) (hcomes : comes s t p kNack e)
    (hreason : field p.payload 4 1 = 1) : ∃ v, exec (.nackPacket p ext) s = .next v ∧
      (endOf v (handleOf p.hdr)).reach = (reachedEnd (field p.payload 0 4) e).reach ∧
      (∀ k, k ≠ handleOf p.hdr → endOf v k = endOf s k) ∧ onlyChanges [.conn, .mesh, .counts, .pow] s v := by
  obtain ⟨ht, -, -⟩ := id hcomes
  obtain ⟨he, -⟩ := end_of_comes hcomes
  have hwrites := writesEnd_setEnd (reachedEnd (field p.payload 0 4)) (writesEnd_of_reaches ht (handleOf p.hdr) he)
  refine ⟨setEnd (handleOf p.hdr) (reachedEnd (field p.payload 0 4)) (endHeard (handleOf p.hdr) (received t (handleOf p.hdr))), ?_, ?_,
    fun k hk => writesEnd_other hwrites hk, ?_⟩
  · rw [exec_nackPacket, arrive_of_comes hcomes rfl, Option.getD_some, hreason, takeNack_of_reach]
  · rw [writesEnd_self hwrites]
    simp only [reachedEnd, heard]
  · exact onlyChanges_trans (endHeard_of_reaches ht (handleOf p.hdr)) (by simp [onlyChanges_iff])

theorem nack_check_resends {s t : State} {p : Packet} {e : End} (ext : List Byte) (hcomes : comes s t p kNack e)
    (hreason : field p.payload 4 1 = 2) {u : Unacked} (hfind : e.unacked.find? (fun x => x.psn == field p.payload 0 4) = some u)
    (hstate : e.state = .open_) (hhold : underHold s e = false)
    (hsource : sourceFault (received t (handleOf p.hdr)) u.desc = none)
    (hpath : pathState (received t (handleOf p.hdr)) false u.desc.src = .go) :
    ∃ v, exec (.nackPacket p ext) s = .next v ∧
      (endOf v (handleOf p.hdr)).unacked.map (fun x => (x.psn, x.sent, x.resends, x.backoff)) = e.unacked.map (fun x =>
        if x.psn = u.psn then (x.psn, s.time.now, x.resends + 1, x.backoff + 1) else (x.psn, x.sent, x.resends, x.backoff)) ∧
      (∀ k, k ≠ handleOf p.hdr → endOf v k = endOf s k) ∧ v.mem = s.mem := by
  obtain ⟨ht, -, -⟩ := id hcomes
  obtain ⟨he, -⟩ := end_of_comes hcomes
  have hframe := endHeard_of_reaches ht (handleOf p.hdr)
  have hheard := writesEnd_of_reaches ht (handleOf p.hdr) he
  have heq := endHeard_eq (handleOf p.hdr) (received t (handleOf p.hdr))
  have hexec : exec (.nackPacket p ext) s = .next (resendOne (handleOf p.hdr) u true false ext
      (endHeard (handleOf p.hdr) (received t (handleOf p.hdr)))) := by
    rw [exec_nackPacket, arrive_of_comes hcomes rfl, Option.getD_some, hreason,
      takeNack_of_check ext hfind hstate (by rw [underHold_congr (hframe .time rfl), hhold])]
  have htime : (endHeard (handleOf p.hdr) (received t (handleOf p.hdr))).time = s.time := hframe .time rfl
  have hmem := hframe .mem rfl
  rw [← sourceFault_conn _ (endHeard (handleOf p.hdr) (received t (handleOf p.hdr))).conn, ← heq] at hsource
  rw [← pathState_conn _ (endHeard (handleOf p.hdr) (received t (handleOf p.hdr))).conn, ← heq] at hpath
  obtain ⟨hconn, hkeep⟩ := resendOne_writes (h := handleOf p.hdr) true false ext hsource hpath
  have hwrites := writesEnd_of_ends (congrArg ConnSt.ends hconn) (writesEnd_setEnd _ hheard)
  refine ⟨_, hexec, ?_, fun k hk => writesEnd_other hwrites hk, hkeep.trans hmem⟩
  rw [writesEnd_self hwrites, resentEnd, chargeSend_unacked]
  simp only [List.map_map, heard]
  refine List.map_congr_left fun x _ => ?_
  by_cases hx : x.psn = u.psn
  · simp [resentPacket, hx, htime]
  · simp [resentPacket, hx]

/-! ## The obligation -/

section
variable {s : State} {h : Nat} {e : End} (hrun : running s = true) (he : tget s.conn.ends h = some e)
include hrun he

/-- SEND_PACKET gives the head of the queue the next PSN (R127, R130). -/
theorem sendPacket_sends {d : Desc} {rest : List Desc} (ext : List Byte) (hwaits : e.toSend = d :: rest) (hsource : sourceFault s d = none)
    (hmay : maySend s h e d = true) :
    ∃ t, exec (.sendPacket h ext) s = .next t ∧ (endOf t h).toSend = rest ∧ (endOf t h).nextPsn = add32 e.nextPsn 1 ∧
      (endOf t h).unacked = e.unacked ++ [{ psn := e.nextPsn, desc := d, sent := s.time.now, timer := rtoOf s e }] ∧
      (endOf t h).acked = e.acked ∧ (endOf t h).lastSent = s.time.now ∧
      (∀ k, k ≠ h → endOf t k = endOf s k) ∧ t.mem = s.mem := by
  have hwrites := writesEnd_sendNew d rest ext he
  have hpacket : sentPacket (noteReads d.src s) e d = { psn := e.nextPsn, desc := d, sent := s.time.now, timer := rtoOf s e } := by
    simp only [sentPacket, noteReads_time, rtoOf_congr (noteReads_dict d.src s)]
  refine ⟨_, exec_sendPacket d rest ext he hrun hwaits hsource hmay, ?_, ?_, ?_, ?_, ?_, fun k hk => writesEnd_other hwrites hk,
    sendNew_mem d rest ext⟩ <;> rw [writesEnd_self hwrites]
  · exact chargeSend_toSend _ _ _ _
  · exact chargeSend_nextPsn _ _ _ _
  · rw [sentEnd, chargeSend_unacked, hpacket]
  · exact chargeSend_acked _ _ _ _
  · simp [sentEnd]

variable (hcached : inCache s h = true) (hstate : e.state = .open_)
include hcached hstate

/-- What is overdue goes again while no packet of it has had all its resends (R143). -/
theorem retransmitTimer_resends (ext : List Byte) (hlate : overdue s e ≠ []) (hfew : ∀ u ∈ overdue s e, u.resends < cfg s 0x4100 3) :
    exec (.retransmitTimer h (isEdge h) ext) s = .next (resendAll h (counting s e) false (overdue s e) ext s) := by
  have hnone : ((overdue s e).any fun u => Nat.ble (cfg s 0x4100 3) u.resends) = false := by
    simp only [List.any_eq_false, Nat.ble_eq]
    exact fun u hu => Nat.not_le.mpr (hfew u hu)
  rw [exec_retransmitTimer hrun he hcached hstate ext hlate, hnone, Bool.and_false, if_neg Bool.false_ne_true]

/-- A packet that has had all its resends makes its end give up (R144). -/
theorem retransmitTimer_givesUp (ext : List Byte) (hlate : overdue s e ≠ []) (hcounts : counting s e = true)
    (hmany : ∃ u ∈ overdue s e, cfg s 0x4100 3 ≤ u.resends) (hedge : isEdge h = false) :
    exec (.retransmitTimer h false ext) s = .next (if e.initiator then breakEnd h stTransportTimeout s else closeTarget h s) := by
  have hany : ((overdue s e).any fun u => Nat.ble (cfg s 0x4100 3) u.resends) = true := by
    simpa only [List.any_eq_true, Nat.ble_eq] using hmany
  have hexec := exec_retransmitTimer hrun he hcached hstate ext hlate
  rwa [hedge, hany, hcounts, Bool.and_self, if_pos rfl, giveUp_of_connection he hedge] at hexec

/-- Done records leave 16 at a time or after 500 ns (R138). -/
theorem doneBatchTimer_queues (hdone : e.doneQ ≠ []) (hdue : due s e.doneSince 500 = true) :
    ∃ t, exec (.doneBatchTimer h) s = .next t ∧ (endOf t h).doneQ = e.doneQ.drop 16 ∧
      (∃ d, (endOf t h).toSend = e.toSend ++ [d] ∧ d.kind = kResponse ∧ d.body = (e.doneQ.take 16).flatMap doneBytes) ∧
      (∀ k, k ≠ h → endOf t k = endOf s k) ∧ onlyChanges [.conn] s t := by
  have hwrites := writesEnd_sendDone he hdone
  have hself := writesEnd_self hwrites
  refine ⟨_, exec_doneBatchTimer hrun he hcached hstate hdone hdue, ?_, ⟨donePacketOf e, ?_, ?_, ?_⟩,
    fun k hk => writesEnd_other hwrites hk, sendDone_onlyChanges h s⟩
  · rw [hself, donesQueued]
  · rw [hself, donesQueued]
  · rw [donePacketOf]
  · rw [donePacketOf]

/-- A delayed ACK leaves when it is due, and takes nothing from the receive half (R133). -/
theorem ackDelay_acknowledges (hpending : e.ackPending ≠ 0) (hdue : due s e.ackSince e.ackFor = true) :
    ∃ t, exec (.ackDelay h) s = .next t ∧ (endOf t h).ackPending = 0 ∧ (endOf t h).recvThrough = e.recvThrough ∧
      (endOf t h).bitmap = e.bitmap ∧ t.conn.arrivals = s.conn.arrivals ∧ t.mem = s.mem := by
  have hself := writesEnd_self (writesEnd_sendAck false (writesEnd_refl he))
  refine ⟨_, exec_ackDelay hrun he hcached hstate hpending hdue, ?_, ?_, ?_, ?_, sendAck_onlyChanges h false s .mem rfl⟩
  · rw [hself, ackSentEnd]
  · rw [hself, ackSentEnd]
  · rw [hself, ackSentEnd]
  · rw [sendAck_conn, setEnd_conn]

end

/-- Settles O23: each of the send half's steps writes one end, and what it writes is that step's own lemma. Resends and withdrawals, which ACK
can set off in any number, keep the PSNs of their packets (`holdsSent`), so an ACK leaves exactly those that it does not cover. -/
theorem sendHalvesSendAndResend : Obligations.SendHalvesSendAndResend := by
  unfold Obligations.SendHalvesSendAndResend
  refine ⟨fun s h e hrun he hcached => ⟨?_, ?_, ?_, ?_, ?_, ?_, ?_⟩, fun s t p e ext => ⟨?_, ?_, ?_, ?_⟩⟩
  · exact fun d rest ext hwaits hsource hmay => sendPacket_sends hrun he ext hwaits hsource hmay
  · exact fun d rest ext f hwaits hlive hsource => exec_sendPacket_of_fault d rest ext he hrun hcached hwaits hlive hsource
  · exact fun u a o hstate hfind hbad => exec_sourceReadError_of_unacked hrun he hcached hstate hfind hbad
  · exact fun d rest a o hstate hwaits hbad => exec_sourceReadError_of_waiting hrun he hcached hstate hwaits hbad
  · exact fun hstate hlate ext => ⟨retransmitTimer_resends hrun he hcached hstate ext hlate,
      retransmitTimer_givesUp hrun he hcached hstate ext hlate⟩
  · exact doneBatchTimer_queues hrun he hcached
  · exact ackDelay_acknowledges hrun he hcached
  · exact ack_leaves_uncovered ext
  · intro hcomes
    obtain ⟨v, hexec, hhold, hfor, hstart, hlimit, hothers, hframe⟩ := hold_holds hcomes
    refine ⟨v, hexec, hhold, hfor, fun hfree => ⟨?_, ?_⟩, fun hunder => ⟨?_, ?_⟩, hothers, hframe⟩
    · rw [hstart, hfree, if_neg Bool.false_ne_true]
    · rw [hlimit, hfree, if_neg Bool.false_ne_true]
    · rw [hstart, hunder, if_pos rfl]
    · rw [hlimit, hunder, if_pos rfl]
  · exact fun hcomes hreason => nack_reach_limits ext hcomes hreason
  · exact fun hcomes hreason u hfind hstate hhold hsource hpath => nack_check_resends ext hcomes hreason hfind hstate hhold hsource hpath

end Sys2Proof.Machine
end

section
/-! SUPPORT. What a translation answers: its pieces are found one after the other, and each lies in what its partition has (R162 to R164,
R171, R172, R379, R395, R396). -/

namespace Sys2Proof.Machine

/-! ## What a partition has -/

section
variable {s t : State} {p port out len : Nat}

theorem outputOk_accel : outputOk s p 0 port out len = true ↔ (tgetD s.link.accel port {}).owner = some p := by
  simp [outputOk]

theorem outputOk_host : outputOk s p 2 port out len = true ↔ p ∈ tgetD s.link.boundParts port [] := by
  simp [outputOk]

theorem outputOk_memory : outputOk s p 1 port out len = true ↔
    (dataRange s p).1 ≤ out ∧ out + len ≤ (dataRange s p).1 + (dataRange s p).2 ∧ withdrawn s out = false := by
  simp [outputOk, and_assoc]

/-- The areas that the translation of a page may change where it finds a mapping. -/
def mapAreas : List Area := [.xl, .counts, .obs, .free]

theorem dataRange_congr (hpart : t.part = s.part) (p : Nat) : dataRange t p = dataRange s p := by
  unfold dataRange tableBytes partOf
  rw [hpart]

theorem withdrawn_congr (hgrade : t.grade = s.grade) (hmesh : t.mesh = s.mesh) (hmem : t.mem = s.mem) (a : Nat) :
    withdrawn t a = withdrawn s a := by
  unfold withdrawn firstWithdrawn memDie dieFrame engineDies
  rw [hgrade, hmesh, hmem]

/-- What a partition has stays as it is where a mapping is found. -/
theorem outputOk_congr (h : onlyChanges mapAreas s t) (target : Nat) :
    outputOk t p target port out len = outputOk s p target port out len := by
  have hlink : t.link = s.link := h .link rfl
  have hrange : dataRange t p = dataRange s p := dataRange_congr (h .part rfl) p
  have hwithdrawn : withdrawn t out = withdrawn s out := withdrawn_congr (h .grade rfl) (h .mesh rfl) (h .mem rfl) out
  unfold outputOk
  rw [hlink, hrange, hwithdrawn]

end

/-! ## One page -/

/-- A page whose mapping is found changes no memory: the look-aside and counts at most. -/
theorem xlatePage_map_onlyChanges {die p pasid idx va : Nat} {r : BitVec 256} {mayWalk : Bool} {s t : State} {m : Map}
    (h : xlatePage die p pasid idx r va mayWalk s = (some (.map m), t)) : onlyChanges mapAreas s t := by
  unfold xlatePage at h
  dsimp only at h
  split at h
  · cases h
  split at h
  · obtain ⟨-, rfl⟩ := Prod.mk.inj h; exact onlyChanges_refl _ _
  split at h
  · obtain ⟨-, rfl⟩ := Prod.mk.inj h; exact onlyChanges_refl _ _
  split at h
  · obtain ⟨-, rfl⟩ := Prod.mk.inj h; simp [onlyChanges_iff, mapAreas, noteRegion]
  split at h
  · cases h
  generalize walk _ p pasid va _ _ = walked at h
  obtain ⟨x, n⟩ := walked
  cases x with
  | map m' => obtain ⟨-, rfl⟩ := Prod.mk.inj h; simp [onlyChanges_iff, mapAreas, lookEnter]
  | fault a => cases h
  | media a => cases h

/-! ## A span -/

section
variable {die p pasid idx : Nat} {r : BitVec 256} {mayWalk : Bool}

/-- What a translated span with room for one more piece is: empty, or a first piece, which the partition has, and a translated rest. -/
theorem xlateSpan_ok_cases {fuel va len : Nat} {s t : State} {ps : List Piece}
    (h : xlateSpan die p pasid idx r mayWalk (fuel + 1) va len s = (.ok ps, t)) :
    ps = [] ∨ ∃ m u out n rest, xlatePage die p pasid idx r va mayWalk s = (some (.map m), u) ∧ n ≤ len ∧
      (m.target ≠ 3 → outputOk u p m.target m.port out n = true) ∧
      xlateSpan die p pasid idx r mayWalk fuel (va + n) (len - n) u = (.ok rest, t) ∧
      ps = { va := va, len := n, target := m.target, port := m.port, out := out, page := m.page, part := p, pasid := pasid,
             region := idx } :: rest := by
  simp only [xlateSpan] at h
  split at h
  · cases h; exact .inl rfl
  split at h
  · cases h
  · cases h
  · cases h
  · next m u hpage =>
    generalize hn : (if (m.target == 1) = true then _ else _) = n at h
    have hle : n ≤ len := by rw [← hn]; split <;> omega
    split at h
    · cases h
    · next hallowed =>
      split at h
      · next rest v hrest =>
        cases h
        exact .inr ⟨m, u, _, n, rest, hpage, hle, fun htarget => by simpa [htarget] using hallowed, hrest, rfl⟩
      · next hnone _ => exact (hnone _ (Prod.mk.inj h).1).elim

/-- A piece is of the translation it was made for, lies in its span, and its output in what the partition has. -/
structure Piece.Within (s : State) (p pasid idx va len : Nat) (x : Piece) : Prop where
  part : x.part = p
  pasid : x.pasid = pasid
  region : x.region = idx
  first : va ≤ x.va
  last : x.va + x.len ≤ va + len
  output : x.target ≠ 3 → outputOk s p x.target x.port x.out x.len = true

/-- A piece of the rest of a span is one of the span, in a state that has the same for the partition. -/
theorem Piece.Within.of_rest {s u : State} {va len n : Nat} {x : Piece} (hx : x.Within u p pasid idx (va + n) (len - n))
    (hframe : onlyChanges mapAreas s u) (hn : n ≤ len) : x.Within s p pasid idx va len where
  part := hx.part
  pasid := hx.pasid
  region := hx.region
  first := by have := hx.first; omega
  last := by have := hx.last; omega
  output htarget := by rw [← outputOk_congr hframe]; exact hx.output htarget

theorem xlateSpan_within {fuel va len : Nat} {s t : State} {ps : List Piece}
    (h : xlateSpan die p pasid idx r mayWalk fuel va len s = (.ok ps, t)) : ∀ x ∈ ps, x.Within s p pasid idx va len := by
  induction fuel generalizing va len s ps with
  | zero => cases h; exact List.forall_mem_nil _
  | succ fuel ih =>
    rcases xlateSpan_ok_cases h with rfl | ⟨m, u, out, n, rest, hpage, hn, hallowed, hrest, rfl⟩
    · exact List.forall_mem_nil _
    · have hframe := xlatePage_map_onlyChanges hpage
      rw [List.forall_mem_cons]
      refine ⟨⟨rfl, rfl, rfl, le_rfl, Nat.add_le_add_left hn va, fun htarget => ?_⟩, fun x hx => (ih hrest x hx).of_rest hframe hn⟩
      rw [← outputOk_congr hframe]
      exact hallowed htarget

end

/-- Settles O27, by induction on the pieces: each passed the check of its output, and what the partition has is the same at every page. -/
theorem translationStaysInsideThePartition : Obligations.TranslationStaysInsideThePartition := by
  intro s t die p pasid idx va len r mayWalk ps h x hx
  obtain ⟨hpart, hpasid, hregion, hfirst, hlast, houtput⟩ := xlateSpan_within h x hx
  refine ⟨hpart, hpasid, hregion, hfirst, hlast, fun htarget => ?_, fun htarget => ?_, fun htarget => ?_⟩ <;>
    rw [htarget] at houtput
  · exact outputOk_accel.mp (houtput (by decide))
  · exact outputOk_host.mp (houtput (by decide))
  · exact outputOk_memory.mp (houtput (by decide))

end Sys2Proof.Machine
end

section
/-! SUPPORT. Walks that end, host reads that are refused, and the steps of an invalidation (R163, R166, R184 to R186, R190, R370). -/

namespace Sys2Proof.Machine

/-! ## An operation in flight -/

theorem findOp_congr {s t : State} (h : t.q = s.q) (wq idx : Nat) : findOp t wq idx = findOp s wq idx := by
  rw [findOp, findOp, wqOf_congr h]

/-- Of changed entries a test that the change does not touch picks the image of the one it picked before. -/
theorem find?_map_of_test_kept {α : Type} {l : List α} {o : α} {test : α → Bool} {f : α → α} (hkept : ∀ x, test (f x) = test x)
    (hfind : l.find? test = some o) : (l.map f).find? test = some (f o) := by
  rw [List.find?_map, show test ∘ f = test from funext hkept, hfind, Option.map_some]

section
variable {s : State} {wq idx : Nat} {o : Op}

theorem idx_of_findOp (hfind : findOp s wq idx = some o) : o.idx = idx := by
  unfold findOp at hfind
  simpa using List.find?_some hfind

/-- An operation that is found is found again as it is changed, where the change leaves its count. -/
theorem findOp_onOp {f : Op → Op} (hidx : ∀ x, (f x).idx = x.idx) (hfind : findOp s wq idx = some o) :
    findOp (onOp wq idx f s) wq idx = some (f o) := by
  rw [findOp, onOp, wqOf_setWq_self, find?_map_of_test_kept (fun x => ?_) hfind, if_pos (by simp [idx_of_findOp hfind])]
  split <;> simp [hidx]

theorem noteNet_idx (o : Op) : (noteNet s wq o).idx = o.idx := by
  unfold noteNet stampOp
  split <;> rfl

@[simp] theorem decideOp_xl (r : Result) : (decideOp wq idx r s).xl = s.xl := by
  have hsettled (t : State) : (settleWaits t).xl = t.xl :=
    settleWaits_keeps (P := fun u => u.xl = t.xl) (fun u wq hu => (endNext_onlyChanges wq _ u .xl rfl).trans hu) rfl
  have hcounted (t : State) : (countWaiting wq t).xl = t.xl := countWaiting_onlyChanges wq t .xl rfl
  unfold decideOp toDraining
  dsimp only
  split <;> simp [hsettled, hcounted]

/-- An operation without an outcome that ends with OK has it, and its queue goes on. -/
theorem findOp_decideOp_ok (hfind : findOp s wq idx = some o) (hopen : o.result = none) :
    findOp (decideOp wq idx { status := stOk } s) wq idx = some { noteNet s wq o with result := some { status := stOk } } := by
  unfold decideOp
  rw [if_neg (show ¬drains stOk = true by decide), findOp, wqOf_setWq_self, find?_map_of_test_kept (fun x => ?_) hfind,
    if_pos (by simp [idx_of_findOp hfind, hopen])]
  split <;> simp [noteNet_idx]

end

/-! ## Walks and host reads -/

theorem exec_walkComplete {s : State} {wq idx off : Nat} {o : Op} (hrun : running s = true) (hfind : findOp s wq idx = some o)
    (hwalk : walkRuns s (wq, idx, off) = true) : exec (.walkComplete wq idx off) s =
      .next (startTile wq idx off true { s with xl := { s.xl with walks := s.xl.walks.filter (· != (wq, idx, off)) } }) := by
  show execWalkComplete wq idx off s = _
  simp only [execWalkComplete, hfind, hrun, hwalk, Bool.and_self, when_true]

@[simp] theorem withdrawTile_q (s : State) (wq : Nat) (o : Op) (off len status addr : Nat) :
    (withdrawTile s wq o off len status addr).q = s.q := by
  unfold withdrawTile
  split <;> rfl

/-- The state after the refusal of a host read for a tile that sends: the tile has failed, and its packets not yet sent are withdrawn. -/
def hostReadFailed (wq idx off addr : Nat) (o : Op) (t : Tile) (s : State) : State :=
  withdrawTile (setEnd o.handle (fun e => { e with toSend := e.toSend.filter fun d =>
      !(d.opnum == o.opnum && d.kind == kData && Nat.ble off d.offset && Nat.blt d.offset (off + t.len)) })
    (setTile wq idx off (fun t => { t with st := .failed stXlateLocal off addr }) s)) wq o off t.len stXlateLocal addr

section
variable {s : State} {wq idx off : Nat} {o : Op}

theorem findOp_hostReadFailed (addr : Nat) (t : Tile) (hfind : findOp s wq idx = some o) :
    findOp (hostReadFailed wq idx off addr o t s) wq idx = some { o with tiles := o.tiles.map fun x =>
      if x.off == off then { x with st := .failed stXlateLocal off addr } else x } := by
  rw [hostReadFailed, findOp_congr (withdrawTile_q _ _ _ _ _ _ _), findOp_congr (setEnd_q _ _ _)]
  exact findOp_onOp (fun _ => rfl) hfind

/-- A PUT's tile fails at the page of its first host piece (R370). -/
theorem exec_hostReadRefused {t : Tile} {p : Piece} (hrun : running s = true) (hfind : findOp s wq idx = some o) (hopen : o.result = none)
    (htile : o.tiles.find? (fun t => t.off == off) = some t) (hholds : t.st = .holding) (hput : o.wqe.opcode = opPut)
    (hpiece : t.loc.find? (fun p => p.target == 2) = some p) :
    exec (.hostReadRefused wq idx off) s = .next (hostReadFailed wq idx off (p.va / max p.page 1 * max p.page 1) o t s) := by
  have hsends : sendsData opPut = true := by decide
  have hcopy : isCopy opPut = false := by decide
  have hsource : (if (opPut == opCopyIn) = true then t.host else t.loc) = t.loc := if_neg (by decide)
  show execHostReadRefused wq idx off s = _
  simp only [execHostReadRefused, hfind, htile, hput, hsource, hpiece, hrun, hholds, hopen, hsends, hcopy, beq_self_eq_true,
    Option.isNone_none, Bool.or_false, Bool.and_self, if_true, Bool.false_eq_true, if_false, hostReadFailed]

end

/-! ## The steps of an invalidation -/

theorem exec_invalidateDrained {s : State} {n : Nat} {i : Inval} (hrun : running s = true) (hinval : tget s.xl.invals n = some i)
    (hstep : i.step = 2) (hdrained : ∀ h ∈ i.held, stillHeld s h = false) : exec (.invalidateDrained n) s =
      .next { s with xl := { s.xl with invals := tset s.xl.invals n { i with step := 3 } } } := by
  have hnone : i.held.any (stillHeld s) = false := by simpa using hdrained
  show execInvalidateDrained n s = _
  simp only [execInvalidateDrained, hinval, hrun, hstep, hnone, beq_self_eq_true, Bool.not_false, Bool.and_self, when_true]

/-- The limit of an invalidation squashes what is still held, and its third step begins (R185). -/
theorem exec_invalTimeout {s : State} {n : Nat} {i : Inval} (hrun : running s = true) (hinval : tget s.xl.invals n = some i)
    (hstep : i.step = 2) (hdue : due s i.since (i.timeout * us) = true) :
    let u := (i.held.filter (stillHeld s)).foldl (fun s x => squashTile i x s) s
    exec (.invalTimeout n) s = .next { u with xl := { u.xl with invals := tset u.xl.invals n { i with step := 3 } } } := by
  show execInvalTimeout n s = _
  simp only [execInvalTimeout, hinval, hrun, hstep, hdue, beq_self_eq_true, Bool.and_self, when_true]

@[simp] theorem sendFlushes_q (ps : List FlushPath) (s : State) : (sendFlushes ps s).q = s.q := by
  induction ps generalizing s with
  | nil => rfl
  | cons f ps ih =>
    refine (ih _).trans ?_
    cases f with
    | edrad link => exact toHost_q _ _ _
    | _ => rfl

section
variable {s : State} {n : Nat} {i : Inval} {o : Op}

/-- Nothing is left of an invalidation that ends. -/
theorem endInval_invals : (endInval n i s).xl.invals = tdel s.xl.invals n := by simp [endInval]

/-- The WQE of an invalidation that ends has ended with OK. -/
theorem endInval_result (hfind : findOp s i.wq i.idx = some o) (hopen : o.result = none) :
    ∃ o', findOp (endInval n i s) i.wq i.idx = some o' ∧ o'.result = some { status := stOk } := by
  have hended := findOp_decideOp_ok (s := { s with xl := { s.xl with invals := tdel s.xl.invals n } }) hfind hopen
  exact ⟨_, (findOp_congr (bumpXlate_q _ _ _ _ _) _ _).trans hended, rfl⟩

variable (hrun : running s = true) (hinval : tget s.xl.invals n = some i) (hstep : i.step = 3) (hfind : findOp s i.wq i.idx = some o)
include hrun hinval hstep hfind

theorem exec_invalidateSquashDone_ends (hnone : o.wqe.xpath = false ∨ i.paths = []) :
    exec (.invalidateSquashDone n) s = .next (endInval n i s) := by
  have hflush : (o.wqe.xpath && !i.paths.isEmpty) = false := by rcases hnone with h | h <;> simp [h]
  show execInvalidateSquashDone n s = _
  simp only [execInvalidateSquashDone, hinval, hrun, hstep, hfind, hflush, beq_self_eq_true, Bool.and_self, Bool.false_eq_true, if_false,
    when_true]

/-- Under XPATH the flushing reads go out on every path listed, and the WQE waits for them (R185 step 4). -/
theorem exec_invalidateSquashDone_flushes (hxpath : o.wqe.xpath = true) (hpaths : i.paths ≠ []) :
    let u := onOp i.wq i.idx (fun o => { o with flush := some i.paths.length }) (sendFlushes i.paths s)
    exec (.invalidateSquashDone n) s = .next { u with xl := { u.xl with invals := tset u.xl.invals n { i with step := 4 } } } := by
  have hflush : (o.wqe.xpath && !i.paths.isEmpty) = true := by simp [hxpath, hpaths]
  show execInvalidateSquashDone n s = _
  simp only [execInvalidateSquashDone, hinval, hrun, hstep, hfind, hflush, beq_self_eq_true, Bool.and_self, if_true, when_true]

theorem invalidateSquashDone_flushes (hxpath : o.wqe.xpath = true) (hpaths : i.paths ≠ []) :
    ∃ t, exec (.invalidateSquashDone n) s = .next t ∧ tget t.xl.invals n = some { i with step := 4 } ∧
      findOp t i.wq i.idx = some { o with flush := some i.paths.length } :=
  ⟨_, exec_invalidateSquashDone_flushes hrun hinval hstep hfind hxpath hpaths, tget_tset _ _ _,
    findOp_onOp (fun _ => rfl) ((findOp_congr (sendFlushes_q _ _) _ _).trans hfind)⟩

end

/-- Settles O28, step by step. -/
theorem walksAndInvalidationsGoOn : Obligations.WalksAndInvalidationsGoOn := by
  refine ⟨fun s wq idx off o => exec_walkComplete, fun s wq idx off o t p hrun hfind hopen htile hholds hput hpiece =>
      ⟨_, exec_hostReadRefused hrun hfind hopen htile hholds hput hpiece, findOp_hostReadFailed _ t hfind⟩,
    fun s n i hrun hinval hstep => ⟨exec_invalidateDrained hrun hinval hstep,
      fun hdue => ⟨_, exec_invalTimeout hrun hinval hstep hdue, tget_tset _ _ _⟩⟩,
    fun s n i o hrun hinval hstep hfind => ⟨fun hnone => ?_, invalidateSquashDone_flushes hrun hinval hstep hfind⟩⟩
  exact ⟨_, exec_invalidateSquashDone_ends hrun hinval hstep hfind hnone, endInval_invals, endInval_result hfind⟩

end Sys2Proof.Machine
end

section
/-! SUPPORT. What an invalidation removes from the look-aside and from the region caches, scope by scope (R165, R183 to R185). -/

namespace Sys2Proof.Machine

/-! ## What a scope covers -/

/-- A look-aside entry lies in the scope of an invalidation. -/
def Inval.coversLook (i : Inval) (l : Look) : Bool :=
  if i.scope == 3 then l.part == i.part && l.regions.contains i.region else i.coversVa l.part l.pasid l.va l.span

/-- A cached descriptor lies in the scope of an invalidation. -/
def Inval.coversCached (i : Inval) (c : CachedRegion) : Bool :=
  if i.scope == 3 then c.index == i.region
  else if i.scope == 2 then Region.part c.word == i.part
  else if i.scope == 1 then Region.part c.word == i.part && Region.pasid c.word == i.pasid else false

section
variable {i : Inval}

theorem coversLook_of_region (h : i.scope = 3) (l : Look) : i.coversLook l = true ↔ l.part = i.part ∧ i.region ∈ l.regions := by
  simp [Inval.coversLook, h]

theorem coversLook_of_address (h : i.scope ≠ 3) (l : Look) : i.coversLook l = i.coversVa l.part l.pasid l.va l.span := by
  simp [Inval.coversLook, h]

theorem coversCached_of_region (h : i.scope = 3) (c : CachedRegion) : i.coversCached c = true ↔ c.index = i.region := by
  simp [Inval.coversCached, h]

theorem coversCached_of_partition (h : i.scope = 2) (c : CachedRegion) : i.coversCached c = true ↔ Region.part c.word = i.part := by
  simp [Inval.coversCached, h]

theorem coversCached_of_slice (h : i.scope = 1) (c : CachedRegion) :
    i.coversCached c = true ↔ Region.part c.word = i.part ∧ Region.pasid c.word = i.pasid := by
  simp [Inval.coversCached, h]

theorem coversCached_of_range (h : i.scope = 0) (c : CachedRegion) : i.coversCached c = false := by
  simp [Inval.coversCached, h]

end

/-! ## What is removed -/

section
variable (i : Inval) (s : State)

theorem removeCached_look : (removeCached i s).xl.look = s.xl.look.filter fun l => !i.coversLook l := rfl

theorem removeCached_rcache : (removeCached i s).xl.rcache = s.xl.rcache.filter fun c => !i.coversCached c := rfl

theorem mem_look_removeCached (l : Look) : l ∈ (removeCached i s).xl.look ↔ l ∈ s.xl.look ∧ i.coversLook l = false := by
  simp [removeCached_look]

theorem mem_rcache_removeCached (c : CachedRegion) :
    c ∈ (removeCached i s).xl.rcache ↔ c ∈ s.xl.rcache ∧ i.coversCached c = false := by
  simp [removeCached_rcache]

theorem removeCached_onlyChanges : onlyChanges [.xl] s (removeCached i s) := by
  simp [onlyChanges_iff, removeCached]

end

/-- Settles O29: both caches keep exactly what the scope does not cover, and each scope covers what it names. -/
theorem invalidationEmptiesTheLookAside : Obligations.InvalidationEmptiesTheLookAside := by
  intro s i
  refine ⟨fun l hl => ?_, fun l hl hout => ?_, fun c hc => ?_, fun hscope => ?_, removeCached_onlyChanges i s⟩
  · obtain ⟨hold, hfree⟩ := (mem_look_removeCached i s l).mp hl
    refine ⟨hold, fun hscope => ?_, fun hscope hpart hregion => ?_⟩
    · rwa [← coversLook_of_address hscope]
    · exact Bool.false_ne_true (hfree.symm.trans ((coversLook_of_region hscope l).mpr ⟨hpart, hregion⟩))
  · refine (mem_look_removeCached i s l).mpr ⟨hl, ?_⟩
    rcases hout with ⟨hscope, hother⟩ | ⟨hscope, hfree⟩
    · rw [← Bool.not_eq_true, coversLook_of_region hscope]
      rintro ⟨hpart, hregion⟩
      exact hother.elim (· hpart) (· hregion)
    · rwa [coversLook_of_address hscope]
  · obtain ⟨hold, hfree⟩ := (mem_rcache_removeCached i s c).mp hc
    rw [← Bool.not_eq_true] at hfree
    refine ⟨hold, fun hscope hindex => hfree ?_, fun hscope hpart => hfree ?_, fun hscope hpart hpasid => hfree ?_⟩
    · exact (coversCached_of_region hscope c).mpr hindex
    · exact (coversCached_of_partition hscope c).mpr hpart
    · exact (coversCached_of_slice hscope c).mpr ⟨hpart, hpasid⟩
  · rw [removeCached_rcache, List.filter_eq_self]
    intro c _
    rw [coversCached_of_range hscope, Bool.not_false]

end Sys2Proof.Machine
end

section
/-! SUPPORT. Collective groups under the shared operations: what a write of one group gives, and what the ends of COLL_STEPs and a READY sent
leave of the device and of the groups. -/

namespace Sys2Proof.Machine

/-! ## One group is written -/

theorem groupOf_congr {s t : State} (hgroups : t.coll.groups = s.coll.groups) (hdict : t.dict = s.dict) (k : Nat) :
    groupOf t k = groupOf s k := by
  simp only [groupOf, hgroups, cfg_congr hdict]

/-- A group that is not Free stands in the table of groups. -/
theorem listed_of_live {s : State} {g : Nat} (h : (groupOf s g).state ≠ .free) : (tget s.coll.groups g).isSome = true := by
  cases hg : tget s.coll.groups g with
  | some _ => rfl
  | none => exact absurd (by simp [groupOf, tgetD_eq, hg]) h

theorem live_of {gr : Group} (h : gr.state ≠ .free) : gr.live = true := by simp [Group.live, h]

theorem groupOf_setGroup {s : State} {g : Nat} (h : (tget s.coll.groups g).isSome = true) (f : Group → Group) :
    groupOf (setGroup g f s) g = f (groupOf s g) := by
  obtain ⟨gr, hgr⟩ := Option.isSome_iff_exists.mp h
  simp [groupOf, tgetD_eq, hgr]

theorem groupOf_setGroup_ne {g k : Nat} (hk : k ≠ g) (f : Group → Group) (s : State) : groupOf (setGroup g f s) k = groupOf s k := by
  simp [groupOf, tgetD_eq, tget_tmod_eq, hk, cfg]

theorem isSome_tget_tmod {α : Type} (t : Tab α) (n m : Nat) (f : α → α) : (tget (tmod t n f) m).isSome = (tget t m).isSome := by
  rw [tget_tmod_eq]
  split
  · next h => rw [h, Option.isSome_map]
  · rfl

/-- Of the groups that of one number may be written, and it is still listed. -/
def writesGroup (g : Nat) (s t : State) : Prop :=
  (tget t.coll.groups g).isSome = true ∧ ∀ k, k ≠ g → groupOf t k = groupOf s k

section
variable {g : Nat} {s t u : State}

theorem writesGroup_refl (h : (tget s.coll.groups g).isSome = true) : writesGroup g s s := ⟨h, fun _ _ => rfl⟩

theorem writesGroup_setGroup (f : Group → Group) (h : writesGroup g s t) : writesGroup g s (setGroup g f t) :=
  ⟨(isSome_tget_tmod _ _ _ _).trans h.1, fun k hk => (groupOf_setGroup_ne hk f t).trans (h.2 k hk)⟩

/-- What leaves the groups leaves what was written of them. -/
theorem writesGroup_of_groups (hgroups : u.coll.groups = t.coll.groups) (hdict : u.dict = t.dict) (h : writesGroup g s t) :
    writesGroup g s u :=
  ⟨by rw [hgroups]; exact h.1, fun k hk => (groupOf_congr hgroups hdict k).trans (h.2 k hk)⟩

theorem foldl_writesGroup {α : Type} {f : State → α → State} (hf : ∀ t a, writesGroup g s t → writesGroup g s (f t a)) (l : List α)
    (h : writesGroup g s t) : writesGroup g s (l.foldl f t) := by
  induction l generalizing t with
  | nil => exact h
  | cons a l ih => exact ih (hf t a h)

end

/-- A frame that each step keeps, all of them keep. -/
theorem foldl_onlyChanges {α : Type} {l : List Area} {f : State → α → State} (hf : ∀ s a, onlyChanges l s (f s a)) (as : List α) (s : State) :
    onlyChanges l s (as.foldl f s) := by
  induction as generalizing s with
  | nil => exact onlyChanges_refl _ _
  | cons a as ih => exact onlyChanges_trans (hf s a) (ih _)

/-! ## The end of a COLL_STEP -/

theorem settleWaits_onlyChanges (s : State) : onlyChanges [.q, .obs] s (settleWaits s) :=
  settleWaits_keeps (P := onlyChanges [.q, .obs] s) (fun t wq ht => onlyChanges_trans ht (endNext_onlyChanges wq _ t)) (onlyChanges_refl _ _)

theorem setWq_onlyChanges (wq : Nat) (f : WorkQueue → WorkQueue) (s : State) : onlyChanges [.q, .obs] s (setWq wq f s) := by
  simp [onlyChanges_iff]

theorem decideOp_onlyChanges (wq idx : Nat) (r : Result) (s : State) : onlyChanges [.q, .obs] s (decideOp wq idx r s) := by
  have hdecided := setWq_onlyChanges wq (fun q => { q with ops := q.ops.map fun o =>
    if o.idx == idx && o.result.isNone then { noteNet s wq o with result := some r } else o }) s
  unfold decideOp toDraining
  dsimp only
  split
  · exact onlyChanges_trans hdecided (onlyChanges_trans (countWaiting_onlyChanges wq _)
      (onlyChanges_trans (setWq_onlyChanges _ _ _) (settleWaits_onlyChanges _)))
  · exact hdecided

/-- The areas that the end of a COLL_STEP may change. -/
def stepEndAreas : List Area := [.q, .obs, .coll, .fab, .counts]

section
variable (g wq idx : Nat) (r : Result) (s : State)

/-- The launch has ended; its transfers and what it has in the trees are gone. -/
def launchEnded : State :=
  let t := setLaunches g (fun l => l.map fun x => if x.wq == wq && x.idx == idx then { x with hasEnded := true } else x)
    (setTransfers g (fun l => l.filter fun t => !(t.wq == wq && t.idx == idx)) s)
  { t with fab := { t.fab with treeIn := tmap t.fab.treeIn fun _ l => l.filter fun t => t.desc.wq != wq || t.desc.idx != idx } }

theorem endStep_eq : endStep g wq idx r s = decideOp wq idx r (launchEnded g wq idx s) := rfl

theorem endStep_onlyChanges : onlyChanges stepEndAreas s (endStep g wq idx r s) := by
  rw [endStep_eq]
  exact onlyChanges_trans (by simp [onlyChanges_iff, stepEndAreas, launchEnded, setLaunches, setTransfers])
    (onlyChanges_mono (decideOp_onlyChanges wq idx r _) fun a => by cases a <;> decide)

theorem mismatch_onlyChanges : onlyChanges stepEndAreas s (mismatch g wq idx s) :=
  onlyChanges_trans (endStep_onlyChanges g wq idx { status := stCollMismatch } s) (by simp [onlyChanges_iff, stepEndAreas, mismatch])

theorem endStep_coll : (endStep g wq idx r s).coll = (launchEnded g wq idx s).coll := decideOp_onlyChanges wq idx r _ .coll rfl

theorem mismatch_coll : (mismatch g wq idx s).coll = (launchEnded g wq idx s).coll := by
  rw [mismatch, bumpColl_coll, endStep_coll]

theorem endStep_slots : (endStep g wq idx r s).coll.slots = s.coll.slots := by rw [endStep_coll]; rfl

theorem mismatch_slots : (mismatch g wq idx s).coll.slots = s.coll.slots := by rw [mismatch_coll]; rfl

end

section
variable {g : Nat} {s t : State} (wq idx : Nat) (r : Result) (h : writesGroup g s t)
include h

theorem endStep_writesGroup : writesGroup g s (endStep g wq idx r t) := by
  refine writesGroup_of_groups (t := setLaunches g _ (setTransfers g _ t)) (congrArg CollSt.groups (endStep_coll g wq idx r t)) ?_
    (writesGroup_setGroup _ (writesGroup_setGroup _ h))
  exact endStep_onlyChanges g wq idx r t .dict rfl

theorem mismatch_writesGroup : writesGroup g s (mismatch g wq idx t) :=
  writesGroup_of_groups (congrArg CollSt.groups (bumpColl_coll _ _ _ _ _)) (bumpColl_dict _ _ _ _ _) (endStep_writesGroup wq idx _ h)

end

/-! ## READY is sent -/

/-- READY goes out, or nothing happens. -/
theorem sendReady_cases (g seq : Nat) (s : State) : sendReady g seq s = s ∨
    ∃ o, sendReady g seq s = (setGroup g (fun x => { x with sent := x.sent ++ [seq] }) s).emit o := by
  unfold sendReady
  dsimp only
  split
  · exact .inl rfl
  · split
    · exact .inl rfl
    · exact .inr ⟨_, rfl⟩

section
variable (g seq : Nat) (s : State)

theorem sendReady_onlyChanges : onlyChanges [.coll, .out] s (sendReady g seq s) := by
  rcases sendReady_cases g seq s with h | ⟨o, h⟩ <;> rw [h]
  · exact onlyChanges_refl _ _
  · simp [onlyChanges_iff]

theorem out_subset_sendReady : s.out ⊆ (sendReady g seq s).out := by
  rcases sendReady_cases g seq s with h | ⟨o, h⟩ <;> rw [h]
  · exact List.Subset.refl _
  · exact List.subset_cons_self _ _

variable {g s}

theorem groupOf_sendReady (hlisted : (tget s.coll.groups g).isSome = true) :
    ∃ sent, groupOf (sendReady g seq s) g = { groupOf s g with sent := sent } := by
  rcases sendReady_cases g seq s with h | ⟨o, h⟩ <;> rw [h]
  · exact ⟨_, rfl⟩
  · exact ⟨_, groupOf_setGroup hlisted _⟩

theorem sendReady_writesGroup {t : State} (h : writesGroup g s t) : writesGroup g s (sendReady g seq t) := by
  rcases sendReady_cases g seq t with ht | ⟨o, ht⟩ <;> rw [ht]
  · exact h
  · exact writesGroup_of_groups (t := setGroup g _ t) rfl rfl (writesGroup_setGroup _ h)

end

end Sys2Proof.Machine
end

section
/-! SUPPORT. The connections of groups and of schedules: closing and opening them leaves the groups but for their transfers, and leaves the
schedule slots (R206, R214). -/

namespace Sys2Proof.Machine

/-! ## Requests sent -/

theorem sendConn_onlyChanges (kind dest handle epoch : Nat) (mgmt : Bool) (ws : List Nat) (s : State) :
    onlyChanges [.mesh, .fab] s (sendConn kind dest handle epoch mgmt ws s) := sendOut_onlyChanges _ _ _ _ _ _

/-- The areas that a request about a connection may change. -/
def requestAreas : List Area := [.conn, .mesh, .fab]

theorem setEnd_onlyChanges (h : Nat) (f : End → End) (s : State) : onlyChanges requestAreas s (setEnd h f s) := by
  simp [onlyChanges_iff, requestAreas]

theorem sendCloseReq_onlyChanges (h : Nat) (s : State) : onlyChanges requestAreas s (sendCloseReq h s) :=
  onlyChanges_trans (setEnd_onlyChanges h _ s) (onlyChanges_mono (sendConn_onlyChanges _ _ _ _ _ _ _) fun a => by cases a <;> decide)

theorem askSetup_onlyChanges (r : SetupReq) (s : State) : onlyChanges requestAreas s (askSetup r s) := by
  unfold askSetup nak
  split <;> exact onlyChanges_mono (sendConn_onlyChanges _ _ _ _ _ _ _) fun a => by cases a <;> decide

theorem sendConnectReq_onlyChanges (h : Nat) (s : State) : onlyChanges requestAreas s (sendConnectReq h s) :=
  onlyChanges_trans (setEnd_onlyChanges h _ s) (askSetup_onlyChanges _ _)

/-! ## Groups but for their transfers -/

def Group.cleared (gr : Group) : Group := { gr with transfers := [] }

/-- The groups are as they were but for their transfers, and so are the schedule slots. -/
def keepsColl (s t : State) : Prop :=
  (∀ k, (tget t.coll.groups k).map Group.cleared = (tget s.coll.groups k).map Group.cleared) ∧ t.coll.slots = s.coll.slots ∧ t.dict = s.dict

section
variable {s t u : State}

theorem keepsColl_refl (s : State) : keepsColl s s := ⟨fun _ => rfl, rfl, rfl⟩

theorem keepsColl_trans (h : keepsColl s t) (k : keepsColl t u) : keepsColl s u := by
  obtain ⟨hgroups, hslots, hdict⟩ := h
  obtain ⟨kgroups, kslots, kdict⟩ := k
  exact ⟨fun n => (kgroups n).trans (hgroups n), kslots.trans hslots, kdict.trans hdict⟩

theorem keepsColl_of_frame {l : List Area} (h : onlyChanges l s t) (hcoll : l.contains .coll = false) (hdict : l.contains .dict = false) :
    keepsColl s t := by
  have hc : t.coll = s.coll := h .coll hcoll
  exact ⟨fun k => by rw [hc], by rw [hc], h .dict hdict⟩

theorem foldl_keepsColl {α : Type} {f : State → α → State} (hf : ∀ s a, keepsColl s (f s a)) (l : List α) (s : State) :
    keepsColl s (l.foldl f s) := by
  induction l generalizing s with
  | nil => exact keepsColl_refl s
  | cons a l ih => exact keepsColl_trans (hf s a) (ih _)

theorem isSome_of_keepsColl (h : keepsColl s t) (k : Nat) : (tget t.coll.groups k).isSome = (tget s.coll.groups k).isSome := by
  simpa using congrArg Option.isSome (h.1 k)

theorem groupOf_of_keepsColl (h : keepsColl s t) (k : Nat) : ∃ ts, groupOf t k = { groupOf s k with transfers := ts } := by
  obtain ⟨hgroups, -, hdict⟩ := h
  have hk := hgroups k
  simp only [groupOf, tgetD_eq, cfg_congr hdict]
  cases ht : tget t.coll.groups k with
  | none =>
    rw [ht, Option.map_none, eq_comm, Option.map_eq_none_iff] at hk
    exact ⟨_, by rw [hk]⟩
  | some gt =>
    rw [ht, Option.map_some, eq_comm, Option.map_eq_some_iff] at hk
    obtain ⟨gs, hs, hcleared⟩ := hk
    refine ⟨gt.transfers, ?_⟩
    rw [hs]
    exact congrArg (fun gr : Group => { gr with transfers := gt.transfers }) hcleared.symm

end

/-! ## Connections are closed -/

theorem endTransfersOn_keepsColl (h cause : Nat) (s : State) : keepsColl s (endTransfersOn h cause s) := by
  refine ⟨fun k => ?_, rfl, rfl⟩
  simp only [endTransfersOn, tget_tmap, Option.map_map]
  rfl

/-- A connection that opens goes at once, any other asks its peer to close. -/
def closeConn (h : Nat) (s : State) : State :=
  if (endOf s h).state == .connecting then { uncache h s with conn := { (uncache h s).conn with ends := tdel (uncache h s).conn.ends h } }
  else sendCloseReq h (setEnd h (fun e => { e with state := .closing, tries := 0, toSend := [] }) (endTransfersOn h stTransportTimeout s))

theorem closeConns_eq (hs : List Nat) (s : State) :
    closeConns hs s = (hs.filter fun h => (endOf s h).live).foldl (fun s h => closeConn h s) s := rfl

section
variable (h : Nat) (s : State)

theorem endRemoved_requestAreas : onlyChanges requestAreas s (endRemoved h s) :=
  onlyChanges_mono (endRemoved_onlyChanges h s) fun a => by cases a <;> decide

theorem closeConn_onlyChanges : onlyChanges (.coll :: requestAreas) s (closeConn h s) := by
  have hwider {t u : State} (k : onlyChanges requestAreas t u) : onlyChanges (.coll :: requestAreas) t u :=
    onlyChanges_mono k fun a => by cases a <;> decide
  unfold closeConn
  split
  · exact hwider (endRemoved_requestAreas h s)
  · refine onlyChanges_trans (t := endTransfersOn h stTransportTimeout s) ?_
      (onlyChanges_trans (hwider (setEnd_onlyChanges h _ _)) (hwider (sendCloseReq_onlyChanges h _)))
    simp [onlyChanges_iff, requestAreas, endTransfersOn]

theorem closeConn_keepsColl : keepsColl s (closeConn h s) := by
  unfold closeConn
  split
  · exact keepsColl_of_frame (endRemoved_requestAreas h s) rfl rfl
  · exact keepsColl_trans (endTransfersOn_keepsColl h _ s) (keepsColl_trans (keepsColl_of_frame (setEnd_onlyChanges h _ _) rfl rfl)
      (keepsColl_of_frame (sendCloseReq_onlyChanges h _) rfl rfl))

end

theorem closeConns_onlyChanges (hs : List Nat) (s : State) : onlyChanges (.coll :: requestAreas) s (closeConns hs s) :=
  foldl_onlyChanges (fun t h => closeConn_onlyChanges h t) _ s

theorem closeConns_keepsColl (hs : List Nat) (s : State) : keepsColl s (closeConns hs s) :=
  foldl_keepsColl (fun t h => closeConn_keepsColl h t) _ s

/-! ## Connections are opened -/

theorem openColl_keepsColl (g slot1 rank peer : Nat) (s : State) : keepsColl s (openColl g slot1 rank peer s).2 := by
  unfold openColl
  dsimp only
  split
  · exact keepsColl_refl s
  · split
    · exact keepsColl_refl s
    · refine keepsColl_trans (keepsColl_of_frame (l := [.free]) (t := (draw s).2) (by simp [onlyChanges_iff]) rfl rfl)
        (keepsColl_trans (keepsColl_of_frame (addEnd_onlyChanges _ _ _) rfl rfl) (keepsColl_of_frame (sendConnectReq_onlyChanges _ _) rfl rfl))

theorem openAll_keepsColl (g slot1 : Nat) (l : List (Nat × Nat)) (held : Tab Nat) (s : State) : keepsColl s (openAll g slot1 held l s).2.2 := by
  have opened {r p : Nat} {s t : State} {x : Option Nat} (h : openColl g slot1 r p s = (x, t)) : keepsColl s t := by
    have hk := openColl_keepsColl g slot1 r p s
    rwa [h] at hk
  induction l generalizing held s with
  | nil => exact keepsColl_refl s
  | cons x l ih =>
    obtain ⟨r, p⟩ := x
    simp only [openAll]
    split
    · next h hheld =>
      split
      · exact ih _ _
      · split
        · next hopen => exact keepsColl_trans (closeConns_keepsColl [h] s) (keepsColl_trans (opened hopen) (ih _ _))
        · next hopen => exact keepsColl_trans (closeConns_keepsColl [h] s) (opened hopen)
    · split
      · next hopen => exact keepsColl_trans (opened hopen) (ih _ _)
      · next hopen => exact opened hopen

/-! ## Schedule slots are unloaded -/

theorem tdel_of_tget_none {α : Type} {t : Tab α} {n : Nat} (h : tget t n = none) : tdel t n = t := by
  induction t with
  | nil => rfl
  | cons e t ih =>
    obtain ⟨k, v⟩ := e
    simp only [tget] at h
    split at h
    · cases h
    · next hk =>
      have hne : (k != n) = true := bne_iff_ne.mpr fun h => hk (beq_iff_eq.mpr h.symm)
      simpa [tdel, hne] using ih h

theorem foldl_slots {α : Type} {f : State → α → State} (hf : ∀ s a, (f s a).coll.slots = s.coll.slots) (l : List α) (s : State) :
    (l.foldl f s).coll.slots = s.coll.slots := by
  induction l generalizing s with
  | nil => rfl
  | cons a l ih => exact (ih _).trans (hf s a)

theorem unloadSlot_slots (n : Nat) (s : State) : (unloadSlot n s).coll.slots = tdel s.coll.slots n := by
  unfold unloadSlot
  split
  · next h => exact (tdel_of_tget_none h).symm
  · dsimp only
    rw [(closeConns_keepsColl _ _).2.1, foldl_slots fun t l => mismatch_slots _ _ _ t]

theorem mem_slots_unloadSlots (ns : List Nat) (s : State) (x : Nat × Slot) :
    x ∈ (ns.foldl (fun s n => unloadSlot n s) s).coll.slots ↔ x ∈ s.coll.slots ∧ x.1 ∉ ns := by
  induction ns generalizing s with
  | nil => simp
  | cons n ns ih =>
    simp only [List.foldl_cons, ih, unloadSlot_slots, tdel, List.mem_filter, bne_iff_ne, List.mem_cons, not_or, and_assoc]

end Sys2Proof.Machine
end

section
/-! SUPPORT. The life of a group: created, joined, given its member table, Ready, left and deleted (R192 to R195, R206, R227). -/

namespace Sys2Proof.Machine

/-! ## Created -/

theorem useUnits_onlyChanges (take : Bool) (members : List Nat) (accElems : Nat) (s : State) :
    onlyChanges [.part] s (useUnits take members accElems s) :=
  foldl_onlyChanges (fun t d => by simp [onlyChanges_iff]) _ s

/-- The records an accumulation area of a group's member has. -/
def areaElems (gr : Group) : Nat := if bit gr.flags 0 then gr.accElems else 0

/-- A group as GROUP_CMD CREATE makes it. -/
def createdGroup (gr : Group) : Group :=
  { gr with state := .forming, retired := 0xFFFFFFFF, joins := [], homeJoins := [], table := [], conns := [], launches := [], sent := [],
            readys := [], transfers := [], lastRun := none }

/-- The group is created, and its units are taken. -/
def groupCreated (g : Nat) (s : State) : State :=
  useUnits true (groupOf s g).members (areaElems (groupOf s g))
    { s with coll := { s.coll with groups := tset s.coll.groups g (createdGroup (groupOf s g)) } }

section
variable {s : State} {g : Nat} (hfree : (groupOf s g).state = .free)
include hfree

theorem createGroup_of_bad (hbad : membersBad s (groupOf s g).members = true) : createGroup g s = (rInvalid, s) := by
  have hstate : ((groupOf s g).state != .free) = false := by simp [hfree]
  simp only [createGroup, hstate, hbad, Bool.true_or, Bool.false_eq_true, if_false, if_true]

variable (hgood : membersBad s (groupOf s g).members = false) (hgen : gen1 s = false)
include hgood hgen

theorem createGroup_of_good : createGroup g s =
    if !membersJoined s (groupOf s g).members ||
        (dies s).any (fun d => Nat.blt (collUnits s d) (collUsed s d + groupUnits s (groupOf s g).members (areaElems (groupOf s g)) d))
    then (rNoResource, s) else (rDone, groupCreated g s) := by
  have hstate : ((groupOf s g).state != .free) = false := by simp [hfree]
  simp only [createGroup, hstate, hgood, hgen, Bool.or_self, Bool.false_eq_true, if_false]
  rfl

theorem createGroup_of_no_room (hfull : membersJoined s (groupOf s g).members = false ∨ ∃ d, d < engineDies s ∧
      collUnits s d < collUsed s d + groupUnits s (groupOf s g).members (areaElems (groupOf s g)) d) :
    createGroup g s = (rNoResource, s) := by
  rw [createGroup_of_good hfree hgood hgen, if_pos]
  simpa [dies] using hfull

theorem createGroup_of_room (hjoined : membersJoined s (groupOf s g).members = true)
    (hroom : ∀ d, d < engineDies s → collUsed s d + groupUnits s (groupOf s g).members (areaElems (groupOf s g)) d ≤ collUnits s d) :
    createGroup g s = (rDone, groupCreated g s) := by
  rw [createGroup_of_good hfree hgood hgen, if_neg]
  simpa [hjoined, dies] using hroom

end

section
variable (g : Nat) (s : State)

theorem groupCreated_onlyChanges : onlyChanges [.coll, .part] s (groupCreated g s) :=
  onlyChanges_trans (by simp [onlyChanges_iff]) (onlyChanges_mono (useUnits_onlyChanges _ _ _ _) fun a => by cases a <;> decide)

theorem groupOf_useUnits (take : Bool) (members : List Nat) (accElems k : Nat) (t : State) :
    groupOf (useUnits take members accElems t) k = groupOf t k :=
  have hframe := useUnits_onlyChanges take members accElems t
  groupOf_congr (congrArg CollSt.groups (hframe .coll rfl)) (hframe .dict rfl) k

theorem groupOf_groupCreated : groupOf (groupCreated g s) g = createdGroup (groupOf s g) := by
  rw [groupCreated, groupOf_useUnits]
  exact tgetD_tset _ _ _ _

theorem groupOf_groupCreated_ne {k : Nat} (hk : k ≠ g) : groupOf (groupCreated g s) k = groupOf s k := by
  rw [groupCreated, groupOf_useUnits]
  simp only [groupOf, tgetD_tset_eq, if_neg hk]
  rfl

end

section
variable {s : State} {r : Request} {c : Cmd} (hwrite : writesEntry s r c 0x5103 0 = true)
include hwrite

theorem exec_groupCmdCreate (hcreate : ofLe c.data = 1) : exec .groupCmdCreate s =
    .next (finish (createGroup (groupSel s (senderOf s r)) s).1 [] (createGroup (groupSel s (senderOf s r)) s).2) :=
  congrArg Host.Outcome.next (onWrite_of_writesEntry (p := fun d => ofLe d == 1) hwrite (Nat.le_refl _) (Nat.le_refl _) (beq_iff_eq.mpr hcreate) _)

theorem exec_groupCmdDelete (hdelete : ofLe c.data = 2) : exec .groupCmdDelete s =
    .next (finish (deleteGroup (groupSel s (senderOf s r)) s).1 [] (deleteGroup (groupSel s (senderOf s r)) s).2) :=
  congrArg Host.Outcome.next (onWrite_of_writesEntry (p := fun d => ofLe d == 2) hwrite (Nat.le_refl _) (Nat.le_refl _) (beq_iff_eq.mpr hdelete) _)

end

/-! ## Deleted -/

theorem deleteGroup_of_free {s : State} {g : Nat} (hfree : (groupOf s g).state = .free) : deleteGroup g s = (rInvalid, s) := by
  simp only [deleteGroup, hfree, beq_self_eq_true, if_true]

/-- The group's launches end, its connections close and its schedules are unloaded. -/
def groupEnded (g : Nat) (s : State) : State :=
  let t := closeConns ((groupOf s g).conns.map (·.2))
    (((groupOf s g).launches.filter fun l => !l.hasEnded).foldl (fun s l => mismatch g l.wq l.idx s) s)
  ((t.coll.slots.filter fun x => x.2.group == g).map (·.1)).foldl (fun s n => unloadSlot n s) t

/-- What is left of a deleted group: what CREATE takes it from. -/
def freedGroup (gr : Group) : Group :=
  { flags := gr.flags, timeout := gr.timeout, members := gr.members, accElems := gr.accElems, seed := gr.seed }

/-- Nothing names the group any more. -/
def groupFreed (g : Nat) (s : State) : State :=
  let t := useUnits false (groupOf s g).members (areaElems (groupOf s g)) (groupEnded g s)
  { t with
    conn := { t.conn with ends := tkeep t.conn.ends fun h _ => !isEdge h || (edgeOf t h).group != g },
    ar := { t.ar with edges := tkeep t.ar.edges fun _ e => e.group != g, areas := tkeep t.ar.areas fun a _ => a / 2 ^ 49 != g,
                      counts := tkeep t.ar.counts fun a _ => a / 2 ^ 56 != g, areaSeq := tkeep t.ar.areaSeq fun a _ => a / 2 ^ 16 != g,
                      slots := t.ar.slots.filter fun x => x.group != g },
    fab := { t.fab with treeIn := tmap t.fab.treeIn fun _ l => l.filter fun t => t.group != g },
    coll := { t.coll with perms := tmap t.coll.perms fun _ p => if p.group == some g then { p with group := none } else p,
                          groups := tset t.coll.groups g (freedGroup (groupOf s g)) } }

theorem deleteGroup_of_live {s : State} {g : Nat} (hlive : (groupOf s g).state ≠ .free) : deleteGroup g s = (rDone, groupFreed g s) := by
  simp only [deleteGroup, beq_false_of_ne hlive, Bool.false_eq_true, if_false, groupFreed, groupEnded, areaElems, freedGroup]

section
variable (g : Nat) (s : State)

theorem groupOf_groupFreed : groupOf (groupFreed g s) g = freedGroup (groupOf s g) := tgetD_tset _ _ _ _

theorem groupFreed_slots : ∀ x ∈ (groupFreed g s).coll.slots, x.2.group ≠ g := by
  intro x hx hgroup
  have hcoll : (useUnits false (groupOf s g).members (areaElems (groupOf s g)) (groupEnded g s)).coll = (groupEnded g s).coll :=
    useUnits_onlyChanges _ _ _ _ .coll rfl
  have hended : x ∈ (groupEnded g s).coll.slots := by rw [← hcoll]; exact hx
  rw [groupEnded, mem_slots_unloadSlots] at hended
  exact hended.2 (List.mem_map.mpr ⟨x, List.mem_filter.mpr ⟨hended.1, beq_iff_eq.mpr hgroup⟩, rfl⟩)

theorem groupFreed_edges : ∀ e ∈ (groupFreed g s).ar.edges, e.2.group ≠ g := by
  intro e he
  simpa using (List.mem_filter.mp he).2

theorem groupFreed_stores : ∀ x ∈ (groupFreed g s).ar.slots, x.group ≠ g := by
  intro x hx
  simpa using (List.mem_filter.mp hx).2

theorem groupFreed_perms : ∀ x ∈ (groupFreed g s).coll.perms, x.2.group ≠ some g := by
  intro x hx
  obtain ⟨y, -, rfl⟩ := List.mem_map.mp hx
  dsimp only
  split
  · simp
  · next h => simpa using h

end

/-! ## Joined and left -/

/-- The join that the bytes of a GROUP_JOIN ask for. -/
def askedJoin (s : State) (w : Sender) (d : List Byte) : Join :=
  { ep := field d 2 2, key := field d 4 4, base := field d 8 8, len := field d 16 8, ctr := field d 24 4, pasid := field d 28 4,
    part := joinPart s w (field d 2 2) (field d 4 4) }

/-- The member's join is held, and sent to the home device. -/
def memberJoined (g k : Nat) (j : Join) (s : State) : State :=
  (setGroup g (fun x => { x with joins := tset x.joins k j }) s).emit (.coll 1 g (homeOf (groupOf s g)) (joinArgs k j))

section
variable {s : State} {r : Request} {c : Cmd} (hwrite : writesEntry s r c 0x5200 0 = true)
include hwrite

theorem exec_groupJoin_of_other_partition (hpriv : (senderOf s r).priv = 1) (hpart : (askedJoin s (senderOf s r) c.data).part ≠ (senderOf s r).part) :
    exec .groupJoin s = .next (finish rDenied [] s) := by
  refine congrArg Host.Outcome.next ((onWrite_of_writesEntry (p := fun _ => true) hwrite (Nat.le_refl _) (Nat.le_refl _) rfl _).trans ?_)
  have hdenied : (joinPart s (senderOf s r) (field c.data 2 2) (field c.data 4 4) != (senderOf s r).part) = true := bne_iff_ne.mpr hpart
  simp only [hpriv, hdenied, beq_self_eq_true, Bool.or_true, Bool.and_self, if_true]

theorem exec_groupJoin {k : Nat} (hallowed : (senderOf s r).priv ≠ 1 ∨ (askedJoin s (senderOf s r) c.data).part = (senderOf s r).part)
    (hown : isOwn s (field c.data 2 2) = true) (hlive : (groupOf s (field c.data 0 2)).state ≠ .free)
    (hrank : rankOf (groupOf s (field c.data 0 2)) (field c.data 2 2) = some k) :
    exec .groupJoin s = .next (
      if joinOk s (groupOf s (field c.data 0 2)) (askedJoin s (senderOf s r) c.data).part (askedJoin s (senderOf s r) c.data)
      then finish rDone [] (memberJoined (field c.data 0 2) k (askedJoin s (senderOf s r) c.data) s) else finish rInvalid [] s) := by
  refine congrArg Host.Outcome.next ((onWrite_of_writesEntry (p := fun _ => true) hwrite (Nat.le_refl _) (Nat.le_refl _) rfl _).trans ?_)
  have hpasses : ((senderOf s r).priv == 1 && (!isOwn s (field c.data 2 2) ||
      joinPart s (senderOf s r) (field c.data 2 2) (field c.data 4 4) != (senderOf s r).part)) = false := by
    rcases hallowed with h | h
    · simp [h]
    · simp [hown, show joinPart s (senderOf s r) (field c.data 2 2) (field c.data 4 4) = (senderOf s r).part from h]
  simp only [hpasses, Bool.false_eq_true, if_false]
  cases hstate : (groupOf s (field c.data 0 2)).state with
  | free => exact absurd hstate hlive
  | forming | ready =>
    cases hjoin : joinOk s (groupOf s (field c.data 0 2)) (askedJoin s (senderOf s r) c.data).part (askedJoin s (senderOf s r) c.data) <;>
      rw [askedJoin] at hjoin <;> simp [hrank, hown, hjoin, memberJoined, askedJoin]

end

section
variable {s : State} {g k : Nat} (hlisted : (tget s.coll.groups g).isSome = true)
include hlisted

theorem groupOf_leaveMember : ∃ ts, groupOf (leaveMember g k s) g =
    { groupOf s g with joins := tdel (groupOf s g).joins k, homeJoins := tdel (groupOf s g).homeJoins k, table := [],
                       conns := tkeep (groupOf s g).conns fun n _ => n / 2 ^ 16 != k, transfers := ts,
                       state := if (groupOf s g).state == .ready then .forming else (groupOf s g).state } := by
  have hclosed := closeConns_keepsColl (rankConns (groupOf s g) k) s
  obtain ⟨ts, hts⟩ := groupOf_of_keepsColl hclosed g
  refine ⟨ts, ?_⟩
  rw [leaveMember, groupOf_setGroup ((isSome_of_keepsColl hclosed g).trans hlisted), hts]

omit hlisted in
theorem groupOf_leaveMember_ne {i : Nat} (hi : i ≠ g) : ∃ ts, groupOf (leaveMember g k s) i = { groupOf s i with transfers := ts } := by
  rw [leaveMember, groupOf_setGroup_ne hi]
  exact groupOf_of_keepsColl (closeConns_keepsColl _ s) i

omit hlisted in
theorem leaveMember_onlyChanges (g k : Nat) (s : State) : onlyChanges (.coll :: requestAreas) s (leaveMember g k s) :=
  onlyChanges_trans (closeConns_onlyChanges (rankConns (groupOf s g) k) s) (by simp [onlyChanges_iff, requestAreas, leaveMember])

end

theorem exec_groupLeave {s : State} {r : Request} {c : Cmd} {k : Nat} {j : Join} (hwrite : writesEntry s r c 0x5201 0 = true)
    (hrank : rankOf (groupOf s (field c.data 0 2)) (field c.data 2 2) = some k)
    (hjoin : tget (groupOf s (field c.data 0 2)).joins k = some j) (hallowed : (senderOf s r).priv = 1 → j.part = (senderOf s r).part) :
    exec .groupLeave s = .next (finish rDone [] (leaveMember (field c.data 0 2) k s)) := by
  refine congrArg Host.Outcome.next ((onWrite_of_writesEntry (p := fun _ => true) hwrite (Nat.le_refl _) (Nat.le_refl _) rfl _).trans ?_)
  have hpasses : ((senderOf s r).priv == 1 && j.part != (senderOf s r).part) = false := by
    by_cases h : (senderOf s r).priv = 1 <;> simp [h, hallowed]
  simp only [hrank, hjoin, hpasses, Bool.false_eq_true, if_false]

/-- The home device holds a join. -/
def joinHeld (g rank : Nat) (j : Join) (s : State) : State := setGroup g (fun x => { x with homeJoins := tset x.homeJoins rank j }) s

section
variable {s : State} {g rank : Nat} {j : Join}

theorem groupOf_joinHeld (hlisted : (tget s.coll.groups g).isSome = true) :
    groupOf (joinHeld g rank j s) g = { groupOf s g with homeJoins := tset (groupOf s g).homeJoins rank j } := groupOf_setGroup hlisted _

theorem exec_joinArrival (hrun : running s = true) (hlive : (groupOf s g).state ≠ .free) (hown : isOwn s (homeOf (groupOf s g)) = true)
    (hrank : rank < (groupOf s g).n) (hmember : nth (groupOf s g).members rank = j.ep) :
    exec (.joinArrival g rank j) s = .next (
      if (groupOf (joinHeld g rank j s) g).homeJoins.length = (groupOf s g).n then
        (joinHeld g rank j s).emits ((memberDevices (groupOf s g)).map fun d =>
          .coll 2 g d ((groupOf (joinHeld g rank j s) g).homeJoins.flatMap fun x => joinArgs x.1 x.2))
      else joinHeld g rank j s) := by
  have hgroup := groupOf_joinHeld (rank := rank) (j := j) (listed_of_live hlive)
  have hdevices : memberDevices (groupOf (joinHeld g rank j s) g) = memberDevices (groupOf s g) := by rw [hgroup]; rfl
  have hsize : (groupOf (joinHeld g rank j s) g).n = (groupOf s g).n := by rw [hgroup]; rfl
  show execJoinArrival g rank j s = _
  unfold joinHeld at hdevices hsize ⊢
  simp only [execJoinArrival, hrun, live_of hlive, hown, Nat.blt_eq.mpr hrank, hmember, beq_self_eq_true, Bool.and_self, when_true, hdevices, hsize,
    beq_iff_eq]

end

/-! ## The member table -/

theorem openEdges_coll (g : Nat) (s : State) : (openEdges g s).coll = s.coll ∧ (openEdges g s).dict = s.dict := by
  have frame {α : Type} {f : State → α → State} (hf : ∀ s a, onlyChanges [.ar, .conn, .obs, .counts] s (f s a)) := foldl_onlyChanges hf
  have hframe : onlyChanges [.ar, .conn, .obs, .counts] s (openEdges g s) := by
    refine frame (fun s e => frame (fun s k => frame (fun s die => ?_) _ s) _ s) _ s
    split
    · exact onlyChanges_refl _ _
    · split
      · simp [onlyChanges_iff, addEdge]
      · exact onlyChanges_mono (record_onlyChanges (by decide) _ _ _ _ _) fun a => by cases a <;> decide
  exact ⟨hframe .coll rfl, hframe .dict rfl⟩

/-- The member table is held, and the connections it asks for are opened as far as they can be. -/
def tableConns (g : Nat) (table : List Join) (s : State) : Bool × Tab Nat × State :=
  openAll g 0 (groupOf s g).conns (connPairs (groupOf s g)) (setGroup g (fun x => { x with table := table }) s)

def connsHeld (g : Nat) (table : List Join) (s : State) : State :=
  setGroup g (fun gr => { gr with conns := (tableConns g table s).2.1 }) (tableConns g table s).2.2

def tableTaken (g : Nat) (table : List Join) (s : State) : State :=
  openEdges g (if (tableConns g table s).1 then connsHeld g table s
    else record 3 0x5001 0xF (firstEngine (connsHeld g table s)) [g] (connsHeld g table s))

theorem exec_memberTable {s : State} {g : Nat} {table : List Join} (hrun : running s = true) (hlive : (groupOf s g).state ≠ .free)
    (hlen : table.length = (groupOf s g).n) : exec (.memberTable g table) s = .next (tableTaken g table s) := by
  show execMemberTable g table s = _
  simp only [execMemberTable, hrun, live_of hlive, hlen, beq_self_eq_true, Bool.and_self, when_true]
  rfl

section
variable (g : Nat) (table : List Join) (s : State)

theorem groupOf_tableTaken_eq (k : Nat) : groupOf (tableTaken g table s) k = groupOf (connsHeld g table s) k := by
  have hedges := openEdges_coll g (if (tableConns g table s).1 then connsHeld g table s
    else record 3 0x5001 0xF (firstEngine (connsHeld g table s)) [g] (connsHeld g table s))
  refine groupOf_congr ((congrArg CollSt.groups hedges.1).trans ?_) (hedges.2.trans ?_) k <;> split <;> simp

variable {g s}

theorem groupOf_tableTaken (hlisted : (tget s.coll.groups g).isSome = true) :
    ∃ conns ts, groupOf (tableTaken g table s) g = { groupOf s g with table := table, conns := conns, transfers := ts } := by
  have hopened : keepsColl (setGroup g (fun x => { x with table := table }) s) (tableConns g table s).2.2 := openAll_keepsColl _ _ _ _ _
  have hset : (tget (setGroup g (fun x => { x with table := table }) s).coll.groups g).isSome = true := (isSome_tget_tmod _ _ _ _).trans hlisted
  obtain ⟨ts, hts⟩ := groupOf_of_keepsColl hopened g
  refine ⟨(tableConns g table s).2.1, ts, ?_⟩
  rw [groupOf_tableTaken_eq, connsHeld, groupOf_setGroup ((isSome_of_keepsColl hopened g).trans hset), hts, groupOf_setGroup hlisted]

theorem groupOf_tableTaken_ne {k : Nat} (hk : k ≠ g) : ∃ ts, groupOf (tableTaken g table s) k = { groupOf s k with transfers := ts } := by
  obtain ⟨ts, hts⟩ := groupOf_of_keepsColl (openAll_keepsColl g 0 (connPairs (groupOf s g)) (groupOf s g).conns
    (setGroup g (fun x => { x with table := table }) s)) k
  refine ⟨ts, ?_⟩
  rw [groupOf_tableTaken_eq, connsHeld, groupOf_setGroup_ne hk, tableConns, hts, groupOf_setGroup_ne hk]

end

/-! ## Ready -/

theorem openEdge_onlyChanges (x : Nat × Nat × Nat × Nat) (s : State) : onlyChanges [.conn, .free] s (openEdge x s) := by
  unfold openEdge
  dsimp only
  split
  · exact onlyChanges_refl _ _
  · split
    · exact onlyChanges_refl _ _
    · simp [onlyChanges_iff, newEnd]

/-- The group's edges that are told their other end open. -/
def edgesTold (g : Nat) (edges : List (Nat × Nat × Nat × Nat)) (s : State) : State :=
  (edges.filter fun x => (s.ar.edges.filter fun e => e.2.group == g).any fun e => e.1 == x.1).foldl (fun s x => openEdge x s) s

theorem edgesTold_onlyChanges (g : Nat) (edges : List (Nat × Nat × Nat × Nat)) (s : State) : onlyChanges [.conn, .free] s (edgesTold g edges s) :=
  foldl_onlyChanges (fun t x => openEdge_onlyChanges x t) _ s

section
variable {s : State} {g : Nat} {edges : List (Nat × Nat × Nat × Nat)}

theorem groupOf_edgesTold (k : Nat) : groupOf (edgesTold g edges s) k = groupOf s k :=
  have hframe := edgesTold_onlyChanges g edges s
  groupOf_congr (congrArg CollSt.groups (hframe .coll rfl)) (hframe .dict rfl) k

/-- The group is Ready, and READY goes out for the launches it held. -/
def groupMadeReady (g : Nat) (edges : List (Nat × Nat × Nat × Nat)) (s : State) : State :=
  sendReady g (add32 (groupOf s g).retired 1) (setGroup g (fun x => { x with state := .ready }) (edgesTold g edges s))

theorem exec_groupReady (hrun : running s = true) (hforming : (groupOf s g).state = .forming) (htable : (groupOf s g).table.length = (groupOf s g).n)
    (hsome : (groupOf s g).n ≠ 0) (hconns : connsOpen s (groupOf s g) = true) (hedges : edgesOpen s g = true)
    (hjoins : (groupOf s g).joins.length = (localRanks s (groupOf s g)).length)
    (htold : ∀ e ∈ s.ar.edges, e.2.group = g → ∃ x ∈ edges, x.1 = e.1) :
    exec (.groupReady g edges) s = .next (groupMadeReady g edges s) := by
  have hnone : (s.ar.edges.filter fun e => e.2.group == g).find? (fun e => !(edges.any fun x => x.1 == e.1)) = none := by
    simpa [List.find?_eq_none] using htold
  have hn : ((groupOf s g).n != 0) = true := bne_iff_ne.mpr hsome
  show execGroupReady g edges s = _
  simp only [execGroupReady, hrun, hforming, htable, hn, hconns, hedges, hjoins, beq_self_eq_true, Bool.and_self, when_true, hnone]
  rfl

theorem groupOf_groupMadeReady (hlisted : (tget s.coll.groups g).isSome = true) :
    ∃ sent, groupOf (groupMadeReady g edges s) g = { groupOf s g with state := .ready, sent := sent } := by
  have htold : (tget (edgesTold g edges s).coll.groups g).isSome = true := by
    rw [show (edgesTold g edges s).coll = s.coll from edgesTold_onlyChanges g edges s .coll rfl]; exact hlisted
  obtain ⟨sent, hsent⟩ := groupOf_sendReady (add32 (groupOf s g).retired 1) (g := g)
    (s := setGroup g (fun x => { x with state := .ready }) (edgesTold g edges s)) ((isSome_tget_tmod _ _ _ _).trans htold)
  refine ⟨sent, ?_⟩
  rw [groupMadeReady, hsent, groupOf_setGroup htold, groupOf_edgesTold]

theorem groupOf_groupMadeReady_ne (hlisted : (tget s.coll.groups g).isSome = true) {k : Nat} (hk : k ≠ g) :
    groupOf (groupMadeReady g edges s) k = groupOf s k :=
  have hframe := edgesTold_onlyChanges g edges s
  (sendReady_writesGroup _ (writesGroup_setGroup _ (writesGroup_of_groups (congrArg CollSt.groups (hframe .coll rfl)) (hframe .dict rfl)
    (writesGroup_refl hlisted)))).2 k hk

end

/-! ## Permutation tables -/

/-- A permutation table is bound to a group. -/
def permBound (k g : Nat) (ranks : List Nat) (s : State) : State :=
  { s with coll := { s.coll with perms := tset s.coll.perms k { group := some g, ranks := ranks } } }

section
variable {s : State} {r : Request} {c : Cmd} (hwrite : writesEntry s r c 0x5111 0 = true) {d : List Byte}
  (hdata : writeArray c (u16Bytes (tgetD s.coll.perms (selOf s (senderOf s r).num (dkey 0x5110 0)) {}).ranks) = some d)
include hwrite hdata

theorem exec_permTable : exec .permTable s =
    .next (if (groupOf s (groupSel s (senderOf s r))).state == .free || !isPermutation (groupOf s (groupSel s (senderOf s r))).n (u16s d) then
      finish rInvalid [] s
    else finish rDone [] (permBound (selOf s (senderOf s r).num (dkey 0x5110 0)) (groupSel s (senderOf s r)) (u16s d) s)) := by
  refine congrArg Host.Outcome.next ((onWrite_of_writesEntry (p := fun _ => true) hwrite (Nat.le_refl _) (Nat.le_refl _) rfl _).trans ?_)
  simp only [hdata]
  split <;> rfl

end

/-- Settles O31, command by command. -/
theorem groupsFormAndDissolve : Obligations.GroupsFormAndDissolve := by
  refine ⟨fun s r c hwrite => ⟨fun hcreate hfree => ⟨fun hbad => ?_, fun hgood hgen => ⟨fun hfull => ?_, fun hjoined hroom => ?_⟩⟩,
      fun hdelete => ⟨fun hfree => ?_, fun hlive => ?_⟩⟩,
    fun s r c k hwrite => ⟨exec_groupJoin_of_other_partition hwrite, fun hallowed hown hlive hrank => ⟨fun hok => ?_, fun hbad => ?_⟩⟩,
    fun s r c k j hwrite hrank hjoin hallowed => ?_, fun s g rank j hrun hlive hown hrank hmember hlisted => ?_,
    fun s g table hrun hforming hlen => ?_, fun s g edges hrun hforming htable hsome hconns hedges hjoins htold => ?_,
    fun s r c d hwrite hdata => ⟨fun hlive hperm => ?_, fun hbad => ?_⟩⟩
  · rw [exec_groupCmdCreate hwrite hcreate, createGroup_of_bad hfree hbad]
  · rw [exec_groupCmdCreate hwrite hcreate, createGroup_of_no_room hfree hgood hgen hfull]
  · refine ⟨groupCreated (groupSel s (senderOf s r)) s, ?_, ?_⟩
    · rw [exec_groupCmdCreate hwrite hcreate, createGroup_of_room hfree hgood hgen hjoined hroom]
    · rw [groupOf_groupCreated]
      exact ⟨rfl, rfl, rfl, rfl, rfl, fun k => groupOf_groupCreated_ne _ s, groupCreated_onlyChanges _ s⟩
  · rw [exec_groupCmdDelete hwrite hdelete, deleteGroup_of_free hfree]
  · refine ⟨groupFreed (groupSel s (senderOf s r)) s, ?_, ?_⟩
    · rw [exec_groupCmdDelete hwrite hdelete, deleteGroup_of_live hlive]
    · rw [groupOf_groupFreed]
      exact ⟨rfl, rfl, rfl, rfl, groupFreed_edges _ s, groupFreed_slots _ s, groupFreed_stores _ s, groupFreed_perms _ s⟩
  · exact (exec_groupJoin hwrite hallowed hown hlive hrank).trans (congrArg _ (if_pos hok))
  · exact (exec_groupJoin hwrite hallowed hown hlive hrank).trans (congrArg _ (if_neg (by rw [Bool.not_eq_true]; exact hbad)))
  · have hlisted : (tget s.coll.groups (field c.data 0 2)).isSome = true := by
      cases hg : tget s.coll.groups (field c.data 0 2) with
      | some _ => rfl
      | none => simp [groupOf, tgetD_eq, hg] at hjoin
    obtain ⟨ts, hgroup⟩ := groupOf_leaveMember (k := k) hlisted
    refine ⟨_, exec_groupLeave hwrite hrank hjoin hallowed, ?_⟩
    rw [hgroup]
    refine ⟨tget_tdel _ _, ?_, rfl, fun x hx => ?_, rfl, rfl, fun i hi => ?_, leaveMember_onlyChanges _ k s⟩
    · simp
    · simpa using (List.mem_filter.mp hx).2
    · obtain ⟨ts, hother⟩ := groupOf_leaveMember_ne (s := s) (k := k) hi
      rw [hother]
      exact ⟨rfl, rfl⟩
  · have hheld := groupOf_joinHeld (rank := rank) (j := j) hlisted
    rw [exec_joinArrival hrun hlive hown hrank hmember]
    split
    · next hall =>
      refine ⟨_, rfl, congrArg Group.homeJoins hheld, fun hnot => absurd hall hnot, fun _ => rfl, ?_⟩
      simp [onlyChanges_iff, joinHeld]
    · next hnot =>
      refine ⟨_, rfl, congrArg Group.homeJoins hheld, fun _ => rfl, fun hall => absurd hall hnot, ?_⟩
      simp [onlyChanges_iff, joinHeld]
  · have hlive : (groupOf s g).state ≠ .free := by simp [hforming]
    obtain ⟨conns, ts, hgroup⟩ := groupOf_tableTaken table (listed_of_live hlive)
    refine ⟨_, exec_memberTable hrun hlive hlen, ?_⟩
    rw [hgroup]
    refine ⟨rfl, hforming, rfl, fun k hk => ?_⟩
    obtain ⟨ts, hother⟩ := groupOf_tableTaken_ne table (s := s) hk
    rw [hother]
    exact ⟨rfl, rfl⟩
  · have hlisted := listed_of_live (s := s) (g := g) (by simp [hforming])
    obtain ⟨sent, hgroup⟩ := groupOf_groupMadeReady (edges := edges) hlisted
    refine ⟨_, exec_groupReady hrun hforming htable hsome hconns hedges hjoins htold, ?_⟩
    rw [hgroup]
    exact ⟨rfl, rfl, rfl, fun k hk => groupOf_groupMadeReady_ne hlisted hk⟩
  · exact (exec_permTable hwrite hdata).trans (congrArg _ (if_neg (by simp [hlive, hperm])))
  · exact (exec_permTable hwrite hdata).trans (congrArg _ (if_pos (by simpa using hbad)))

end Sys2Proof.Machine
end

section
/-! SUPPORT. Launches, and what READY, START, ABORT and the end of a sequence do with them (R199 to R204, R221, R224, R225). -/

namespace Sys2Proof.Machine

/-! ## A COLL_STEP is issued -/

section
variable {s : State} {wq : Nat} {w : Wqe} (hnext : nextWqe s wq = some w) (hop : w.opcode = opCollStep) (hissuing : issuing s = true)
  (hissuable : issuable s wq = true) (hturn : hasTurn s wq = true)
include hnext hop hissuing hissuable hturn

theorem exec_collStep_of_failed (hcheck : collCheck s wq w ≠ stOk) :
    exec (.collStep wq) s = .next (settleWaits (endNext wq (collCheck s wq w) (takeTurn wq (leaveIdle s)))) := by
  show execCollStep wq s = _
  simp [execCollStep, issueWith, hnext, opIs_of hop, hissuing, hissuable, hturn, hcheck]

theorem exec_collStep_of_checked (hcheck : collCheck s wq w = stOk) (hfree : holdsNow s wq w = false) :
    exec (.collStep wq) s =
      .next (registerLaunch wq w (wqOf (takeTurn wq (leaveIdle s)) wq).consumer (takeTurn wq (leaveIdle s))) := by
  show execCollStep wq s = _
  simp [execCollStep, issueWith, hnext, opIs_of hop, hissuing, hissuable, hturn, hcheck, hfree]

end

/-! ## The coordinator -/

/-- The READYs held for a sequence. -/
def readysOf (s : State) (g seq : Nat) : List ReadyMsg := (groupOf s g).readys.filter fun r => r.seq == seq

/-- The coordinator holds a READY, in place of the one its device sent before. -/
def readyHeld (g : Nat) (m : ReadyMsg) (s : State) : State :=
  setGroup g (fun x => { x with readys := x.readys.filter (fun r => !(r.seq == m.seq && r.dev == m.dev)) ++ [m] }) s

section
variable {s : State} {g seq : Nat} {r0 : ReadyMsg} {rest : List ReadyMsg} (hheld : readysOf s g seq = r0 :: rest)
include hheld

theorem judgeReady_of_fenced (hkind : r0.sig.kind = ckScheduled)
    (hfenced : ∃ x ∈ (groupOf s g).members, s.fab.fenced.contains x = true) : judgeReady g seq s = sendAbort g seq true s := by
  have hany : (groupOf s g).members.any (fun m => s.fab.fenced.contains m) = true := List.any_eq_true.mpr hfenced
  unfold readysOf at hheld
  simp only [judgeReady, hheld, hkind, hany, beq_self_eq_true, Bool.and_self, if_true]

variable (hfree : ∀ x ∈ (groupOf s g).members, s.fab.fenced.contains x = false)
include hfree

/-- With no member fenced, the READYs wait for each other and must agree. -/
theorem judgeReady_of_unfenced : judgeReady g seq s =
    if !((readyDevices s (groupOf s g)).all fun d => (readysOf s g seq).any fun r => r.dev == d) then s
    else if !((readysOf s g seq).all fun x => x.sig == r0.sig) then
      sendAbort g seq false (if (readysOf s g seq).all fun x => x.sig.cfgCheck == r0.sig.cfgCheck then s
        else record 3 0x5004 0xF (firstEngine s) [g, seq] s)
    else judgeReady g seq s := by
  have hany : (groupOf s g).members.any (fun m => s.fab.fenced.contains m) = false := by
    rw [← Bool.not_eq_true, List.any_eq_true]
    rintro ⟨x, hx, hfenced⟩
    exact Bool.false_ne_true ((hfree x hx).symm.trans hfenced)
  rw [readysOf] at hheld
  simp only [judgeReady, readysOf, hheld, hany, Bool.and_false, Bool.false_eq_true, if_false]
  split
  · rfl
  · split <;> rfl

theorem judgeReady_of_missing (hmissing : ∃ d ∈ readyDevices s (groupOf s g), ∀ r ∈ readysOf s g seq, r.dev ≠ d) :
    judgeReady g seq s = s := by
  obtain ⟨d, hd, hnone⟩ := hmissing
  rw [judgeReady_of_unfenced hheld hfree, if_pos]
  simp only [Bool.not_eq_true', List.all_eq_false, List.any_eq_true, beq_iff_eq]
  exact ⟨d, hd, fun ⟨r, hr, hdev⟩ => hnone r hr hdev⟩

variable (hall : ∀ d ∈ readyDevices s (groupOf s g), ∃ r ∈ readysOf s g seq, r.dev = d)
include hall

theorem judgeReady_of_differing (hdiffer : ∃ r ∈ readysOf s g seq, r.sig ≠ r0.sig)
    (hcheck : ∀ r ∈ readysOf s g seq, r.sig.cfgCheck = r0.sig.cfgCheck) : judgeReady g seq s = sendAbort g seq false s := by
  rw [judgeReady_of_unfenced hheld hfree, if_neg (by simpa using hall), if_pos (by simpa using hdiffer), if_pos (by simpa using hcheck)]

omit hfree in
/-- START goes to every member device. -/
theorem judgeReady_of_agreeing (hagree : ∀ r ∈ readysOf s g seq, r.sig = r0.sig) (hkind : r0.sig.kind ≠ ckScheduled) :
    judgeReady g seq s = (setGroup g (fun x => { x with readys := x.readys.filter fun r => r.seq != seq }) s).emits
      ((memberDevices (groupOf s g)).map fun d => .coll 4 g d [seq, 0]) := by
  have hready : ((readyDevices s (groupOf s g)).all fun d => (readysOf s g seq).any fun r => r.dev == d) = true := by simpa using hall
  have hsame : ((readysOf s g seq).all fun x => x.sig == r0.sig) = true := by simpa using hagree
  have hdynamic : (r0.sig.kind == ckScheduled) = false := by simpa using hkind
  rw [readysOf] at hheld
  simp only [readysOf, hheld] at hready hsame
  simp only [judgeReady, hheld, hready, hsame, hdynamic, Bool.false_and, Bool.false_eq_true, Bool.not_true, if_false]

end

section
variable {s : State} {g dev seq : Nat} {sig : Signature} (hrun : running s = true) (hlive : (groupOf s g).state ≠ .free)
  (hown : isOwn s (homeOf (groupOf s g)) = true)
include hrun hlive hown

theorem exec_ready (hdevice : (memberDevices (groupOf s g)).contains (epDev dev) = true) (hahead : 0 < sub32 seq (groupOf s g).retired)
    (hnear : sub32 seq (groupOf s g).retired ≤ 16) (hopen : (groupOf s g).aborted.contains seq = false) :
    exec (.ready g dev seq sig) s =
      .next (judgeReady g seq (readyHeld g { dev := epDev dev, seq := seq, sig := sig, at_ := s.time.now } s)) := by
  show execReady g dev seq sig s = _
  simp only [execReady, hrun, live_of hlive, hown, hdevice, Nat.blt_eq.mpr hahead, Nat.ble_eq.mpr hnear, hopen, Bool.not_false, Bool.and_self,
    when_true, readyHeld]

theorem exec_coordinatorTimeout {r : ReadyMsg} (hheld : (groupOf s g).readys.find? (fun r => r.seq == seq) = some r)
    (hdue : due s r.at_ ((groupOf s g).timeout * ms) = true) : exec (.coordinatorTimeout g seq) s = .next (sendAbort g seq false s) := by
  show execCoordinatorTimeout g seq s = _
  simp only [execCoordinatorTimeout, hrun, live_of hlive, hown, hheld, hdue, Bool.and_self, when_true]

end

theorem groupOf_readyHeld {s : State} {g : Nat} (m : ReadyMsg) (hlive : (groupOf s g).state ≠ .free) : groupOf (readyHeld g m s) g =
    { groupOf s g with readys := (groupOf s g).readys.filter (fun r => !(r.seq == m.seq && r.dev == m.dev)) ++ [m] } :=
  groupOf_setGroup (listed_of_live hlive) _

section
variable {s : State} {g : Nat} {m : ReadyMsg} (hlive : (groupOf s g).state ≠ .free)
include hlive

theorem members_readyHeld : (groupOf (readyHeld g m s) g).members = (groupOf s g).members := by rw [groupOf_readyHeld m hlive]

theorem readyDevices_readyHeld : readyDevices (readyHeld g m s) (groupOf (readyHeld g m s) g) = readyDevices s (groupOf s g) := by
  simp only [readyDevices, members_readyHeld hlive]; rfl

theorem mem_readysOf_readyHeld : m ∈ readysOf (readyHeld g m s) g m.seq := by
  simp [readysOf, groupOf_readyHeld m hlive]

theorem exists_first_readyHeld : ∃ r0 rest, readysOf (readyHeld g m s) g m.seq = r0 :: rest ∧ r0 ∈ readysOf (readyHeld g m s) g m.seq := by
  obtain ⟨r0, rest, hheld⟩ := List.exists_cons_of_ne_nil (List.ne_nil_of_mem (mem_readysOf_readyHeld hlive (m := m)))
  exact ⟨r0, rest, hheld, by rw [hheld]; exact List.mem_cons_self⟩

theorem readyHeld_of_fenced (hfenced : ∃ x ∈ (groupOf s g).members, s.fab.fenced.contains x = true)
    (hkind : ∀ r ∈ readysOf (readyHeld g m s) g m.seq, r.sig.kind = ckScheduled) :
    judgeReady g m.seq (readyHeld g m s) = sendAbort g m.seq true (readyHeld g m s) := by
  obtain ⟨r0, rest, hheld, hr0⟩ := exists_first_readyHeld hlive (m := m)
  exact judgeReady_of_fenced hheld (hkind r0 hr0) (members_readyHeld hlive ▸ hfenced)

variable (hfree : ∀ x ∈ (groupOf s g).members, s.fab.fenced.contains x = false)
include hfree

theorem readyHeld_of_missing (hmissing : ∃ d ∈ readyDevices s (groupOf s g), ∀ r ∈ readysOf (readyHeld g m s) g m.seq, r.dev ≠ d) :
    judgeReady g m.seq (readyHeld g m s) = readyHeld g m s := by
  obtain ⟨r0, rest, hheld, -⟩ := exists_first_readyHeld hlive (m := m)
  exact judgeReady_of_missing hheld (members_readyHeld hlive ▸ hfree) (readyDevices_readyHeld hlive ▸ hmissing)

variable (hall : ∀ d ∈ readyDevices s (groupOf s g), ∃ r ∈ readysOf (readyHeld g m s) g m.seq, r.dev = d)
include hall

theorem readyHeld_of_differing (hdiffer : ∃ r ∈ readysOf (readyHeld g m s) g m.seq, r.sig ≠ m.sig)
    (hcheck : ∀ r ∈ readysOf (readyHeld g m s) g m.seq, r.sig.cfgCheck = m.sig.cfgCheck) :
    judgeReady g m.seq (readyHeld g m s) = sendAbort g m.seq false (readyHeld g m s) := by
  obtain ⟨r0, rest, hheld, hr0⟩ := exists_first_readyHeld hlive (m := m)
  refine judgeReady_of_differing hheld (members_readyHeld hlive ▸ hfree) (readyDevices_readyHeld hlive ▸ hall) ?_
    fun r hr => (hcheck r hr).trans (hcheck r0 hr0).symm
  obtain ⟨r, hr, hdiffer⟩ := hdiffer
  by_cases h0 : m.sig = r0.sig
  · exact ⟨r, hr, h0 ▸ hdiffer⟩
  · exact ⟨m, mem_readysOf_readyHeld hlive, h0⟩

omit hfree in
theorem readyHeld_of_agreeing (hagree : ∀ r ∈ readysOf (readyHeld g m s) g m.seq, r.sig = m.sig) (hkind : m.sig.kind ≠ ckScheduled) :
    (judgeReady g m.seq (readyHeld g m s)).out = ((memberDevices (groupOf s g)).map fun d => .coll 4 g d [m.seq, 0]).reverse ++ s.out ∧
      onlyChanges [.coll, .out] s (judgeReady g m.seq (readyHeld g m s)) := by
  obtain ⟨r0, rest, hheld, hr0⟩ := exists_first_readyHeld hlive (m := m)
  have hsig := hagree r0 hr0
  have hdevices : memberDevices (groupOf (readyHeld g m s) g) = memberDevices (groupOf s g) := by simp only [memberDevices, members_readyHeld hlive]
  rw [judgeReady_of_agreeing hheld (readyDevices_readyHeld hlive ▸ hall) (fun r hr => (hagree r hr).trans hsig.symm) (hsig ▸ hkind), hdevices]
  exact ⟨rfl, by simp [onlyChanges_iff, readyHeld]⟩

end

theorem sendAbort_onlyChanges (g seq : Nat) (fenced : Bool) (s : State) : onlyChanges [.coll, .out] s (sendAbort g seq fenced s) := by
  simp [onlyChanges_iff, sendAbort]

/-! ## START -/

section
variable {s : State} {g seq t src : Nat}

theorem exec_start_of_elsewhere (hsrc : epDev src ≠ homeOf (groupOf s g)) : exec (.start g seq t src) s = .next s := by
  show execStart g seq t src s = _
  simp only [execStart, beq_false_of_ne hsrc, Bool.and_false, when_false]

variable (hrun : running s = true) (hlive : (groupOf s g).state ≠ .free) (hsrc : epDev src = homeOf (groupOf s g))
include hrun hlive hsrc

theorem exec_start_of_dynamic (hopen : ∃ l ∈ (groupOf s g).launches, l.seq = seq ∧ l.hasEnded = false)
    (hkind : ∀ l ∈ (groupOf s g).launches, l.seq = seq → l.sig.kind ≠ ckScheduled) :
    exec (.start g seq t src) s = .next (startDynamic g seq s) := by
  have hany : (groupOf s g).launches.any (fun l => l.seq == seq && !l.hasEnded) = true := by simpa using hopen
  have hnone : (groupOf s g).launches.any (fun l => l.seq == seq && l.sig.kind == ckScheduled) = false := by simpa using hkind
  show execStart g seq t src s = _
  simp only [execStart, hrun, live_of hlive, hsrc, hany, hnone, beq_self_eq_true, Bool.and_self, when_true, if_true, Bool.false_eq_true, if_false]

theorem exec_start_of_scheduled {l : Launch} {rest : List Launch}
    (hopen : (groupOf s g).launches.filter (fun l => l.seq == seq && !l.hasEnded && !l.started) = l :: rest) (hkind : l.sig.kind = ckScheduled) :
    exec (.start g seq t src) s = .next (armRun g seq t s) := by
  have hl : l ∈ (groupOf s g).launches.filter (fun l => l.seq == seq && !l.hasEnded && !l.started) := by simp [hopen]
  simp only [List.mem_filter, Bool.and_eq_true, beq_iff_eq, Bool.not_eq_true'] at hl
  obtain ⟨hmem, ⟨hseq, hended⟩, -⟩ := hl
  have hany : (groupOf s g).launches.any (fun l => l.seq == seq && !l.hasEnded) = true :=
    List.any_eq_true.mpr ⟨l, hmem, by simp [hseq, hended]⟩
  have hsched : (groupOf s g).launches.any (fun l => l.seq == seq && l.sig.kind == ckScheduled) = true :=
    List.any_eq_true.mpr ⟨l, hmem, by simp [hseq, hkind]⟩
  show execStart g seq t src s = _
  simp only [execStart, hrun, live_of hlive, hsrc, hany, hsched, beq_self_eq_true, Bool.and_self, when_true, if_true]

theorem exec_start_of_fenced (hended : ∀ l ∈ (groupOf s g).launches, l.seq = seq → l.hasEnded = true)
    (hseq : seq = add32 (groupOf s g).retired 1)
    (hfenced : ∀ r ∈ localRanks s (groupOf s g), s.fab.fenced.contains (nth (groupOf s g).members r) = true) :
    exec (.start g seq t src) s = .next (retire g seq s) := by
  have hnone : (groupOf s g).launches.any (fun l => l.seq == seq && !l.hasEnded) = false := by simpa using hended
  have hall : (localRanks s (groupOf s g)).all (fun r => s.fab.fenced.contains (nth (groupOf s g).members r)) = true := List.all_eq_true.mpr hfenced
  show execStart g seq t src s = _
  simp only [execStart, hrun, live_of hlive, hsrc, hnone, hall, ← hseq, beq_self_eq_true, Bool.and_self, when_true, if_true,
    Bool.false_eq_true, if_false]

end

/-- A run whose instant is less than 1 µs ahead is aborted (R221). -/
theorem armRun_of_late {s : State} {g seq t : Nat} {l : Launch} {rest : List Launch}
    (hopen : (groupOf s g).launches.filter (fun l => l.seq == seq && !l.hasEnded && !l.started) = l :: rest) (hlate : t < s.time.now + us) :
    armRun g seq t s = s.emit (.coll 5 g (homeOf (groupOf s g)) [seq, 0]) := by
  simp only [armRun, hopen, if_pos hlate]

/-! ## ABORT -/

/-- The launches of a sequence that have not ended. -/
def openLaunches (s : State) (g seq : Nat) : List Launch := (groupOf s g).launches.filter fun l => l.seq == seq && !l.hasEnded

/-- The launches of a sequence end, by its fence or as mismatched. -/
def launchesEnd (g seq : Nat) (fenced : Bool) (s : State) : State :=
  (openLaunches s g seq).foldl (fun s l => if fenced then endStep g l.wq l.idx { status := stMemberFenced } s else mismatch g l.wq l.idx s) s

/-- A sequence is ahead of RETIRED, by 16 at most. -/
def isAhead (s : State) (g seq : Nat) : Bool :=
  let d := sub32 seq (groupOf s g).retired
  Nat.blt 0 d && Nat.ble d 16

/-- Nothing is held for the sequence any more. -/
def sequenceCleared (g seq : Nat) (ahead : Bool) (s : State) : State :=
  setGroup g (fun x => { x with
    retired := if ahead then seq else x.retired, launches := x.launches.filter fun l => l.seq != seq, sent := x.sent.filter (· != seq),
    readys := x.readys.filter (fun r => r.seq != seq), aborted := x.aborted.filter (· != seq) }) s

theorem abortSeq_eq (g seq : Nat) (fenced : Bool) (s : State) : abortSeq g seq fenced s =
    let t := sequenceCleared g seq (isAhead s g seq) (dropRun g seq (launchesEnd g seq fenced s))
    if isAhead s g seq then sendReady g (add32 seq 1) (bumpColl (firstEngine t) 0xFF 2 1 t) else t := rfl

section
variable {g : Nat} {s : State} (seq : Nat) (fenced : Bool)

theorem launchesEnd_onlyChanges : onlyChanges stepEndAreas s (launchesEnd g seq fenced s) :=
  foldl_onlyChanges (fun t l => by split; exacts [endStep_onlyChanges _ _ _ _ _, mismatch_onlyChanges _ _ _ _]) _ s

variable (hlive : (groupOf s g).state ≠ .free)
include hlive

theorem launchesEnd_writesGroup : writesGroup g s (launchesEnd g seq fenced s) :=
  foldl_writesGroup (fun t l ht => by split; exacts [endStep_writesGroup _ _ _ ht, mismatch_writesGroup _ _ ht]) _
    (writesGroup_refl (listed_of_live hlive))

theorem dropRun_launchesEnd_writesGroup : writesGroup g s (dropRun g seq (launchesEnd g seq fenced s)) :=
  writesGroup_of_groups rfl rfl (launchesEnd_writesGroup seq fenced hlive)

theorem cleared_writesGroup : writesGroup g s (sequenceCleared g seq (isAhead s g seq) (dropRun g seq (launchesEnd g seq fenced s))) :=
  writesGroup_setGroup _ (dropRun_launchesEnd_writesGroup seq fenced hlive)

theorem abortSeq_writesGroup : writesGroup g s (abortSeq g seq fenced s) := by
  have hcleared := cleared_writesGroup seq fenced hlive
  rw [abortSeq_eq]
  dsimp only
  split
  · exact sendReady_writesGroup _ (writesGroup_of_groups (by simp) (by simp) hcleared)
  · exact hcleared

theorem groupOf_abortSeq : ∃ sent, groupOf (abortSeq g seq fenced s) g =
    { groupOf (sequenceCleared g seq (isAhead s g seq) (dropRun g seq (launchesEnd g seq fenced s))) g with sent := sent } := by
  have hcleared := cleared_writesGroup seq fenced hlive
  rw [abortSeq_eq]
  generalize sequenceCleared g seq (isAhead s g seq) (dropRun g seq (launchesEnd g seq fenced s)) = t at hcleared
  dsimp only
  split
  · obtain ⟨sent, hsent⟩ := groupOf_sendReady (add32 seq 1) (s := bumpColl (firstEngine t) 0xFF 2 1 t) (by simpa using hcleared.1)
    exact ⟨sent, by rw [hsent, groupOf_congr (t := bumpColl _ _ _ _ t) (s := t) (by simp) (by simp)]⟩
  · exact ⟨_, rfl⟩

theorem abortSeq_retired (hahead : isAhead s g seq = true) : (groupOf (abortSeq g seq fenced s) g).retired = seq := by
  obtain ⟨sent, hgroup⟩ := groupOf_abortSeq seq fenced hlive
  rw [hgroup, sequenceCleared, groupOf_setGroup (dropRun_launchesEnd_writesGroup seq fenced hlive).1]
  simp [hahead]

theorem abortSeq_launches : ∀ l ∈ (groupOf (abortSeq g seq fenced s) g).launches, l.seq ≠ seq := by
  obtain ⟨sent, hgroup⟩ := groupOf_abortSeq seq fenced hlive
  rw [hgroup, sequenceCleared, groupOf_setGroup (dropRun_launchesEnd_writesGroup seq fenced hlive).1]
  simp

omit hlive in
theorem out_subset_abortSeq : s.out ⊆ (abortSeq g seq fenced s).out := by
  have hcleared : (sequenceCleared g seq (isAhead s g seq) (dropRun g seq (launchesEnd g seq fenced s))).out = s.out :=
    (launchesEnd_onlyChanges seq fenced) .out rfl
  rw [abortSeq_eq]
  dsimp only
  split
  · rw [← hcleared, ← bumpColl_out]
    exact out_subset_sendReady _ _ _
  · exact hcleared ▸ List.Subset.refl _

end

/-- The home device passes an ABORT on to every other member device (R204, R221). -/
def abortPassedOn (g seq : Nat) (fenced : Bool) (s : State) : State :=
  if isOwn s (homeOf (groupOf s g)) && !(groupOf s g).aborted.contains seq then
    s.emits (((memberDevices (groupOf s g)).filter fun x => x != homeOf (groupOf s g)).map fun x => .coll 5 g x [seq, b2n fenced]) else s

section
variable {g : Nat} {s : State} (seq : Nat) (fenced : Bool)

theorem exec_abort (hrun : running s = true) (hlive : (groupOf s g).state ≠ .free) :
    exec (.abort g seq fenced) s = .next (abortSeq g seq fenced (abortPassedOn g seq fenced s)) := by
  show execAbort g seq fenced s = _
  simp only [execAbort, hrun, live_of hlive, Bool.and_self, when_true, abortPassedOn]

theorem abortPassedOn_onlyChanges : onlyChanges [.out] s (abortPassedOn g seq fenced s) := by
  unfold abortPassedOn
  split <;> simp [onlyChanges_iff]

theorem groupOf_abortPassedOn (k : Nat) : groupOf (abortPassedOn g seq fenced s) k = groupOf s k :=
  have hframe := abortPassedOn_onlyChanges (g := g) (s := s) seq fenced
  groupOf_congr (congrArg CollSt.groups (hframe .coll rfl)) (hframe .dict rfl) k

theorem mem_out_abortPassedOn (hown : isOwn s (homeOf (groupOf s g)) = true) (hopen : (groupOf s g).aborted.contains seq = false) {d : Nat}
    (hd : d ∈ memberDevices (groupOf s g)) (hother : d ≠ homeOf (groupOf s g)) :
    .coll 5 g d [seq, b2n fenced] ∈ (abortPassedOn g seq fenced s).out := by
  rw [abortPassedOn, if_pos (by rw [hown, hopen]; rfl), State.emits_out]
  refine List.mem_append_left _ (List.mem_reverse.mpr (List.mem_map.mpr ⟨d, List.mem_filter.mpr ⟨hd, by simpa using hother⟩, rfl⟩))

theorem abort_ends_sequence (hrun : running s = true) (hlive : (groupOf s g).state ≠ .free) :
    ∃ t, exec (.abort g seq fenced) s = .next t ∧
      (0 < sub32 seq (groupOf s g).retired → sub32 seq (groupOf s g).retired ≤ 16 → (groupOf t g).retired = seq) ∧
      (∀ l ∈ (groupOf t g).launches, l.seq ≠ seq) ∧
      (isOwn s (homeOf (groupOf s g)) = true → (groupOf s g).aborted.contains seq = false →
        ∀ d ∈ memberDevices (groupOf s g), d ≠ homeOf (groupOf s g) → .coll 5 g d [seq, b2n fenced] ∈ t.out) ∧
      ∀ k, k ≠ g → groupOf t k = groupOf s k := by
  have hpassed := groupOf_abortPassedOn (g := g) (s := s) seq fenced
  have hlive' : (groupOf (abortPassedOn g seq fenced s) g).state ≠ .free := by rwa [hpassed]
  refine ⟨_, exec_abort seq fenced hrun hlive, fun hpos hle => abortSeq_retired seq fenced hlive' ?_, abortSeq_launches seq fenced hlive',
    fun hown hopen d hd hother => out_subset_abortSeq seq fenced (mem_out_abortPassedOn seq fenced hown hopen hd hother),
    fun k hk => ((abortSeq_writesGroup seq fenced hlive').2 k hk).trans (hpassed k)⟩
  simp [isAhead, hpassed, hpos, hle]

end

/-! ## A COLL_STEP without START, and the end of a sequence -/

theorem exec_collStepTimeout {s : State} {wq idx g : Nat} {gr : Group} {l : Launch} (hrun : running s = true)
    (hgroup : s.coll.groups.find? (fun x => x.2.launches.any fun l => l.wq == wq && l.idx == idx && !l.hasEnded && !l.started) = some (g, gr))
    (hlaunch : gr.launches.find? (fun l => l.wq == wq && l.idx == idx) = some l) (hdue : due s l.since (gr.timeout * ms) = true) :
    exec (.collStepTimeout wq idx) s = .next ((mismatch g wq idx s).emit (.coll 5 g (homeOf gr) [l.seq, 0])) := by
  show execCollStepTimeout wq idx s = _
  simp only [execCollStepTimeout, hgroup, hlaunch, hrun, hdue, Bool.and_self, when_true]

theorem retire_onlyChanges (g seq : Nat) (s : State) : onlyChanges [.coll, .out] s (retire g seq s) :=
  onlyChanges_trans (by simp [onlyChanges_iff]) (sendReady_onlyChanges g (add32 seq 1) _)

section
variable {g : Nat} {s t : State} (seq : Nat)

theorem retire_writesGroup (h : writesGroup g s t) : writesGroup g s (retire g seq t) := sendReady_writesGroup _ (writesGroup_setGroup _ h)

theorem groupOf_retire (hlisted : (tget s.coll.groups g).isSome = true) : (groupOf (retire g seq s) g).retired = seq ∧
    (groupOf (retire g seq s) g).launches = (groupOf s g).launches.filter fun l => l.seq != seq := by
  obtain ⟨sent, hsent⟩ := groupOf_sendReady (add32 seq 1) (g := g)
    (s := setGroup g (fun x => { x with retired := seq, launches := x.launches.filter fun l => l.seq != seq, sent := x.sent.filter (· != seq) }) s)
    ((isSome_tget_tmod _ _ _ _).trans hlisted)
  rw [retire, hsent, groupOf_setGroup hlisted]
  exact ⟨rfl, rfl⟩

end

/-- Every local member's launch of the next sequence has ended, but for fenced members that have none. -/
theorem exec_sequenceRetired {s : State} {g : Nat} (hrun : running s = true) (hlive : (groupOf s g).state ≠ .free)
    (hsome : ∃ l ∈ (groupOf s g).launches, l.seq = add32 (groupOf s g).retired 1)
    (hended : ∀ l ∈ (groupOf s g).launches, l.seq = add32 (groupOf s g).retired 1 → l.hasEnded = true)
    (hfenced : ∀ x ∈ (groupOf s g).joins, launchOf (groupOf s g) x.1 (add32 (groupOf s g).retired 1) = none →
      s.fab.fenced.contains (nth (groupOf s g).members x.1) = true) :
    exec (.sequenceRetired g) s = .next (retire g (add32 (groupOf s g).retired 1) (dropRun g (add32 (groupOf s g).retired 1) s)) := by
  generalize hseq : add32 (groupOf s g).retired 1 = seq at hsome hended hfenced ⊢
  have hany : (groupOf s g).launches.any (fun l => l.seq == seq) = true := by simpa using hsome
  have hall : (groupOf s g).launches.all (fun l => l.seq != seq || l.hasEnded) = true := by
    simp only [List.all_eq_true, Bool.or_eq_true, bne_iff_ne]
    exact fun l hl => or_iff_not_imp_left.mpr fun h => hended l hl (not_not.mp h)
  have hdone : ((groupOf s g).joins.map (·.1)).all (fun r => match launchOf (groupOf s g) r seq with
      | some l => l.hasEnded
      | none => s.fab.fenced.contains (nth (groupOf s g).members r)) = true := by
    simp only [List.all_eq_true, List.mem_map]
    rintro r ⟨x, hx, rfl⟩
    split
    · next l hl =>
      have hfound := List.find?_some hl
      simp only [Bool.and_eq_true, beq_iff_eq] at hfound
      exact hended l (List.mem_of_find?_eq_some hl) hfound.2
    · next hl => exact hfenced x hx hl
  show execSequenceRetired g s = _
  simp only [execSequenceRetired, hseq, hrun, live_of hlive, hany, hall, Bool.true_and]
  exact congrArg (fun done => Host.Outcome.next (when_ done s _)) hdone

theorem dropRun_onlyChanges (g seq : Nat) (s : State) : onlyChanges [.coll] s (dropRun g seq s) := by simp [onlyChanges_iff, dropRun]

/-- Settles O32, message by message. -/
theorem collectivesAreMatched : Obligations.CollectivesAreMatched := by
  refine ⟨fun s wq w hnext hop hissuing hissuable hturn => ⟨exec_collStep_of_failed hnext hop hissuing hissuable hturn,
      exec_collStep_of_checked hnext hop hissuing hissuable hturn⟩, ?_,
    fun s g seq r hrun hlive hown hheld hdue => ⟨_, exec_coordinatorTimeout hrun hlive hown hheld hdue, rfl, sendAbort_onlyChanges g seq false s⟩,
    fun s g seq t src hrun hlive => ⟨exec_start_of_elsewhere, fun hsrc => ⟨exec_start_of_dynamic hrun hlive hsrc,
      fun l rest hopen hkind => ⟨fun hlate => ?_, fun _ => exec_start_of_scheduled hrun hlive hsrc hopen hkind⟩,
      exec_start_of_fenced hrun hlive hsrc⟩⟩,
    fun s g seq fenced hrun hlive => abort_ends_sequence seq fenced hrun hlive,
    fun s wq idx g gr l => exec_collStepTimeout, fun s g hrun hlive hsome hended hfenced => ?_⟩
  · intro s g dev seq sig hrun hlive hown hdevice hahead hnear hopen m s1 rs
    have hexec : exec (.ready g dev seq sig) s = .next (judgeReady g seq s1) := exec_ready hrun hlive hown hdevice hahead hnear hopen
    rw [hexec]
    exact ⟨fun hfree => ⟨fun hmissing => congrArg _ (readyHeld_of_missing (m := m) hlive hfree hmissing),
        fun hall => ⟨fun hdiffer hcheck => congrArg _ (readyHeld_of_differing (m := m) hlive hfree hall hdiffer hcheck),
          fun hagree hkind => ⟨_, rfl, readyHeld_of_agreeing (m := m) hlive hall hagree hkind⟩⟩⟩,
      fun hfenced hkind => congrArg _ (readyHeld_of_fenced (m := m) hlive hfenced hkind)⟩
  · rw [exec_start_of_scheduled hrun hlive hsrc hopen hkind, armRun_of_late hopen hlate]
  · obtain ⟨hretired, hlaunches⟩ := groupOf_retire (s := dropRun g (add32 (groupOf s g).retired 1) s) (add32 (groupOf s g).retired 1) (listed_of_live hlive)
    refine ⟨_, exec_sequenceRetired hrun hlive hsome hended hfenced, hretired, fun l hl => ?_, fun k hk => ?_, ?_⟩
    · rw [hlaunches, List.mem_filter, bne_iff_ne] at hl
      exact ⟨hl.2, hl.1⟩
    · exact (retire_writesGroup _ (writesGroup_of_groups (u := dropRun g _ s) rfl rfl (writesGroup_refl (listed_of_live hlive)))).2 k hk
    · exact onlyChanges_trans (onlyChanges_mono (dropRun_onlyChanges g _ s) fun a => by cases a <;> decide) (retire_onlyChanges g _ _)

end Sys2Proof.Machine
end

section
/-! SUPPORT. Schedule slots and their runs: what is written of one slot, and what a late step leaves (R218). -/

namespace Sys2Proof.Machine

/-! ## A late step -/

/-- A step is issued more than LATE_LIMIT after its instant. -/
def isLate (c : StepCtx) (s : State) : Bool := Nat.blt (c.r.t + Step.time c.st + cfg s 0x5000 2) s.time.now

/-- A late step is counted, and the first of a run recorded. -/
def lateCounted (die : Nat) (c : StepCtx) (s : State) : State :=
  let p := ((tget (groupOf s c.x.group).joins c.m.rank).map (·.part)).getD 0xFF
  let t := tally 0x32 1 { die := die, part := p, layer := c.r.layer, operator := c.r.operator } (bumpColl die p 1 1 s)
  if !c.r.lateSeen then record 2 0x5002 p die [c.x.group, c.r.seq, Step.time c.st] t else t

theorem noteLate_eq (slot die : Nat) (c : StepCtx) (s : State) : noteLate slot die c s =
    if isLate c s then setRun slot (fun r => { r with lateSeen := true }) (lateCounted die c s) else s := by
  cases h : isLate c s <;> rw [isLate] at h <;> simp only [noteLate, h] <;> rfl

theorem lateCounted_onlyChanges (die : Nat) (c : StepCtx) (s : State) : onlyChanges [.obs, .counts] s (lateCounted die c s) := by
  simp only [lateCounted]
  generalize hp : ((tget (groupOf s c.x.group).joins c.m.rank).map (·.part)).getD 0xFF = p
  have hcounted : onlyChanges [.obs, .counts] s
      (tally 0x32 1 { die := die, part := p, layer := c.r.layer, operator := c.r.operator } (bumpColl die p 1 1 s)) := by
    simp [onlyChanges_iff]
  split
  · exact onlyChanges_trans hcounted (record_onlyChanges (by decide) _ _ _ _ _)
  · exact hcounted

theorem noteLate_onlyChanges (slot die : Nat) (c : StepCtx) (s : State) : onlyChanges [.coll, .obs, .counts] s (noteLate slot die c s) := by
  rw [noteLate_eq]
  split
  · exact onlyChanges_trans (onlyChanges_mono (lateCounted_onlyChanges die c s) fun a => by cases a <;> decide)
      (by simp [onlyChanges_iff, setRun, setSlot])
  · exact onlyChanges_refl _ _

end Sys2Proof.Machine
end

section
/-! SUPPORT. What the steps of a compiled schedule do once they fire: a step that fires runs its own action, and where that is done it waits
no more (R213). -/

namespace Sys2Proof.Machine

/-! ## A step that fires -/

section
variable {s : State} {slot die idx op : Nat} {c : StepCtx} {l : Launch} {j : Join} {o : Op} (hfires : stepFires s slot die idx op c l j o)
include hfires

theorem fireStep_of_fires (act : StepCtx → Launch → Wqe → Join → State → Bool × State) :
    fireStep slot die idx op s act = if (act c l o.wqe j s).1 then stepDone slot die idx (act c l o.wqe j s).2 else (act c l o.wqe j s).2 := by
  obtain ⟨hctx, hlaunch, hjoin, hop, hrun, hfired, hcode⟩ := hfires
  simp [fireStep, hctx, hlaunch, hjoin, hop, hrun, List.contains_iff_mem.mp hfired, hcode, stepDone]

theorem fireStep_of_done {act : StepCtx → Launch → Wqe → Join → State → Bool × State} {t : State} (hact : act c l o.wqe j s = (true, t)) :
    fireStep slot die idx op s act = stepDone slot die idx t := by
  rw [fireStep_of_fires hfires, hact]; rfl

end

/-! ## The actions -/

section
variable {s s1 : State} {slot die : Nat} {c : StepCtx} {l : Launch} {w : Wqe} {j : Join} {ext b : List Byte} {n : Nat}

theorem stepSend_of_conn {h : Nat} (opcode : Nat) (hconn : tget c.x.conns (l.rank * 2 ^ 16 + Step.peer c.st) = some h) :
    stepSend opcode c l w s = (true, sendOp c.x.group h l w (Step.peer c.st) opcode (srcAt l w c.st) (Step.dstOff c.st) (Step.length c.st) true
      (fun k => stepDesc c l w opcode (endOf s h).peerEp k (Nat.log2 (tileSize (gen1 s) w.tile (Step.length c.st)) - 11) false)
      (fun j d off k s => if Step.src c.st == 2 then areaPackets d off k (queueRequest h) s else putTile h l j d (srcAt l w c.st) off k s) s) := by
  simp only [stepSend, hconn]

variable (hsource : stepSource l w j c.st ext s = (.bytes b n, s1))
include hsource

theorem ownCopy_of_bytes : ownCopy slot c l w j ext s =
    (true, ownNote slot c (toOutput c.x.group l j (Step.dstOff c.st) b s1).1 (toOutput c.x.group l j (Step.dstOff c.st) b s1).2) := by
  simp only [ownCopy, hsource]

theorem ownAcc_of_exact (hexact : exactFor (SHdr.accOp c.x.hdr) (SHdr.accFmt c.x.hdr) (SHdr.exact c.x.hdr) = true) :
    ownAcc slot die c l w j ext s =
      (true, ownNote slot c true (accumulate j.ep j.part c.x.group l.rank (SHdr.accFmt c.x.hdr) (Step.dstOff c.st) 1 false b s1)) := by
  simp only [ownAcc, hsource, hexact, if_true]

theorem ownAcc_of_output {ps : List Piece} {s2 s3 : State}
    (hexact : exactFor (SHdr.accOp c.x.hdr) (SHdr.accFmt c.x.hdr) (SHdr.exact c.x.hdr) = false)
    (hspan : winSpan j (l.sig.outOff + Step.dstOff c.st) b.length .write s1 = (.ok ps, s2)) (hpath : pathState s2 true ps = .go)
    (hcombine : combineOutput die j.part c.x.group l.rank (SHdr.accOp c.x.hdr) (SHdr.accFmt c.x.hdr) (Step.dstOff c.st) 1 false false ps b
      (ext.drop n) s2 = (none, s3)) :
    ownAcc slot die c l w j ext s = (true, ownNote slot c true (collReceived c.x.group l.rank l.seq 0 0 none (ps.flatMap (pathsOf s3)) s3)) := by
  simp only [ownAcc, hsource, hexact, hspan, hpath, hcombine, Bool.false_eq_true, if_false]

end

/-! ## What ROUND leaves of the accumulation area -/

theorem winSpan_onlyChanges (j : Join) (off len : Nat) (n : Need) (s : State) : onlyChanges xlateAreas s (winSpan j off len n s).2 :=
  localSpan_onlyChanges _ _ _ _ _ _ _ _ _ _

theorem storeSpans_barFrame (ps : List Piece) (l : List (Nat × List Byte)) {s t : State} (h : barFrame s t) :
    barFrame s (storeSpans ps l t).2 := by
  induction l generalizing t with
  | nil => exact h
  | cons x l ih =>
    obtain ⟨off, d⟩ := x
    have hfirst := storePieces_barFrame (subPieces ps off d.length) d h
    simp only [storeSpans]
    split
    · exact hfirst
    · exact ih hfirst

/-- Operations that leave the areas leave them along the dies of an area. -/
theorem onAreaDies_ar {f : Nat → Nat → State → State} (hf : ∀ d m s, (f d m s).ar = s.ar) (ep k n : Nat) (s : State) :
    (onAreaDies ep k n f s).ar = s.ar := by
  unfold onAreaDies
  generalize List.range (engineDies s) = l
  induction l generalizing s with
  | nil => rfl
  | cons d l ih =>
    simp only [List.foldl_cons]
    rw [ih]
    split
    · rfl
    · exact hf _ _ _

theorem roundArea_ar (ep p g rank op fmt seq area first n : Nat) (ps : List Piece) (s : State) :
    (roundArea ep p g rank op fmt seq area first n ps s).2.ar = s.ar := by
  simp only [roundArea]
  rw [onAreaDies_ar]
  · rw [bumpArith_ar]
    exact storeSpans_barFrame ps _ (onlyChanges_refl _ s) .ar rfl
  · intro d m t
    split <;> simp

/-! ## TRANSFORM -/

section
variable {s : State} {slot die idx : Nat} {c : StepCtx} {l : Launch} {j : Join} {o : Op}

/-- The invocation of a TRANSFORM's kernel has begun, as a job of the step. -/
def kernelBegun (slot die idx part : Nat) (c : StepCtx) (s : State) : State :=
  let t := noteLate slot die c (bumpArith die part 5 1 (tally 0x34 1 { die := die, part := part } s))
  setMember slot c.m.rank (fun m => { m with open_ := m.open_ + 1 }) { t with ar := { t.ar with jobs := t.ar.jobs ++ [⟨slot, die, idx, t.time.now⟩] } }

theorem exec_transform (hfires : stepFires s slot die idx sTransform c l j o)
    (harray : noArray s die (fld (tgetD s.ar.binds (Step.peer c.st) 0) 511 504) = false)
    (hroom : kernelRoom s die (fld (tgetD s.ar.binds (Step.peer c.st) 0) 511 504) = true) :
    exec (.transform slot die idx) s = .next (stepDone slot die idx (kernelBegun slot die idx j.part c s)) := by
  refine congrArg _ (fireStep_of_done hfires ?_)
  simp only [harray, hroom, Bool.false_eq_true, if_false, Bool.not_true, kernelBegun]

theorem kernelBegun_adds_job (part : Nat) : (kernelBegun slot die idx part c s).ar.jobs = s.ar.jobs ++ [⟨slot, die, idx, s.time.now⟩] ∧
    (kernelBegun slot die idx part c s).mem = s.mem := by
  have hframe := noteLate_onlyChanges slot die c (bumpArith die part 5 1 (tally 0x34 1 { die := die, part := part } s))
  have har := hframe .ar rfl
  have htime := hframe .time rfl
  have hmem := hframe .mem rfl
  simp only [sameIn, bumpArith_ar, bumpArith_time, bumpArith_mem, tally_ar, tally_time, tally_mem] at har htime hmem
  simp [kernelBegun, har, htime, hmem]

/-! ## ROUND -/

theorem exec_round {ps : List Piece} {s1 s2 : State} (hfires : stepFires s slot die idx sRound c l j o)
    (hspan : winSpan j (l.sig.outOff + Step.dstOff c.st) (Step.length c.st) .write s = (.ok ps, s1)) (hpath : pathState s1 true ps = .go)
    (hround : roundArea j.ep j.part c.x.group l.rank (SHdr.accOp c.x.hdr) (SHdr.accFmt c.x.hdr) l.seq
      (elemAt (SHdr.accFmt c.x.hdr) (Step.srcOff c.st)) (elemAt (SHdr.accFmt c.x.hdr) (Step.dstOff c.st))
      (elemAt (SHdr.accFmt c.x.hdr) (Step.length c.st)) ps s1 = (none, s2)) :
    exec (.round slot die idx) s = .next (stepDone slot die idx (ownNote slot c true
      (collReceived c.x.group l.rank l.seq 0 0 none (ps.flatMap (pathsOf s2)) s2))) := by
  refine congrArg _ (fireStep_of_done hfires ?_)
  simp only [hspan, hpath, hround]

theorem ar_of_round {ep p g rank op fmt seq area first n : Nat} {off len : Nat} {ps : List Piece} {s1 s2 : State}
    (hspan : winSpan j off len .write s = (.ok ps, s1)) (hround : roundArea ep p g rank op fmt seq area first n ps s1 = (none, s2)) :
    s2.ar = s.ar :=
  calc s2.ar = s1.ar := by rw [← roundArea_ar ep p g rank op fmt seq area first n ps s1, hround]
    _ = s.ar := by have h := winSpan_onlyChanges j off len .write s .ar rfl; rwa [hspan] at h

end

/-! ## The obligation -/

/-- Settles O34, kind by kind: each runs its own action, and where that is done the step waits no more. -/
theorem stepsOfARunAct : Obligations.StepsOfARunAct := by
  intro s slot die idx c l j o ext
  have toSelf {act other : Bool × State} (hpeer : Step.peer c.st = l.rank) : (if (Step.peer c.st == l.rank) = true then act else other) = act :=
    if_pos (by simpa using hpeer)
  have toPeer {act other : Bool × State} (hpeer : Step.peer c.st ≠ l.rank) : (if (Step.peer c.st == l.rank) = true then other else act) = act :=
    if_neg (by simpa using hpeer)
  refine ⟨fun h hconn hpeer => ⟨fun hf => ?_, fun hf => ?_⟩, fun b n s1 hsource => ⟨fun hf hpeer => ?_, fun hf => ?_,
      fun hexact => ⟨fun hf => ?_, fun hf hpeer => ?_⟩,
      fun ps s2 s3 hexact hspan hpath hcombine => ⟨fun hf => ?_, fun hf hpeer => ?_⟩⟩, fun hf => ?_, fun hf => ?_,
    fun ps s1 s2 hf hspan hpath hround => ⟨exec_round hf hspan hpath hround, ?_⟩, fun hf => ?_,
    fun hf harray hroom => ⟨_, exec_transform hf harray hroom, kernelBegun_adds_job _⟩⟩
  · exact congrArg _ (fireStep_of_done hf ((toPeer hpeer).trans (stepSend_of_conn _ hconn)))
  · exact congrArg _ (fireStep_of_done hf ((toPeer hpeer).trans (stepSend_of_conn _ hconn)))
  · exact congrArg _ (fireStep_of_done hf ((toSelf hpeer).trans (ownCopy_of_bytes hsource)))
  · exact congrArg _ (fireStep_of_done hf (ownCopy_of_bytes hsource))
  · exact congrArg _ (fireStep_of_done hf (ownAcc_of_exact hsource hexact))
  · exact congrArg _ (fireStep_of_done hf ((toSelf hpeer).trans (ownAcc_of_exact hsource hexact)))
  · exact congrArg _ (fireStep_of_done hf (ownAcc_of_output hsource hexact hspan hpath hcombine))
  · exact congrArg _ (fireStep_of_done hf ((toSelf hpeer).trans (ownAcc_of_output hsource hexact hspan hpath hcombine)))
  · exact congrArg _ (fireStep_of_done hf rfl)
  · exact congrArg _ (fireStep_of_done hf rfl)
  · rw [ar_of_round hspan hround]
    exact ⟨rfl, rfl⟩
  · exact congrArg _ (fireStep_of_done hf rfl)

end Sys2Proof.Machine
end

section
/-! SUPPORT. The numbers that bytes spell: a field of the word that a header's bytes spell is what its own bytes spell (R211). -/

namespace Sys2Proof.Machine

theorem ofLe_append_zeros (l : List Byte) (n : Nat) : ofLe (l ++ List.replicate n 0) = ofLe l := by
  induction l with
  | nil =>
    induction n with
    | zero => rfl
    | succ n ih => simpa [List.replicate_succ, ofLe] using ih
  | cons b l ih => rw [List.cons_append, ofLe, ih, ofLe]

/-- The bytes past the end of a list read zero, so that a slice spells what is there. -/
theorem wordAt_eq (d : List Byte) (off n : Nat) : wordAt d off n = ofLe ((d.drop off).take n) := ofLe_append_zeros _ _

theorem ofLe_lt (l : List Byte) : ofLe l < 256 ^ l.length := by
  induction l with
  | nil => simp [ofLe]
  | cons b l ih =>
    have hb : b.toNat < 256 := b.isLt
    simp only [ofLe, List.length_cons, Nat.pow_succ]
    omega

theorem ofLe_div (l : List Byte) (n : Nat) : ofLe l / 256 ^ n = ofLe (l.drop n) := by
  induction n generalizing l with
  | zero => simp
  | succ n ih =>
    cases l with
    | nil => simp [ofLe]
    | cons b l =>
      have hb : b.toNat < 256 := b.isLt
      rw [Nat.pow_succ, Nat.mul_comm, ← Nat.div_div_eq_div_mul, List.drop_succ_cons, ← ih]
      simp only [ofLe]
      congr 1
      omega

theorem ofLe_mod (l : List Byte) (n : Nat) : ofLe l % 256 ^ n = ofLe (l.take n) := by
  induction n generalizing l with
  | zero => simp [ofLe, Nat.mod_one]
  | succ n ih =>
    cases l with
    | nil => simp [ofLe]
    | cons b l =>
      have hb : b.toNat < 256 := b.isLt
      rw [List.take_succ_cons, ofLe, ofLe, ← ih, Nat.pow_succ, Nat.mul_comm _ 256, Nat.mod_mul,
        show (b.toNat + 256 * ofLe l) / 256 = ofLe l by omega, show (b.toNat + 256 * ofLe l) % 256 = b.toNat by omega]

theorem wordAt_lt (d : List Byte) (off n : Nat) : wordAt d off n < 256 ^ n := by
  rw [wordAt_eq]
  exact Nat.lt_of_lt_of_le (ofLe_lt _) (Nat.pow_le_pow_right (by decide) (List.length_take_le _ _))

/-- A field of whole bytes of the word that the first `m` bytes spell. -/
theorem fld_of_bytes (d : List Byte) {m hi off n : Nat} (hn : hi + 1 = 8 * off + 8 * n) (hend : off + n ≤ m) :
    fld (BitVec.ofNat (8 * m) (wordAt d 0 m)) hi (8 * off) = wordAt d off n := by
  have hbytes (k : Nat) : 2 ^ (8 * k) = 256 ^ k := by rw [Nat.pow_mul]
  have hlt : wordAt d 0 m < 2 ^ (8 * m) := by rw [hbytes]; exact wordAt_lt d 0 m
  rw [fld, BitVec.toNat_ofNat, Nat.mod_eq_of_lt hlt, bits, hn, Nat.add_sub_cancel_left, hbytes, hbytes, wordAt_eq, wordAt_eq, ofLe_div, ofLe_mod,
    List.drop_zero, List.drop_take, List.take_take, Nat.min_eq_left (by omega)]

end Sys2Proof.Machine
end

section
/-! SUPPORT. Streamed tiles; compiled schedules as they are loaded, verified, run and unloaded (R208, R214 to R218, R221, R222, R225). -/

namespace Sys2Proof.Machine

/-! ## Streamed tiles -/

section
variable {s : State} {wq idx g : Nat} {o : Op} {l : Launch} {x : Nat × Nat} (hrun : running s = true) (hfind : findOp s wq idx = some o)
  (hlaunch : launchFor s wq idx = some (g, l)) (htile : (spanTiles s o.wqe l.sig.len)[o.released]? = some x) (hstarted : l.started = true)
  (hstream : Wqe.stream o.wqe = true)
include hrun hfind hlaunch htile hstarted hstream

theorem exec_streamTileRelease (hready : tileReady s o.wqe o.released = true) : exec (.streamTileRelease wq idx) s =
    .next (sendSpan g l o.wqe true x (onOp wq idx (fun o => { o with released := o.released + 1, lastRelease := s.time.now }) s)) := by
  show execStreamTileRelease wq idx s = _
  simp only [execStreamTileRelease, hfind, hlaunch, htile, hrun, hstarted, hstream, hready, Bool.and_self, when_true]

theorem exec_streamTileTimeout (hwaits : tileReady s o.wqe o.released = false) (hlimit : o.wqe.waitTimeout ≠ 0)
    (hdue : due s o.lastRelease (o.wqe.waitTimeout * 64000) = true) : exec (.streamTileTimeout wq idx) s =
      .next (withdrawSpan g l o.wqe x.1 (l.sig.len - x.1)
        (collReceived g l.rank l.seq 0 0 (some (if l.sig.kind = ckAllGather then l.rank * l.sig.len + x.1 else x.1, stWaitTimeout, 0)) []
          (onOp wq idx (fun o => { o with released := (spanTiles s o.wqe l.sig.len).length }) s))) := by
  have hnonzero : (o.wqe.waitTimeout != 0) = true := bne_iff_ne.mpr hlimit
  show execStreamTileTimeout wq idx s = _
  simp only [execStreamTileTimeout, hfind, hlaunch, htile, hrun, hstarted, hstream, hwaits, hnonzero, hdue, Bool.not_false, Bool.and_self, when_true,
    beq_iff_eq]

end

/-! ## A load begins -/

section
variable {s : State} {r : Request} {c : Cmd} (hwrite : writesEntry s r c 0x5300 0 = true) (hgen : gen1 s = false)
include hwrite hgen

theorem exec_schedLoad_of_slot_past_15 (hslot : 15 < field c.data 0 1) : exec .schedLoad s = .next (finish rNoResource [] s) := by
  refine congrArg Host.Outcome.next ((onWrite_of_writesEntry (p := fun _ => true) hwrite (Nat.le_refl _) (Nat.le_refl _) rfl _).trans ?_)
  simp only [hgen, hslot, Bool.false_eq_true, if_false, if_true]

variable (hslot : field c.data 0 1 ≤ 15)
include hslot

theorem exec_schedLoad_of_used (hused : (tgetD s.coll.slots (field c.data 0 1) {}).state = .verifying ∨
    (tgetD s.coll.slots (field c.data 0 1) {}).state = .resident) : exec .schedLoad s = .next (finish rBusy [] s) := by
  refine congrArg Host.Outcome.next ((onWrite_of_writesEntry (p := fun _ => true) hwrite (Nat.le_refl _) (Nat.le_refl _) rfl _).trans ?_)
  have hbusy : ((tgetD s.coll.slots (field c.data 0 1) {}).state == .verifying ||
      (tgetD s.coll.slots (field c.data 0 1) {}).state == .resident) = true := by
    simpa using hused
  simp only [hgen, Nat.not_lt.mpr hslot, hbusy, Bool.false_eq_true, if_false, if_true]

/-- The slot verifies the image that the record names. -/
def loadBegun (n : Nat) (d : List Byte) (s : State) : State :=
  let x : Slot := { state := .verifying, key := field d 1 4, addr := field d 5 8, len := field d 13 4 }
  { s with coll := { s.coll with slots := tset s.coll.slots n x } }

theorem exec_schedLoad_of_free (hfree : (tgetD s.coll.slots (field c.data 0 1) {}).state = .empty ∨
    (tgetD s.coll.slots (field c.data 0 1) {}).state = .refused) :
    exec .schedLoad s = .next (finish rDone [] (loadBegun (field c.data 0 1) c.data s)) := by
  refine congrArg Host.Outcome.next ((onWrite_of_writesEntry (p := fun _ => true) hwrite (Nat.le_refl _) (Nat.le_refl _) rfl _).trans ?_)
  have hbusy : ((tgetD s.coll.slots (field c.data 0 1) {}).state == .verifying ||
      (tgetD s.coll.slots (field c.data 0 1) {}).state == .resident) = false := by
    rcases hfree with h | h <;> rw [h] <;> rfl
  simp only [hgen, Nat.not_lt.mpr hslot, hbusy, Bool.false_eq_true, if_false]
  rfl

end

/-! ## One slot is written -/

theorem tget_setSlot {s : State} {n : Nat} (f : Slot → Slot) {x : Slot} (hx : tget s.coll.slots n = some x) :
    tget (setSlot n f s).coll.slots n = some (f x) := by simp [hx]

theorem tget_setSlot_ne {n k : Nat} (hk : k ≠ n) (f : Slot → Slot) (s : State) : tget (setSlot n f s).coll.slots k = tget s.coll.slots k := by
  simp [tget_tmod_eq, hk]

/-- A load has ended in its slot, or waits for its connections: resident with every connection open, refused, or opening. -/
def loadJudged (n : Nat) (t : State) : Prop :=
  ∃ x, tget t.coll.slots n = some x ∧ ((x.state = .resident ∧ ∀ y ∈ x.conns, (endOf t y.2).state = .open_) ∨ x.state = .refused ∨
    (x.state = .verifying ∧ x.opening = true))

/-- Of the slots that of one number may be written. -/
def writesSlot (n : Nat) (s t : State) : Prop := ∀ k, k ≠ n → tget t.coll.slots k = tget s.coll.slots k

/-- The load of a slot is refused. -/
def loadRefused (n : Nat) (s : State) : State := setSlot n (fun _ => { state := .refused }) s

section
variable {s : State} {n : Nat} {x : Slot} (hx : tget s.coll.slots n = some x)
include hx

theorem tget_loadRefused : tget (loadRefused n s).coll.slots n = some { state := .refused } := tget_setSlot _ hx

theorem loadRefused_judged : loadJudged n (loadRefused n s) := ⟨_, tget_loadRefused hx, .inr (.inl rfl)⟩

variable (hopening : x.opening = true)
include hopening

theorem settleSlot_judged (hstate : x.state = .verifying) : loadJudged n (settleSlot n s) := by
  cases hopen : x.conns.all fun c => (endOf s c.2).isOpen with
  | false => exact ⟨x, by simp [settleSlot, hx, hopen], .inr (.inr ⟨hstate, hopening⟩)⟩
  | true =>
    have hsettled : settleSlot n s = extendMeasure 7 (BitVec.ofNat 256 (fld x.hdr 255 0))
        { s with coll := { s.coll with slots := tset s.coll.slots n { x with state := .resident, opening := false } } } := by
      simp only [settleSlot, hx, hopening, hopen, Bool.and_self, if_true]
    refine ⟨{ x with state := .resident, opening := false }, by rw [hsettled]; exact tget_tset _ _ _, .inl ⟨rfl, fun y hy => ?_⟩⟩
    have hend : endOf (settleSlot n s) y.2 = endOf s y.2 := endOf_congr (by rw [settleSlot_conn]) _
    rw [hend]
    simpa [End.isOpen] using List.all_eq_true.mp hopen y hy

theorem refuseSlot_judged : loadJudged n (refuseSlot n s) := by
  refine ⟨{ state := .refused }, ?_, .inr (.inl rfl)⟩
  simp only [refuseSlot, hx, hopening, Bool.not_true, Bool.false_eq_true, if_false]
  rw [(closeConns_keepsColl _ _).2.1, tget_tset]

end

theorem settleSlot_writesSlot (n : Nat) (s : State) : writesSlot n s (settleSlot n s) := by
  intro k hk
  unfold settleSlot
  split
  · split
    · exact tget_tset_ne _ _ hk
    · rfl
  · rfl

theorem refuseSlot_writesSlot (n : Nat) (s : State) : writesSlot n s (refuseSlot n s) := by
  intro k hk
  unfold refuseSlot
  split
  · split
    · rfl
    · rw [(closeConns_keepsColl _ _).2.1]
      exact tget_tset_ne _ _ hk
  · rfl

/-! ## The image is verified -/

theorem localSpan_keepsColl (die p pasid key va len : Nat) (n : Need) (fits : Nat → Bool) (mayWalk : Bool) (s : State) :
    keepsColl s (localSpan die p pasid key va len n fits mayWalk s).2 :=
  keepsColl_of_frame (localSpan_onlyChanges _ _ _ _ _ _ _ _ _ _) rfl rfl

theorem noteReads_keepsColl (ps : List Piece) (s : State) : keepsColl s (noteReads ps s) :=
  keepsColl_of_frame (noteReads_barFrame ps s) rfl rfl

theorem deviceBytes_keepsColl (key addr len : Nat) (s : State) : keepsColl s (deviceBytes key addr len s).2 := by
  have hspan := localSpan_keepsColl (firstEngine s) (Region.part (tgetD s.xl.regions (keyIndex key) 0))
    (Region.pasid (tgetD s.xl.regions (keyIndex key) 0)) key addr len .read (· == 1) true s
  unfold deviceBytes
  dsimp only
  split
  · next h => rw [h] at hspan; exact keepsColl_trans hspan (noteReads_keepsColl _ _)
  · next h => rw [h] at hspan; exact hspan

theorem paramBlock_keepsColl (b : BitVec 512) (ext : List Byte) (s : State) : keepsColl s (paramBlock b ext s).2.2 := by
  have hspan := localSpan_keepsColl (firstEngine s) (bindPart b) (fld b 499 480) (fld b 383 352) (fld b 191 128) (fld b 415 384) .read
    anyTarget true s
  unfold paramBlock
  dsimp only
  split
  · exact keepsColl_refl s
  · split
    · next h => rw [h] at hspan; exact keepsColl_trans hspan (noteReads_keepsColl _ _)
    · next h => rw [h] at hspan; exact hspan

theorem stepsOk_keepsColl (g : Nat) (h : SchedHdr) (routes : List (BitVec 128)) (e : Nat) (l : List StepW) (ext : List Byte) (s : State) :
    keepsColl s (stepsOk g h routes e l ext s).2.2 := by
  induction l generalizing ext s with
  | nil => exact keepsColl_refl s
  | cons x l ih =>
    have hblock : keepsColl s (if Step.op x == sTransform then paramBlock (tgetD s.ar.binds (Step.peer x) 0) ext s else ([], 0, s)).2.2 := by
      split
      · exact paramBlock_keepsColl _ _ _
      · exact keepsColl_refl s
    simp only [stepsOk]
    generalize (if Step.op x == sTransform then paramBlock (tgetD s.ar.binds (Step.peer x) 0) ext s else ([], 0, s)) = block at hblock ⊢
    split
    · exact keepsColl_trans hblock (ih _ _)
    · exact hblock

theorem listsOk_keepsColl (g : Nat) (h : SchedHdr) (routes : List (BitVec 128)) (l : Tab (List StepW)) (ext : List Byte) (s : State) :
    keepsColl s (listsOk g h routes l ext s).2 := by
  induction l generalizing ext s with
  | nil => exact keepsColl_refl s
  | cons x l ih =>
    obtain ⟨e, steps⟩ := x
    have hsteps := stepsOk_keepsColl g h routes e steps ext s
    simp only [listsOk]
    split
    · exact keepsColl_trans hsteps (ih _ _)
    · exact hsteps

theorem listsOk_kept {g : Nat} {h : SchedHdr} {routes : List (BitVec 128)} {l : Tab (List StepW)} {ext : List Byte} {s t : State} {ok : Bool}
    (hlists : listsOk g h routes l ext s = (ok, t)) : keepsColl s t := by
  have hkept := listsOk_keepsColl g h routes l ext s
  rwa [hlists] at hkept

/-- A verified load takes the group, routes and step lists of its image, and opens its connections. -/
def loadOpens (d : List Byte) (h : SchedHdr) (conns : Tab Nat) (x : Slot) : Slot :=
  { x with
    opening := true, group := SHdr.group h, hdr := h,
    routes := (List.range (SHdr.routes h)).map fun i => BitVec.ofNat 128 (wordAt d (128 + 16 * i) 16),
    steps := stepLists d h 8 (128 + 16 * SHdr.routes h), conns := conns }

section
variable {s : State} {slot : Nat} {x : Slot} (ext : List Byte) (hrun : running s = true) (hx : tget s.coll.slots slot = some x)
  (hstate : x.state = .verifying) (hopening : x.opening = false)
include hrun hx hstate hopening

/-- Verification refuses the load, or opens its connections and then settles or refuses it; until then the collectives keep their state. -/
theorem exec_scheduleVerified_cases : ∃ u, keepsColl s u ∧ (exec (.scheduleVerified slot ext) s = .next (loadRefused slot u) ∨
    ∃ d h conns,
      (exec (.scheduleVerified slot ext) s = .next (settleSlot slot (setSlot slot (loadOpens d h conns) u)) ∨
        exec (.scheduleVerified slot ext) s = .next (refuseSlot slot (setSlot slot (loadOpens d h conns) u)))) := by
  have hguard : (!running s || x.state != .verifying || x.opening) = false := by simp [hrun, hstate, hopening]
  have hbytes := deviceBytes_keepsColl x.key x.addr x.len s
  change ∃ u, keepsColl s u ∧ (execScheduleVerified slot ext s = .next (loadRefused slot u) ∨
    ∃ d h conns,
      (execScheduleVerified slot ext s = .next (settleSlot slot (setSlot slot (loadOpens d h conns) u)) ∨
        execScheduleVerified slot ext s = .next (refuseSlot slot (setSlot slot (loadOpens d h conns) u))))
  simp only [execScheduleVerified, hx, hguard, Bool.false_eq_true, if_false]
  rcases hd : deviceBytes x.key x.addr x.len s with ⟨_ | d, s1⟩ <;> rw [hd] at hbytes <;> dsimp only at hbytes ⊢
  · exact ⟨s1, hbytes, .inl rfl⟩
  · generalize BitVec.ofNat 1024 (wordAt d 0 128) = h
    split
    · exact ⟨s1, hbytes, .inl rfl⟩
    · split
      · next s2 hlists =>
        exact ⟨s2, keepsColl_trans hbytes (listsOk_kept hlists), .inl rfl⟩
      · next s2 hlists =>
        have hchecked := keepsColl_trans hbytes (listsOk_kept hlists)
        split
        · exact ⟨s2, hchecked, .inl rfl⟩
        · have hopened := openAll_keepsColl (SHdr.group h) (slot + 1) (stepPairs (stepLists d h 8 (128 + 16 * SHdr.routes h))) [] s2
          rcases ho : openAll (SHdr.group h) (slot + 1) [] (stepPairs (stepLists d h 8 (128 + 16 * SHdr.routes h))) s2 with ⟨_ | _, conns, s3⟩ <;>
            rw [ho] at hopened <;> refine ⟨s3, keepsColl_trans hchecked hopened, .inr ⟨d, h, conns, ?_⟩⟩
          · exact .inr rfl
          · exact .inl rfl

/-- A wrong mark or hash refuses the load. -/
theorem exec_scheduleVerified_of_bad_image {d : List Byte} {s1 : State} (hbytes : deviceBytes x.key x.addr x.len s = (some d, s1))
    (hbad : wordAt d 124 4 ≠ 0x53435A4B ∨ (Config.sha3 (d.drop 128)).toNat ≠ wordAt d 0 32) :
    exec (.scheduleVerified slot ext) s = .next (loadRefused slot s1) := by
  have hguard : (!running s || x.state != .verifying || x.opening) = false := by simp [hrun, hstate, hopening]
  have hmark : fld (BitVec.ofNat 1024 (wordAt d 0 128)) 1023 992 = wordAt d 124 4 := fld_of_bytes d (m := 128) (off := 124) (n := 4) rfl (by decide)
  have hhash : fld (BitVec.ofNat 1024 (wordAt d 0 128)) 255 0 = wordAt d 0 32 := fld_of_bytes d (m := 128) (off := 0) (n := 32) rfl (by decide)
  show execScheduleVerified slot ext s = _
  simp only [execScheduleVerified, hx, hguard, hbytes, Bool.false_eq_true, if_false]
  rw [if_pos]
  · rfl
  · rcases hbad with h | h
    · simp [hmark, h]
    · simp [hhash, h]

end

theorem slotOf_eq {t : State} {n : Nat} {y : Slot} (h : tget t.coll.slots n = some y) : tgetD t.coll.slots n {} = y := by rw [tgetD, h]

section
variable {s : State} {slot : Nat} {x : Slot} (ext : List Byte) (hrun : running s = true) (hx : tget s.coll.slots slot = some x)
  (hstate : x.state = .verifying) (hopening : x.opening = false)
include hrun hx hstate hopening

/-- The load is judged, and no other slot is written. -/
theorem exec_scheduleVerified_judges : ∃ t, exec (.scheduleVerified slot ext) s = .next t ∧ loadJudged slot t ∧ writesSlot slot s t := by
  obtain ⟨u, hkept, hcases⟩ := exec_scheduleVerified_cases ext hrun hx hstate hopening
  have hslots : u.coll.slots = s.coll.slots := hkept.2.1
  have hu : tget u.coll.slots slot = some x := by rw [hslots, hx]
  have hothers (f : Slot → Slot) : writesSlot slot s (setSlot slot f u) := fun k hk => by rw [tget_setSlot_ne hk, hslots]
  rcases hcases with hrefused | ⟨d, h, conns, hcases⟩
  · exact ⟨_, hrefused, loadRefused_judged hu, hothers _⟩
  · have hloaded : tget (setSlot slot (loadOpens d h conns) u).coll.slots slot = some (loadOpens d h conns x) := tget_setSlot _ hu
    rcases hcases with hsettled | hrefused
    · exact ⟨_, hsettled, settleSlot_judged hloaded rfl hstate, fun k hk => (settleSlot_writesSlot _ _ k hk).trans (hothers _ k hk)⟩
    · exact ⟨_, hrefused, refuseSlot_judged hloaded rfl, fun k hk => (refuseSlot_writesSlot _ _ k hk).trans (hothers _ k hk)⟩

theorem exec_scheduleVerified_refuses {d : List Byte} {s1 t : State} (hexec : exec (.scheduleVerified slot ext) s = .next t)
    (hbytes : deviceBytes x.key x.addr x.len s = (some d, s1))
    (hbad : wordAt d 124 4 ≠ 0x53435A4B ∨ (Config.sha3 (d.drop 128)).toNat ≠ wordAt d 0 32) : (tgetD t.coll.slots slot {}).state = .refused := by
  have hs1 : tget s1.coll.slots slot = some x := by
    have hkept := deviceBytes_keepsColl x.key x.addr x.len s
    rw [hbytes] at hkept
    rw [hkept.2.1, hx]
  have hrefused := hexec.symm.trans (exec_scheduleVerified_of_bad_image ext hrun hx hstate hopening hbytes hbad)
  injection hrefused with ht
  rw [ht, slotOf_eq (tget_loadRefused hs1)]

end

/-! ## A slot is unloaded -/

section
variable {s : State} {r : Request} {c : Cmd} {x : Slot} (hwrite : writesEntry s r c 0x5302 0 = true) (hx : tget s.coll.slots (ofLe c.data) = some x)
include hwrite hx

theorem exec_schedUnload_of_run (hrun : x.run.isSome = true) : exec .schedUnload s = .next (finish rBusy [] s) := by
  refine congrArg Host.Outcome.next ((onWrite_of_writesEntry (p := fun _ => true) hwrite (Nat.le_refl _) (Nat.le_refl _) rfl _).trans ?_)
  simp only [hx, hrun, if_true]

theorem exec_schedUnload_of_no_run (hrun : x.run = none) : exec .schedUnload s = .next (finish rDone [] (unloadSlot (ofLe c.data) s)) := by
  refine congrArg Host.Outcome.next ((onWrite_of_writesEntry (p := fun _ => true) hwrite (Nat.le_refl _) (Nat.le_refl _) rfl _).trans ?_)
  simp only [hx, hrun, Option.isSome_none, Bool.false_eq_true, if_false]

end

theorem unloadSlot_frees (n : Nat) (s : State) : tget (unloadSlot n s).coll.slots n = none := by rw [unloadSlot_slots, tget_tdel]

/-! ## The chanter issues a step -/

/-- The run of a slot. -/
def runOf (s : State) (slot : Nat) : Option Run := (tgetD s.coll.slots slot {}).run

theorem runOf_congr {s t : State} (h : t.coll.slots = s.coll.slots) (slot : Nat) : runOf t slot = runOf s slot := by rw [runOf, h]; rfl

theorem runOf_setRun (slot : Nat) (f : Run → Run) (s : State) : runOf (setRun slot f s) slot = (runOf s slot).map f := by
  unfold runOf setRun setSlot tgetD
  simp only [tget_tmod]
  cases tget s.coll.slots slot <;> rfl

theorem setRun_writesSlot (slot : Nat) (f : Run → Run) (s : State) : writesSlot slot s (setRun slot f s) := fun _ hk => tget_setSlot_ne hk _ s

theorem writesSlot_trans {n : Nat} {s t u : State} (h : writesSlot n s t) (h' : writesSlot n t u) : writesSlot n s u :=
  fun k hk => (h' k hk).trans (h k hk)

theorem writesSlot_of_slots {n : Nat} {s t : State} (h : t.coll.slots = s.coll.slots) : writesSlot n s t := fun _ _ => by rw [h]

theorem run_of_stepCtx {s : State} {slot die idx : Nat} {c : StepCtx} (hctx : stepCtx s slot die idx = some c) : runOf s slot = some c.r := by
  unfold stepCtx at hctx
  split at hctx
  · next x hx =>
    split at hctx
    · next r st hr hst =>
      obtain ⟨m, _, rfl⟩ := Option.map_eq_some_iff.mp hctx
      rw [runOf, slotOf_eq hx, hr]
    · cases hctx
  · cases hctx

/-- What notes a late step notes it in the run of its slot, and writes no other slot. -/
theorem noteLate_run {s : State} {slot die : Nat} {c : StepCtx} {r : Run} (hrun : runOf s slot = some r) :
    runOf (noteLate slot die c s) slot = some { r with lateSeen := r.lateSeen || isLate c s } ∧ writesSlot slot s (noteLate slot die c s) := by
  have hslots : (lateCounted die c s).coll.slots = s.coll.slots := congrArg CollSt.slots (lateCounted_onlyChanges die c s .coll rfl)
  rw [noteLate_eq]
  cases isLate c s with
  | false => exact ⟨by simp [hrun], fun _ _ => rfl⟩
  | true =>
    refine ⟨?_, writesSlot_trans (writesSlot_of_slots hslots) (setRun_writesSlot _ _ _)⟩
    simp [runOf_setRun, runOf_congr hslots, hrun]

/-- The step is counted, and noted late where it is: a TRANSFORM is late when it begins. -/
def stepCounted (slot die : Nat) (c : StepCtx) (s : State) : State :=
  let p := ((tget (groupOf s c.x.group).joins c.m.rank).map (·.part)).getD 0xFF
  let t := tally 0x31 1 { die := die, part := p, layer := c.r.layer, operator := c.r.operator } s
  if Step.op c.st == sTransform then t else noteLate slot die c t

/-- A step is issued: it is in the run's lists of issued and of fired steps. -/
def stepIssued (slot die idx : Nat) (c : StepCtx) (s : State) : State :=
  setRun slot (fun r => { r with issued := r.issued ++ [stepKey die idx], fired := r.fired ++ [stepKey die idx] }) (stepCounted slot die c s)

theorem stepCounted_run {s : State} {slot die : Nat} {c : StepCtx} {r : Run} (hrun : runOf s slot = some r) :
    runOf (stepCounted slot die c s) slot = some { r with lateSeen := r.lateSeen || (Step.op c.st != sTransform && isLate c s) } ∧
      writesSlot slot s (stepCounted slot die c s) := by
  simp only [stepCounted]
  generalize ht : tally 0x31 1 _ s = t
  have hlate : isLate c t = isLate c s := by rw [← ht, isLate, isLate, tally_time]; rfl
  have hslots : t.coll.slots = s.coll.slots := by rw [← ht, tally_coll]
  have htrun : runOf t slot = some r := (runOf_congr hslots slot).trans hrun
  split
  · next h => exact ⟨by simp [htrun, bne, h], writesSlot_of_slots hslots⟩
  · next h =>
    obtain ⟨hnoted, hwrites⟩ := noteLate_run (die := die) (c := c) htrun
    exact ⟨by simp [hnoted, hlate, bne, h], writesSlot_trans (writesSlot_of_slots hslots) hwrites⟩

theorem stepCounted_mem (slot die : Nat) (c : StepCtx) (s : State) : (stepCounted slot die c s).mem = s.mem := by
  simp only [stepCounted]
  split
  · exact tally_mem _ _ _ _
  · exact (noteLate_onlyChanges slot die c _ .mem rfl).trans (tally_mem _ _ _ _)

section
variable {s : State} {slot die idx : Nat} {c : StepCtx}

theorem exec_chanterStep (hrun : running s = true) (hctx : stepCtx s slot die idx = some c) (hstopped : c.r.stopped = false)
    (hdue : c.r.t + Step.time c.st ≤ s.time.now) (hnew : c.r.issued.contains (stepKey die idx) = false) (hturn : turnOf c die idx = true) :
    exec (.chanterStep slot die idx) s = .next (setMember slot c.m.rank (fun m => { m with lastDone := m.lastDone || Step.last c.st })
      (stepIssued slot die idx c s)) := by
  show execChanterStep slot die idx s = _
  simp only [execChanterStep, hctx, hrun, hstopped, Nat.ble_eq_true_of_le hdue, hnew, hturn, Bool.not_false, Bool.and_self, when_true]
  rfl

theorem stepIssued_run (rank : Nat) (f : RunMember → RunMember) (hrun : runOf s slot = some c.r) :
    ∃ r, runOf (setMember slot rank f (stepIssued slot die idx c s)) slot = some r ∧
      r.issued = c.r.issued ++ [stepKey die idx] ∧ r.fired = c.r.fired ++ [stepKey die idx] ∧ r.t = c.r.t ∧ r.seq = c.r.seq ∧
      r.lateSeen = (c.r.lateSeen || (Step.op c.st != sTransform && isLate c s)) := by
  rw [setMember, runOf_setRun, stepIssued, runOf_setRun, (stepCounted_run hrun).1]
  exact ⟨_, rfl, rfl, rfl, rfl, rfl, rfl⟩

end

/-! ## A run ends -/

theorem exec_runCounterReached {s : State} (hrun : running s = true) (slot rank : Nat) : exec (.runCounterReached slot rank) s =
    .next (setMember slot rank (fun m =>
      match m.hold with
      | some (k, v) => if v ≤ tgetD m.ctrs k 0 then { m with hold := none } else m
      | none => m) s) := congrArg Host.Outcome.next (by rw [hrun, when_true] <;> rfl)

/-- The member's part of the run is over. -/
def memberEnded (slot rank : Nat) (s : State) : State := setMember slot rank (fun m => { m with ended := true }) s

section
variable {s : State} {slot rank : Nat} {x : Slot} {r : Run} {m : RunMember} (hrun : running s = true) (hx : tget s.coll.slots slot = some x)
  (hr : x.run = some r) (hm : r.members.find? (fun m => m.rank == rank) = some m) (hended : m.ended = false)
include hrun hx hr hm hended

theorem exec_runTimeout (hdue : due s r.t (SHdr.duration x.hdr + (groupOf s x.group).timeout * ms) = true) :
    exec (.runTimeout slot) s = .next (s.emit (.coll 5 x.group (homeOf (groupOf s x.group)) [r.seq, 0])) := by
  have hopen : (r.members.any fun m => !m.ended) = true := List.any_eq_true.mpr ⟨m, List.mem_of_find?_eq_some hm, by rw [hended]; rfl⟩
  show execRunTimeout slot s = _
  simp only [execRunTimeout, hx, hr, hrun, hdue, hopen, Bool.and_self, when_true]

variable (hquiet : memberQuiet s x r m = true)
include hquiet

theorem exec_memberComplete {l : Launch} (hstopped : r.stopped = false) (hlast : m.lastDone = true)
    (hlaunch : launchOf (groupOf s x.group) rank r.seq = some l) : exec (.memberComplete slot rank) s =
      .next (endStep x.group m.wq m.idx (collVerdict (memberEnded slot rank s) (groupOf s x.group)
        { l with sig := { l.sig with kind := ckReduce }, startFenced := [] } [] 0) (memberEnded slot rank s)) := by
  show execMemberComplete slot rank s = _
  simp only [execMemberComplete, hx, hr, hm, hrun, hended, hstopped, hlast, hquiet, hlaunch, Bool.not_false, Bool.true_or, Bool.and_self, when_true,
    Bool.false_eq_true, if_false]
  rfl

theorem exec_memberComplete_of_stopped (hstopped : r.stopped = true) : exec (.memberComplete slot rank) s =
    .next (if hasReduction x then endStep x.group m.wq m.idx { status := stMemberFenced } (memberEnded slot rank s)
      else
        let fenced := (groupOf s x.group).members.filter fun y => s.fab.fenced.contains y
        let z := makeList (dieOfWq m.wq) (Desc.part (wqOf s m.wq).desc) fenced (memberEnded slot rank s)
        endStep x.group m.wq m.idx { status := stPartialDelivery, off := fenced.length, addr := z.1 } z.2) := by
  show execMemberComplete slot rank s = _
  simp only [execMemberComplete, hx, hr, hm, hrun, hended, hstopped, hquiet, Bool.not_false, Bool.or_true, Bool.and_self, when_true, if_true]
  rfl

end

/-! ## The obligation -/

/-- Settles O33, its clauses in the order of the statement: streaming (R208), the load and its verification (R214, R215), the unload (R216), the
chanter's step (R218), a counter reached (R213), and the end of a run (R221, R222, R225). -/
theorem schedulesLoadAndRun : Obligations.SchedulesLoadAndRun := by
  refine ⟨?stream, ?load, ?verified, ?unload, ?chanter, fun s slot rank hrun => exec_runCounterReached hrun slot rank, ?ends⟩
  case stream =>
    intro s wq idx g o l x hrun hfind hlaunch htile hstarted hstream
    exact ⟨exec_streamTileRelease hrun hfind hlaunch htile hstarted hstream, exec_streamTileTimeout hrun hfind hlaunch htile hstarted hstream⟩
  case load =>
    intro s r c hwrite hgen
    exact ⟨exec_schedLoad_of_slot_past_15 hwrite hgen, exec_schedLoad_of_used hwrite hgen, exec_schedLoad_of_free hwrite hgen⟩
  case verified =>
    intro s slot ext x hrun hx hstate hopening
    obtain ⟨t, hexec, ⟨y, hy, hjudged⟩, hothers⟩ := exec_scheduleVerified_judges ext hrun hx hstate hopening
    refine ⟨t, hexec, ?_, ?_, fun d s1 hbytes hbad => exec_scheduleVerified_refuses ext hrun hx hstate hopening hexec hbytes hbad, hothers⟩ <;>
      rw [slotOf_eq hy]
    · exact hjudged.imp And.left id
    · rcases hjudged with ⟨-, hopen⟩ | hrefused | ⟨hverifies, -⟩
      · exact fun _ => hopen
      · intro hresident; rw [hrefused] at hresident; cases hresident
      · intro hresident; rw [hverifies] at hresident; cases hresident
  case unload =>
    intro s r c x hwrite hx
    exact ⟨exec_schedUnload_of_run hwrite hx, fun hrun => ⟨exec_schedUnload_of_no_run hwrite hx hrun, unloadSlot_frees _ s⟩⟩
  case chanter =>
    intro s slot die idx c hrun hctx hstopped hdue hnew hturn
    have hslot := run_of_stepCtx hctx
    obtain ⟨r, hr, hissued, hfired, ht, hseq, hlate⟩ := stepIssued_run (die := die) (idx := idx) c.m.rank
      (fun m => { m with lastDone := m.lastDone || Step.last c.st }) hslot
    refine ⟨_, r, exec_chanterStep hrun hctx hstopped hdue hnew hturn, hr, hissued, hfired, ht, hseq, ?_, ?_, stepCounted_mem slot die c s⟩
    · rw [hlate]
      simp [isLate, Nat.blt_eq]
    · exact writesSlot_trans (writesSlot_trans (stepCounted_run hslot).2 (setRun_writesSlot _ _ _)) (setRun_writesSlot _ _ _)
  case ends =>
    intro s slot rank x r m hrun hx hr hm hended
    refine ⟨exec_runTimeout hrun hx hr hm hended,
      fun l hstopped hlast hquiet hlaunch => exec_memberComplete hrun hx hr hm hended hquiet hstopped hlast hlaunch, fun hstopped hquiet => ?_⟩
    have hexec := exec_memberComplete_of_stopped hrun hx hr hm hended hquiet hstopped
    refine ⟨fun hred => ?_, fun hred => ?_⟩ <;> rw [hred] at hexec <;> exact hexec

end Sys2Proof.Machine
end

section
/-! SUPPORT. Pauses received, sent and watched; shapers and gate lists (R313 to R326). -/

namespace Sys2Proof.Machine

/-! ## Ports -/

theorem onPort_of_up {s : State} {p : Nat} {ok : Port → Bool} (hp : p < 24) (hup : portUp s p = true) (hok : ok (portOf s p) = true)
    (act : State → State) : onPort p ok s act = .next (act s) := by
  have hnumber : Nat.blt p 24 = true := Nat.blt_eq.mpr hp
  simp only [onPort, need, hnumber, hup, hok, Bool.and_self, when_true]

theorem portOf_congr {s t : State} (hfab : t.fab = s.fab) (p : Nat) : portOf t p = portOf s p := by rw [portOf, hfab]; rfl

@[simp] theorem portOf_countPfc (p k prio i n : Nat) (s : State) : portOf (countPfc p prio i n s) k = portOf s k := rfl

@[simp] theorem countPfc_time (p prio i n : Nat) (s : State) : (countPfc p prio i n s).time = s.time := rfl

theorem cfgPort_congr {s t : State} (hdict : t.dict = s.dict) (p i n : Nat) : cfgPort t p i n = cfgPort s p i n := by simp only [cfgPort, hdict]

theorem setPort_onlyChanges (p : Nat) (f : Port → Port) (s : State) : onlyChanges [.fab] s (setPort p f s) := by simp [onlyChanges_iff]

/-- A step for each number of a list, each writing one entry of a table, writes each entry named once. -/
theorem foldl_entries {β : Type} {F : State → Nat → State} {look : State → Nat → β} {g : Nat → β → β} {I : State → Prop}
    (hkeep : ∀ u i, I u → I (F u i)) (hstep : ∀ u i, I u → ∀ k, look (F u i) k = if k = i then g i (look u i) else look u k)
    {l : List Nat} (hl : l.Nodup) {u : State} (hu : I u) (k : Nat) : look (l.foldl F u) k = if k ∈ l then g k (look u k) else look u k := by
  induction l generalizing u with
  | nil => rfl
  | cons i l ih =>
    obtain ⟨hi, hl⟩ := List.nodup_cons.mp hl
    rw [List.foldl_cons, ih hl (hkeep u i hu), hstep u i hu]
    by_cases hk : k = i
    · subst hk; simp [hi]
    · simp [hk]

theorem foldl_keeps {α : Type} {F : State → α → State} {I : State → Prop} (hkeep : ∀ u a, I u → I (F u a)) (l : List α) {u : State} (hu : I u) :
    I (l.foldl F u) := by
  induction l generalizing u with
  | nil => exact hu
  | cons a l ih => exact ih (hkeep u a hu)

/-! ## A pause ends -/

section
variable {p prio : Nat} {s : State}

theorem endPause_paused (p prio : Nat) (s : State) : (portOf (endPause p prio s) p).paused = tdel (portOf s p).paused prio := by
  unfold endPause
  split
  · simp
  · next h => exact (tdel_of_tget_none h).symm

theorem endPause_rate (p prio : Nat) (s : State) : (portOf (endPause p prio s) p).rate = (portOf s p).rate := by
  unfold endPause
  split
  · simp
  · rfl

theorem endPause_time (p prio : Nat) (s : State) : (endPause p prio s).time = s.time := by
  unfold endPause
  split <;> simp

theorem nth_nmod (l : List Nat) (i : Nat) (f : Nat → Nat) : nth (nmod l i f) i = f (nth l i) := by
  induction i generalizing l with
  | zero => cases l <;> rfl
  | succ i ih => cases l with
    | nil => exact ih []
    | cons x l => exact ih l

theorem countAt_countPfc (p prio i n : Nat) (s : State) : countAt (countPfc p prio i n s) (dkey 0x3103 6 (p + 1)) (6 * prio + i) =
    sat64 (countAt s (dkey 0x3103 6 (p + 1)) (6 * prio + i)) n := by
  simp [countAt, countPfc, nth_nmod, tgetD_tmodD_eq]

theorem endPause_of_past {x : Pause} (hx : tget (portOf s p).paused prio = some x) (hpast : x.until_ ≤ s.time.now) :
    endPause p prio s = countPfc p prio 3 (x.until_ - x.since) (setPort p (fun q => { q with paused := tdel q.paused prio }) s) := by
  simp only [endPause, hx, Nat.min_eq_right hpast]

end

/-! ## A pause time arrives -/

/-- A pause that has run out has ended. -/
def pauseLeft (now : Nat) (old : Option Pause) : Option Pause := old.filter fun y => now < y.until_

/-- What a pause time makes of a priority's pause. -/
def pauseTaken (now rate t : Nat) (old : Option Pause) : Option Pause :=
  if t = 0 then none else some { until_ := now + 100 + pauseTime rate t, since := ((pauseLeft now old).map (·.since)).getD now }

theorem endPast_paused (p prio k : Nat) (s : State) : tget (portOf (endPast p prio s) p).paused k =
    if k = prio then pauseLeft s.time.now (tget (portOf s p).paused prio) else tget (portOf s p).paused k := by
  by_cases hk : k = prio
  · subst hk
    unfold endPast pauseLeft
    split
    · next x hx =>
      by_cases hpast : x.until_ ≤ s.time.now
      · simp [hpast, endPause_paused, hx, Option.filter]
      · simp [hpast, hx, Option.filter, Nat.lt_of_not_le hpast]
    · next hx => simp [hx]
  · rw [if_neg hk]
    unfold endPast
    split
    · split
      · rw [endPause_paused, tget_tdel_eq, if_neg hk]
      · rfl
    · rfl

/-- A state in which the clock and the port's rate are those of `s`. -/
def sameClock (p : Nat) (s u : State) : Prop := u.time = s.time ∧ (portOf u p).rate = (portOf s p).rate

theorem endPast_sameClock (p prio : Nat) (s : State) : sameClock p s (endPast p prio s) := by
  unfold endPast
  split
  · split
    · exact ⟨endPause_time p prio s, endPause_rate p prio s⟩
    · exact ⟨rfl, rfl⟩
  · exact ⟨rfl, rfl⟩

theorem takePause_sameClock (p prio t : Nat) (s : State) : sameClock p s (takePause p prio t s) := by
  obtain ⟨htime, hrate⟩ := endPast_sameClock p prio (countPfc p prio 2 1 s)
  simp only [takePause]
  split
  · exact ⟨(endPause_time _ _ _).trans htime, (endPause_rate _ _ _).trans hrate⟩
  · exact ⟨by rw [setPort_time, htime]; rfl, by rw [portOf_setPort_self]; exact hrate⟩

theorem takePause_paused (p prio t k : Nat) (s : State) : tget (portOf (takePause p prio t s) p).paused k =
    if k = prio then pauseTaken s.time.now (portOf s p).rate t (tget (portOf s p).paused prio) else tget (portOf s p).paused k := by
  have hended := endPast_paused p prio k (countPfc p prio 2 1 s)
  obtain ⟨htime, hrate⟩ := endPast_sameClock p prio (countPfc p prio 2 1 s)
  simp only [portOf_countPfc, countPfc_time] at hended htime hrate
  simp only [takePause, pauseTaken]
  by_cases ht : t = 0
  · by_cases hk : k = prio
    · simp [ht, hk, endPause_paused]
    · simp [ht, hk, endPause_paused, tget_tdel_eq, hended]
  · by_cases hk : k = prio
    · subst hk
      simp [ht, htime, hrate, hended]
    · simp [ht, hk, tget_tset_ne, hended]

/-! ## A flow control frame -/

/-- FC_MODE and PFC_ENABLE honour the frame for a priority. -/
def frameHonoured (s : State) (port : Nat) (pause : Bool) (i : Nat) : Bool :=
  if pause then cfgPort s port 0x3103 1 == 1 else cfgPort s port 0x3103 1 == 2 && bit (cfgPort s port 0x3103 2) i

/-- The priorities a frame names. -/
def frameNames (pause : Bool) (mask : Nat) : List Nat := if pause then List.range 8 else maskBits 8 mask

/-- The pause time a frame gives a priority. -/
def frameTime (pause : Bool) (times : List Nat) (i : Nat) : Nat := nth times (if pause then 0 else i)

/-- A frame's time for one priority is taken where the frame is honoured, and only counted otherwise. -/
def frameTaken (port : Nat) (honoured : Nat → Bool) (time : Nat → Nat) (u : State) (i : Nat) : State :=
  if honoured i then takePause port i (time i) u else countPfc port i 2 1 u

theorem frameNames_nodup (pause : Bool) (mask : Nat) : (frameNames pause mask).Nodup := by
  cases pause with
  | false => exact List.nodup_range.filter _
  | true => exact List.nodup_range

section
variable {s : State} {port : Nat}

theorem exec_pfcFrame (hp : port < 24) (hup : portUp s port = true) (htrained : (portOf s port).isTrained = true) (pause : Bool) (mask : Nat)
    (times : List Nat) : exec (.pfcFrame port pause mask times) s =
      .next ((frameNames pause mask).foldl (frameTaken port (frameHonoured s port pause) (frameTime pause times)) s) := by
  change execPfcFrame port pause mask times s = _
  refine (onPort_of_up (ok := fun q => q.isTrained) hp hup htrained _).trans (congrArg Host.Outcome.next ?_)
  cases pause with
  | false => rfl
  | true =>
    change (if cfgPort s port 0x3103 1 == 1 then (List.range 8).foldl (fun s i => takePause port i (nth times 0) s) s
      else (List.range 8).foldl (fun s i => countPfc port i 2 1 s) s) =
        (List.range 8).foldl (frameTaken port (fun _ => cfgPort s port 0x3103 1 == 1) (fun _ => nth times 0)) s
    cases cfgPort s port 0x3103 1 == 1 <;> rfl

theorem frameTaken_sameClock {honoured : Nat → Bool} {time : Nat → Nat} {u : State} {i : Nat} (h : sameClock port s u) :
    sameClock port s (frameTaken port honoured time u i) := by
  unfold frameTaken
  split
  · obtain ⟨htime, hrate⟩ := takePause_sameClock port i (time i) u
    exact ⟨htime.trans h.1, hrate.trans h.2⟩
  · exact h

/-- After a frame a priority it names and that is honoured has the pause its time gives; every other is as it was. -/
theorem frame_paused (names : List Nat) (hnames : names.Nodup) (honoured : Nat → Bool) (time : Nat → Nat) (k : Nat) :
    tget (portOf (names.foldl (frameTaken port honoured time) s) port).paused k =
      if k ∈ names ∧ honoured k = true then pauseTaken s.time.now (portOf s port).rate (time k) (tget (portOf s port).paused k)
      else tget (portOf s port).paused k := by
  have hfold := foldl_entries (F := frameTaken port honoured time) (look := fun u k => tget (portOf u port).paused k) (I := sameClock port s)
    (g := fun i old => if honoured i then pauseTaken s.time.now (portOf s port).rate (time i) old else old)
    (fun u i hu => frameTaken_sameClock hu) ?_ hnames ⟨rfl, rfl⟩ k
  · refine hfold.trans ?_
    by_cases hk : k ∈ names <;> simp [hk]
  · intro u i hu k
    obtain ⟨htime, hrate⟩ := hu
    cases hi : honoured i with
    | true => simp only [frameTaken, hi, if_true, takePause_paused, htime, hrate]
    | false =>
      simp only [frameTaken, hi, Bool.false_eq_true, if_false, portOf_countPfc]
      split
      · next h => rw [h]
      · rfl

end

/-! ## The watchdog: the port leaves the trained state -/

/-- The bring-up state and the pauses of a port. -/
def bringAndPauses (s : State) (p : Nat) : Bring × Tab Pause := ((portOf s p).bring, (portOf s p).paused)

theorem noteHwm_bringAndPauses (p tc : Nat) (s : State) : bringAndPauses (noteHwm p tc s) p = bringAndPauses s p := by
  simp [noteHwm, bringAndPauses]

theorem unqueue_bringAndPauses (p : Nat) (keep : Queued → Bool) (s : State) : bringAndPauses (unqueue p keep s) p = bringAndPauses s p := by
  simp only [unqueue]
  have hwait (u : State) (die : Nat) (q : Queued) : bringAndPauses (waitAt die q u) p = bringAndPauses u p := rfl
  refine foldl_keeps (I := fun u => bringAndPauses u p = bringAndPauses s p) (fun u q hu => (hwait u _ _).trans hu) _ ?_
  simp only [bringAndPauses, portOf_setPort_self]
  exact foldl_keeps (I := fun u => bringAndPauses u p = bringAndPauses s p) (fun u tc hu => (noteHwm_bringAndPauses p tc u).trans hu) _ rfl

theorem foldl_endPause_paused (p : Nat) (l : List Nat) (s : State) : (portOf (l.foldl (fun s prio => endPause p prio s) s) p).paused =
    (portOf s p).paused.filter fun x => !l.contains x.1 := by
  induction l generalizing s with
  | nil => simp
  | cons i l ih =>
    rw [List.foldl_cons, ih, endPause_paused, tdel, List.filter_filter]
    refine List.filter_congr fun x _ => ?_
    rw [List.contains_cons, Bool.not_or, Bool.and_comm]
    rfl

theorem stopPort_bringAndPauses (p : Nat) (b : Bring) (s : State) : bringAndPauses (stopPort p b s) p = (b, []) := by
  have hnone : ((portOf s p).paused.filter fun x => !((portOf s p).paused.map (·.1)).contains x.1) = [] := by
    rw [List.filter_eq_nil_iff]
    intro x hx
    simpa using ⟨x.2, hx⟩
  rw [stopPort, unqueue_bringAndPauses, bringAndPauses, portOf_setPort_self]
  exact congrArg (Prod.mk b) ((foldl_endPause_paused p _ s).trans hnone)

theorem fastRetrain_port (p trigger : Nat) (s : State) : (portOf (fastRetrain p trigger s) p).bring = .retrain ∧
    (portOf (fastRetrain p trigger s) p).paused = [] ∧ (portOf (fastRetrain p trigger s) p).trigger = trigger := by
  have hstopped := stopPort_bringAndPauses p .retrain s
  have hport : portOf (fastRetrain p trigger s) p = { portOf (stopPort p .retrain s) p with trigger := trigger } := by
    rw [fastRetrain, portOf_congr (record_onlyChanges (by decide) _ _ _ _ _ .fab rfl), countPort, portOf_congr (bump_fab _ _ _ _),
      portOf_setPort_self]
  rw [hport]
  exact ⟨congrArg Prod.fst hstopped, congrArg Prod.snd hstopped, rfl⟩

/-! ## The events of a pause -/

section
variable {s : State} {port prio : Nat} (hp : port < 24) (hup : portUp s port = true)
include hp hup

theorem exec_pauseExpiry {x : Pause} (hx : tget (portOf s port).paused prio = some x) (hpast : x.until_ ≤ s.time.now) :
    exec (.pauseExpiry port prio) s =
      .next (countPfc port prio 3 (x.until_ - x.since) (setPort port (fun q => { q with paused := tdel q.paused prio }) s)) := by
  change execPauseExpiry port prio s = _
  simp only [execPauseExpiry, hx, Nat.ble_eq_true_of_le hpast]
  exact (onPort_of_up (ok := fun _ => true) hp hup rfl _).trans (congrArg Host.Outcome.next (endPause_of_past hx hpast))

variable (htrained : (portOf s port).isTrained = true)
include htrained

theorem exec_pauseWatchdog {x : Pause} (hx : tget (portOf s port).paused prio = some x)
    (hdue : due s x.since (cfgPort s port 0x3103 5 * ms) = true) (hlong : x.since + cfgPort s port 0x3103 5 * ms ≤ x.until_) :
    exec (.pauseWatchdog port prio) s =
      .next (fastRetrain port 3 (countPfc port prio 5 1 (record 3 0x3015 0xF (fpCode (port / 6)) [port, prio] s))) := by
  change execPauseWatchdog port prio s = _
  simp only [execPauseWatchdog, hx, hdue, Nat.ble_eq_true_of_le hlong, Bool.and_self, Bool.true_and]
  exact onPort_of_up (ok := fun q => q.isTrained) hp hup htrained _

theorem exec_pfcRefresh {since : Nat} (hsince : tget (portOf s port).xoff prio = some since)
    (hdue : due s since (pauseTime (portOf s port).rate 0xFFFF / 2) = true) (habove : cfgPort s port 0x3103 4 < tgetD (portOf s port).hold prio 0) :
    exec (.pfcRefresh port prio) s =
      .next (sendPause port prio 0xFFFF (setPort port (fun q => { q with xoff := tset q.xoff prio s.time.now }) s)) := by
  change execPfcRefresh port prio s = _
  simp only [execPfcRefresh, hsince, hdue, Bool.true_and]
  exact onPort_of_up (ok := fun q => q.isTrained && _) hp hup (by simp [htrained, habove]) _

end

/-! ## Shapers -/

/-- One shaper of a port takes up its rate and adds it over 1,024 ns. -/
def refillShaper (port : Nat) (burst : Int) (s : State) (tc : Nat) : State :=
  match shaperRate s port tc with
  | some r => setPort port (fun q => { q with buckets := tmodD q.buckets tc 0 fun b => min (min b burst + (r * 1024 / 8000 : Nat)) burst,
                                              shapers := tset q.shapers tc r }) s
  | none => setPort port (fun q => { q with shapers := tdel q.shapers tc }) s

theorem shaperRate_congr {s u : State} {port : Nat} (hrate : (portOf u port).rate = (portOf s port).rate) (hdict : u.dict = s.dict) :
    shaperRate u port = shaperRate s port := by
  funext tc
  simp only [shaperRate, hrate, cfgPort_congr hdict]

/-- The refill of a port at this instant, with the shapers' rates as in `s`. -/
def refillUnderWay (s : State) (port : Nat) (u : State) : Prop :=
  shaperRate u port = shaperRate s port ∧ (portOf u port).refillAt = some s.time.now

section
variable {s u : State} {port : Nat} {burst : Int}

theorem refillShaper_underWay {tc : Nat} (hu : refillUnderWay s port u) : refillUnderWay s port (refillShaper port burst u tc) := by
  unfold refillShaper
  split
  · exact ⟨(shaperRate_congr (by simp) (by simp)).trans hu.1, by simp [hu.2]⟩
  · exact ⟨(shaperRate_congr (by simp) (by simp)).trans hu.1, by simp [hu.2]⟩

/-- What a refill makes of a class's bucket. -/
def bucketRefilled (burst : Int) (rate : Option Nat) (old : Option Int) : Option Int :=
  match rate with
  | some r => some (min (min (old.getD 0) burst + (r * 1024 / 8000 : Nat)) burst)
  | none => old

theorem refillShaper_buckets (tc k : Nat) : tget (portOf (refillShaper port burst u tc) port).buckets k =
    if k = tc then bucketRefilled burst (shaperRate u port tc) (tget (portOf u port).buckets tc) else tget (portOf u port).buckets k := by
  unfold refillShaper
  split
  · next r hr => simp [hr, bucketRefilled, tget_tmodD_eq, tgetD_eq]
  · next hr =>
    simp only [hr, bucketRefilled, portOf_setPort_self]
    split
    · next h => rw [h]
    · rfl

theorem refillShaper_shapers (tc k : Nat) : tget (portOf (refillShaper port burst u tc) port).shapers k =
    if k = tc then shaperRate u port tc else tget (portOf u port).shapers k := by
  unfold refillShaper
  split
  · next r hr => simp [hr, tget_tset_eq]
  · next hr => simp [hr, tget_tdel_eq]

variable (hu : refillUnderWay s port u)
include hu

theorem foldl_refillShaper_refillAt (l : List Nat) : (portOf (l.foldl (refillShaper port burst) u) port).refillAt = some s.time.now :=
  (foldl_keeps (I := refillUnderWay s port) (fun _ _ => refillShaper_underWay) l hu).2

variable (k : Nat)

theorem foldl_refillShaper_buckets {l : List Nat} (hl : l.Nodup) (hk : k ∈ l) : tget (portOf (l.foldl (refillShaper port burst) u) port).buckets k =
    bucketRefilled burst (shaperRate s port k) (tget (portOf u port).buckets k) := by
  have hfold := foldl_entries (F := refillShaper port burst) (look := fun u k => tget (portOf u port).buckets k) (I := refillUnderWay s port)
    (g := fun tc => bucketRefilled burst (shaperRate s port tc)) (fun _ _ => refillShaper_underWay)
    (fun v tc hv k => by rw [refillShaper_buckets, hv.1]) hl hu k
  exact hfold.trans (if_pos hk)

theorem foldl_refillShaper_shapers {l : List Nat} (hl : l.Nodup) (hk : k ∈ l) : tget (portOf (l.foldl (refillShaper port burst) u) port).shapers k =
    shaperRate s port k := by
  have hfold := foldl_entries (F := refillShaper port burst) (look := fun u k => tget (portOf u port).shapers k) (I := refillUnderWay s port)
    (g := fun tc _ => shaperRate s port tc) (fun _ _ => refillShaper_underWay)
    (fun v tc hv k => by rw [refillShaper_shapers, hv.1]) hl hu k
  exact hfold.trans (if_pos hk)

end

/-- A refill begins at this instant. -/
def refillBegun (port : Nat) (s : State) : State := setPort port (fun q => { q with refillAt := some s.time.now }) s

theorem refillBegun_underWay (port : Nat) (s : State) : refillUnderWay s port (refillBegun port s) :=
  ⟨shaperRate_congr (by simp [refillBegun]) (by simp [refillBegun]), by simp [refillBegun]⟩

theorem exec_shaperRefill {s : State} {port : Nat} (hp : port < 24) (hup : portUp s port = true) (hinstant : s.time.now % 1024 = 0)
    (hnew : (portOf s port).refillAt ≠ some s.time.now) : exec (.shaperRefill port) s =
      .next ([0, 2, 3].foldl (refillShaper port (cfgPort s port 0x3201 6)) (refillBegun port s)) := by
  change execShaperRefill port s = _
  rw [execShaperRefill, onPort_of_up hp hup (by simp [hinstant, hnew])]
  rfl

/-! ## Gates -/

theorem exec_gateEntryStart {s : State} {port : Nat} (hp : port < 24) (hup : portUp s port = true) : exec (.gateEntryStart port) s =
    .next (setPort port (fun q => { q with
      gates := (((portOf s port).gateList[(entryIndex (portOf s port).gateList 0 0 (cycleOffset (portOf s port) s.time.now)).1]?).getD ⟨15, 0⟩).gates,
      stepClosed := q.stepClosed && (entryIndex (portOf s port).gateList 0 0 (cycleOffset (portOf s port) s.time.now)).1 != 0 }) s) :=
  onPort_of_up (ok := fun _ => true) hp hup rfl _

/-- A port's pending gate list is in force. -/
def gatesChanged (q : Port) : Port :=
  match q.gatePending with
  | some (l, base, _) => { q with gateList := l, gateBase := base, gatePending := none, gates := ((l.head?).getD ⟨15, 0⟩).gates, stepClosed := false }
  | none => q

theorem exec_gateChangeover {s : State} {port : Nat} {x : List GateEntry × Nat × Nat} (hp : port < 24) (hup : portUp s port = true)
    (hpending : (portOf s port).gatePending = some x) (hdue : x.2.2 ≤ s.time.now) :
    exec (.gateChangeover port) s = .next (setPort port gatesChanged s) := by
  change execGateChangeover port s = _
  simp only [execGateChangeover, hpending, Nat.ble_eq_true_of_le hdue]
  exact (onPort_of_up (ok := fun _ => true) hp hup rfl _).trans rfl

/-! ## A commit of a gate list -/

theorem le_ceilDiv_mul {c : Nat} (hc : 0 < c) (d : Nat) : d ≤ ceilDiv d c * c := by
  rw [ceilDiv, ← Nat.ceilDiv_eq_add_pred_div, Nat.mul_comm]
  exact (ceilDiv_le_iff_le_mul hc).mp le_rfl

theorem pred_ceilDiv_mul_lt {c d : Nat} (hc : 0 < c) (hd : ceilDiv d c ≠ 0) : (ceilDiv d c - 1) * c < d := by
  rw [ceilDiv, ← Nat.ceilDiv_eq_add_pred_div] at hd ⊢
  rw [Nat.mul_comm, ← not_le, ← ceilDiv_le_iff_le_mul hc]
  omega

/-- Multiples of a cycle from a base up to an instant: the first start of a cycle at or after both. -/
theorem first_cycle_start {base least c : Nat} (hc : 0 < c) :
    base ≤ base + ceilDiv (max base least - base) c * c ∧ least ≤ base + ceilDiv (max base least - base) c * c ∧
      (ceilDiv (max base least - base) c = 0 ∨ base + (ceilDiv (max base least - base) c - 1) * c < least) := by
  have hreach := le_ceilDiv_mul hc (max base least - base)
  refine ⟨Nat.le_add_right _ _, by omega, ?_⟩
  by_cases hzero : ceilDiv (max base least - base) c = 0
  · exact .inl hzero
  · have hbefore := pred_ceilDiv_mul_lt hc hzero
    exact .inr (by omega)

/-- An admin list that GATE_COMMIT takes. -/
def gateListGood (l : List GateEntry) : Prop :=
  l ≠ [] ∧ l.length ≤ 256 ∧ (∀ e ∈ l, 64 ≤ e.duration) ∧ 1000 ≤ cycleOf l ∧ cycleOf l ≤ 10000000

/-- The base and TC1's windows stay as they are. -/
def gatesAlike (q : Port) (base : Nat) (l : List GateEntry) : Prop := base = q.gateBase ∧ tc1Windows l = tc1Windows q.gateList

theorem gateListBad_iff (l : List GateEntry) : (l.isEmpty || decide (256 < l.length) || !(l.all fun e => Nat.ble 64 e.duration) ||
    decide (cycleOf l < 1000) || decide (10000000 < cycleOf l)) = true ↔ ¬ gateListGood l := by
  simp only [gateListGood, Bool.or_eq_true, List.isEmpty_iff, decide_eq_true_eq, Bool.not_eq_true', List.all_eq_false, Nat.ble_eq, not_and_or,
    not_not, not_le, not_forall, exists_prop, or_assoc]

theorem residentAny_iff (s : State) :
    (s.coll.slots.any fun x => x.2.state == .resident) = true ↔ ∃ x ∈ s.coll.slots, x.2.state = .resident := by
  simp only [List.any_eq_true, beq_iff_eq]

theorem gatesAlike_iff (q : Port) (base : Nat) (l : List GateEntry) :
    (base == q.gateBase && tc1Windows l == tc1Windows q.gateList) = true ↔ gatesAlike q base l := by
  simp only [gatesAlike, Bool.and_eq_true, beq_iff_eq]

/-- The first cycle of a list from its base that starts at least 10 µs from now. -/
def firstCycle (base : Nat) (l : List GateEntry) (s : State) : Nat := ceilDiv (max base (s.time.now + 10000) - base) (cycleOf l)

/-- A gate list is pending for the start of its k-th cycle. -/
def gatesPending (p : Nat) (l : List GateEntry) (base k : Nat) (s : State) : State :=
  setPort p (fun q => { q with gatePending := some (l, base, base + k * cycleOf l) }) s

section
variable {s : State} {r : Request} {c : Cmd} {p base : Nat} {l : List GateEntry} (hwrite : writesEntry s r c 0x3302 2 = true)
  (hp : p = selOf s (senderOf s r).num (dkey 0x3100 0)) (hl : l = gateEntries (cfgBytes s (dkey 0x3301 0 (p + 1)) 0 0))
  (hbase : base = cfgPort s p 0x3302 1)
include hwrite hp hl hbase

theorem exec_gateCommit_cases : exec .gateCommit s = .next (
    if (l.isEmpty || decide (256 < l.length) || !(l.all fun e => Nat.ble 64 e.duration) || decide (cycleOf l < 1000) ||
      decide (10000000 < cycleOf l)) = true then finish rInvalid [] s
    else if ((s.coll.slots.any fun x => x.2.state == .resident) &&
      !(base == (portOf s p).gateBase && tc1Windows l == tc1Windows (portOf s p).gateList)) = true then finish rBusy [] s
    else finish rDone [] (gatesPending p l base (firstCycle base l s) s)) := by
  subst hp hl hbase
  refine congrArg Host.Outcome.next ((onWrite_of_writesEntry (p := fun _ => true) hwrite (Nat.le_refl _) (Nat.le_refl _) rfl _).trans ?_)
  simp only
  split
  · rfl
  · split <;> rfl

theorem exec_gateCommit_of_bad (hbad : ¬ gateListGood l) : exec .gateCommit s = .next (finish rInvalid [] s) := by
  rw [exec_gateCommit_cases hwrite hp hl hbase, if_pos ((gateListBad_iff l).mpr hbad)]

variable (hgood : gateListGood l)
include hgood

theorem exec_gateCommit_of_resident (hresident : ∃ x ∈ s.coll.slots, x.2.state = .resident) (hother : ¬ gatesAlike (portOf s p) base l) :
    exec .gateCommit s = .next (finish rBusy [] s) := by
  rw [exec_gateCommit_cases hwrite hp hl hbase, if_neg (fun h => (gateListBad_iff l).mp h hgood), if_pos]
  rw [(residentAny_iff s).mpr hresident, Bool.eq_false_iff.mpr (mt (gatesAlike_iff _ _ _).mp hother)]
  rfl

theorem exec_gateCommit_of_good (hfree : (∀ x ∈ s.coll.slots, x.2.state ≠ .resident) ∨ gatesAlike (portOf s p) base l) :
    exec .gateCommit s = .next (finish rDone [] (gatesPending p l base (firstCycle base l s) s)) := by
  rw [exec_gateCommit_cases hwrite hp hl hbase, if_neg (fun h => (gateListBad_iff l).mp h hgood), if_neg]
  rcases hfree with hnone | hsame
  · have hany : (s.coll.slots.any fun x => x.2.state == .resident) = false :=
      Bool.eq_false_iff.mpr fun h => let ⟨x, hx, hstate⟩ := (residentAny_iff s).mp h; hnone x hx hstate
    simp [hany]
  · simp [(gatesAlike_iff _ _ _).mpr hsame]

end

/-! ## A frame's effect on a pause, as the obligation says it -/

theorem pauseTaken_zero {now rate t : Nat} (old : Option Pause) (ht : t = 0) : pauseTaken now rate t old = none := if_pos ht

theorem pauseTaken_pos {now rate t : Nat} (old : Option Pause) (ht : t ≠ 0) : ∃ x, pauseTaken now rate t old = some x ∧
    x.until_ = now + 100 + pauseTime rate t ∧ x.since = old.elim now fun y => if y.until_ ≤ now then now else y.since := by
  refine ⟨_, if_neg ht, rfl, ?_⟩
  cases old with
  | none => rfl
  | some y =>
    by_cases hpast : y.until_ ≤ now
    · simp [pauseLeft, Option.filter, hpast, Nat.not_lt.mpr hpast]
    · simp [pauseLeft, Option.filter, hpast, Nat.lt_of_not_le hpast]

theorem frame_taken {got old : Option Pause} {now rate t : Nat} (h : got = pauseTaken now rate t old) : (t = 0 → got = none) ∧
    (t ≠ 0 → ∃ x, got = some x ∧ x.until_ = now + 100 + pauseTime rate t ∧
      x.since = old.elim now fun y => if y.until_ ≤ now then now else y.since) :=
  h ▸ ⟨pauseTaken_zero old, pauseTaken_pos old⟩

theorem mem_frameNames {pause : Bool} {mask i : Nat} : i ∈ frameNames pause mask ↔ i < 8 ∧ (pause = false → bit mask i = true) := by
  cases pause <;> simp [frameNames, maskBits, below]

theorem frameHonoured_iff {s : State} {port : Nat} {pause : Bool} {i : Nat} : frameHonoured s port pause i = true ↔
    (pause = true ∧ cfgPort s port 0x3103 1 = 1) ∨
      (pause = false ∧ cfgPort s port 0x3103 1 = 2 ∧ bit (cfgPort s port 0x3103 2) i = true) := by
  cases pause <;> simp [frameHonoured]

/-! ## The obligation -/

/-- Settles O42, its clauses in the order of the statement: received pauses (R316), the watchdog (R319), repeated pauses (R315), expiry (R316),
the shapers' refill (R321), an entry's start, the changeover and GATE_COMMIT (R324, R326). -/
theorem pausesShapersAndGates : Obligations.PausesShapersAndGates := by
  refine ⟨fun s port hp hup htrained => ⟨?frames, ?watchdog, ?refresh⟩, fun s port hp hup => ⟨?expiry, ?refill, ?entry, ?changeover⟩, ?commit⟩
  case frames =>
    intro pause mask times
    have hpaused := frame_paused (s := s) (port := port) (frameNames pause mask) (frameNames_nodup pause mask) (frameHonoured s port pause)
      (frameTime pause times)
    have htaken {i v : Nat} (hi : i ∈ frameNames pause mask ∧ frameHonoured s port pause i = true) (hv : frameTime pause times i = v) :=
      frame_taken (hv ▸ (hpaused i).trans (if_pos hi))
    refine ⟨_, exec_pfcFrame hp hup htrained pause mask times, fun i hi hpfc hmode hen hmask => ?_, fun i hi hpause hmode => ?_,
      fun i hnot => (hpaused i).trans (if_neg ?_)⟩
    · exact htaken ⟨mem_frameNames.mpr ⟨hi, fun _ => hmask⟩, frameHonoured_iff.mpr (.inr ⟨hpfc, hmode, hen⟩)⟩ (by rw [frameTime, hpfc]; rfl)
    · exact htaken ⟨mem_frameNames.mpr ⟨hi, by simp [hpause]⟩, frameHonoured_iff.mpr (.inl ⟨hpause, hmode⟩)⟩ (by rw [frameTime, hpause]; rfl)
    · rw [mem_frameNames, frameHonoured_iff]
      rintro ⟨⟨-, hnamed⟩, ⟨hpause, hmode⟩ | ⟨hpfc, hmode, hen⟩⟩
      · simp [hpause, hmode] at hnot
      · simp [hpfc, hmode, hen, hnamed hpfc] at hnot
  case watchdog =>
    intro prio x hx hdue hlong
    exact ⟨_, exec_pauseWatchdog hp hup htrained hx hdue hlong, fastRetrain_port port 3 _⟩
  case refresh =>
    intro prio since hsince hdue habove
    exact ⟨_, exec_pfcRefresh hp hup htrained hsince hdue habove, by simp [sendPause], by simp [sendPause]⟩
  case expiry =>
    intro prio x hx hpast
    exact ⟨_, exec_pauseExpiry hp hup hx hpast, by simp, countAt_countPfc port prio 3 _ _⟩
  case refill =>
    intro hinstant hnew
    have hbegun := refillBegun_underWay port s
    have hclasses : [0, 2, 3].Nodup := by decide
    refine ⟨_, exec_shaperRefill hp hup hinstant hnew, foldl_refillShaper_refillAt hbegun _, fun tc htc r hr => ?_,
      fun tc htc => ?_⟩
    · rw [foldl_refillShaper_buckets hbegun tc hclasses htc, hr, tgetD_eq, refillBegun, portOf_setPort_self]
      rfl
    · have hshaped : tc ≠ 0 := by rintro rfl; simp at htc
      have hshaper := foldl_refillShaper_shapers (burst := cfgPort s port 0x3201 6) hbegun tc hclasses (List.mem_cons_of_mem _ htc)
      rw [shaped, hshaper, beq_false_of_ne hshaped, Bool.false_or]
  case entry => exact ⟨_, exec_gateEntryStart hp hup, by simp, by simp, setPort_onlyChanges _ _ _⟩
  case changeover =>
    intro l base at_ hpending hdue
    refine ⟨_, exec_gateChangeover hp hup hpending hdue, ?_, ?_, ?_, setPort_onlyChanges _ _ _⟩ <;> simp [gatesChanged, hpending]
  case commit =>
    intro s r c hwrite
    refine ⟨fun hbad => exec_gateCommit_of_bad hwrite rfl rfl rfl hbad,
      fun hgood hresident hother => exec_gateCommit_of_resident hwrite rfl rfl rfl hgood hresident hother, fun hgood hfree => ?_⟩
    obtain ⟨-, -, -, hcycle, -⟩ := id hgood
    obtain ⟨hbase, hleast, hfirst⟩ := first_cycle_start (base := cfgPort s (selOf s (senderOf s r).num (dkey 0x3100 0)) 0x3302 1)
      (least := s.time.now + 10000) (Nat.lt_of_lt_of_le (Nat.zero_lt_succ 999) hcycle)
    exact ⟨_, firstCycle _ _ s, exec_gateCommit_of_good hwrite rfl rfl rfl hgood hfree, by simp [gatesPending], hbase, hleast, hfirst,
      by simp [gatesPending], setPort_onlyChanges _ _ _⟩

end Sys2Proof.Machine
end

section
/-! SUPPORT. What the number formats hold: every finite value as a mantissa times a power of 2, and what wide-sum records add (R230, R235,
R238, R239). -/

namespace Sys2Proof.Machine

/-! ## Values as rationals -/

/-- The magnitude of a finite value; 0 for the others. -/
def ExactNum.magnitude : ExactNum → ℚ
  | .fin _ n d => n / d
  | _ => 0

/-- A value is not a quotient by 0. -/
def ExactNum.proper : ExactNum → Prop
  | .fin _ _ d => 0 < d
  | _ => True

theorem scaled_fin (neg : Bool) (n : Nat) (e : Int) :
    scaled neg n e = .fin neg (n * 2 ^ e.toNat) (2 ^ (-e).toNat) := by
  unfold scaled
  split
  · next h => rw [Int.toNat_of_nonpos (Int.neg_nonpos_of_nonneg h), pow_zero]
  · next h => rw [Int.toNat_of_nonpos (le_of_not_ge h), pow_zero, Nat.mul_one]

theorem scaleBy_fin (e : Int) (neg : Bool) (n d : Nat) :
    scaleBy e (.fin neg n d) = .fin neg (n * 2 ^ e.toNat) (d * 2 ^ (-e).toNat) := by
  unfold scaleBy
  dsimp only
  split
  · next h => rw [Int.toNat_of_nonpos (Int.neg_nonpos_of_nonneg h), pow_zero, Nat.mul_one]
  · next h => rw [Int.toNat_of_nonpos (le_of_not_ge h), pow_zero, Nat.mul_one]

/-- A power of 2 as the quotient of its two natural powers. -/
theorem two_zpow_eq_div (e : Int) : (2 : ℚ) ^ e = 2 ^ e.toNat / 2 ^ (-e).toNat := by
  rw [← zpow_natCast, ← zpow_natCast, ← zpow_sub₀ two_ne_zero]
  congr 1
  omega

@[simp] theorem scaled_magnitude (neg : Bool) (n : Nat) (e : Int) : (scaled neg n e).magnitude = n * 2 ^ e := by
  rw [scaled_fin, ExactNum.magnitude, two_zpow_eq_div]
  push_cast
  ring

theorem scaled_proper (neg : Bool) (n : Nat) (e : Int) : (scaled neg n e).proper := by
  rw [scaled_fin]
  exact Nat.two_pow_pos _

@[simp] theorem scaleBy_magnitude (e : Int) (v : ExactNum) : (scaleBy e v).magnitude = v.magnitude * 2 ^ e := by
  match v with
  | .nan => exact (zero_mul _).symm
  | .inf _ => exact (zero_mul _).symm
  | .fin neg n d =>
    rw [scaleBy_fin, ExactNum.magnitude, ExactNum.magnitude, two_zpow_eq_div]
    push_cast
    ring

theorem scaleBy_proper (e : Int) {v : ExactNum} (hv : v.proper) : (scaleBy e v).proper := by
  match v with
  | .nan => exact hv
  | .inf _ => exact hv
  | .fin neg n d =>
    rw [scaleBy_fin]
    exact Nat.mul_pos hv (Nat.two_pow_pos _)

/-! ## Magnitude codes (R230) -/

/-- The integer mantissa of a magnitude code, and the binary exponent of its last place over the format's least. -/
def mantissa (f : Flt) (c : Nat) : Nat := if c / 2 ^ (f.prec - 1) = 0 then c else 2 ^ (f.prec - 1) + c % 2 ^ (f.prec - 1)

def place (f : Flt) (c : Nat) : Nat := c / 2 ^ (f.prec - 1) - 1

theorem codeVal_eq (f : Flt) (neg : Bool) (c : Nat) : codeVal f neg c = scaled neg (mantissa f c) (f.qmin + place f c) := by
  simp only [codeVal, mantissa, place, beq_iff_eq]
  split
  · next h => simp [h]
  · next h =>
    have hpos := Nat.pos_of_ne_zero h
    congr 1
    push_cast [Nat.cast_sub hpos]
    ring

theorem mantissa_lt (f : Flt) (c : Nat) : mantissa f c < 2 * 2 ^ (f.prec - 1) := by
  have hmod := Nat.mod_lt c (Nat.two_pow_pos (f.prec - 1))
  unfold mantissa
  split
  · next h => have := (Nat.div_eq_zero_iff_lt (Nat.two_pow_pos _)).mp h; omega
  · omega

/-- A code that is not in the lowest binade has its leading bit. -/
theorem le_mantissa_of_place {f : Flt} {c : Nat} (h : 0 < place f c) : 2 ^ (f.prec - 1) ≤ mantissa f c := by
  unfold place at h
  rw [mantissa, if_neg (by omega)]
  omega

theorem place_mul_add_mantissa (f : Flt) (c : Nat) : place f c * 2 ^ (f.prec - 1) + mantissa f c = c := by
  have hdiv := Nat.div_add_mod' c (2 ^ (f.prec - 1))
  unfold place mantissa
  split
  · next h => simp [h]
  · next h =>
    obtain ⟨k, hk⟩ := Nat.exists_eq_succ_of_ne_zero h
    rw [hk, Nat.succ_mul] at hdiv
    rw [hk]
    simp only [Nat.succ_sub_one]
    omega

theorem place_le {f : Flt} {c m : Nat} (h : c ≤ m) : place f c ≤ place f m := Nat.sub_le_sub_right (Nat.div_le_div_right h) 1

/-! ## Units of 2^−149 (R239) -/

/-- The value is a whole number of units of 2^-149, below 2^b of them. -/
def inUnits (b : Nat) (v : ExactNum) : Prop :=
  ∀ neg n d, v = .fin neg n d → 0 < d ∧ ∃ k, n * 2 ^ 149 = k * d ∧ k < 2 ^ b

theorem inUnits_of_magnitude {v : ExactNum} {m p b : Nat} {e : Int} (hv : v.proper) (hmag : v.magnitude = m * 2 ^ e) (hm : m < 2 ^ p)
    (hlow : -149 ≤ e) (hhigh : p + (e + 149) ≤ b) : inUnits b v := by
  rintro neg n d rfl
  have hd : (d : ℚ) ≠ 0 := Nat.cast_ne_zero.mpr (Nat.ne_of_gt hv)
  obtain ⟨x, hx⟩ := Int.eq_ofNat_of_zero_le (show 0 ≤ e + 149 by omega)
  refine ⟨hv, m * 2 ^ x, ?_, ?_⟩
  · have he : (2 : ℚ) ^ e * 2 ^ 149 = 2 ^ x := by
      rw [← zpow_natCast (2 : ℚ) x, ← hx, zpow_add₀ two_ne_zero]
      rfl
    have hn : (n : ℚ) = m * 2 ^ e * d := by rw [← hmag, ExactNum.magnitude, div_mul_cancel₀ _ hd]
    have : (n : ℚ) * 2 ^ 149 = m * 2 ^ x * d := by rw [hn, ← he]; ring
    exact_mod_cast this
  · calc m * 2 ^ x < 2 ^ p * 2 ^ x := Nat.mul_lt_mul_of_pos_right hm (Nat.two_pow_pos x)
      _ = 2 ^ (p + x) := (pow_add 2 p x).symm
      _ ≤ 2 ^ b := Nat.pow_le_pow_right two_pos (by omega)

theorem inUnits_of_not_fin {v : ExactNum} {b : Nat} (h : ∀ neg n d, v ≠ .fin neg n d) : inUnits b v := fun neg n d hv => absurd hv (h neg n d)

/-- What a format's finite values scaled by 2^e need for it: the least place and the largest one. -/
def unitsFit (f : Flt) (e : Int) (b : Nat) : Prop := -149 ≤ f.qmin + e ∧ ((f.prec - 1 + 1 : Nat) : Int) + (f.qmin + place f f.maxCode + e + 149) ≤ b

theorem scaleBy_loadFlt_inUnits {f : Flt} {e : Int} {b : Nat} (c : Nat) (hfit : unitsFit f e b) : inUnits b (scaleBy e (loadFlt f c)) := by
  obtain ⟨hlow, hhigh⟩ := hfit
  unfold loadFlt
  dsimp only
  split
  · next hmax =>
    have hplace := place_le (f := f) hmax
    rw [codeVal_eq]
    refine inUnits_of_magnitude (scaleBy_proper _ (scaled_proper _ _ _)) ?_ (mantissa_lt f (c % 2 ^ (f.width - 1)) |>.trans_eq Nat.pow_succ'.symm) ?_ ?_
      (e := f.qmin + place f (c % 2 ^ (f.width - 1)) + e)
    · rw [scaleBy_magnitude, scaled_magnitude, mul_assoc, ← zpow_add₀ two_ne_zero]
    · omega
    · omega
  · split <;> exact inUnits_of_not_fin nofun

theorem scaleBy_zero (v : ExactNum) : scaleBy 0 v = v := by
  match v with
  | .nan => rfl
  | .inf _ => rfl
  | .fin neg n d => simp [scaleBy]

theorem scaleBy_loadInt8_inUnits {e : Int} (c : Nat) (hlow : -143 ≤ e) (hhigh : e ≤ 127) : inUnits 285 (scaleBy e (loadInt8 c)) := by
  have hload : ∃ neg m, m < 2 ^ 8 ∧ loadInt8 c = .fin neg m 64 := by
    unfold loadInt8
    split
    · exact ⟨_, _, Nat.mod_lt _ (by decide), rfl⟩
    · next h => exact ⟨_, _, by omega, rfl⟩
  obtain ⟨neg, m, hm, hc⟩ := hload
  refine inUnits_of_magnitude (scaleBy_proper _ ?_) (e := -6 + e) (m := m) ?_ hm (by omega) (by omega)
  · rw [hc]
    exact Nat.succ_pos 63
  · rw [scaleBy_magnitude, hc, ExactNum.magnitude, zpow_add₀ two_ne_zero, ← mul_assoc]
    norm_num [div_eq_mul_inv]

/-- The formats that ACC_FMT names for floats, and the element formats of its MX formats, hold what R239 says. -/
theorem unitsFit_float {f : Flt} (hf : f ∈ [fp32, fp16, bf16, e4m3, e5m2]) : unitsFit f 0 285 := by
  simp only [List.mem_cons, List.not_mem_nil, or_false] at hf
  obtain rfl | rfl | rfl | rfl | rfl := hf <;> exact ⟨by decide, by decide⟩

/-! ## The elements of an MX page (R229, R235) -/

/-- The value of an element code of an MX format, before its scale. -/
def elementValue (f : Format) (code : Nat) : ExactNum :=
  match f with
  | .mx g _ _ => loadFlt g code
  | _ => loadInt8 code

/-- The code of element j of a page. -/
def elementCode (f : Format) (page : List Byte) (j : Nat) : Nat :=
  ofLe (page.take (f.elemWidth * f.perUnit / 8)) / 2 ^ (j * f.elemWidth) % 2 ^ f.elemWidth

/-- The scale byte of element j's block. -/
def elementScale (f : Format) (page : List Byte) (j : Nat) : Nat :=
  ((page[f.elemWidth * f.perUnit / 8 + j / 32]?).getD 0).toNat

theorem getElem?_decodePage {f : Format} {page : List Byte} {j : Nat} (hj : j < f.perUnit) : (decodePage f page)[j]? = some
    (if elementScale f page j = 255 then .nan else scaleBy ((elementScale f page j : Int) - 127) (elementValue f (elementCode f page j))) := by
  rw [decodePage, List.getElem?_map, List.getElem?_range hj]
  by_cases hscale : elementScale f page j = 255
  · rw [if_pos hscale]
    rw [elementScale] at hscale
    simp only [Option.map_some, beq_iff_eq, if_pos hscale]
  · rw [if_neg hscale]
    rw [elementScale] at hscale
    simp only [Option.map_some, beq_iff_eq, if_neg hscale]
    cases f <;> rfl

theorem lt_perUnit_of_getElem? {f : Format} {page : List Byte} {j : Nat} {v : ExactNum} (h : (decodePage f page)[j]? = some v) :
    j < f.perUnit := by
  have hlen := (List.getElem?_eq_some_iff.mp h).1
  rwa [decodePage, List.length_map, List.length_range] at hlen

theorem formatOf_isMx {fmt : Nat} (h : (formatOf fmt).isMx = true) : fmt ∈ [6, 7, 8, 9, 10, 11] := by
  by_contra hnot
  simp only [List.mem_cons, List.not_mem_nil, or_false, not_or] at hnot
  obtain ⟨h6, h7, h8, h9, h10, h11⟩ := hnot
  simp only [formatOf, beq_iff_eq, h6, h7, h8, h9, h10, h11, if_false, apply_ite Format.isMx] at h
  simp [Format.isMx] at h

/-- Bits that the magnitudes of an MX format take in units of 2^-149: 7 more for MXFP8_E5M2. -/
def mxBits (fmt : Nat) : Nat := if fmt = 7 then 292 else 285

theorem scaleBy_elementValue_inUnits {fmt : Nat} {e : Int} (code : Nat) (hmx : (formatOf fmt).isMx = true) (hlow : -127 ≤ e)
    (hhigh : e ≤ 127) : inUnits (mxBits fmt) (scaleBy e (elementValue (formatOf fmt) code)) := by
  have hfit : ∀ (g : Flt) (b : Nat), -22 ≤ g.qmin → ((g.prec - 1 + 1 : Nat) : Int) + (g.qmin + place g g.maxCode + 276) ≤ b →
      inUnits b (scaleBy e (loadFlt g code)) := fun g b hl hb => scaleBy_loadFlt_inUnits code ⟨by omega, by omega⟩
  have hmem := formatOf_isMx hmx
  simp only [List.mem_cons, List.not_mem_nil, or_false] at hmem
  obtain rfl | rfl | rfl | rfl | rfl | rfl := hmem
  · exact hfit e4m3 _ (by decide) (by decide)
  · exact hfit e5m2 _ (by decide) (by decide)
  · exact hfit e3m2 _ (by decide) (by decide)
  · exact hfit e2m3 _ (by decide) (by decide)
  · exact hfit e2m1 _ (by decide) (by decide)
  · exact scaleBy_loadInt8_inUnits code (by omega) hhigh

theorem decodePage_inUnits {fmt j : Nat} {page : List Byte} {v : ExactNum} (hmx : (formatOf fmt).isMx = true)
    (hv : (decodePage (formatOf fmt) page)[j]? = some v) : inUnits (mxBits fmt) v := by
  rw [getElem?_decodePage (lt_perUnit_of_getElem? hv)] at hv
  have hscale : elementScale (formatOf fmt) page j < 256 := BitVec.isLt _
  obtain rfl := (Option.some_inj.mp hv).symm
  split
  · exact inUnits_of_not_fin nofun
  · exact scaleBy_elementValue_inUnits _ hmx (by omega) (by omega)

/-! ## What a contribution adds (R239) -/

theorem unit149_eq {n d k : Nat} (hd : 0 < d) (h : n * 2 ^ 149 = k * d) : unit149 n d = k := by
  rw [unit149, h, Nat.mul_div_cancel k hd]

theorem wsAdd_fin_sum (w : WideSum) (neg : Bool) {n d k : Nat} (hd : 0 < d) (h : n * 2 ^ 149 = k * d) :
    (wsAdd (.fin neg n d) w).sum = w.sum + BitVec.ofInt 320 (if neg then -(k : Int) else k) := by
  cases neg
  · simp [wsAdd, unit149_eq hd h]
  · simp [wsAdd, unit149_eq hd h, BitVec.sub_eq_add_neg, BitVec.ofInt_neg]

theorem wsAdd_fin_nonneg (w : WideSum) (neg : Bool) (n d : Nat) :
    (wsAdd (.fin neg n d) w).nonneg = true ↔ (w.nonneg = true ∨ neg = false ∨ n ≠ 0) := by
  cases neg <;> simp [wsAdd]

/-- Settles O35: a value is a mantissa times a power of 2, and the places of every format, scaled or not, lie in units of 2^-149. -/
theorem contributionsAddExactly : Obligations.ContributionsAddExactly := by
  unfold Obligations.ContributionsAddExactly
  refine ⟨fun w => ⟨rfl, rfl, rfl⟩, fun w neg n d k hd hk => ⟨wsAdd_fin_sum w neg hd hk, rfl, rfl, rfl, wsAdd_fin_nonneg w neg n d⟩,
    ?float, ?page, ?element, fun a b => rfl⟩
  case float =>
    intro f c neg n d hf _ hload
    exact scaleBy_loadFlt_inUnits c (unitsFit_float hf) neg n d (by rw [scaleBy_zero, hload])
  case page => exact fun fmt j page neg n d hmx hv => decodePage_inUnits hmx hv neg n d rfl
  case element =>
    intro fmt j s page _ hj f area code hscale hs
    have hbyte : elementScale (formatOf fmt) page j = s := by
      rw [elementScale, hscale, Option.getD_some, BitVec.toNat_ofNat, Nat.mod_eq_of_lt (by omega)]
    rw [getElem?_decodePage hj, hbyte, if_neg (Nat.ne_of_lt hs)]
    rfl

end Sys2Proof.Machine
end

section
/-! SUPPORT. What reductions forget: representable values are stored unchanged, the stored codes are ordered as their values, and exact sums,
maxima, minima, bit operators and integer arithmetic take their terms in any order (R233, R234, R236, R237, R242, R248, R252, R253). -/

namespace Sys2Proof.Machine

/-! ## Exact sums (R239) -/

theorem wsMerge_comm (a b : WideSum) : wsMerge a b = wsMerge b a := by
  simp only [wsMerge, BitVec.add_comm, Bool.or_comm]

theorem wsMerge_assoc (a b c : WideSum) : wsMerge (wsMerge a b) c = wsMerge a (wsMerge b c) := by
  simp only [wsMerge, BitVec.add_assoc, Bool.or_assoc]

@[simp] theorem wsMerge_empty (a : WideSum) : wsMerge a {} = a := by simp [wsMerge]

/-- A contribution is a record of its own, added. -/
theorem wsAdd_eq_wsMerge (v : ExactNum) (w : WideSum) : wsAdd v w = wsMerge w (wsAdd v {}) := by
  match v with
  | .nan => simp [wsAdd, wsMerge]
  | .inf true => simp [wsAdd, wsMerge]
  | .inf false => simp [wsAdd, wsMerge]
  | .fin true n d => simp [wsAdd, wsMerge, BitVec.sub_eq_add_neg]
  | .fin false n d => simp [wsAdd, wsMerge]

theorem wsAdd_comm (u v : ExactNum) (w : WideSum) : wsAdd v (wsAdd u w) = wsAdd u (wsAdd v w) := by
  rw [wsAdd_eq_wsMerge v (wsAdd u w), wsAdd_eq_wsMerge u w, wsAdd_eq_wsMerge u (wsAdd v w), wsAdd_eq_wsMerge v w, wsMerge_assoc, wsMerge_assoc,
    wsMerge_comm (wsAdd u {})]

theorem foldl_wsAdd_eq_wsMerge (l : List ExactNum) (w : WideSum) :
    l.foldl (fun w v => wsAdd v w) w = wsMerge w (l.foldl (fun w v => wsAdd v w) {}) := by
  induction l generalizing w with
  | nil => exact (wsMerge_empty w).symm
  | cons v l ih => rw [List.foldl_cons, List.foldl_cons, ih, ih (wsAdd v {}), wsAdd_eq_wsMerge v w, wsMerge_assoc]

/-! ## The format's rounding leaves its own values (R233, R248) -/

/-- What the float formats of R230 have in common: an infinity, where there is one, is the code after the largest finite one, and a format
without NaN has no other code. -/
structure Flt.Regular (f : Flt) : Prop where
  prec_pos : 0 < f.prec
  width_pos : 0 < f.width
  max_lt : f.maxCode < 2 ^ (f.width - 1)
  inf_next : ∀ i, f.inf = some i → i = f.maxCode + 1 ∧ i < 2 ^ (f.width - 1)
  all_finite : f.nan = none → f.maxCode + 1 = 2 ^ (f.width - 1)

theorem regular_formats {f : Flt} (hf : f ∈ [fp32, fp16, bf16, e4m3, e5m2, e3m2, e2m3, e2m1]) : f.Regular := by
  simp only [List.mem_cons, List.not_mem_nil, or_false] at hf
  obtain rfl | rfl | rfl | rfl | rfl | rfl | rfl | rfl := hf <;>
    exact ⟨by decide, by decide, by decide, by simp [fp32, fp16, bf16, e4m3, e5m2, e3m2, e2m3, e2m1], by decide⟩

theorem log2_mul_two_pow {n : Nat} (hn : n ≠ 0) (k : Nat) : Nat.log2 (n * 2 ^ k) = Nat.log2 n + k := by
  induction k with
  | zero => simp
  | succ k ih =>
    rw [pow_succ, ← mul_assoc, Nat.mul_comm, Nat.log2_two_mul (Nat.mul_ne_zero hn (Nat.two_pow_pos k).ne'), ih]
    rfl

theorem floorLog2_scaled {n : Nat} (hn : n ≠ 0) (e : Int) : floorLog2 (n * 2 ^ e.toNat) (2 ^ (-e).toNat) = Nat.log2 n + e := by
  have hprod : n * 2 ^ e.toNat ≠ 0 := Nat.mul_ne_zero hn (Nat.two_pow_pos _).ne'
  have hlog : Nat.log2 (n * 2 ^ e.toNat) = Nat.log2 n + e.toNat := log2_mul_two_pow hn _
  have hself := Nat.log2_self_le hprod
  rw [hlog] at hself
  unfold floorLog2
  simp only [hlog, Nat.log2_two_pow]
  split
  · next hle =>
    rw [← pow_add, if_pos (Nat.ble_eq.mpr (by rwa [Nat.add_sub_cancel' hle]))]
    omega
  · next hlt =>
    have hpow : 2 ^ (-e).toNat = 2 ^ (Nat.log2 n + e.toNat) * 2 ^ ((-e).toNat - (Nat.log2 n + e.toNat)) := by
      rw [← pow_add, Nat.add_sub_cancel' (by omega)]
    rw [if_pos (Nat.ble_eq.mpr (hpow ▸ Nat.mul_le_mul_right _ hself))]
    omega

theorem roundQ_mul (r : Rnd) (n : Nat) {d : Nat} (hd : 0 < d) : roundQ r (n * d) d = n := by
  simp [roundQ, Nat.mul_div_cancel n hd]

section
variable {f : Flt}

/-- The exponent that rounding gives a value of the format is its own. -/
theorem roundPlace_eq (hprec : 0 < f.prec) {c : Nat} (hc : mantissa f c ≠ 0) :
    max ((Nat.log2 (mantissa f c) : Int) + (f.qmin + place f c) - ((f.prec : Int) - 1)) f.qmin = f.qmin + place f c := by
  have hlt : mantissa f c < 2 ^ f.prec := by
    have := mantissa_lt f c
    rwa [← Nat.pow_succ', Nat.succ_eq_add_one, Nat.sub_add_cancel hprec] at this
  have hlog := (Nat.log2_lt hc).mpr hlt
  obtain h0 | hpos := Nat.eq_zero_or_pos (place f c)
  · rw [h0]
    omega
  · have := (Nat.le_log2 hc).mpr (le_mantissa_of_place hpos)
    omega

theorem magCode_scaled (hprec : 0 < f.prec) (r : Rnd) (c : Nat) :
    magCode f r (mantissa f c * 2 ^ (f.qmin + place f c).toNat) (2 ^ (-(f.qmin + place f c)).toNat) = c := by
  have hcode := place_mul_add_mantissa f c
  unfold magCode
  by_cases hc : mantissa f c = 0
  · have hplace : place f c = 0 := by
      by_contra h
      have := le_mantissa_of_place (Nat.pos_of_ne_zero h)
      have := Nat.two_pow_pos (f.prec - 1)
      omega
    simp only [hc, Nat.zero_mul, beq_self_eq_true, if_true]
    rw [hc, hplace] at hcode
    omega
  · have hn : mantissa f c * 2 ^ (f.qmin + place f c).toNat ≠ 0 := Nat.mul_ne_zero hc (Nat.two_pow_pos _).ne'
    simp only [floorLog2_scaled hc, roundPlace_eq hprec hc, beq_iff_eq, if_neg hn]
    have hround : (if 0 ≤ f.qmin + place f c then roundQ r (mantissa f c * 2 ^ (f.qmin + place f c).toNat)
          (2 ^ (-(f.qmin + place f c)).toNat * 2 ^ (f.qmin + place f c).toNat)
        else roundQ r (mantissa f c * 2 ^ (f.qmin + place f c).toNat * 2 ^ (-(f.qmin + place f c)).toNat)
          (2 ^ (-(f.qmin + place f c)).toNat)) = mantissa f c := by
      split
      · next h =>
        rw [Int.toNat_of_nonpos (Int.neg_nonpos_of_nonneg h), pow_zero, Nat.one_mul]
        exact roundQ_mul r _ (Nat.two_pow_pos _)
      · next h =>
        rw [Int.toNat_of_nonpos (le_of_not_ge h), pow_zero, Nat.mul_one]
        exact roundQ_mul r _ (Nat.two_pow_pos _)
    rw [hround, add_sub_cancel_left, Int.toNat_natCast, hcode]

/-- The sign bit of a code as it is added to its magnitude. -/
def signCode (f : Flt) (neg : Bool) : Nat := if neg then 2 ^ (f.width - 1) else 0

theorem storeFlt_codeVal (hprec : 0 < f.prec) (r : Rnd) (neg : Bool) {c : Nat} (hc : c ≤ f.maxCode) :
    storeFlt f r (codeVal f neg c) = c + signCode f neg := by
  rw [codeVal_eq, scaled_fin]
  simp only [storeFlt, magCode_scaled hprec, ite_self, if_neg (Nat.not_lt.mpr hc)]
  rfl

/-! ## Codes (R230) -/

/-- The magnitude and the sign of a code. -/
def magnitudeOf (f : Flt) (c : Nat) : Nat := c % 2 ^ (f.width - 1)

def signOf (f : Flt) (c : Nat) : Bool := Nat.ble (2 ^ (f.width - 1)) c

theorem two_pow_width (h : 0 < f.width) : 2 ^ f.width = 2 * 2 ^ (f.width - 1) := by
  rw [← Nat.pow_succ', Nat.succ_eq_add_one, Nat.sub_add_cancel h]

theorem magnitudeOf_add_signCode (hw : 0 < f.width) {c : Nat} (hc : c < 2 ^ f.width) : magnitudeOf f c + signCode f (signOf f c) = c := by
  rw [two_pow_width hw] at hc
  unfold magnitudeOf signCode signOf
  simp only [Nat.ble_eq]
  split
  · next h => rw [Nat.mod_eq_sub_mod h, Nat.mod_eq_of_lt (by omega)]; omega
  · next h => exact Nat.mod_eq_of_lt (by omega)

theorem magnitudeOf_lt (f : Flt) (c : Nat) : magnitudeOf f c < 2 ^ (f.width - 1) := Nat.mod_lt c (Nat.two_pow_pos _)

theorem loadFlt_eq {c : Nat} (hc : c < 2 ^ f.width) : loadFlt f c =
    if magnitudeOf f c ≤ f.maxCode then codeVal f (signOf f c) (magnitudeOf f c)
    else if f.inf = some (magnitudeOf f c) then .inf (signOf f c) else .nan := by
  simp only [loadFlt, magnitudeOf, signOf, Nat.mod_eq_of_lt hc, beq_iff_eq]
  rfl

theorem codeVal_ne_nan (f : Flt) (neg : Bool) (c : Nat) : codeVal f neg c ≠ .nan := by
  rw [codeVal_eq, scaled_fin]
  exact nofun

/-- What a code that is no NaN stands for: a finite value or an infinity. -/
theorem loadFlt_cases {c : Nat} (hc : c < 2 ^ f.width) (hnan : loadFlt f c ≠ .nan) :
    (magnitudeOf f c ≤ f.maxCode ∧ loadFlt f c = codeVal f (signOf f c) (magnitudeOf f c)) ∨
    (f.maxCode < magnitudeOf f c ∧ f.inf = some (magnitudeOf f c) ∧ loadFlt f c = .inf (signOf f c)) := by
  rw [loadFlt_eq hc] at hnan ⊢
  by_cases hmax : magnitudeOf f c ≤ f.maxCode
  · exact .inl ⟨hmax, if_pos hmax⟩
  · rw [if_neg hmax] at hnan ⊢
    by_cases hinf : f.inf = some (magnitudeOf f c)
    · exact .inr ⟨Nat.lt_of_not_le hmax, hinf, if_pos hinf⟩
    · exact absurd (if_neg hinf) hnan

/-- A value that the format represents is stored as its own code (R233, R234). -/
theorem storeFlt_loadFlt (hf : f.Regular) (r : Rnd) {c : Nat} (hc : c < 2 ^ f.width) (hnan : loadFlt f c ≠ .nan) :
    storeFlt f r (loadFlt f c) = c := by
  have hsplit := magnitudeOf_add_signCode hf.width_pos hc
  obtain ⟨hmax, hload⟩ | ⟨-, hinf, hload⟩ := loadFlt_cases hc hnan
  · rw [hload, storeFlt_codeVal hf.prec_pos r _ hmax, hsplit]
  · rw [hload]
    simp only [storeFlt, hinf]
    exact hsplit

theorem nan_isSome_of_loadFlt (hf : f.Regular) {c : Nat} (hc : c < 2 ^ f.width) (hnan : loadFlt f c = .nan) : f.nan.isSome = true := by
  rw [loadFlt_eq hc] at hnan
  split at hnan
  · exact absurd hnan (codeVal_ne_nan f _ _)
  · next hmax =>
    have hlt := magnitudeOf_lt f c
    by_contra hnone
    have := hf.all_finite (by simpa using hnone)
    omega

end

/-! ## The order of codes (R236) -/

section
variable {f : Flt}

/-- A magnitude in units of the format's least place rises with its code. -/
theorem mantissa_mul_lt {a b : Nat} (h : a < b) : mantissa f a * 2 ^ place f a < mantissa f b * 2 ^ place f b := by
  have ha := place_mul_add_mantissa f a
  have hb := place_mul_add_mantissa f b
  obtain hplace | hplace := (place_le (f := f) (Nat.le_of_lt h)).eq_or_lt
  · rw [hplace] at ha ⊢
    exact Nat.mul_lt_mul_of_pos_right (by omega) (Nat.two_pow_pos _)
  · calc mantissa f a * 2 ^ place f a < 2 * 2 ^ (f.prec - 1) * 2 ^ place f a :=
        Nat.mul_lt_mul_of_pos_right (mantissa_lt f a) (Nat.two_pow_pos _)
      _ = 2 ^ (f.prec - 1) * 2 ^ (place f a + 1) := by ring
      _ ≤ mantissa f b * 2 ^ place f b :=
        Nat.mul_le_mul (le_mantissa_of_place (Nat.zero_lt_of_lt hplace)) (Nat.pow_le_pow_right two_pos hplace)

theorem mantissa_mul_lt_iff {a b : Nat} : mantissa f a * 2 ^ place f a < mantissa f b * 2 ^ place f b ↔ a < b :=
  ⟨fun h => Nat.lt_of_not_le fun hle => by
    obtain rfl | hlt := hle.eq_or_lt
    · exact absurd h (lt_irrefl _)
    · exact absurd h (lt_asymm (mantissa_mul_lt hlt)), mantissa_mul_lt⟩

theorem magnitude_codeVal_lt_iff {s t : Bool} {a b : Nat} : (codeVal f s a).magnitude < (codeVal f t b).magnitude ↔ a < b := by
  rw [codeVal_eq, codeVal_eq, scaled_magnitude, scaled_magnitude, ← mantissa_mul_lt_iff (f := f), zpow_add₀ two_ne_zero, zpow_add₀ two_ne_zero,
    zpow_natCast, zpow_natCast, mul_left_comm, mul_left_comm (b := (2 : ℚ) ^ f.qmin),
    mul_lt_mul_iff_right₀ (zpow_pos two_pos f.qmin)]
  exact_mod_cast Iff.rfl

/-- The order of signed magnitudes, -0 below +0. -/
def codeLt (s : Bool) (a : Nat) (t : Bool) (b : Nat) : Bool :=
  if s && !t then true else if !s && t then false else if s then decide (b < a) else decide (a < b)

theorem lt_fin_iff {s t : Bool} {n d m e : Nat} (hd : 0 < d) (he : 0 < e) : n * e < m * d ↔
    (ExactNum.fin s n d).magnitude < (ExactNum.fin t m e).magnitude := by
  rw [ExactNum.magnitude, ExactNum.magnitude, div_lt_div_iff₀ (Nat.cast_pos.mpr hd) (Nat.cast_pos.mpr he)]
  exact_mod_cast Iff.rfl

theorem blt_eq_decide (a b : Nat) : Nat.blt a b = decide (a < b) := Bool.eq_iff_iff.mpr (by simp [Nat.blt_eq])

theorem codeVal_lt (s t : Bool) (a b : Nat) : (codeVal f s a).lt (codeVal f t b) = codeLt s a t b := by
  have hup := magnitude_codeVal_lt_iff (f := f) (s := s) (t := t) (a := a) (b := b)
  have hdown := magnitude_codeVal_lt_iff (f := f) (s := t) (t := s) (a := b) (b := a)
  rw [codeVal_eq, codeVal_eq, scaled_fin, scaled_fin, ← lt_fin_iff (Nat.two_pow_pos _) (Nat.two_pow_pos _)] at hup hdown
  rw [codeVal_eq, codeVal_eq, scaled_fin, scaled_fin]
  simp only [ExactNum.lt, codeLt, blt_eq_decide, hup, hdown]

/-- A code's rank among all codes of the format: negative ones first, the largest magnitude lowest. -/
def codeRank (f : Flt) (c : Nat) : Int := if signOf f c then -(magnitudeOf f c : Int) - 1 else magnitudeOf f c

theorem codeLt_eq_rank (a b : Nat) :
    codeLt (signOf f a) (magnitudeOf f a) (signOf f b) (magnitudeOf f b) = decide (codeRank f a < codeRank f b) := by
  unfold codeLt codeRank
  cases signOf f a <;> cases signOf f b <;> simp
  all_goals omega

theorem codeRank_injective (hw : 0 < f.width) {a b : Nat} (ha : a < 2 ^ f.width) (hb : b < 2 ^ f.width) (h : codeRank f a = codeRank f b) :
    a = b := by
  rw [← magnitudeOf_add_signCode hw ha, ← magnitudeOf_add_signCode hw hb]
  unfold codeRank at h
  cases hsa : signOf f a <;> cases hsb : signOf f b <;> simp [hsa, hsb] at h ⊢ <;> omega

/-- Values compare as the ranks of their codes. -/
theorem loadFlt_lt (hf : f.Regular) {a b : Nat} (ha : a < 2 ^ f.width) (hb : b < 2 ^ f.width) (hna : loadFlt f a ≠ .nan)
    (hnb : loadFlt f b ≠ .nan) : (loadFlt f a).lt (loadFlt f b) = decide (codeRank f a < codeRank f b) := by
  rw [← codeLt_eq_rank]
  obtain ⟨hamax, hla⟩ | ⟨hamax, hia, hla⟩ := loadFlt_cases ha hna <;> obtain ⟨hbmax, hlb⟩ | ⟨hbmax, hib, hlb⟩ := loadFlt_cases hb hnb <;>
    rw [hla, hlb]
  · exact codeVal_lt _ _ _ _
  · rw [codeVal_eq, scaled_fin]
    simp only [ExactNum.lt, codeLt]
    cases signOf f a <;> cases signOf f b <;> simp <;> omega
  · rw [codeVal_eq, scaled_fin]
    simp only [ExactNum.lt, codeLt]
    cases signOf f a <;> cases signOf f b <;> simp <;> omega
  · obtain ⟨ha', -⟩ := hf.inf_next _ hia
    obtain ⟨hb', -⟩ := hf.inf_next _ hib
    simp only [ExactNum.lt, codeLt, ha', hb']
    cases signOf f a <;> cases signOf f b <;> simp

end

/-! ## Maxima and minima -/

/-- The element with the larger key, the first of two with one key. -/
def larger (key : Nat → Int) (a b : Nat) : Nat := if key a < key b then b else a

theorem larger_cases (key : Nat → Int) (a b : Nat) : larger key a b = b ∧ key a < key b ∨ larger key a b = a ∧ key b ≤ key a := by
  unfold larger
  split
  · next h => exact .inl ⟨rfl, h⟩
  · next h => exact .inr ⟨rfl, not_lt.mp h⟩

theorem larger_comm {key : Nat → Int} {a b : Nat} (h : key a = key b → a = b) : larger key a b = larger key b a := by
  obtain ⟨hab, hlt⟩ | ⟨hab, hle⟩ := larger_cases key a b <;> obtain ⟨hba, hlt'⟩ | ⟨hba, hle'⟩ := larger_cases key b a <;> rw [hab, hba]
  · omega
  · exact h (le_antisymm hle' hle)

theorem larger_assoc (key : Nat → Int) (a b c : Nat) : larger key (larger key a b) c = larger key a (larger key b c) := by
  unfold larger
  split_ifs <;> omega

theorem larger_keeps {P : Nat → Prop} (key : Nat → Int) {a b : Nat} (ha : P a) (hb : P b) : P (larger key a b) := by
  obtain ⟨h, -⟩ | ⟨h, -⟩ := larger_cases key a b <;> rwa [h]

/-- What MAX takes the larger of, and MIN too. -/
def opKey (op : Nat) (key : Nat → Int) (a : Nat) : Int := if op = opMax then key a else -key a

theorem opKey_eq {op : Nat} {key : Nat → Int} {a b : Nat} : opKey op key a = opKey op key b ↔ key a = key b := by
  unfold opKey
  split <;> omega

/-! ## MAX and MIN on stored codes (R236) -/

section
variable {f : Flt} {op : Nat}

/-- MAX and MIN of two stored codes, stored again. -/
def joinCodes (f : Flt) (op a b : Nat) : Nat := storeFlt f .nearest (combineNum op (loadFlt f a) (loadFlt f b))

theorem combineNum_nan (hop : op ∈ [opMax, opMin]) {u v : ExactNum} (h : u = .nan ∨ v = .nan) : combineNum op u v = .nan := by
  simp only [List.mem_cons, List.not_mem_nil, or_false] at hop
  obtain rfl | rfl := hop <;> obtain rfl | rfl := h <;> simp [combineNum, opMax, opMin, opProd, ExactNum.isNan]

theorem isNan_eq_false {v : ExactNum} (h : v ≠ .nan) : v.isNan = false := by
  cases v
  · exact absurd rfl h
  · rfl
  · rfl

theorem combineNum_larger (hf : f.Regular) (hop : op ∈ [opMax, opMin]) {a b : Nat} (ha : a < 2 ^ f.width) (hb : b < 2 ^ f.width)
    (hna : loadFlt f a ≠ .nan) (hnb : loadFlt f b ≠ .nan) :
    combineNum op (loadFlt f a) (loadFlt f b) = loadFlt f (larger (opKey op (codeRank f)) a b) := by
  simp only [List.mem_cons, List.not_mem_nil, or_false] at hop
  rw [larger, apply_ite (loadFlt f)]
  obtain rfl | rfl := hop
  · simp [combineNum, opMax, opProd, opKey, isNan_eq_false hna, isNan_eq_false hnb, loadFlt_lt hf ha hb hna hnb]
  · simp [combineNum, opMax, opMin, opProd, opKey, isNan_eq_false hna, isNan_eq_false hnb, loadFlt_lt hf hb ha hnb hna]

theorem joinCodes_of_nan (hop : op ∈ [opMax, opMin]) {a b : Nat} (h : loadFlt f a = .nan ∨ loadFlt f b = .nan) :
    joinCodes f op a b = f.nan.getD 0 := by
  rw [joinCodes, combineNum_nan hop h]
  rfl

theorem joinCodes_of_not_nan (hf : f.Regular) (hop : op ∈ [opMax, opMin]) {a b : Nat} (ha : a < 2 ^ f.width) (hb : b < 2 ^ f.width)
    (hna : loadFlt f a ≠ .nan) (hnb : loadFlt f b ≠ .nan) : joinCodes f op a b = larger (opKey op (codeRank f)) a b := by
  rw [joinCodes, combineNum_larger hf hop ha hb hna hnb]
  exact larger_keeps (P := fun x => storeFlt f .nearest (loadFlt f x) = x) _ (storeFlt_loadFlt hf _ ha hna) (storeFlt_loadFlt hf _ hb hnb)

theorem joinCodes_comm (hf : f.Regular) (hop : op ∈ [opMax, opMin]) {a b : Nat} (ha : a < 2 ^ f.width) (hb : b < 2 ^ f.width) :
    joinCodes f op a b = joinCodes f op b a := by
  by_cases hnan : loadFlt f a = .nan ∨ loadFlt f b = .nan
  · rw [joinCodes_of_nan hop hnan, joinCodes_of_nan hop hnan.symm]
  · obtain ⟨hna, hnb⟩ := not_or.mp hnan
    rw [joinCodes_of_not_nan hf hop ha hb hna hnb, joinCodes_of_not_nan hf hop hb ha hnb hna]
    exact larger_comm fun h => codeRank_injective hf.width_pos ha hb (opKey_eq.mp h)

theorem joinCodes_assoc (hf : f.Regular) (hop : op ∈ [opMax, opMin]) (hcanon : loadFlt f (f.nan.getD 0) = .nan) {a b c : Nat}
    (ha : a < 2 ^ f.width) (hb : b < 2 ^ f.width) (hc : c < 2 ^ f.width) :
    joinCodes f op (joinCodes f op a b) c = joinCodes f op a (joinCodes f op b c) := by
  by_cases hna : loadFlt f a = .nan
  · rw [joinCodes_of_nan hop (.inl hna), joinCodes_of_nan hop (.inl hcanon), joinCodes_of_nan hop (.inl hna)]
  by_cases hnc : loadFlt f c = .nan
  · rw [joinCodes_of_nan hop (.inr hnc), joinCodes_of_nan hop (.inr hnc), joinCodes_of_nan hop (.inr hcanon)]
  by_cases hnb : loadFlt f b = .nan
  · rw [joinCodes_of_nan hop (.inr hnb), joinCodes_of_nan hop (.inl hnb), joinCodes_of_nan hop (.inl hcanon),
      joinCodes_of_nan hop (.inr hcanon)]
  rw [joinCodes_of_not_nan hf hop ha hb hna hnb, joinCodes_of_not_nan hf hop hb hc hnb hnc]
  obtain ⟨hab, hnab⟩ := larger_keeps (P := fun x => x < 2 ^ f.width ∧ loadFlt f x ≠ .nan) (opKey op (codeRank f)) ⟨ha, hna⟩ ⟨hb, hnb⟩
  obtain ⟨hbc, hnbc⟩ := larger_keeps (P := fun x => x < 2 ^ f.width ∧ loadFlt f x ≠ .nan) (opKey op (codeRank f)) ⟨hb, hnb⟩ ⟨hc, hnc⟩
  rw [joinCodes_of_not_nan hf hop hab hc hnab hnc, joinCodes_of_not_nan hf hop ha hbc hna hnbc, larger_assoc]

end

/-! ## Integer operators (R233, R236) -/

/-- The order of two's complement codes. -/
def intRank (w a : Nat) : Int := ((a + 2 ^ (w - 1)) % 2 ^ w : Nat)

theorem intRank_injective {w a b : Nat} (ha : a < 2 ^ w) (hb : b < 2 ^ w) (h : intRank w a = intRank w b) : a = b := by
  have hmod : a ≡ b [MOD 2 ^ w] := Nat.ModEq.add_right_cancel' (2 ^ (w - 1)) (Nat.cast_injective h)
  rwa [Nat.ModEq, Nat.mod_eq_of_lt ha, Nat.mod_eq_of_lt hb] at hmod

theorem intRank_lt {w a b : Nat} : intRank w a < intRank w b ↔ (a + 2 ^ (w - 1)) % 2 ^ w < (b + 2 ^ (w - 1)) % 2 ^ w := Nat.cast_lt

theorem combineInt_larger {op : Nat} (hop : op ∈ [opMax, opMin]) (w a b : Nat) :
    combineInt op w a b = larger (opKey op (intRank w)) a b := by
  simp only [List.mem_cons, List.not_mem_nil, or_false] at hop
  obtain rfl | rfl := hop
  · simp [combineInt, larger, opKey, intRank_lt, opMax, opProd]
  · simp [combineInt, larger, opKey, intRank_lt, opMax, opMin, opProd]

/-- An operator on codes that forgets the order of its terms and gives a code. -/
def forgetsOrder (w : Nat) (g : Nat → Nat → Nat) : Prop :=
  ∀ a b c, a < 2 ^ w → b < 2 ^ w → c < 2 ^ w → g a b = g b a ∧ g (g a b) c = g a (g b c) ∧ g a b < 2 ^ w

theorem combineInt_forgetsOrder {op : Nat} (hop : op ∈ [opSum, opProd, opMax, opMin, opBand, opBor, opBxor]) (w : Nat) :
    forgetsOrder w (combineInt op w) := by
  have hpos := Nat.two_pow_pos w
  have hextreme : ∀ op ∈ [opMax, opMin], forgetsOrder w (combineInt op w) := by
    intro op hop a b c ha hb _
    simp only [combineInt_larger hop]
    exact ⟨larger_comm fun h => intRank_injective ha hb (opKey_eq.mp h), larger_assoc _ a b c, larger_keeps (P := (· < 2 ^ w)) _ ha hb⟩
  simp only [List.mem_cons, List.not_mem_nil, or_false] at hop
  obtain rfl | rfl | rfl | rfl | rfl | rfl | rfl := hop
  case inl =>
    intro a b c _ _ _
    change (a + b) % _ = (b + a) % _ ∧ ((a + b) % _ + c) % _ = (a + (b + c) % _) % _ ∧ (a + b) % _ < _
    rw [Nat.mod_add_mod, Nat.add_mod_mod, Nat.add_assoc]
    exact ⟨by rw [Nat.add_comm], rfl, Nat.mod_lt _ hpos⟩
  case inr.inl =>
    intro a b c _ _ _
    change a * b % _ = b * a % _ ∧ a * b % _ * c % _ = a * (b * c % _) % _ ∧ a * b % _ < _
    rw [Nat.mod_mul_mod, Nat.mul_mod_mod, Nat.mul_assoc]
    exact ⟨by rw [Nat.mul_comm], rfl, Nat.mod_lt _ hpos⟩
  case inr.inr.inl => exact hextreme _ (by decide)
  case inr.inr.inr.inl => exact hextreme _ (by decide)
  case inr.inr.inr.inr.inl => exact fun a b c _ hb _ => ⟨Nat.and_comm a b, Nat.and_assoc a b c, Nat.and_lt_two_pow a hb⟩
  case inr.inr.inr.inr.inr.inl => exact fun a b c ha hb _ => ⟨Nat.or_comm a b, Nat.or_assoc a b c, Nat.or_lt_two_pow ha hb⟩
  case inr.inr.inr.inr.inr.inr => exact fun a b c ha hb _ => ⟨Nat.xor_comm a b, Nat.xor_assoc a b c, Nat.xor_lt_two_pow ha hb⟩

/-! ## EP64 (R252, R253) -/

/-- The signed mantissa in the low 56 bits of an EP64 element. -/
def ep64Signed (r : Nat) : Int := if 2 ^ 55 ≤ r then (r : Int) - 2 ^ 56 else r

theorem ep64Load_of_finite {q r : Nat} (hr : r < 2 ^ 56) (hq : q < 255) :
    ep64Load (q * 2 ^ 56 + r) = { sum := BitVec.ofInt 320 (ep64Signed r * 2 ^ q), nonneg := !(ep64Signed r == 0 && q == 1) } := by
  have hexp : bits (q * 2 ^ 56 + r) 63 56 = q := by simp only [bits]; omega
  have hlow : bits (q * 2 ^ 56 + r) 55 0 = r := by simp only [bits]; omega
  have hsign : bit (q * 2 ^ 56 + r) 55 = decide (2 ^ 55 ≤ r) := by
    rw [Bool.eq_iff_iff]
    simp only [bit, beq_iff_eq, decide_eq_true_eq]
    omega
  simp only [ep64Load, hexp, hlow, hsign, decide_eq_true_eq, beq_iff_eq, if_neg (Nat.ne_of_lt hq), ← ep64Signed.eq_1]

theorem ep64Load_of_signed {q m : Nat} (v : Int) (hpos : 0 < m) (hm : m < 2 ^ 55) (hq : q < 255) (hv : v.natAbs = m * 2 ^ q) :
    ep64Load (q * 2 ^ 56 + if v < 0 then 2 ^ 56 - m else m) = { sum := BitVec.ofInt 320 v, nonneg := true } := by
  have habs : (v.natAbs : Int) = m * 2 ^ q := by exact_mod_cast hv
  split
  · next hneg =>
    have hsigned : ep64Signed (2 ^ 56 - m) = -(m : Int) := by unfold ep64Signed; split <;> omega
    have hval : -(m : Int) * 2 ^ q = v := by rw [neg_mul, ← habs]; omega
    have hne : -(m : Int) ≠ 0 := by omega
    rw [ep64Load_of_finite (by omega) hq, hsigned, hval, beq_false_of_ne hne]
    rfl
  · next hneg =>
    have hsigned : ep64Signed m = m := if_neg (by omega)
    have hval : (m : Int) * 2 ^ q = v := by rw [← habs]; omega
    have hne : (m : Int) ≠ 0 := by omega
    rw [ep64Load_of_finite (by omega) hq, hsigned, hval, beq_false_of_ne hne]
    rfl

theorem ep64Load_of_flags (nan pinf ninf : Bool) :
    ep64Load (pack [(56, 255), (2, b2n ninf), (1, b2n pinf), (0, b2n nan)]) = { nan, pinf, ninf, nonneg := true } := by
  cases nan <;> cases pinf <;> cases ninf <;> rfl

/-- A magnitude cut to a multiple of its least exponent lies below 2^55 and is not 0. -/
theorem ep64_mantissa {n : Nat} (hn : n ≠ 0) (hcut : n % 2 ^ ep64Shift n = 0) :
    n / 2 ^ ep64Shift n * 2 ^ ep64Shift n = n ∧ 0 < n / 2 ^ ep64Shift n ∧ n / 2 ^ ep64Shift n < 2 ^ 55 := by
  have hmul := Nat.div_mul_cancel (Nat.dvd_of_mod_eq_zero hcut)
  refine ⟨hmul, Nat.pos_of_ne_zero fun h => hn (by rw [← hmul, h, Nat.zero_mul]), ?_⟩
  rw [Nat.div_lt_iff_lt_mul (Nat.two_pow_pos _), ← pow_add]
  exact Nat.lt_of_lt_of_le Nat.lt_log2_self (Nat.pow_le_pow_right two_pos (by unfold ep64Shift; omega))

theorem ep64Load_store {w : WideSum} {e : Nat} (hzero : w.sum ≠ 0 → w.nonneg = true) (hnan : w.nan = false) (hpinf : w.pinf = false)
    (hninf : w.ninf = false) (hstore : ep64Store w = some e) : ep64Load e = w := by
  have hw : ∀ sum nonneg, sum = w.sum → nonneg = w.nonneg → ({ sum, nonneg } : WideSum) = w := by
    rintro _ _ rfl rfl
    cases w
    simp_all
  simp only [ep64Store, hnan, hpinf, hninf, Bool.or_false, Bool.false_eq_true, if_false, beq_iff_eq] at hstore
  by_cases hsum : w.sum = 0
  · have hv : w.sum.toInt = 0 := hsum ▸ BitVec.toInt_zero
    rw [if_pos hv, Option.some_inj] at hstore
    rw [← hstore]
    cases hn : w.nonneg
    · exact (ep64Load_of_finite (q := 1) (r := 0) (by decide) (by decide)).trans (hw _ _ hsum.symm hn.symm)
    · exact (ep64Load_of_finite (q := 0) (r := 0) (by decide) (by decide)).trans (hw _ _ hsum.symm hn.symm)
  · have hv : w.sum.toInt ≠ 0 := fun h => hsum (BitVec.toInt_inj.mp (h.trans BitVec.toInt_zero.symm))
    rw [if_neg hv] at hstore
    split at hstore
    · exact absurd hstore nofun
    · next hfits =>
      simp only [bne_iff_ne, Bool.or_eq_true, decide_eq_true_eq, not_or, not_not] at hfits
      obtain ⟨hcut, hq⟩ := hfits
      obtain ⟨hmul, hpos, hlt⟩ := ep64_mantissa (Int.natAbs_ne_zero.mpr hv) hcut
      rw [← Option.some_inj.mp hstore, ep64Load_of_signed w.sum.toInt hpos hlt (by omega) hmul.symm]
      exact hw _ _ BitVec.ofInt_toInt (hzero hsum).symm

/-- The flags of a record survive EP64, whatever they are. -/
theorem ep64Load_flags {w : WideSum} {e : Nat} (hzero : w.sum ≠ 0 → w.nonneg = true) (hstore : ep64Store w = some e) :
    (ep64Load e).nan = w.nan ∧ (ep64Load e).pinf = w.pinf ∧ (ep64Load e).ninf = w.ninf := by
  by_cases hflags : (w.nan || w.pinf || w.ninf) = true
  · rw [ep64Store, if_pos hflags, Option.some_inj] at hstore
    rw [← hstore, ep64Load_of_flags]
    exact ⟨rfl, rfl, rfl⟩
  · simp only [Bool.or_eq_true, not_or, Bool.not_eq_true] at hflags
    obtain ⟨⟨hnan, hpinf⟩, hninf⟩ := hflags
    rw [ep64Load_store hzero hnan hpinf hninf hstore]
    exact ⟨rfl, rfl, rfl⟩

/-- Settles O36: a contribution is a record of its own and records form a commutative monoid; stored codes are ordered as their values, so MAX
and MIN choose a code by its rank. -/
theorem reductionsForgetOrder : Obligations.ReductionsForgetOrder := by
  unfold Obligations.ReductionsForgetOrder
  refine ⟨fun l l' w hperm => hperm.foldl_eq' (fun u _ v _ w => wsAdd_comm u v w) w, fun l m => ?_, ?int, ?float, ?stored,
    fun w e hzero hstore => ⟨fun hnan hpinf hninf => ep64Load_store hzero hnan hpinf hninf hstore, ep64Load_flags hzero hstore⟩⟩
  · rw [List.foldl_append]
    exact (foldl_wsAdd_eq_wsMerge m _).symm
  case int => exact fun op w a b c hop _ ha hb hc => combineInt_forgetsOrder hop w a b c ha hb hc
  case float =>
    intro f op a b c hf hop ha hb hc
    have hreg : f.Regular := regular_formats (List.mem_of_mem_take (i := 5) hf)
    have hcanon : loadFlt f (f.nan.getD 0) = .nan := by
      simp only [List.mem_cons, List.not_mem_nil, or_false] at hf
      obtain rfl | rfl | rfl | rfl | rfl := hf <;> rfl
    exact ⟨joinCodes_comm hreg hop ha hb, joinCodes_assoc hreg hop hcanon ha hb hc⟩
  case stored =>
    intro f c r hf hc
    have hreg := regular_formats hf
    refine ⟨storeFlt_loadFlt hreg r hc, fun hnan => ?_⟩
    obtain ⟨q, hq⟩ := Option.isSome_iff_exists.mp (nan_isSome_of_loadFlt hreg hc hnan)
    rw [hnan, hq]
    simp only [storeFlt, hq, Option.getD_some]

end Sys2Proof.Machine
end

section
/-! SUPPORT. Transform kernels: their images, their bindings, and the invocations that end, wait, fail or are stopped (R257 to R266). -/

namespace Sys2Proof.Machine

/-! ## KERNEL_LOAD (R257) -/

section
variable {s : State} {r : Request} {c : Cmd} (hwrite : writesEntry s r c 0x5500 0 = true)
include hwrite

theorem exec_kernelLoad_of_built_in (hk : field c.data 0 1 < 16) : exec .kernelLoad s = .next (finish rRange [] s) := by
  refine congrArg Host.Outcome.next ((onWrite_of_writesEntry (p := fun _ => true) hwrite (Nat.le_refl _) (Nat.le_refl _) rfl _).trans ?_)
  simp only [hk, if_true]

variable (hk : 16 ≤ field c.data 0 1)
include hk

theorem exec_kernelLoad_of_gen1 (hgen : gen1 s = true) : exec .kernelLoad s = .next (finish rInvalid [] s) := by
  refine congrArg Host.Outcome.next ((onWrite_of_writesEntry (p := fun _ => true) hwrite (Nat.le_refl _) (Nat.le_refl _) rfl _).trans ?_)
  simp only [Nat.not_lt.mpr hk, hgen, if_true, if_false]

variable (hgen : gen1 s = false)
include hgen

theorem exec_kernelLoad_of_used (hused : tgetD s.ar.kernels (field c.data 0 1) .empty ∈ [LoadState.verifying, .resident]) :
    exec .kernelLoad s = .next (finish rBusy [] s) := by
  refine congrArg Host.Outcome.next ((onWrite_of_writesEntry (p := fun _ => true) hwrite (Nat.le_refl _) (Nat.le_refl _) rfl _).trans ?_)
  have hbusy : (tgetD s.ar.kernels (field c.data 0 1) .empty == .verifying || tgetD s.ar.kernels (field c.data 0 1) .empty == .resident) = true := by
    simpa using hused
  simp only [Nat.not_lt.mpr hk, hgen, hbusy, Bool.false_eq_true, if_false, if_true]

theorem exec_kernelLoad_of_free (hfree : tgetD s.ar.kernels (field c.data 0 1) .empty ∈ [LoadState.empty, .refused]) :
    exec .kernelLoad s = .next (finish rDone []
      { s with ar := { s.ar with kernels := tset s.ar.kernels (field c.data 0 1) .verifying,
                                 images := tset s.ar.images (field c.data 0 1) (field c.data 1 4, field c.data 5 8, field c.data 13 4) } }) := by
  refine congrArg Host.Outcome.next ((onWrite_of_writesEntry (p := fun _ => true) hwrite (Nat.le_refl _) (Nat.le_refl _) rfl _).trans ?_)
  have hbusy : (tgetD s.ar.kernels (field c.data 0 1) .empty == .verifying || tgetD s.ar.kernels (field c.data 0 1) .empty == .resident) = false := by
    simp only [List.mem_cons, List.not_mem_nil, or_false] at hfree
    rcases hfree with h | h <;> rw [h] <;> rfl
  simp only [Nat.not_lt.mpr hk, hgen, hbusy, Bool.false_eq_true, if_false]

end

/-! ## The image is verified (R257, R262) -/

theorem deviceBytes_ar (key addr len : Nat) (s : State) : (deviceBytes key addr len s).2.ar = s.ar := by
  have hspan := localSpan_onlyChanges (firstEngine s) (Region.part (tgetD s.xl.regions (keyIndex key) 0))
    (Region.pasid (tgetD s.xl.regions (keyIndex key) 0)) key addr len .read (· == 1) true s .ar rfl
  unfold deviceBytes
  dsimp only
  split
  · next h => rw [h] at hspan; exact (noteReads_barFrame _ _ .ar rfl).trans hspan
  · next h => rw [h] at hspan; exact hspan

/-- A user kernel's image is accepted: its signature, and its code of at most 64 KiB. -/
def kernelAccepted (d : Option (List Byte)) (s : State) : Bool :=
  verifyImage s 6 (d.getD []) && Nat.ble ((d.getD []).length - 4096) 65536

section
variable {s s1 : State} {k key addr len : Nat} {d : Option (List Byte)} (hrun : running s = true)
  (himage : tget s.ar.images k = some (key, addr, len)) (hstate : tgetD s.ar.kernels k .empty = .verifying)
  (hbytes : deviceBytes key addr len s = (d, s1))
include hrun himage hstate hbytes

theorem exec_kernelVerified_of_good (hgood : kernelAccepted d s1 = true) : exec (.kernelVerified k) s =
    .next (extendMeasure 6 (Config.sha3 (slice (d.getD []) 0 1440))
      { s1 with ar := { s1.ar with kernels := tset s1.ar.kernels k .resident, code := tset s1.ar.code k ((d.getD []).drop 4096) } }) := by
  show execKernelVerified k s = _
  rw [kernelAccepted] at hgood
  simp only [execKernelVerified, himage, hrun, hstate, hbytes, hgood, Bool.true_and, beq_self_eq_true, if_true]

theorem exec_kernelVerified_of_bad (hbad : kernelAccepted d s1 = false) : exec (.kernelVerified k) s =
    .next (countSec 1 { s1 with ar := { s1.ar with kernels := tset s1.ar.kernels k .refused } }) := by
  show execKernelVerified k s = _
  rw [kernelAccepted] at hbad
  simp only [execKernelVerified, himage, hrun, hstate, hbytes, hbad, Bool.true_and, beq_self_eq_true, if_true, Bool.false_eq_true, if_false]

/-- The image is resident with its code, or refused; no other kernel is touched. -/
theorem exec_kernelVerified_judges : ∃ t, exec (.kernelVerified k) s = .next t ∧
    tget t.ar.kernels k = some (if kernelAccepted d s1 then .resident else .refused) ∧
    (kernelAccepted d s1 = true → tget t.ar.code k = some ((d.getD []).drop 4096)) ∧
    ∀ j, j ≠ k → tget t.ar.kernels j = tget s.ar.kernels j ∧ tget t.ar.code j = tget s.ar.code j := by
  have har : s1.ar = s.ar := by simpa only [hbytes] using deviceBytes_ar key addr len s
  cases hgood : kernelAccepted d s1 with
  | true =>
    refine ⟨_, exec_kernelVerified_of_good hrun himage hstate hbytes hgood, tget_tset _ _ _, fun _ => tget_tset _ _ _, fun j hj => ?_⟩
    rw [← har]
    exact ⟨tget_tset_ne _ _ hj, tget_tset_ne _ _ hj⟩
  | false =>
    refine ⟨_, exec_kernelVerified_of_bad hrun himage hstate hbytes hgood, tget_tset _ _ _, nofun, fun j hj => ?_⟩
    rw [← har]
    exact ⟨tget_tset_ne _ _ hj, rfl⟩

end

/-! ## KERNEL_UNLOAD (R266) -/

section
variable {s : State} {r : Request} {c : Cmd} (hwrite : writesEntry s r c 0x5502 0 = true)
include hwrite

theorem exec_kernelUnload_of_bound (hbound : ∃ b ∈ s.ar.binds, Bind.kernel b.2 = ofLe c.data ∧ ofLe c.data ≠ 0) :
    exec .kernelUnload s = .next (finish rBusy [] s) := by
  refine congrArg Host.Outcome.next ((onWrite_of_writesEntry (p := fun _ => true) hwrite (Nat.le_refl _) (Nat.le_refl _) rfl _).trans ?_)
  have hnamed : (s.ar.binds.any fun b => Bind.kernel b.2 == ofLe c.data && ofLe c.data != 0) = true := by
    simpa only [List.any_eq_true, Bool.and_eq_true, beq_iff_eq, bne_iff_ne] using hbound
  simp only [hnamed, if_true]

theorem exec_kernelUnload_of_free (hfree : ∀ b ∈ s.ar.binds, Bind.kernel b.2 ≠ ofLe c.data) :
    exec .kernelUnload s = .next (finish rDone []
      { s with ar := { s.ar with kernels := tdel s.ar.kernels (ofLe c.data), images := tdel s.ar.images (ofLe c.data),
                                 code := tdel s.ar.code (ofLe c.data) } }) := by
  refine congrArg Host.Outcome.next ((onWrite_of_writesEntry (p := fun _ => true) hwrite (Nat.le_refl _) (Nat.le_refl _) rfl _).trans ?_)
  have hnamed : (s.ar.binds.any fun b => Bind.kernel b.2 == ofLe c.data && ofLe c.data != 0) = false :=
    List.any_eq_false.mpr fun b hb => by simp [hfree b hb]
  simp only [hnamed, Bool.false_eq_true, if_false]

end

/-! ## KERNEL_BIND (R258) -/

/-- The binding number a record writes, and the binding it carries. -/
def bindNumber (s : State) (r : Request) : Nat := selOf s (senderOf s r).num (dkey 0x5510 0)

def bindOf (c : Cmd) : BitVec 512 := BitVec.ofNat 512 (ofLe c.data)

section
variable {s : State} {r : Request} {c : Cmd} (hwrite : writesEntry s r c 0x5511 0 = true)
include hwrite

theorem exec_kernelBind_of_named (hnamed : bindNamed s (bindNumber s r) = true) : exec .kernelBind s = .next (finish rBusy [] s) := by
  refine congrArg Host.Outcome.next ((onWrite_of_writesEntry (p := fun _ => true) hwrite (Nat.le_refl _) (Nat.le_refl _) rfl _).trans ?_)
  rw [bindNumber] at hnamed
  simp only [hnamed, if_true]

variable (hnamed : bindNamed s (bindNumber s r) = false)
include hnamed

theorem exec_kernelBind_of_none (hkernel : Bind.kernel (bindOf c) = 0) :
    exec .kernelBind s = .next (finish rDone [] { s with ar := { s.ar with binds := tdel s.ar.binds (bindNumber s r) } }) := by
  refine congrArg Host.Outcome.next ((onWrite_of_writesEntry (p := fun _ => true) hwrite (Nat.le_refl _) (Nat.le_refl _) rfl _).trans ?_)
  rw [bindNumber] at hnamed
  rw [bindOf] at hkernel
  simp only [hnamed, hkernel, beq_self_eq_true, Bool.false_eq_true, if_false, if_true]
  rfl

variable (hkernel : Bind.kernel (bindOf c) ≠ 0)
include hkernel

theorem exec_kernelBind_of_out_of_range (hrange : 4096 < Bind.parLength (bindOf c) ∨
    (16 ≤ Bind.kernel (bindOf c) ∧ (Bind.budget (bindOf c) < 16 ∨ 65536 < Bind.budget (bindOf c)))) :
    exec .kernelBind s = .next (finish rRange [] s) := by
  refine congrArg Host.Outcome.next ((onWrite_of_writesEntry (p := fun _ => true) hwrite (Nat.le_refl _) (Nat.le_refl _) rfl _).trans ?_)
  rw [bindNumber] at hnamed
  rw [bindOf] at hkernel hrange
  have hout : (4096 < Bind.parLength (BitVec.ofNat 512 (ofLe c.data)) || (0x10 ≤ Bind.kernel (BitVec.ofNat 512 (ofLe c.data)) &&
      (Bind.budget (BitVec.ofNat 512 (ofLe c.data)) < 16 || 65536 < Bind.budget (BitVec.ofNat 512 (ofLe c.data))))) = true := by
    simpa using hrange
  simp only [hnamed, beq_false_of_ne hkernel, hout, Bool.false_eq_true, if_false, if_true]

variable (hpar : Bind.parLength (bindOf c) ≤ 4096)
  (hbudget : Bind.kernel (bindOf c) < 16 ∨ (16 ≤ Bind.budget (bindOf c) ∧ Bind.budget (bindOf c) ≤ 65536))
include hpar hbudget

/-- A binding whose numbers are in range is judged by its partition and its keys. -/
theorem exec_kernelBind_of_in_range : exec .kernelBind s =
    .next (if 12 ≤ bindPart (bindOf c) ∨ bindKeysOk s (bindOf c) = false then finish rInvalid [] s
      else finish rDone [] { s with ar := { s.ar with binds := tset s.ar.binds (bindNumber s r) (setFld (bindOf c) 127 0 0) } }) := by
  refine congrArg Host.Outcome.next ((onWrite_of_writesEntry (p := fun _ => true) hwrite (Nat.le_refl _) (Nat.le_refl _) rfl _).trans ?_)
  unfold bindNumber bindOf at *
  have hin : (4096 < Bind.parLength (BitVec.ofNat 512 (ofLe c.data)) || (0x10 ≤ Bind.kernel (BitVec.ofNat 512 (ofLe c.data)) &&
      (Bind.budget (BitVec.ofNat 512 (ofLe c.data)) < 16 || 65536 < Bind.budget (BitVec.ofNat 512 (ofLe c.data))))) = false := by
    simp
    omega
  simp only [hnamed, beq_false_of_ne hkernel, hin, Bool.false_eq_true, if_false, Bool.or_eq_true, decide_eq_true_eq, Bool.not_eq_true']
  split <;> rfl

end

/-! ## Invocations that end (R257, R264) -/

/-- No invocation of this step stands in the table. -/
def jobGone (slot die idx : Nat) (s : State) : Prop := ∀ y ∈ s.ar.jobs, ¬ (y.slot = slot ∧ y.die = die ∧ y.idx = idx)

theorem jobGone_of_ar {slot die idx : Nat} {s t : State} (h : t.ar = (dropJob slot die idx s).ar) : jobGone slot die idx t := by
  intro y hy hsame
  rw [h] at hy
  obtain ⟨-, hkept⟩ := List.mem_filter.mp hy
  obtain ⟨rfl, rfl, rfl⟩ := hsame
  simp at hkept

section
variable (slot die idx rank : Nat) (c : StepCtx) (good : Bool) (s : State)

theorem endJob_ar : (endJob slot die idx rank s).ar = (dropJob slot die idx s).ar := rfl

theorem endJob_mem : (endJob slot die idx rank s).mem = s.mem := rfl

theorem endJob_groups : (endJob slot die idx rank s).coll.groups = s.coll.groups := rfl

theorem ownNote_ar : (ownNote slot c good s).ar = s.ar := by
  unfold ownNote
  split <;> rfl

theorem ownNote_mem : (ownNote slot c good s).mem = s.mem := by
  unfold ownNote
  split <;> rfl

end

/-- The output spans of an invocation are written one after the other; whether all went well is beside the state. -/
theorem foldl_toOutput_snd (g : Nat) (l : Launch) (j : Join) (base : Nat) (spans : List (Nat × List Byte)) (a : Bool × State) :
    (spans.foldl (fun (a : Bool × State) x => (a.1 && (toOutput g l j (base + x.1) x.2 a.2).1, (toOutput g l j (base + x.1) x.2 a.2).2)) a).2 =
      spans.foldl (fun s y => (toOutput g l j (base + y.1) y.2 s).2) a.2 := by
  induction spans generalizing a with
  | nil => rfl
  | cons y spans ih => exact ih _

section
variable {s t : State} {slot die n : Nat} {x : Invocation} {c : StepCtx} {l : Launch} {w : Wqe} {j : Join} {b : BitVec 512}
  (hrun : running s = true) (hctx : jobCtx s slot die x.idx = some (c, l, w, j, n, b))
include hrun hctx

theorem exec_kernelDone_of_wait (hin : kernelIn die c l w j b x s = (.wait, t)) :
    exec (.kernelDone slot die x.idx x.input x.params x.state) s = .next s := by
  show execKernelDone slot die x.idx x.input x.params x.state s = _
  simp only [execKernelDone, hctx, hrun, hin, Bool.not_true, Bool.false_eq_true, if_false]

theorem exec_kernelDone_of_fail {st : Nat} (hin : kernelIn die c l w j b x s = (.fail st, t)) :
    exec (.kernelDone slot die x.idx x.input x.params x.state) s =
      .next (endJob slot die x.idx l.rank (failStep c.x.group l (Step.dstOff c.st) st t)) := by
  show execKernelDone slot die x.idx x.input x.params x.state s = _
  simp only [execKernelDone, hctx, hrun, hin, Bool.not_true, Bool.false_eq_true, if_false]

variable {inp par st : List Byte} (hin : kernelIn die c l w j b x s = (.read inp par st, t))
include hin

theorem exec_kernelDone_of_stopped (hkernel : runKernel t b l.seq par inp st = none) :
    exec (.kernelDone slot die x.idx x.input x.params x.state) s = .next s := by
  show execKernelDone slot die x.idx x.input x.params x.state s = _
  simp only [execKernelDone, hctx, hrun, hin, hkernel, Bool.not_true, Bool.false_eq_true, if_false]

/-- The output goes to the window, then a changed state to its span; counts and the notification leave the memories. -/
theorem exec_kernelDone_of_run {out : Stored} {st' : List Byte} (hkernel : runKernel t b l.seq par inp st = some (out, st')) :
    let put := out.spans.foldl (fun s y => (toOutput c.x.group l j (Step.dstOff c.st + y.1) y.2 s).2) t
    let (ps, u) := statePieces die b .write put
    ∃ v, exec (.kernelDone slot die x.idx x.input x.params x.state) s = .next v ∧ jobGone slot die x.idx v ∧
      v.mem = (if st' = st then u else writePieces ps st' u).mem := by
  intro put
  obtain ⟨good, hgood⟩ : ∃ good, out.spans.foldl (fun (a : Bool × State) x => (a.1 && (toOutput c.x.group l j (Step.dstOff c.st + x.1) x.2 a.2).1,
      (toOutput c.x.group l j (Step.dstOff c.st + x.1) x.2 a.2).2)) (true, t) = (good, put) :=
    ⟨_, Prod.ext rfl (foldl_toOutput_snd _ _ _ _ _ _)⟩
  rcases hpieces : statePieces die b .write put with ⟨ps, u⟩
  dsimp only
  have hexec : ∃ v, execKernelDone slot die x.idx x.input x.params x.state s = .next (ownNote slot c good (endJob slot die x.idx l.rank v)) ∧
      v.mem = (if st' = st then u else writePieces ps st' u).mem := by
    simp only [execKernelDone, hctx, hrun, hin, hkernel, hgood, hpieces, Bool.not_true, Bool.false_eq_true, if_false, beq_iff_eq]
    refine ⟨_, rfl, ?_⟩
    split <;> simp only [bumpArith_mem]
  obtain ⟨v, hexec, hmem⟩ := hexec
  exact ⟨_, hexec, jobGone_of_ar (s := v) (ownNote_ar _ _ _ _), (ownNote_mem _ _ _ _).trans hmem⟩

end

/-! ## User kernels that are stopped (R263) -/

section
variable {s : State} {slot die cause : Nat} {stops : BitVec 512 → Nat → KernelRun → Bool} {x : Invocation}

theorem stopKernel_of_no_job (hctx : jobCtx s slot die x.idx = none) : stopKernel slot die cause stops x s = s := by
  simp only [stopKernel, hctx]

/-- The invocation is gone and the run's abort is asked for at the group's home. -/
def kernelStopped (slot die : Nat) (c : StepCtx) (l : Launch) (x : Invocation) (v : State) : Prop :=
  jobGone slot die x.idx v ∧ v.out.head? = some (.coll 5 c.x.group (homeOf (groupOf v c.x.group)) [l.seq, 0])

variable {c : StepCtx} {l : Launch} {w : Wqe} {j : Join} {n : Nat} {b : BitVec 512} {t : State} {inp par st : List Byte}
  (hrun : running s = true) (hctx : jobCtx s slot die x.idx = some (c, l, w, j, n, b)) (huser : 16 ≤ Bind.kernel b)
  (hin : kernelIn die c l w j b x s = (.read inp par st, t))
include hrun hctx huser hin

theorem stopKernel_of_running (hstops : stops b inp.length (userRun t b par inp st) = false) : stopKernel slot die cause stops x s = s := by
  have hguard : (!running s || decide (Bind.kernel b < 0x10)) = false := by simp [hrun, huser]
  simp only [stopKernel, hctx, hguard, hin, hstops, Bool.not_false, Bool.false_eq_true, if_false, if_true]

theorem stopKernel_of_stops (hstops : stops b inp.length (userRun t b par inp st) = true) :
    kernelStopped slot die c l x (stopKernel slot die cause stops x s) := by
  have hguard : (!running s || decide (Bind.kernel b < 0x10)) = false := by simp [hrun, huser]
  have hstop : ∃ u, stopKernel slot die cause stops x s =
      (endJob slot die x.idx l.rank u).emit (.coll 5 c.x.group (homeOf (groupOf u c.x.group)) [l.seq, 0]) := by
    simp only [stopKernel, hctx, hguard, hin, hstops, Bool.not_true, Bool.false_eq_true, if_false]
    exact ⟨_, rfl⟩
  obtain ⟨u, hu⟩ := hstop
  rw [hu]
  exact ⟨jobGone_of_ar (s := u) rfl, rfl⟩

end

/-! ## What kernels put out (R259 to R262) -/

theorem runKernel_of_user {s : State} {b : BitVec 512} (huser : 16 ≤ Bind.kernel b) (seq : Nat) (par inp state : List Byte) :
    runKernel s b seq par inp state = if (userRun s b par inp state).fault || overBudget b inp.length (userRun s b par inp state) then none
      else some ({ spans := [(0, slice (userRun s b par inp state).out 0 (Bind.outLength b))] },
        slice (userRun s b par inp state).state 0 (Bind.stateLength b)) := by
  have hne : ∀ k < 16, (Bind.kernel b == k) = false := fun k hk => beq_false_of_ne (by omega)
  simp only [runKernel, hne 1 (by decide), hne 2 (by decide), hne 3 (by decide), hne 4 (by decide), hne 5 (by decide), Bool.false_eq_true, if_false]

theorem runKernel_of_built_in (s : State) (b : BitVec 512) (seq : Nat) (par inp state : List Byte) :
    (Bind.kernel b = 1 → runKernel s b seq par inp state = some (mxQuant par inp seq, state)) ∧
    (Bind.kernel b = 2 → runKernel s b seq par inp state = some (mxDequant par inp, state)) ∧
    (Bind.kernel b = 3 → runKernel s b seq par inp state =
      some ({ spans := [(0, (lowrankProject par inp state).1)] }, (lowrankProject par inp state).2)) ∧
    (Bind.kernel b = 4 → runKernel s b seq par inp state = some ({ spans := [(0, lowrankExpand par inp state)] }, state)) ∧
    (Bind.kernel b = 5 → runKernel s b seq par inp state = some ({ spans := [(0, expertCombine par inp state)] }, state)) := by
  refine ⟨?_, ?_, ?_, ?_, ?_⟩ <;> intro hk <;> rw [runKernel, hk] <;> rfl

/-! ## The obligation -/

/-- Settles O38: what each record answers and writes, what verification makes of an image, and how an invocation ends, waits or is stopped. -/
theorem kernelsLoadBindAndRun : Obligations.KernelsLoadBindAndRun := by
  unfold Obligations.KernelsLoadBindAndRun
  refine ⟨?load, ?verified, ?unload, ?bind, ?ends, ?runs, ?none⟩
  case load =>
    exact fun s r c hwrite => ⟨exec_kernelLoad_of_built_in hwrite, exec_kernelLoad_of_gen1 hwrite, exec_kernelLoad_of_used hwrite,
      exec_kernelLoad_of_free hwrite⟩
  case verified => exact fun s k key addr len d s1 hrun himage hstate hbytes => exec_kernelVerified_judges hrun himage hstate hbytes
  case unload => exact fun s r c hwrite => ⟨exec_kernelUnload_of_bound hwrite, exec_kernelUnload_of_free hwrite⟩
  case bind =>
    intro s r c hwrite n b
    refine ⟨exec_kernelBind_of_named hwrite, exec_kernelBind_of_none hwrite, exec_kernelBind_of_out_of_range hwrite, ?_⟩
    intro hnamed hkernel hpar hbudget
    have hexec := exec_kernelBind_of_in_range hwrite hnamed hkernel hpar hbudget
    refine ⟨fun hbad => hexec.trans (congrArg _ (if_pos hbad)), fun hpart hkeys => hexec.trans (congrArg _ (if_neg ?_))⟩
    rintro (hlarge | hno)
    · exact absurd hpart (Nat.not_lt.mpr hlarge)
    · exact absurd (hkeys.symm.trans hno) (by decide)
  case ends =>
    intro s slot die x c l w j n b hrun hctx gone
    refine ⟨fun inp par st t hin => ⟨fun out st' => exec_kernelDone_of_run hrun hctx hin, exec_kernelDone_of_stopped hrun hctx hin,
      ?_⟩, fun st t => exec_kernelDone_of_fail hrun hctx, fun t => exec_kernelDone_of_wait hrun hctx⟩
    intro huser r stops
    exact ⟨fun h => ⟨_, rfl, stopKernel_of_stops hrun hctx huser hin h⟩, fun h => congrArg _ (stopKernel_of_running hrun hctx huser hin h),
      fun h => ⟨_, rfl, stopKernel_of_stops hrun hctx huser hin h⟩, fun h => congrArg _ (stopKernel_of_running hrun hctx huser hin h)⟩
  case runs =>
    intro s b seq par inp state
    obtain ⟨hquant, hdequant, hproject, hexpand, hcombine⟩ := runKernel_of_built_in s b seq par inp state
    refine ⟨hquant, hdequant, hproject, hexpand, hcombine, ?_⟩
    intro huser r
    have huserRun := runKernel_of_user (s := s) huser seq par inp state
    refine ⟨fun hfault hbudget => huserRun.trans (if_neg ?_), fun hstopped => huserRun.trans (if_pos ?_)⟩
    · rw [hfault, hbudget]
      decide
    · rw [Bool.or_eq_true]
      exact hstopped
  case none =>
    exact fun s slot die x hrun hctx => ⟨congrArg _ (stopKernel_of_no_job hctx), congrArg _ (stopKernel_of_no_job hctx)⟩

end Sys2Proof.Machine
end

section
/-! SUPPORT. Packets that come in on a tree edge, and packets of local members: what the port die's tree makes of each (R250, R253, R255, R296,
R298). -/

namespace Sys2Proof.Machine

/-! ## A packet reaches a half of an edge -/

section
variable {s t : State} {p : Packet} {kind : Nat} {e : End}

theorem suits_of_reachesEdge (h : reachesEdge s p kind e = true) :
    running s = true ∧ Hdr.kind p.hdr = kind ∧ tget s.conn.ends (handleOf p.hdr) = some e ∧ isEdge (handleOf p.hdr) = true := by
  simp only [reachesEdge, suitsEnd, Bool.and_eq_true, beq_iff_eq, Bool.not_eq_true'] at h
  obtain ⟨⟨⟨⟨⟨⟨⟨⟨⟨hrun, hkind⟩, _⟩, _⟩, he⟩, _⟩, _⟩, _⟩, _⟩, hedge⟩ := h
  exact ⟨hrun, hkind, he, hedge⟩

/-- A packet that reaches a half of an edge is classified there. -/
theorem arrive_of_reachesEdge (ht : reaches p s = some t) (h : reachesEdge s p kind e = true)
    (act : Nat → End → Hdr → State → Option State) :
    arrive s p kind act = (classify p kind (handleOf p.hdr) e act (received t (handleOf p.hdr))).getD s := by
  simp only [reachesEdge, suitsEnd, Bool.and_eq_true, beq_iff_eq, Bool.not_eq_true'] at h
  obtain ⟨⟨⟨⟨⟨⟨⟨⟨⟨hrun, hkind⟩, hholdoff⟩, hop⟩, he⟩, hepoch⟩, htakes⟩, hdir⟩, hcached⟩, hedge⟩ := h
  simp only [arrive, hrun, hkind, ht, hop, he, hepoch, htakes, hdir, hcached, hedge, hholdoff, bne_self_eq_false, Bool.not_true, Bool.and_false,
    Bool.or_self, Bool.false_eq_true, if_false]
  rfl

end

/-- A packet that has come to its half: off the mesh, counted, the half used most recently. -/
def edgeReceived (t : State) (h : Nat) : State := touch h (received t h)

theorem edgeReceived_onlyChanges {p : Packet} {s t : State} (ht : reaches p s = some t) (h : Nat) :
    onlyChanges [.conn, .mesh, .counts, .pow] s (edgeReceived t h) :=
  onlyChanges_trans (onlyChanges_mono (received_of_reaches ht h) fun a => by cases a <;> decide)
    (onlyChanges_mono (touch_onlyChanges h _) fun a => by cases a <;> decide)

/-! ## A packet of a tree comes in on an edge -/

/-- What a packet of an edge does at its port die: its edge and tree entry are looked up, and `act` takes it where the entry is cached. -/
def edgeAct (die key : Nat) (act : Nat → BitVec 128 → Nat → Hdr → State → Option State) (h : Nat) (hdr : Hdr) (s : State) : Option State :=
  match tget s.ar.edges key with
  | none => some s
  | some x =>
    match tget s.fab.trees x.tree with
    | none => some s
    | some t => if treeCached s die x.tree then act x.tree t h hdr s else none

theorem edgeAct_of_cached {die key tree h : Nat} {tr : BitVec 128} {hdr : Hdr} {s : State} {x : Edge}
    {act : Nat → BitVec 128 → Nat → Hdr → State → Option State} (hx : tget s.ar.edges key = some x) (htree : x.tree = tree)
    (htr : tget s.fab.trees tree = some tr) (hcached : treeCached s die tree = true) : edgeAct die key act h hdr s = act tree tr h hdr s := by
  subst htree
  simp only [edgeAct, hx, htr, hcached, if_true]

section
variable {s t : State} {p : Packet} {die op tree : Nat} {tr : BitVec 128} {e : End} (hcomes : comesOnEdge s t p die op tree tr e)
include hcomes

theorem reaches_of_comesOnEdge : reaches p s = some t := hcomes.1

/-- The packet carries data or withdraws it, and reaches its half. -/
theorem reachesEdge_of_comesOnEdge : reachesEdge s p (Hdr.kind p.hdr) e = true ∧ sequenced (Hdr.kind p.hdr) = true ∧
    (Hdr.kind p.hdr = kData ∨ Hdr.kind p.hdr = kWithdraw) := by
  obtain ⟨-, hreach | hreach, -⟩ := hcomes <;> obtain ⟨-, hkind, -⟩ := suits_of_reachesEdge hreach <;> rw [hkind]
  · exact ⟨hreach, rfl, .inl rfl⟩
  · exact ⟨hreach, rfl, .inr rfl⟩

theorem running_of_comesOnEdge : running s = true := (suits_of_reachesEdge (reachesEdge_of_comesOnEdge hcomes).1).1

theorem end_of_comesOnEdge : tget s.conn.ends (handleOf p.hdr) = some e :=
  (suits_of_reachesEdge (reachesEdge_of_comesOnEdge hcomes).1).2.2.1

variable (act : Nat → BitVec 128 → Nat → Hdr → State → Option State)

theorem byEdge_of_comesOnEdge : byEdge die op p s act = (classify p (Hdr.kind p.hdr) (handleOf p.hdr) e
    (fun h _ hdr s => edgeAct die (edgeKey (Hdr.edgeDie p.hdr) (Hdr.edge p.hdr)) act h hdr s) (received t (handleOf p.hdr))).getD s := by
  obtain ⟨hreach, -, hkind⟩ := reachesEdge_of_comesOnEdge hcomes
  obtain ⟨ht, -, hdie, hop, -⟩ := hcomes
  obtain ⟨-, -, -, hedge⟩ := suits_of_reachesEdge hreach
  have hcarries : (Hdr.kind p.hdr == kData || Hdr.kind p.hdr == kWithdraw) = true := by
    rcases hkind with h | h <;> rw [h] <;> rfl
  rw [← arrive_of_reachesEdge ht hreach]
  simp only [byEdge, hedge, hdie, hop, hcarries, bne_self_eq_false, Bool.not_true, Bool.or_self, Bool.false_eq_true, if_false]
  rfl

/-- A packet that the edge has not accepted goes on to its tree. -/
theorem byEdge_of_new (hnew : isNew (received t (handleOf p.hdr)) p e = true) (hcheck : trailerChecks p = true) :
    byEdge die op p s act = (act tree tr (handleOf p.hdr) p.hdr (edgeReceived t (handleOf p.hdr))).getD s := by
  obtain ⟨-, hkind, -⟩ := reachesEdge_of_comesOnEdge hcomes
  rw [byEdge_of_comesOnEdge hcomes]
  obtain ⟨ht, -, hdie, -, hedge, htr, hcached⟩ := hcomes
  obtain ⟨x, hx, htree⟩ := Option.map_eq_some_iff.mp hedge
  have hframe := edgeReceived_onlyChanges ht (handleOf p.hdr)
  simp only [isNew, Bool.and_eq_true, Bool.not_eq_true'] at hnew
  obtain ⟨hat, hage⟩ := hnew
  rw [classify_of_new _ hkind hat, hage, hcheck]
  have hfab : (edgeReceived t (handleOf p.hdr)).fab = s.fab := hframe .fab rfl
  have hact := edgeAct_of_cached (h := handleOf p.hdr) (hdr := p.hdr) (act := act) (s := edgeReceived t (handleOf p.hdr))
    (by rw [hframe .ar rfl]; exact hx) htree (by rw [hfab]; exact htr) (by rw [treeCached, hfab]; exact hcached)
  exact congrArg (Option.getD · s) hact

/-- A packet that the edge has accepted is acknowledged again. -/
theorem byEdge_of_duplicate (hdup : isDuplicate e (Hdr.psn p.hdr) = true) :
    byEdge die op p s act = duplicateTaken (handleOf p.hdr) e p.hdr (received t (handleOf p.hdr)) := by
  rw [byEdge_of_comesOnEdge hcomes, classify_of_duplicate _ (reachesEdge_of_comesOnEdge hcomes).2.1 hdup]
  rfl

end

section
variable {die : Nat} {s : State} (hdie : die < 4) (hrun : running s = true) (ext : List Byte)
include hdie hrun

theorem exec_storeAdmission_of_packet (p : Packet) : exec (.storeAdmission die (some p) ext) s =
    .next (byEdge die ocCollAcc p s fun tree t h hdr s => takeContribution p die tree t ext h hdr s) := by
  show execStoreAdmission die (some p) ext s = _
  simp [execStoreAdmission, Nat.blt_eq.mpr hdie, hrun]

theorem exec_mcastReplicate_of_packet (p : Packet) : exec (.mcastReplicate die (some p) ext) s =
    .next (byEdge die ocCollMcast p s fun tree t h hdr s => takeMcast p die tree t h hdr s) := by
  show execMcastReplicate die (some p) ext s = _
  simp [execMcastReplicate, Nat.blt_eq.mpr hdie, hrun]

theorem exec_storeAdmission_of_member : exec (.storeAdmission die none ext) s = .next (enterContribution die ext s) := by
  show execStoreAdmission die none ext s = _
  simp [execStoreAdmission, Nat.blt_eq.mpr hdie, hrun]

theorem exec_mcastReplicate_of_member : exec (.mcastReplicate die none ext) s = .next (enterMcast die ext s) := by
  show execMcastReplicate die none ext s = _
  simp [execMcastReplicate, Nat.blt_eq.mpr hdie, hrun]

end

/-! ## A contribution of an edge (R250, R253, R255) -/

section
variable {p : Packet} {die tree h k key : Nat} {tr : BitVec 128} {ext : List Byte} {hdr : Hdr} {s : State}

theorem takeContribution_at_root (hroot : Tree.isRoot tr = true) (hrank : rankOf (groupOf s (Tree.group tr)) (Tree.root tr) = some k) :
    takeContribution p die tree tr ext h hdr s = some (if rootWaits s (Tree.group tr) k hdr p.payload then sendHold h s
      else noteNew h hdr p.payload.length false (absorbRoot tr k hdr p.payload ext s)) := by
  simp only [takeContribution, hroot, hrank, if_true]

/-- The packets of a contribution that go on: the whole packet, or the chunks that were not absorbed. -/
def packetsOn (p : Packet) (left : List Chunk) (whole : Bool) : List Packet := if whole then [p] else left.map (chunkPacket p)

/-- A packet goes on by an edge, for a packet of another half. -/
def sendOn (key : Nat) (origin : Nat × Nat) (s : State) (q : Packet) : State := queueEdge (edgeHalf key) { rawDesc q with origin := some origin } s

theorem takeContribution_on_the_way (hroot : Tree.isRoot tr = false) (hkey : edgeToward s die tree (Tree.parent tr) = some key)
    {left : List Chunk} {whole : Bool} {u : State} (hadmit : admitAll die tree p s = (left, whole, u)) :
    takeContribution p die tree tr ext h hdr s = some (forwardFull die ((packetsOn p left whole).foldl (sendOn key (h, Hdr.psn hdr))
      (noteNew h hdr p.payload.length (!left.isEmpty) u))) := by
  simp only [takeContribution, hroot, hkey, hadmit, Bool.false_eq_true, if_false, packetsOn]
  cases whole
  · simp only [Bool.false_eq_true, if_false, List.foldl_map]
    rfl
  · rfl

/-! ## A multicast packet of an edge (R255, R298) -/

theorem takeMcast_of_wait (hwait : ∃ k ∈ mcastRanks s tr, mcastWaits s (Tree.group tr) k hdr p.payload.length = true) :
    takeMcast p die tree tr h hdr s = some (sendHold h s) := by
  simp only [takeMcast, List.any_eq_true.mpr hwait, if_true]

theorem takeMcast_of_ready (hready : ∀ k ∈ mcastRanks s tr, mcastWaits s (Tree.group tr) k hdr p.payload.length = false) :
    takeMcast p die tree tr h hdr s = some (((Tree.children tr).filterMap (edgeToward s die tree)).foldl (fun s key => sendOn key (h, Hdr.psn hdr) s p)
      (noteNew h hdr p.payload.length (!((Tree.children tr).filterMap (edgeToward s die tree)).isEmpty)
        ((mcastRanks s tr).foldl (fun s k => landMcast (Tree.group tr) k hdr p.payload s) s))) := by
  have hany : ((mcastRanks s tr).any fun k => mcastWaits s (Tree.group tr) k hdr p.payload.length) = false :=
    List.any_eq_false.mpr fun k hk => by simp [hready k hk]
  simp only [takeMcast, hany, Bool.false_eq_true, if_false]
  rfl

end

/-! ## What trees look up, where they are looked up later -/

section
variable {s t : State}

theorem edgeToward_congr (har : t.ar = s.ar) (die tree dir : Nat) : edgeToward t die tree dir = edgeToward s die tree dir := by
  simp only [edgeToward, har]

theorem mcastRanks_congr (hgroups : t.coll.groups = s.coll.groups) (hdict : t.dict = s.dict) (hfenced : t.fab.fenced = s.fab.fenced)
    (tr : BitVec 128) : mcastRanks t tr = mcastRanks s tr := by
  simp only [mcastRanks, groupOf_congr hgroups hdict, coord_congr hdict, hfenced]

end

/-! ## The commands on packets of edges -/

section
variable {s t : State} {p : Packet} {die tree : Nat} {tr : BitVec 128} {e : End} (ext : List Byte) (hdie : die < 4)
include hdie

section
variable (hcheck : trailerChecks p = true) (hnew : isNew (received t (handleOf p.hdr)) p e = true)
include hcheck hnew

section
variable (hcomes : comesOnEdge s t p die ocCollAcc tree tr e)
include hcomes

theorem exec_storeAdmission_of_new : exec (.storeAdmission die (some p) ext) s =
    .next ((takeContribution p die tree tr ext (handleOf p.hdr) p.hdr (edgeReceived t (handleOf p.hdr))).getD s) := by
  rw [exec_storeAdmission_of_packet hdie (running_of_comesOnEdge hcomes), byEdge_of_new hcomes _ hnew hcheck]

theorem exec_storeAdmission_at_root {k : Nat} (hroot : Tree.isRoot tr = true)
    (hrank : rankOf (groupOf s (Tree.group tr)) (Tree.root tr) = some k) : exec (.storeAdmission die (some p) ext) s =
      .next (if rootWaits (edgeReceived t (handleOf p.hdr)) (Tree.group tr) k p.hdr p.payload
        then sendHold (handleOf p.hdr) (edgeReceived t (handleOf p.hdr))
        else noteNew (handleOf p.hdr) p.hdr p.payload.length false
          (absorbRoot tr k p.hdr p.payload ext (edgeReceived t (handleOf p.hdr)))) := by
  have hframe := edgeReceived_onlyChanges (reaches_of_comesOnEdge hcomes) (handleOf p.hdr)
  rw [exec_storeAdmission_of_new ext hdie hcheck hnew hcomes, takeContribution_at_root hroot, Option.getD_some]
  rwa [groupOf_congr (congrArg CollSt.groups (hframe .coll rfl)) (hframe .dict rfl)]

theorem exec_storeAdmission_on_the_way {key : Nat} (hroot : Tree.isRoot tr = false)
    (hkey : edgeToward s die tree (Tree.parent tr) = some key) {left : List Chunk} {whole : Bool} {u : State}
    (hadmit : admitAll die tree p (edgeReceived t (handleOf p.hdr)) = (left, whole, u)) : exec (.storeAdmission die (some p) ext) s =
      .next (forwardFull die ((packetsOn p left whole).foldl (sendOn key (handleOf p.hdr, Hdr.psn p.hdr))
        (noteNew (handleOf p.hdr) p.hdr p.payload.length (!left.isEmpty) u))) := by
  have hframe := edgeReceived_onlyChanges (reaches_of_comesOnEdge hcomes) (handleOf p.hdr)
  rw [exec_storeAdmission_of_new ext hdie hcheck hnew hcomes, takeContribution_on_the_way hroot _ hadmit, Option.getD_some]
  rwa [edgeToward_congr (hframe .ar rfl)]

end

section
variable (hcomes : comesOnEdge s t p die ocCollMcast tree tr e)
include hcomes

theorem exec_mcastReplicate_of_new : exec (.mcastReplicate die (some p) ext) s =
    .next ((takeMcast p die tree tr (handleOf p.hdr) p.hdr (edgeReceived t (handleOf p.hdr))).getD s) := by
  rw [exec_mcastReplicate_of_packet hdie (running_of_comesOnEdge hcomes), byEdge_of_new hcomes _ hnew hcheck]

omit hdie hcheck hnew in
theorem mcastRanks_edgeReceived : mcastRanks (edgeReceived t (handleOf p.hdr)) tr = mcastRanks s tr := by
  have hframe := edgeReceived_onlyChanges (reaches_of_comesOnEdge hcomes) (handleOf p.hdr)
  exact mcastRanks_congr (congrArg CollSt.groups (hframe .coll rfl)) (hframe .dict rfl) (congrArg FabricSt.fenced (hframe .fab rfl)) tr

theorem exec_mcastReplicate_of_wait
    (hwait : ∃ k ∈ mcastRanks s tr, mcastWaits (edgeReceived t (handleOf p.hdr)) (Tree.group tr) k p.hdr p.payload.length = true) :
    exec (.mcastReplicate die (some p) ext) s = .next (sendHold (handleOf p.hdr) (edgeReceived t (handleOf p.hdr))) := by
  rw [← mcastRanks_edgeReceived hcomes] at hwait
  rw [exec_mcastReplicate_of_new ext hdie hcheck hnew hcomes, takeMcast_of_wait hwait, Option.getD_some]

theorem exec_mcastReplicate_of_ready
    (hready : ∀ k ∈ mcastRanks s tr, mcastWaits (edgeReceived t (handleOf p.hdr)) (Tree.group tr) k p.hdr p.payload.length = false) :
    exec (.mcastReplicate die (some p) ext) s =
      .next (((Tree.children tr).filterMap (edgeToward s die tree)).foldl (fun s key => sendOn key (handleOf p.hdr, Hdr.psn p.hdr) s p)
        (noteNew (handleOf p.hdr) p.hdr p.payload.length (!((Tree.children tr).filterMap (edgeToward s die tree)).isEmpty)
          ((mcastRanks s tr).foldl (fun s k => landMcast (Tree.group tr) k p.hdr p.payload s) (edgeReceived t (handleOf p.hdr))))) := by
  have hframe := edgeReceived_onlyChanges (reaches_of_comesOnEdge hcomes) (handleOf p.hdr)
  have hon : edgeToward (edgeReceived t (handleOf p.hdr)) die tree = edgeToward s die tree := funext (edgeToward_congr (hframe .ar rfl) die tree)
  rw [← mcastRanks_edgeReceived hcomes] at hready ⊢
  rw [exec_mcastReplicate_of_new ext hdie hcheck hnew hcomes, takeMcast_of_ready hready, Option.getD_some, hon]

end

end

/-- What a packet that an edge has accepted before leaves: its half acknowledges again, and only counts change besides. -/
def acceptedAgain (h : Nat) (e : End) (s v : State) : Prop :=
  (endOf v h).recvThrough = e.recvThrough ∧ (endOf v h).bitmap = e.bitmap ∧ (endOf v h).ackPending = 0 ∧
    onlyChanges [.conn, .mesh, .fab, .counts, .obs, .pow] s v

omit hdie in
theorem duplicateTaken_acceptedAgain {op : Nat} (hcomes : comesOnEdge s t p die op tree tr e) :
    acceptedAgain (handleOf p.hdr) e s (duplicateTaken (handleOf p.hdr) e p.hdr (received t (handleOf p.hdr))) := by
  have ht := reaches_of_comesOnEdge hcomes
  have hwrites := writesEnd_duplicateTaken p.hdr (tget_received ht (handleOf p.hdr) (end_of_comesOnEdge hcomes))
  have hframe := onlyChanges_trans
    (onlyChanges_mono (m := [.conn, .mesh, .fab, .counts, .obs, .pow]) (received_of_reaches ht (handleOf p.hdr)) fun a => by cases a <;> decide)
    (onlyChanges_mono (duplicateTaken_onlyChanges (handleOf p.hdr) e p.hdr _) fun a => by cases a <;> decide)
  refine ⟨?_, ?_, ?_, hframe⟩ <;> rw [writesEnd_self hwrites] <;> rfl

theorem exec_storeAdmission_of_duplicate (hcomes : comesOnEdge s t p die ocCollAcc tree tr e) (hdup : isDuplicate e (Hdr.psn p.hdr) = true) :
    ∃ v, exec (.storeAdmission die (some p) ext) s = .next v ∧ acceptedAgain (handleOf p.hdr) e s v :=
  ⟨_, by rw [exec_storeAdmission_of_packet hdie (running_of_comesOnEdge hcomes), byEdge_of_duplicate hcomes _ hdup],
    duplicateTaken_acceptedAgain hcomes⟩

theorem exec_mcastReplicate_of_duplicate (hcomes : comesOnEdge s t p die ocCollMcast tree tr e) (hdup : isDuplicate e (Hdr.psn p.hdr) = true) :
    ∃ v, exec (.mcastReplicate die (some p) ext) s = .next v ∧ acceptedAgain (handleOf p.hdr) e s v :=
  ⟨_, by rw [exec_mcastReplicate_of_packet hdie (running_of_comesOnEdge hcomes), byEdge_of_duplicate hcomes _ hdup],
    duplicateTaken_acceptedAgain hcomes⟩

end

end Sys2Proof.Machine
end

section
/-! SUPPORT. Packets of local members that enter their trees, and what landing a multicast leaves of the tree edges (R148, R250, R255, R298). -/

namespace Sys2Proof.Machine

/-! ## What a landing leaves of the edges and slots -/

@[simp] theorem dropMirror_ar (ctr : Nat) (s : State) : (dropMirror ctr s).ar = s.ar := by
  unfold dropMirror
  split
  · rfl
  · extract_lets quiet noted
    split
    · rfl
    · exact record_ar _ _ _ _ _ _

@[simp] theorem writeMirror_ar (ctr : Nat) (s : State) : (writeMirror ctr s).ar = s.ar := by
  unfold writeMirror
  split
  · rfl
  · next c _ =>
    have hspan := localSpan_onlyChanges (dieOfCq ctr) c.part c.pasid c.mirrorKey c.mirrorAddr 8 .write anyTarget true s .ar rfl
    split
    · rfl
    · rcases hw : localSpan (dieOfCq ctr) c.part c.pasid c.mirrorKey c.mirrorAddr 8 .write anyTarget true s with ⟨_ | _ | _, u⟩ <;>
        rw [hw] at hspan <;> dsimp only
      · split
        · exact (dropMirror_ar _ _).trans hspan
        · exact (storeWith_barFrame _ _ _ (onlyChanges_refl _ _) .ar rfl).trans hspan
      · exact (dropMirror_ar _ _).trans hspan
      · exact (dropMirror_ar _ _).trans hspan

@[simp] theorem addCounter_ar (ctr n : Nat) (s : State) : (addCounter ctr n s).ar = s.ar := by
  unfold addCounter setCounter
  split
  · exact writeMirror_ar _ _
  · rfl

@[simp] theorem noteMember_ar (g : Nat) (l : Launch) (k : Nat) (s : State) : (noteMember g l k s).ar = s.ar := by
  unfold noteMember addArrival
  split
  · rfl
  · split
    · split
      · rfl
      · exact addCounter_ar _ _ _
    · rfl

theorem sendFlushes_barFrame (ps : List FlushPath) {s t : State} (h : barFrame s t) : barFrame s (sendFlushes ps t) := by
  unfold sendFlushes
  induction ps generalizing t with
  | nil => exact h
  | cons f ps ih =>
    refine ih ?_
    cases f with
    | edrad link => exact toHost_barFrame _ _ h
    | _ => exact emit_barFrame _ h

@[simp] theorem treeWhole_ar (g : Nat) (l : Launch) (base : Nat) (xpath : Bool) (o : TreeOp) (s : State) :
    (treeWhole g l base xpath o s).ar = s.ar := by
  unfold treeWhole
  split
  · rfl
  · split
    · rfl
    · split
      · exact sendFlushes_barFrame _ (onlyChanges_refl _ _) .ar rfl
      · exact noteMember_ar _ _ _ _

@[simp] theorem landMcast_ar (g rank : Nat) (hdr : Hdr) (d : List Byte) (s : State) : (landMcast g rank hdr d s).ar = s.ar := by
  unfold landMcast
  extract_lets c
  split
  · rfl
  · next l j _ =>
    extract_lets off count
    have hcount (n : Nat) (low : Option (Nat × Nat × Nat)) (ps : List Piece) (u : State) : (count n low ps u).ar = u.ar := by
      simp only [count]
      split
      · exact treeWhole_ar _ _ _ _ _ _
      · rfl
    clear_value count
    split
    · exact hcount _ _ _ _
    · rcases tileSpanOf (Hdr.offset hdr) (Hdr.length hdr) (Hdr.tile hdr) with ⟨t0, tl⟩
      have hspan := winSpan_onlyChanges j (l.sig.outOff + c.base + t0) tl .write s .ar rfl
      dsimp only
      rcases hw : winSpan j (l.sig.outOff + c.base + t0) tl .write s with ⟨_ | _ | _, u⟩ <;> rw [hw] at hspan <;> dsimp only
      · split
        · exact (hcount _ _ _ _).trans hspan
        · refine (hcount _ _ _ _).trans (Eq.trans ?_ hspan)
          simp only [countPlaced, bumpPart_ar, bumpFixed_ar, tally_ar]
          exact storePieces_barFrame _ d (onlyChanges_refl _ u) .ar rfl
      · exact hspan
      · exact (hcount _ _ _ _).trans hspan

theorem foldl_landMcast_ar (g : Nat) (hdr : Hdr) (d : List Byte) (ranks : List Nat) (s : State) :
    (ranks.foldl (fun s k => landMcast g k hdr d s) s).ar = s.ar := by
  induction ranks generalizing s with
  | nil => rfl
  | cons k ranks ih => exact (ih _).trans (landMcast_ar _ _ _ _ _)

/-! ## The first packet that waits is read (R148, R255) -/

section
variable (s : State) (die : Nat) (i : TreeItem) (ext : List Byte)

/-- Reading and counting a packet changes no area but these. -/
theorem memberRead_onlyChanges : onlyChanges [.fab, .out, .link, .mem, .obs, .mtr, .counts, .elec] s (memberRead s die i ext) := by
  have hdrop : onlyChanges [.fab, .out, .link, .mem, .obs, .mtr, .counts, .elec] s (dropWaiting die i s) := by
    simp [onlyChanges_iff, dropWaiting]
  have hread := onlyChanges_trans hdrop
    (onlyChanges_mono (noteReads_barFrame i.desc.src (dropWaiting die i s)) fun a => by cases a <;> decide)
  unfold memberRead
  dsimp only
  split
  · exact onlyChanges_trans hread (by simp [onlyChanges_iff, countSent])
  · exact hread

theorem countSent_fab (die p : Nat) (d : Desc) (own : Bool) (n : Nat) (s : State) : (countSent die p d own n s).fab = s.fab := by simp [countSent]

/-- The fenced endpoints stay. -/
theorem memberRead_fenced : (memberRead s die i ext).fab.fenced = s.fab.fenced := by
  have hread : (noteReads i.desc.src (dropWaiting die i s)).fab = (dropWaiting die i s).fab := noteReads_barFrame _ _ .fab rfl
  unfold memberRead
  dsimp only
  split
  · rw [countSent_fab, hread]
    rfl
  · rw [hread]
    rfl

end

section
variable {s : State} {die op : Nat} {i : TreeItem} {tr : BitVec 128} (ext : List Byte)

theorem byMember_of_enters (henters : memberEnters s die op i tr) (act : TreeItem → BitVec 128 → Packet → State → Option State) :
    byMember die op ext s act = ((act i tr (memberPacket s i tr ext) (memberRead s die i ext)).map (settleMember i.group i.desc)).getD s := by
  obtain ⟨hfirst, htree, hcached, hsource, hpath⟩ := henters
  simp only [byMember, hfirst, htree, hcached, hsource, hpath, bne_self_eq_false, Bool.not_true, Bool.false_eq_true, if_false]
  change (match act i tr (memberPacket s i tr ext) (memberRead s die i ext) with
    | some s => settleMember i.group i.desc s
    | none => s) = _
  cases act i tr (memberPacket s i tr ext) (memberRead s die i ext) <;> rfl

section
variable {act : TreeItem → BitVec 128 → Packet → State → Option State} (henters : memberEnters s die op i tr)
include henters

theorem byMember_of_waits (hact : act i tr (memberPacket s i tr ext) (memberRead s die i ext) = none) : byMember die op ext s act = s := by
  rw [byMember_of_enters ext henters, hact, Option.map_none, Option.getD_none]

theorem byMember_of_enters_some {u : State} (hact : act i tr (memberPacket s i tr ext) (memberRead s die i ext) = some u) :
    byMember die op ext s act = settleMember i.group i.desc u := by
  rw [byMember_of_enters ext henters, hact, Option.map_some, Option.getD_some]

end

theorem groupOf_memberRead (g : Nat) : groupOf (memberRead s die i ext) g = groupOf s g :=
  groupOf_congr (congrArg CollSt.groups (memberRead_onlyChanges s die i ext .coll rfl)) (memberRead_onlyChanges s die i ext .dict rfl) g

theorem edgeToward_memberRead (tree dir : Nat) : edgeToward (memberRead s die i ext) die tree dir = edgeToward s die tree dir :=
  edgeToward_congr (memberRead_onlyChanges s die i ext .ar rfl) die tree dir

theorem mcastRanks_memberRead : mcastRanks (memberRead s die i ext) tr = mcastRanks s tr :=
  mcastRanks_congr (congrArg CollSt.groups (memberRead_onlyChanges s die i ext .coll rfl)) (memberRead_onlyChanges s die i ext .dict rfl)
    (memberRead_fenced s die i ext) tr

/-! ## A member's contribution (R250, R253) -/

/-- What a member's contribution does at its port die, once it is read. -/
def memberContributes (die : Nat) (ext : List Byte) (i : TreeItem) (t : BitVec 128) (p : Packet) (s : State) : Option State :=
  if Tree.isRoot t then
    match rankOf (groupOf s (Tree.group t)) (Tree.root t) with
    | none => some s
    | some r => if rootWaits s (Tree.group t) r p.hdr p.payload then none
      else some (absorbRoot t r p.hdr p.payload (ext.drop (outsideLen i.desc.src)) s)
  else
    match edgeToward s die i.tree (Tree.parent t) with
    | none => some s
    | some key =>
      let (left, whole, s) := admitAll die i.tree p s
      some (forwardFull die (if whole then queueEdge (edgeHalf key) i.desc s
        else left.foldl (fun s k => queueEdge (edgeHalf key) (chunkDesc i.desc k) s) s))

theorem enterContribution_eq : enterContribution die ext s = byMember die ocCollAcc ext s (memberContributes die ext) := rfl

/-- The packets of a member's contribution that go on, each read from its input at each send. -/
def descsOn (d : Desc) (left : List Chunk) (whole : Bool) : List Desc := if whole then [d] else left.map (chunkDesc d)

section
variable {p : Packet} {r : State}

theorem memberContributes_at_root {k : Nat} (hroot : Tree.isRoot tr = true) (hrank : rankOf (groupOf r (Tree.group tr)) (Tree.root tr) = some k) :
    memberContributes die ext i tr p r = if rootWaits r (Tree.group tr) k p.hdr p.payload then none
      else some (absorbRoot tr k p.hdr p.payload (ext.drop (outsideLen i.desc.src)) r) := by
  simp only [memberContributes, hroot, hrank, if_true]

theorem memberContributes_on_the_way {key : Nat} (hroot : Tree.isRoot tr = false) (hkey : edgeToward r die i.tree (Tree.parent tr) = some key)
    {left : List Chunk} {whole : Bool} {u : State} (hadmit : admitAll die i.tree p r = (left, whole, u)) : memberContributes die ext i tr p r =
      some (forwardFull die ((descsOn i.desc left whole).foldl (fun s d => queueEdge (edgeHalf key) d s) u)) := by
  simp only [memberContributes, hroot, hkey, hadmit, Bool.false_eq_true, if_false, descsOn]
  cases whole
  · simp only [Bool.false_eq_true, if_false, List.foldl_map]
  · rfl

end

section
variable (henters : memberEnters s die ocCollAcc i tr)
include henters

theorem enterContribution_of_rootWaits {k : Nat} (hroot : Tree.isRoot tr = true)
    (hrank : rankOf (groupOf s (Tree.group tr)) (Tree.root tr) = some k)
    (hwait : rootWaits (memberRead s die i ext) (Tree.group tr) k (memberPacket s i tr ext).hdr (memberPacket s i tr ext).payload = true) :
    enterContribution die ext s = s := by
  rw [← groupOf_memberRead (die := die) (i := i) ext] at hrank
  rw [enterContribution_eq]
  exact byMember_of_waits ext henters (by rw [memberContributes_at_root ext hroot hrank, if_pos hwait])

theorem enterContribution_at_root {k : Nat} (hroot : Tree.isRoot tr = true)
    (hrank : rankOf (groupOf s (Tree.group tr)) (Tree.root tr) = some k)
    (hready : rootWaits (memberRead s die i ext) (Tree.group tr) k (memberPacket s i tr ext).hdr (memberPacket s i tr ext).payload = false) :
    enterContribution die ext s = settleMember i.group i.desc (absorbRoot tr k (memberPacket s i tr ext).hdr (memberPacket s i tr ext).payload
      (ext.drop (outsideLen i.desc.src)) (memberRead s die i ext)) := by
  rw [← groupOf_memberRead (die := die) (i := i) ext] at hrank
  rw [enterContribution_eq]
  exact byMember_of_enters_some ext henters (by rw [memberContributes_at_root ext hroot hrank, if_neg (Bool.eq_false_iff.mp hready)])

theorem enterContribution_on_the_way {key : Nat} (hroot : Tree.isRoot tr = false)
    (hkey : edgeToward s die i.tree (Tree.parent tr) = some key) {left : List Chunk} {whole : Bool} {u : State}
    (hadmit : admitAll die i.tree (memberPacket s i tr ext) (memberRead s die i ext) = (left, whole, u)) : enterContribution die ext s =
      settleMember i.group i.desc (forwardFull die ((descsOn i.desc left whole).foldl (fun s d => queueEdge (edgeHalf key) d s) u)) := by
  rw [← edgeToward_memberRead (i := i) ext] at hkey
  rw [enterContribution_eq]
  exact byMember_of_enters_some ext henters (memberContributes_on_the_way ext hroot hkey hadmit)

end

/-! ## A root's multicast packet (R298) -/

/-- What a root's multicast packet does at its port die, once it is read. -/
def memberReplicates (die : Nat) (i : TreeItem) (t : BitVec 128) (p : Packet) (s : State) : Option State :=
  let ranks := mcastRanks s t
  if ranks.any fun r => mcastWaits s (Tree.group t) r p.hdr p.payload.length then none
  else
    let s := ranks.foldl (fun s r => landMcast (Tree.group t) r p.hdr p.payload s) s
    some (((Tree.children t).filterMap (edgeToward s die i.tree)).foldl (fun s key => queueEdge (edgeHalf key) i.desc s) s)

theorem enterMcast_eq : enterMcast die ext s = byMember die ocCollMcast ext s (memberReplicates die) := rfl

section
variable {p : Packet} {r : State}

theorem memberReplicates_of_wait (hwait : ∃ k ∈ mcastRanks r tr, mcastWaits r (Tree.group tr) k p.hdr p.payload.length = true) :
    memberReplicates die i tr p r = none := by
  simp only [memberReplicates, List.any_eq_true.mpr hwait, if_true]

theorem memberReplicates_of_ready (hready : ∀ k ∈ mcastRanks r tr, mcastWaits r (Tree.group tr) k p.hdr p.payload.length = false) :
    memberReplicates die i tr p r = some (((Tree.children tr).filterMap (edgeToward r die i.tree)).foldl
      (fun s key => queueEdge (edgeHalf key) i.desc s)
      ((mcastRanks r tr).foldl (fun s k => landMcast (Tree.group tr) k p.hdr p.payload s) r)) := by
  have hany : ((mcastRanks r tr).any fun k => mcastWaits r (Tree.group tr) k p.hdr p.payload.length) = false :=
    List.any_eq_false.mpr fun k hk => by simp [hready k hk]
  have hon : edgeToward ((mcastRanks r tr).foldl (fun s k => landMcast (Tree.group tr) k p.hdr p.payload s) r) die i.tree =
      edgeToward r die i.tree := funext (edgeToward_congr (foldl_landMcast_ar _ _ _ _ _) die i.tree)
  simp only [memberReplicates, hany, Bool.false_eq_true, if_false, hon]

end

section
variable (henters : memberEnters s die ocCollMcast i tr)
include henters

theorem enterMcast_of_wait (hwait : ∃ k ∈ mcastRanks s tr,
    mcastWaits (memberRead s die i ext) (Tree.group tr) k (memberPacket s i tr ext).hdr (memberPacket s i tr ext).payload.length = true) :
    enterMcast die ext s = s := by
  rw [← mcastRanks_memberRead (die := die) (i := i) ext] at hwait
  rw [enterMcast_eq]
  exact byMember_of_waits ext henters (memberReplicates_of_wait hwait)

theorem enterMcast_of_ready (hready : ∀ k ∈ mcastRanks s tr,
    mcastWaits (memberRead s die i ext) (Tree.group tr) k (memberPacket s i tr ext).hdr (memberPacket s i tr ext).payload.length = false) :
    enterMcast die ext s = settleMember i.group i.desc (((Tree.children tr).filterMap (edgeToward s die i.tree)).foldl
      (fun s key => queueEdge (edgeHalf key) i.desc s)
      ((mcastRanks s tr).foldl (fun u k => landMcast (Tree.group tr) k (memberPacket s i tr ext).hdr (memberPacket s i tr ext).payload u)
        (memberRead s die i ext))) := by
  have hon : edgeToward (memberRead s die i ext) die i.tree = edgeToward s die i.tree := funext (edgeToward_memberRead ext i.tree)
  rw [← mcastRanks_memberRead (die := die) (i := i) ext] at hready ⊢
  rw [enterMcast_eq, ← hon]
  exact byMember_of_enters_some ext henters (memberReplicates_of_ready hready)

end

end

end Sys2Proof.Machine
end

section
/-! SUPPORT. The slots of a reduction store: what a chunk does to them, and the partial that one forwards (R250, R251, R253, R254). -/

namespace Sys2Proof.Machine

/-! ## One chunk at a store (R253) -/

/-- A chunk as the store would hold it; none where it escapes. -/
def storedAs (c : CollHdr) (k : Chunk) : Option (List Nat) :=
  if c.isPartial then some (storeElems (exactFor c.op c.fmt c.exact) k.data) else toStore (exactFor c.op c.fmt c.exact) c.fmt k.data

/-- A slot that a chunk is combined into. -/
def StoreSlot.combined (x : StoreSlot) (v : List Nat) (n : Nat) : StoreSlot := { x with vals := v, count := x.count + n }

/-- A slot taken for a chunk. -/
def slotFor (s : State) (die tree : Nat) (hdr : Hdr) (k : Chunk) (v : List Nat) : StoreSlot :=
  { die := die, group := (tgetD s.fab.trees tree 0 |> Tree.group), tree := tree, seq := (collHdr hdr).seq, base := (collHdr hdr).base, chunk := k.n,
    exact := exactFor (collHdr hdr).op (collHdr hdr).fmt (collHdr hdr).exact, accOp := (collHdr hdr).op, accFmt := (collHdr hdr).fmt,
    count := (collHdr hdr).count, vals := v, hdr := setFld hdr 189 158 k.off, taken := s.time.now, linger := cfg s 0x5001 1 }

theorem holds_combined (x : StoreSlot) (v : List Nat) (n die tree : Nat) (c : CollHdr) (chunk : Nat) :
    (x.combined v n).holds die tree c chunk = x.holds die tree c chunk := rfl

theorem holds_slotFor (s : State) (die tree : Nat) (hdr : Hdr) (k : Chunk) (v : List Nat) :
    (slotFor s die tree hdr k v).holds die tree (collHdr hdr) k.n = true := by simp [slotFor, StoreSlot.holds]

/-- The slot that holds a chunk is found again once it has been replaced by one that holds it. -/
theorem find?_replace {α : Type} {p : α → Bool} {l : List α} {x x' : α} (hfind : l.find? p = some x) (hx' : p x' = true) :
    (l.map fun y => if p y then x' else y).find? p = some x' := by
  have hsame : (p ∘ fun y => if p y then x' else y) = p := by
    funext y
    simp only [Function.comp]
    split
    · next hy => rw [hx', hy]
    · rfl
  rw [List.find?_map, hsame, hfind, Option.map_some, List.find?_some hfind, if_pos rfl]

/-- The slots of a store, the one that holds a chunk replaced. -/
def replaceSlot (die tree : Nat) (hdr : Hdr) (k : Chunk) (x : StoreSlot) (l : List StoreSlot) : List StoreSlot :=
  l.map fun y => if y.holds die tree (collHdr hdr) k.n then x else y

theorem bump_onlyChanges (key i n : Nat) (s : State) : onlyChanges [.counts] s (bump key i n s) := by simp [onlyChanges_iff]

section
variable {die tree : Nat} {hdr : Hdr} {k : Chunk} {s : State}

section
variable {x : StoreSlot} (hfind : s.ar.slots.find? (fun x => x.holds die tree (collHdr hdr) k.n) = some x)
include hfind

theorem takeChunk_combined {v : List Nat}
    (hv : (storedAs (collHdr hdr) k).bind (storeCombine (exactFor (collHdr hdr).op (collHdr hdr).fmt (collHdr hdr).exact) (collHdr hdr).op
      (collHdr hdr).fmt x.vals) = some v) :
    ∃ t, takeChunk die tree hdr k s = (.absorbed, t) ∧
      t.ar.slots.find? (fun x => x.holds die tree (collHdr hdr) k.n) = some (x.combined v (collHdr hdr).count) ∧
      t.ar.slots.length = s.ar.slots.length ∧ onlyChanges [.ar, .counts] s t := by
  refine ⟨bump (dkey 0x5520 (die + 1)) 0 1
    { s with ar := { s.ar with slots := replaceSlot die tree hdr k (x.combined v (collHdr hdr).count) s.ar.slots } }, ?_, ?_, ?_, ?_⟩
  · rw [storedAs] at hv
    simp only [takeChunk, hfind, hv]
    rfl
  · exact find?_replace hfind ((holds_combined ..).trans (List.find?_some (p := fun y : StoreSlot => y.holds die tree (collHdr hdr) k.n) hfind))
  · exact List.length_map _
  · simp [onlyChanges_iff]

/-- A chunk that cannot be combined exactly escapes. -/
theorem takeChunk_escapes_combining
    (hv : (storedAs (collHdr hdr) k).bind (storeCombine (exactFor (collHdr hdr).op (collHdr hdr).fmt (collHdr hdr).exact) (collHdr hdr).op
      (collHdr hdr).fmt x.vals) = none) : takeChunk die tree hdr k s = (.escaped, bump (dkey 0x5520 (die + 1)) 2 1 s) := by
  rw [storedAs] at hv
  simp only [takeChunk, hfind, hv]

end

section
variable (hfind : s.ar.slots.find? (fun x => x.holds die tree (collHdr hdr) k.n) = none)
include hfind

theorem takeChunk_no_slot (hfull : storeSlots ≤ slotsOf s die) : takeChunk die tree hdr k s = (.noSlot, bump (dkey 0x5520 (die + 1)) 1 1 s) := by
  simp only [takeChunk, hfind, hfull, if_true]

variable (hfree : slotsOf s die < storeSlots)
include hfree

theorem takeChunk_takes_slot {v : List Nat} (hv : storedAs (collHdr hdr) k = some v) :
    ∃ t, takeChunk die tree hdr k s = (.absorbed, t) ∧ t.ar.slots = s.ar.slots ++ [slotFor s die tree hdr k v] ∧
      onlyChanges [.ar, .counts] s t := by
  rw [storedAs] at hv
  simp only [takeChunk, hfind, hv, if_neg (not_le.mpr hfree)]
  exact ⟨_, rfl, rfl, by simp [onlyChanges_iff]⟩

theorem takeChunk_escapes_free (hv : storedAs (collHdr hdr) k = none) :
    takeChunk die tree hdr k s = (.escaped, bump (dkey 0x5520 (die + 1)) 2 1 s) := by
  rw [storedAs] at hv
  simp only [takeChunk, hfind, hv, if_neg (not_le.mpr hfree)]

end

end

/-- An MX contribution and a withdrawal go on whole (R250). -/
theorem admitAll_whole (s : State) (die tree : Nat) {p : Packet} (h : (formatOf (collHdr p.hdr).fmt).isMx = true ∨ Hdr.kind p.hdr = kWithdraw) :
    admitAll die tree p s = (chunksOf p.hdr p.payload, true, s) := by
  have hwhole : ((formatOf (collHdr p.hdr).fmt).isMx || Hdr.kind p.hdr == kWithdraw) = true := by simpa using h
  simp only [admitAll, hwhole, if_true]

/-! ## A slot forwards (R254) -/

/-- An end that a send can wait on is listed. -/
theorem tget_of_isOpen {s : State} {h : Nat} (hopen : (endOf s h).isOpen = true) : tget s.conn.ends h = some (endOf s h) := by
  cases he : tget s.conn.ends h with
  | none =>
    rw [endOf, tgetD_eq, he] at hopen
    exact absurd hopen (by decide)
  | some e => rw [endOf_of_tget he]

/-- The end once a packet more waits to be sent. -/
def waitsWith (d : Desc) (e : End) : End := { e with toSend := e.toSend ++ [d] }

theorem queueEdge_of_open {s : State} {h : Nat} (d : Desc) (hopen : (endOf s h).isOpen = true) :
    queueEdge h d s = setEnd h (waitsWith d) s := if_pos hopen

/-- What an edge sends of a slot's partial. -/
def partialDesc (x : StoreSlot) (n : Nat) : Desc := { rawDesc (partialOf x) with slot := n }

/-- The slot has the number of a new partial. -/
def numberSlot (x : StoreSlot) (s : State) : State :=
  { s with ar := { s.ar with partials := s.ar.partials + 1,
                             slots := s.ar.slots.map fun y => if y == x then { y with number := s.ar.partials + 1 } else y } }

theorem getElem?_replace {α : Type} [DecidableEq α] {l : List α} {i : Nat} {x : α} (f : α → α) (hi : l[i]? = some x) :
    (l.map fun y => if y == x then f y else y)[i]? = some (f x) := by
  rw [List.getElem?_map, hi, Option.map_some, if_pos (beq_self_eq_true x)]

theorem exec_admitLinger {s : State} {i : Nat} {x : StoreSlot} (hrun : running s = true) (hslot : s.ar.slots[i]? = some x)
    (hnumber : x.number = 0) (hdue : due s x.taken x.linger = true) :
    exec (.admitLinger i) s = .next (bump (dkey 0x5520 (x.die + 1)) 3 1 (forwardSlot x s)) := by
  show execAdmitLinger i s = _
  simp [execAdmitLinger, hslot, hrun, hnumber, hdue]

section
variable {s : State} {x : StoreSlot} {key : Nat} (hkey : edgeToward s x.die x.tree (Tree.parent (tgetD s.fab.trees x.tree 0)) = some key)
  (hopen : (endOf s (edgeHalf key)).isOpen = true)
include hkey hopen

theorem forwardSlot_of_open :
    forwardSlot x s = setEnd (edgeHalf key) (waitsWith (partialDesc x (s.ar.partials + 1))) (numberSlot x s) := by
  simp only [forwardSlot, hkey]
  exact queueEdge_of_open (s := numberSlot x s) _ hopen

theorem forwardSlot_numbers {i : Nat} (hslot : s.ar.slots[i]? = some x) :
    (forwardSlot x s).ar.slots[i]? = some { x with number := s.ar.partials + 1 } := by
  rw [forwardSlot_of_open hkey hopen, setEnd_ar]
  exact getElem?_replace (fun y => { y with number := s.ar.partials + 1 }) hslot

theorem forwardSlot_waits : (endOf (forwardSlot x s) (edgeHalf key)).toSend =
    (endOf s (edgeHalf key)).toSend ++ [partialDesc x (s.ar.partials + 1)] := by
  have hlisted : (tget (numberSlot x s).conn.ends (edgeHalf key)).isSome = true := Option.isSome_of_eq_some (tget_of_isOpen hopen)
  rw [forwardSlot_of_open hkey hopen, endOf_setEnd _ _ _ _ hlisted, if_pos rfl]
  rfl

theorem forwardSlot_onlyChanges : onlyChanges [.ar, .conn] s (forwardSlot x s) := by
  rw [forwardSlot_of_open hkey hopen]
  simp [onlyChanges_iff, numberSlot]

end

end Sys2Proof.Machine
end

section
/-! SUPPORT. What an ACK on a tree edge does: the packets it covers leave, the slots of their partials are free, every other packet keeps its
PSN and every other slot stands (R132, R254, R255). -/

namespace Sys2Proof.Machine

/-! ## The packets of a half and the slots of the store -/

/-- A half holds these PSNs now, and the store these slots. -/
def edgeKeeps (h : Nat) (x : List Nat × Nat) (l : List StoreSlot) (s : State) : Prop :=
  (∃ e, tget s.conn.ends h = some e ∧ sentOf e = x) ∧ s.ar.slots = l

section
variable {s t : State} {h : Nat} {x : List Nat × Nat} {l : List StoreSlot}

theorem edgeKeeps_of_conn (hconn : t.conn = s.conn) (har : t.ar = s.ar) (hs : edgeKeeps h x l s) : edgeKeeps h x l t := by
  rwa [edgeKeeps, hconn, har]

theorem edgeKeeps_of_onlyChanges {areas : List Area} (hframe : onlyChanges areas s t) (hconn : areas.contains .conn = false)
    (har : areas.contains .ar = false) (hs : edgeKeeps h x l s) : edgeKeeps h x l t :=
  edgeKeeps_of_conn (hframe .conn hconn) (hframe .ar har) hs

/-- No write of an end, its own or another's, that keeps what it has sent matters. -/
theorem edgeKeeps_setEnd (k : Nat) {f : End → End} (hf : ∀ e, sentOf (f e) = sentOf e) (hs : edgeKeeps h x l s) :
    edgeKeeps h x l (setEnd k f s) := by
  obtain ⟨⟨e, he, rfl⟩, hslots⟩ := hs
  refine ⟨?_, hslots⟩
  rw [setEnd_conn, tget_tmod_eq, he]
  split
  · next hk => exact ⟨f e, by rw [← hk, he]; rfl, hf e⟩
  · exact ⟨e, rfl, rfl⟩

theorem foldl_edgeKeeps {α : Type} {f : State → α → State} (hf : ∀ t a, edgeKeeps h x l t → edgeKeeps h x l (f t a)) (as : List α)
    (hs : edgeKeeps h x l s) : edgeKeeps h x l (as.foldl f s) := by
  induction as generalizing s with
  | nil => exact hs
  | cons a as ih => exact ih (hf _ _ hs)

theorem sendFrom_edgeKeeps (k : Nat) (d : Desc) (psn : Nat) (b : List Byte) (hs : edgeKeeps h x l s) : edgeKeeps h x l (sendFrom k d psn b s) :=
  edgeKeeps_of_onlyChanges (sendFrom_onlyChanges _ _ _ _ _) rfl rfl hs

theorem onOp_edgeKeeps (wq idx : Nat) (f : Op → Op) (hs : edgeKeeps h x l s) : edgeKeeps h x l (onOp wq idx f s) :=
  edgeKeeps_of_conn (onOp_conn _ _ _ _) (onOp_ar _ _ _ _) hs

/-! ## Withdrawals on trees (R148, R566) -/

theorem resendWithdrawn_edgeKeeps (k psn : Nat) (hs : edgeKeeps h x l s) : edgeKeeps h x l (resendWithdrawn k psn s) := by
  unfold resendWithdrawn
  dsimp only
  split
  · exact hs
  · split
    · exact hs
    · refine sendFrom_edgeKeeps _ _ _ _ (edgeKeeps_setEnd _ (fun e => sentOf_congr ?_ (by simp)) hs)
      rw [chargeSend_unacked]
      exact psns_map (fun y => by split <;> rfl) _

theorem withdrawTree_edgeKeeps (wq idx : Nat) (p : Desc → Bool) (status : Nat) (addr : Desc → Nat) (hs : edgeKeeps h x l s) :
    edgeKeeps h x l (withdrawTree wq idx p status addr s) := by
  unfold withdrawTree
  extract_lets hit turn held conn fab turned
  have hturned : edgeKeeps h x l turned := by
    obtain ⟨⟨e, he, rfl⟩, hslots⟩ := hs
    refine ⟨⟨_, by simp only [turned, tget_tmap, he, Option.map_some]; rfl, ?_⟩, hslots⟩
    split
    · rfl
    · exact sentOf_congr (psns_map (fun _ => by rfl) _) rfl
  exact foldl_edgeKeeps (fun _ (y : Nat × Nat) => resendWithdrawn_edgeKeeps y.1 y.2) _ hturned

theorem failTree_edgeKeeps (g : Nat) (d : Desc) (status : Nat) (hs : edgeKeeps h x l s) : edgeKeeps h x l (failTree g d status s) := by
  unfold failTree
  dsimp only
  refine withdrawTree_edgeKeeps _ _ _ _ _ ?_
  split
  · exact hs
  · exact hs

/-- On a tree edge a source that cannot be read is withdrawn: no packet loses its PSN, and no slot goes (R566). -/
theorem faultSource_edgeKeeps {k : Nat} (hedge : isEdge k = true) (d : Desc) (fresh : Bool) (f : Nat × Option Nat) (hs : edgeKeeps h x l s) :
    edgeKeeps h x l (faultSource k d fresh f s) := by
  unfold faultSource
  simp only [hedge, if_true]
  refine failTree_edgeKeeps _ _ _ ?_
  split
  · exact edgeKeeps_of_conn (mediaError_conn _ _) (mediaError_ar _ _) hs
  · exact hs

/-! ## Resends on an edge (R142, R143) -/

theorem resendOne_ar {u : Unacked} (count hop : Bool) (ext : List Byte) (hsource : sourceFault s u.desc = none)
    (hpath : pathState s false u.desc.src = .go) : (resendOne h u count hop ext s).ar = s.ar := by
  have hread : (noteReads u.desc.src s).ar = s.ar := noteReads_barFrame _ _ .ar rfl
  simp only [resendOne, hsource, hpath, bne_self_eq_false, Bool.false_eq_true, if_false]
  refine (sendFrom_onlyChanges _ _ _ _ _ .ar rfl).trans ?_
  split
  · rw [bumpColl_ar, bumpConn_ar, tally_ar, setEnd_ar, hread]
  · rw [bumpConn_ar, tally_ar, setEnd_ar, hread]

theorem resendOne_edgeKeeps {k : Nat} (hedge : isEdge k = true) (u : Unacked) (count hop : Bool) (ext : List Byte) (hs : edgeKeeps h x l s) :
    edgeKeeps h x l (resendOne k u count hop ext s) := by
  cases hsource : sourceFault s u.desc with
  | some f =>
    simp only [resendOne, hsource]
    exact faultSource_edgeKeeps hedge _ _ _ hs
  | none =>
    by_cases hpath : pathState s false u.desc.src = .go
    · exact edgeKeeps_of_conn (resendOne_writes count hop ext hsource hpath).1
        ((resendOne_ar count hop ext hsource hpath).trans (setEnd_ar _ _ _).symm) (edgeKeeps_setEnd _ (sentOf_resentEnd _ _ _ _ _) hs)
    · have hstay : (pathState s false u.desc.src != .go) = true := bne_iff_ne.mpr hpath
      simpa only [resendOne, hsource, hstay, if_true] using hs

theorem resendAll_edgeKeeps {k : Nat} (hedge : isEdge k = true) (count hop : Bool) (us : List Unacked) (ext : List Byte)
    (hs : edgeKeeps h x l s) : edgeKeeps h x l (resendAll k count hop us ext s) := by
  induction us generalizing ext s with
  | nil => exact hs
  | cons u us ih =>
    refine ih _ ?_
    split
    · exact resendOne_edgeKeeps hedge u count hop ext hs
    · exact hs

/-! ## A packet that is acknowledged (R254, R255) -/

theorem sendAck_edgeKeeps (k : Nat) (immediate : Bool) (hs : edgeKeeps h x l s) : edgeKeeps h x l (sendAck k immediate s) :=
  sendFrom_edgeKeeps _ _ _ _ (edgeKeeps_setEnd k (fun _ => rfl) hs)

theorem ackable_edgeKeeps (k n : Nat) (hs : edgeKeeps h x l s) : edgeKeeps h x l (ackable k n s) := by
  unfold ackable
  split
  · exact hs
  · have hcounted := edgeKeeps_setEnd (f := fun e => if e.ackPending == 0 then
        { e with ackSince := s.time.now, ackFor := cfg s 0x4100 6, ackPending := n } else { e with ackPending := e.ackPending + n })
      k (fun e => by split <;> rfl) hs
    dsimp only
    split
    · exact sendAck_edgeKeeps _ _ hcounted
    · exact hcounted

/-- A packet that came by another edge and may be acknowledged now takes nothing from a half's packets. -/
theorem ungate_edgeKeeps (k psn : Nat) (hs : edgeKeeps h x l s) : edgeKeeps h x l (ungate k psn s) :=
  ackable_edgeKeeps _ _ (edgeKeeps_setEnd k (fun _ => rfl) hs)

theorem settleMember_edgeKeeps (g : Nat) (d : Desc) (hs : edgeKeeps h x l s) : edgeKeeps h x l (settleMember g d s) := by
  unfold settleMember settleColl
  split
  · exact hs
  · split
    · exact onOp_edgeKeeps _ _ _ hs
    · exact hs

/-- The slots left once the partial of this number is acknowledged; 0 numbers none. -/
def slotsWithout (n : Nat) (l : List StoreSlot) : List StoreSlot := if n == 0 then l else l.filter fun x => x.number != n

theorem edgeDone_edgeKeeps (k : Nat) (d : Desc) (hs : edgeKeeps h x l s) : edgeKeeps h x (slotsWithout d.slot l) (edgeDone k d s) := by
  unfold edgeDone
  extract_lets arith freed passed
  have hfreed : edgeKeeps h x (slotsWithout d.slot l) freed := by
    obtain ⟨hend, rfl⟩ := hs
    simp only [freed, slotsWithout]
    split
    · exact ⟨hend, rfl⟩
    · exact ⟨hend, rfl⟩
  refine settleMember_edgeKeeps _ _ ?_
  simp only [passed]
  split
  · split
    · exact hfreed
    · exact ungate_edgeKeeps _ _ hfreed
  · exact hfreed

theorem foldl_edgeDone_edgeKeeps (k : Nat) (us : List Unacked) (hs : edgeKeeps h x l s) :
    edgeKeeps h x (us.foldl (fun l u => slotsWithout u.desc.slot l) l) (us.foldl (fun s u => edgeDone k u.desc s) s) := by
  induction us generalizing l s with
  | nil => exact hs
  | cons u us ih => exact ih (edgeDone_edgeKeeps k u.desc hs)

theorem mem_slotsWithout {n : Nat} {y : StoreSlot} : y ∈ slotsWithout n l ↔ y ∈ l ∧ (n ≠ 0 → y.number ≠ n) := by
  unfold slotsWithout
  by_cases hn : n = 0
  · simp [hn]
  · simp [hn]

theorem mem_foldl_slotsWithout {us : List Unacked} {y : StoreSlot} : y ∈ us.foldl (fun l u => slotsWithout u.desc.slot l) l ↔
    y ∈ l ∧ ∀ u ∈ us, u.desc.slot ≠ 0 → y.number ≠ u.desc.slot := by
  induction us generalizing l with
  | nil => simp
  | cons u us ih => simp only [List.foldl_cons, ih, mem_slotsWithout, List.forall_mem_cons, and_assoc]

/-! ## An ACK on an edge (R132) -/

section
variable {e : End} (hedge : isEdge h = true)
include hedge

/-- Packets taken as acknowledged on an edge are those that leave, and their partials' slots are free. -/
theorem takeAcked_edgeKeeps (q : Nat → Bool) (he : tget s.conn.ends h = some e) :
    edgeKeeps h ((e.unacked.filter fun u => !q u.psn).map (·.psn), e.nextPsn)
      ((e.unacked.filter fun u => q u.psn).foldl (fun l u => slotsWithout u.desc.slot l) s.ar.slots) (takeAcked h (fun u => q u.psn) s) := by
  unfold takeAcked
  extract_lets e' gone left acked moved freed taken
  have htaken : edgeKeeps h (left.map (·.psn), e.nextPsn) s.ar.slots taken := by
    refine ⟨⟨_, (writesEnd_setEnd _ (writesEnd_refl he)).1, ?_⟩, rfl⟩
    refine Prod.ext ?_ rfl
    dsimp only [sentOf]
    split
    · exact psns_map (fun _ => by rfl) _
    · rfl
  simp only [hedge, if_true]
  have hsame : e' = e := endOf_of_tget he
  simp only [left, gone, hsame] at htaken ⊢
  exact foldl_edgeDone_edgeKeeps h _ htaken

omit hedge in
theorem takeRtt_unacked (s : State) (sample : Nat) (suspect : Bool) (e : End) : (takeRtt s sample suspect e).unacked = e.unacked := by
  unfold takeRtt
  extract_lets based
  have hbased : based.unacked = e.unacked := by
    simp only [based]
    split <;> rfl
  rw [← hbased]
  clear_value based
  split <;> rfl

omit hedge in
theorem nextPsn_takeRtt (s : State) (sample : Nat) (suspect : Bool) (e : End) : (takeRtt s sample suspect e).nextPsn = e.nextPsn :=
  congrArg Prod.snd (sentOf_takeRtt s sample suspect e)

/-- On an edge an ACK ends the wait of the packets it covers and frees their partials' slots. -/
theorem takeAck_edgeKeeps (a : AckBody) (ext : List Byte) (he : tget s.conn.ends h = some e) :
    edgeKeeps h ((e.unacked.filter fun u => !a.covers u.psn).map (·.psn), e.nextPsn)
      ((e.unacked.filter fun u => a.covers u.psn).foldl (fun l u => slotsWithout u.desc.slot l) s.ar.slots) (takeAck h a ext s) := by
  unfold takeAck
  extract_lets e' fresh sample rtt suspect sampled counted acked e''
  obtain ⟨e₁, he₁, hunacked, hnext⟩ : ∃ e₁, tget sampled.conn.ends h = some e₁ ∧ e₁.unacked = e.unacked ∧ e₁.nextPsn = e.nextPsn := by
    refine ⟨_, (writesEnd_setEnd _ (writesEnd_refl he)).1, ?_⟩
    extract_lets rolled counted' timed
    have hrolled : counted'.unacked = e.unacked ∧ counted'.nextPsn = e.nextPsn := by simp [counted', rolled]
    have htimed : timed.unacked = e.unacked ∧ timed.nextPsn = e.nextPsn := by
      rw [← hrolled.1, ← hrolled.2]
      simp only [timed]
      split <;> exact ⟨rfl, rfl⟩
    split
    · rw [takeRtt_unacked, nextPsn_takeRtt]
      exact htimed
    · exact htimed
  have hslots : counted.ar.slots = s.ar.slots := by simp [counted, sampled]
  have hacked : edgeKeeps h ((e.unacked.filter fun u => !a.covers u.psn).map (·.psn), e.nextPsn)
      ((e.unacked.filter fun u => a.covers u.psn).foldl (fun l u => slotsWithout u.desc.slot l) s.ar.slots) acked := by
    rw [← hunacked, ← hnext, ← hslots]
    exact takeAcked_edgeKeeps hedge a.covers (by simpa [counted] using he₁)
  split
  · exact resendAll_edgeKeeps hedge _ _ _ _ hacked
  · exact hacked

end

end

/-! ## The command (R254, R255) -/

section
variable {s t : State} {p : Packet} {e : End} (ext : List Byte) (hroute : p.route = 0) (ht : reaches p s = some t)
  (hreach : reachesEdge s p kAck e = true)
include hroute ht hreach

theorem exec_treeEdgeAck : exec (.treeEdgeAck p.hdr p.payload p.crc ext) s = .next (if trailerChecks p
      then takeAck (handleOf p.hdr) (ackBody p.payload) ext (endHeard (handleOf p.hdr) (received t (handleOf p.hdr)))
      else checkFailed (handleOf p.hdr) (Hdr.psn p.hdr) true (received t (handleOf p.hdr))) := by
  obtain ⟨-, -, -, hedge⟩ := suits_of_reachesEdge hreach
  obtain ⟨hdr, payload, crc, route⟩ := p
  subst hroute
  show execTreeEdgeAck hdr payload crc ext s = _
  simp only [execTreeEdgeAck, if_pos hedge, arriveAck, arrive_of_reachesEdge ht hreach, classify_of_unsequenced _ (rfl : sequenced kAck = false)]
  split <;> rfl

/-- What an ACK covers leaves its edge; exactly the slots of acknowledged partials are free. -/
theorem treeEdgeAck_frees (hcheck : trailerChecks p = true) : ∃ v, exec (.treeEdgeAck p.hdr p.payload p.crc ext) s = .next v ∧
    (endOf v (handleOf p.hdr)).unacked.map (·.psn) = (e.unacked.filter fun u => !(ackBody p.payload).covers u.psn).map (·.psn) ∧
    (endOf v (handleOf p.hdr)).nextPsn = e.nextPsn ∧
    ∀ x, x ∈ v.ar.slots ↔ x ∈ s.ar.slots ∧ ∀ u ∈ e.unacked, (ackBody p.payload).covers u.psn = true → u.desc.slot ≠ 0 →
      x.number ≠ u.desc.slot := by
  obtain ⟨-, -, he, hedge⟩ := suits_of_reachesEdge hreach
  have hheard := (writesEnd_of_reaches ht (handleOf p.hdr) he).1
  have har : (endHeard (handleOf p.hdr) (received t (handleOf p.hdr))).ar = s.ar := endHeard_of_reaches ht (handleOf p.hdr) .ar rfl
  obtain ⟨⟨e', he', hsent⟩, hslots⟩ := takeAck_edgeKeeps hedge (ackBody p.payload) ext hheard
  obtain ⟨hpsns, hnext⟩ := Prod.mk.inj hsent
  refine ⟨_, by rw [exec_treeEdgeAck ext hroute ht hreach, if_pos hcheck], ?_, ?_, fun x => ?_⟩
  · rw [endOf_of_tget he', hpsns]
    rfl
  · rw [endOf_of_tget he', hnext]
    rfl
  · rw [hslots, mem_foldl_slotsWithout, har]
    simp only [List.mem_filter, and_imp]
    rfl

end

end Sys2Proof.Machine
end

section
/-! PROOF. O37: what reduction stores take in, forward and free; multicast lands here and goes on. -/

namespace Sys2Proof.Machine

/-- Settles O37: a packet is followed from its edge or its member to its tree, a chunk to its slot, a slot to its partial, and an ACK to the
packets it covers and the slots they name. -/
theorem treesAdmitForwardAndReplicate : Obligations.TreesAdmitForwardAndReplicate := by
  unfold Obligations.TreesAdmitForwardAndReplicate
  refine ⟨fun s t p die tree tr e ext hdie hcheck => ?edge, fun s t p die tree tr e ext hdie => ?again,
    fun s die i tr ext hdie hrun => ?member, fun s die tree hdr k => ?chunk, fun s die tree p => admitAll_whole s die tree,
    fun s i x hrun hslot hnumber hdue => ⟨exec_admitLinger hrun hslot hnumber hdue, ?linger⟩, fun s t p e ext => ?ack⟩
  case edge =>
    intro h r n hnew
    refine ⟨fun hcomes => ⟨fun hroot k hrank => ⟨fun hwait => ?_, fun hready => ?_⟩, fun hroot key hkey => ?_⟩, fun hcomes =>
      ⟨exec_mcastReplicate_of_wait ext hdie hcheck hnew hcomes, exec_mcastReplicate_of_ready ext hdie hcheck hnew hcomes⟩⟩
    · exact (exec_storeAdmission_at_root ext hdie hcheck hnew hcomes hroot hrank).trans (congrArg _ (if_pos hwait))
    · exact (exec_storeAdmission_at_root ext hdie hcheck hnew hcomes hroot hrank).trans
        (congrArg _ (if_neg (Bool.eq_false_iff.mp hready)))
    · rcases hadmit : admitAll die tree p r with ⟨left, whole, u⟩
      exact exec_storeAdmission_on_the_way ext hdie hcheck hnew hcomes hroot hkey hadmit
  case again =>
    intro h d hdup
    have hdup : isDuplicate e (Hdr.psn p.hdr) = true := (isDuplicate_iff ..).mpr hdup
    exact ⟨fun hcomes => exec_storeAdmission_of_duplicate ext hdie hcomes hdup,
      fun hcomes => exec_mcastReplicate_of_duplicate ext hdie hcomes hdup⟩
  case member =>
    intro p r
    rw [exec_storeAdmission_of_member hdie hrun, exec_mcastReplicate_of_member hdie hrun]
    refine ⟨fun henters => ⟨fun hroot k hrank => ⟨fun hwait => ?_, fun hready => ?_⟩, fun hroot key hkey => ?_⟩, fun henters =>
      ⟨fun hwait => congrArg _ (enterMcast_of_wait ext henters hwait), fun hready => congrArg _ (enterMcast_of_ready ext henters hready)⟩⟩
    · exact congrArg _ (enterContribution_of_rootWaits ext henters hroot hrank hwait)
    · exact congrArg _ (enterContribution_at_root ext henters hroot hrank hready)
    · rcases hadmit : admitAll die i.tree p r with ⟨left, whole, u⟩
      exact congrArg _ (enterContribution_on_the_way ext henters hroot hkey hadmit)
  case chunk =>
    intro c exact new
    refine ⟨fun x v hfind hv => takeChunk_combined hfind hv, fun x hfind hv => ⟨_, takeChunk_escapes_combining hfind hv, bump_onlyChanges _ _ _ _⟩,
      fun hfind hfull => ⟨_, takeChunk_no_slot hfind hfull, bump_onlyChanges _ _ _ _⟩, fun v hfind hfree hv => ?_,
      fun hfind hfree hv => ⟨_, takeChunk_escapes_free hfind hfree hv, bump_onlyChanges _ _ _ _⟩⟩
    obtain ⟨t, htake, hslots, hframe⟩ := takeChunk_takes_slot hfind hfree hv
    exact ⟨t, _, htake, hslots, holds_slotFor _ _ _ _ _ _, rfl, rfl, rfl, rfl, hframe⟩
  case linger =>
    intro key hkey hopen
    exact ⟨forwardSlot_numbers hkey hopen hslot, forwardSlot_waits hkey hopen, rfl, forwardSlot_onlyChanges hkey hopen⟩
  case ack =>
    intro h hroute ht hreach
    refine ⟨fun hcheck => ?_, treeEdgeAck_frees ext hroute ht hreach⟩
    rw [exec_treeEdgeAck ext hroute ht hreach, if_neg (Bool.eq_false_iff.mp hcheck)]

end Sys2Proof.Machine
end
